-- ==== Sys2Proof/Word.lean ====
section
/-! DEFINITION. The word and byte types of the spec, and the table type that holds what is numbered sparsely. -/

namespace Sys2Proof

/-- A 32-bit word: registers, descriptor words, map entries and record words are 32 bits, little-endian (R4). -/
abbrev Word := BitVec 32

/-- A byte (R4). -/
abbrev Byte := BitVec 8

/-- What is numbered sparsely: pairs of a number and its value, numbers strictly rising. A number that is not listed
has the value its reader names. -/
abbrev Tab (α : Type) := List (Nat × α)

end Sys2Proof
end

