-- ==== Sys2Proof/Syntax.lean ====
section
/-! DEFINITION. The commands the block takes: one constructor for every row of spec/opcode_table.json, in its order,
with the operands the row's happening brings from outside the block. -/

namespace Sys2Proof

/-- A line lane, 0 to 127 (R1). -/
abbrev LaneId := Fin 128
/-- A lane group, 0 to 15 (R1). -/
abbrev GroupId := Fin 16
/-- A tributary port, 0 to 63 (R1). -/
abbrev PortId := Fin 64
/-- A ring, 0 to 4,095 (R306). -/
abbrev RingId := Fin 4096

/-- The section and line defects of R54 and R58. -/
inductive LineDefect where
  | los | lof | tim | ais | exc | deg | rdi | psbf
  deriving DecidableEq, Repr

/-- The PDH defects of R110. -/
inductive PdhDefect where
  | los | ais | lof | nmis | lomf | casLom | deg | rai
  deriving DecidableEq, Repr

/-- A PDH framer: that of a tributary port or of a terminated signal (R106). -/
inductive PdhUnit where
  | port (p : PortId)
  | term (n : Fin 65536)
  deriving DecidableEq, Repr

/-- A signal whose seconds are classified (R70, R97, R120). -/
inductive PmUnit where
  | lane (n : LaneId)
  | path (a : Word)
  | pdh (u : PdhUnit)
  deriving DecidableEq, Repr

/-- What the host's side answers while a descriptor moves data: the 64-bit table entries that walks read (by bus
address; none: the read ends in an error), the words its input buffer holds, and the pages (device-virtual address
divided by 4,096) at which a good translation ends in an error (R333). -/
structure HostIO where
  walk : List (Nat × Option (BitVec 64)) := []
  data : List Word := []
  bad : List Nat := []
  deriving DecidableEq, Repr

/-- What the host has configured in the PCIe configuration space (R301): the max payload size and max read request size as PCIe encodes them (128 bytes
shifted left), the 10-bit tag, relaxed-ordering and ECRC enables, MSI-X Enable, and the power state; the default is PCIe's own (log entry 147). -/
structure PcieCfg where
  mps : Fin 3 := 0
  mrrs : Fin 6 := 2
  tag10 : Bool := false
  relaxed : Bool := true
  ecrcGen : Bool := false
  ecrcChk : Bool := false
  msix : Bool := false
  d3 : Bool := false
  deriving DecidableEq, Repr

/-- One received HDLC frame (R66): its bytes between the flags, the FCS included, whether it ended in an abort, and
whether the line failed inside it. -/
structure HdlcRx where
  bytes : List Byte := []
  abort : Bool := false
  failed : Bool := false
  deriving DecidableEq, Repr

/-- A selector (by its key: tier times 131,072 plus its number) or an MSP group (R184, R191). -/
inductive ProtTarget where
  | sel (key : Nat)
  | grp (g : Fin 64)
  deriving DecidableEq, Repr

/-- Which copies of a journal record a read-back found damaged: the record's number (0 the newest), its JOURNAL copy and its two
mirror replicas (R176, R391). -/
structure JrnDamage where
  num : Nat := 0
  main : Bool := false
  mirrorA : Bool := false
  mirrorB : Bool := false
  deriving DecidableEq, Repr

/-- What a half finds when it boots: for each image slot the 400 bytes of its manifest, the fused key that verifies it
(none: no key hash matches, the key is revoked or the signature fails) and whether the resident segment's hash
matches (R425 to R427). -/
structure SlotCheck where
  manifest : List Byte := []
  key : Option (Fin 4) := none
  resident : Bool := false
  deriving DecidableEq, Repr

/-- The two image slots as a booting half finds them (R427). -/
structure BootCheck where
  slot0 : SlotCheck := {}
  slot1 : SlotCheck := {}
  deriving DecidableEq, Repr

/-- An access of a master to the control matrix (R372): the address of its first byte, the bytes of a single transfer (1 to
8) and the number of beats (1 to 16), a write's data, whether it is the unlocking write of a locked sequence, and
how many of its beats the target has accepted so far (the rest are accepted when the master's next access comes; 0 leaves the
second cycle of a scratchpad access across an 8-byte boundary to come, R379). -/
structure Access where
  master : Fin 7 := 0
  addr : BitVec 64 := 0
  size : Nat := 8
  beats : Nat := 1
  write : Bool := false
  data : List Byte := []
  unlock : Bool := false
  accepted : Nat := 1
  deriving DecidableEq, Repr

/-- A write of a mailbox port: byte offset and the bytes written, one entry for each byte lane (none: lane not
enabled) (R380). -/
structure MboxWrite where
  offset : Nat := 0
  lanes : List (Option Byte) := []
  deriving DecidableEq, Repr

/-- Who reads an HBM beat (R390). -/
inductive HbmUser where
  | merge (key : Nat)
  | guard (g : Fin 4096) (byte : Nat)
  | jitter (pw : Fin 16384) (seq : BitVec 16)
  | journal (badA badB : Bool)
  | mirror (badOther badMain : Bool)
  | pmhist
  | supervisor
  | other
  deriving DecidableEq, Repr

/-- What the delay monitors ask of VDD_CORE (R416). -/
inductive AvsAsk where
  | less | keep | more
  deriving DecidableEq, Repr

/-- What the shell of a line interface does (R105): the equalizer acquires at a code, the trim or the equalizer moves one
code up or down, or the cable-loss estimate is refreshed. -/
inductive LiuAdjust where
  | acquired (eq : BitVec 5)
  | trim (up : Bool)
  | equalizer (up : Bool)
  | loss (est : BitVec 6)
  deriving DecidableEq, Repr
/-- One received PDH frame (R107 to R113): its timeslots or data channels, its number in the multiframe as the framer
counts it, a T1 F bit, whether a C37.94 header is correct, whether a CRC-4 sub-multiframe or extended superframe ends with
it and is errored, whether a 16-bit group of the ESF data link ends with it and is 0xFF00, whether a TS16 multiframe check
falls in it and finds its pattern, received N and yellow bit, and the line code violations and long zero runs in it. -/
structure PdhRx where
  bytes : List Byte := []
  frame : Nat := 0
  fbit : Bool := false
  header : Bool := false
  crc : Option Bool := none
  dl : Option Bool := none
  cas : Option Bool := none
  n : BitVec 4 := 0
  yellow : Bool := false
  cv : Nat := 0
  exz : Nat := 0
  deriving DecidableEq, Repr
/-- A read of one slot-memory word (R139): the pair and location, and the parity sections that fail in the primary bank and
in the replay bank. -/
structure WordRead where
  pair : Fin 32 := 0
  loc : Fin 12288 := 0
  prim : Word := 0
  repl : Word := 0
  deriving DecidableEq, Repr
/-- One received Ethernet frame (R241 to R245): its bytes from the destination address to the FCS, and the RS-FEC codewords corrected and found
uncorrectable since the last frame. -/
structure EthRx where
  bytes : List Byte := []
  corr : Nat := 0
  uncorr : Nat := 0
  deriving DecidableEq, Repr


/-- The commands of the block (spec/opcode_table.json). A descriptor row names the descriptor in flight by its serial
number `d`. -/
inductive Instr where
  /-- REGISTER_WRITE (R5). A host BAR0 write to a register that has no row of its own sets its fields according to
  their access types, the RWL lock and the reserved-bit rules. -/
  | registerWrite (off : Nat) (size : Nat) (v : BitVec 64)
  /-- GLB_MODE_WRITE (R21). A write to GLB_MODE requests a mode transition, is accepted or ignored under R22, and on
  acceptance sets MODE_PENDING and stops fetching. -/
  | glbModeWrite (v : Word)
  /-- MODE_SWITCH (R23). Once every fetched descriptor has completed, the device switches mode, clears MODE_PENDING,
  applies or lifts the RWL lock and resumes fetching. -/
  | modeSwitch
  /-- WARM_RESET_START (R458). At the qualifying instant of a WARM_RESET_N fall the device sets REPLAY, reads
  RECOVERY, discards a pending mode request, stops fetching and freezes descriptors in flight. -/
  | warmResetStart
  /-- WARM_RESET_RISE (R26). The rise of WARM_RESET_N releases both halves to boot and starts the warm-reset timeline.
  -/
  | warmResetRise
  /-- JOURNAL_REPLAY (R176). After a warm reset the journal is read and checked against its mirror; gathers without a
  commit record are discarded and committed gathers stay scheduled. -/
  | journalReplay (damage : List JrnDamage)
  /-- REPLAY_END (R26). Completion records are written for the descriptors that were in flight, the TLB is
  invalidated, REPLAY clears, held events are delivered and fetching resumes under RECOVERY rules. -/
  | replayEnd
  /-- COLD_RESET (R422). At the qualifying instant of a RESET_N fall the device opens every switch, turns its rails
  off in reverse order and holds in reset. -/
  | coldReset
  /-- COLD_RESET_RELEASE (R406). The rise of RESET_N, with VDD_AON in range, starts AON and the cold-boot sequence. -/
  | coldResetRelease
  /-- BOARD_BLOCK_LOADED (R407). The power manager finishes reading the board block from SPI flash and checks it. -/
  | boardBlockLoaded (bytes : List Byte)
  /-- BOARD_BLOCK_RETRY (R407). While the board block is invalid, a 1 s timer re-reads it and FAULT_N stays low. -/
  | boardBlockRetry (bytes : List Byte)
  /-- RAIL_GOOD (R408). A polled rail reaches its target within ±3 % with no fault, and the next rail is raised. -/
  | railGood (n : Fin 6) (vout : BitVec 13) (status : BitVec 16)
  /-- RAIL_RAMP_TIMEOUT (R408). A rail that is not good within its ramp timeout fails; the raised rails are turned off
  and a retry is scheduled. -/
  | railRampTimeout (n : Fin 6) (vout : BitVec 13) (status : BitVec 16)
  /-- RAIL_RETRY (R408). The 1 s retry timer restarts rail sequencing; after three failures the device stays DORMANT
  with FAULT_N low. -/
  | railRetry
  /-- FRAME_BOUNDARY (R123). At each DPLL-S fabric frame boundary the fabric starts a new frame and applies every
  change pending for that boundary. -/
  | frameBoundary
  /-- SUPERFRAME_BOUNDARY (R12). Every 16th fabric frame boundary advances SFC. -/
  | superframeBoundary
  /-- TU_MULTIFRAME_BOUNDARY (R171). At frames 0, 4, 8 and 12 of each superframe a TU multiframe boundary applies
  low-order changes and selections. -/
  | tuMultiframeBoundary
  /-- DOMAIN_WAKE_DONE (R414). A powered-down domain or stack finishes waking, and the work waiting for it proceeds.
  -/
  | domainWakeDone (dom : Fin 22)
  /-- DOMAIN_GATE_TIMEOUT (R409). After 1 s with no enabled lane in a group, or no enabled port, the LG or TRIB domain
  powers down. -/
  | domainGateTimeout (dom : Fin 17)
  /-- PWR_REQ_STANDBY (R411). A write of PWR_CTL.REQ = 1 requests STANDBY, sets PENDING and stops fetching. -/
  | pwrReqStandby (v : Word)
  /-- PWR_REQ_DORMANT (R411). A write of PWR_CTL.REQ = 2 requests DORMANT, sets PENDING and stops fetching. -/
  | pwrReqDormant (v : Word)
  /-- PWR_REQ_WITHDRAW (R411). A write of PWR_CTL.REQ = 0 while PENDING is 1 withdraws the request and resumes
  fetching. -/
  | pwrReqWithdraw (v : Word)
  /-- POWER_STATE_CHANGE (R411). Once no descriptor is in flight and the kennel is empty, the device enters STANDBY or
  DORMANT and keeps or loses state as R412 gives. -/
  | powerStateChange
  /-- WAKE_PIN (R413). A qualifying WAKE_N fall while WAKE_PIN_EN is 1 starts the exit from DORMANT. -/
  | wakePin
  /-- WAKE_TIMER_EXPIRY (R413). Expiry of PWR_WAKE_TIMER while WAKE_TIMER_EN is 1 starts the exit from DORMANT. -/
  | wakeTimerExpiry
  /-- LANE_CTL_WRITE (R34). A LANE_CTL write enables, disables or reconfigures a lane or quad, subject to the live
  guard, the PLL-setting, quad and calibration-hold rules. -/
  | laneCtlWrite (lane : LaneId) (v : Word)
  /-- LANE_CTL_HELD_RELEASE (R43). When a calibration ends, a held LANE_CTL write is checked and applied, or ignored.
  -/
  | laneCtlHeldRelease (lane : LaneId)
  /-- LANE_PLL_LOCKED (R36). The lane's family PLL locks and the lane enters CAL. -/
  | lanePllLocked (lane : LaneId)
  /-- LANE_CAL_END (R37). A full calibration ends, setting TEMP_TRIM and entering ACQ, or entering CAL_FAIL. -/
  | laneCalEnd (lane : LaneId) (fail : Option (Fin 5)) (eq : Word) (us : Word) (sig : Bool)
  /-- LANE_CDR_LOCK (R36). The CDR locks on a valid signal and the lane enters UP. -/
  | laneCdrLock (lane : LaneId)
  /-- LANE_CDR_UNLOCK (R36). The CDR loses lock and the lane leaves UP for ACQ. -/
  | laneCdrUnlock (lane : LaneId) (sig : Bool)
  /-- ADAPT_CONVERGED (R36). Background adaptation converges and ADAPT_DONE is set. -/
  | adaptConverged (lane : LaneId) (eq : Word)
  /-- ADAPT_LIMIT (R38). An equalizer value that stays at the end of its range for 1 s raises ADAPT_LIMIT once. -/
  | adaptLimit (lane : LaneId) (value : Fin 6) (eq : Word)
  /-- LANE_TEMP_CHECK (R39). Every 100 ms the group sensor is compared with TEMP_TRIM, and a difference of 8 °C or
  more queues a re-trim. -/
  | laneTempCheck (lane : LaneId)
  /-- RETRIM_END (R39). A re-trim finishes, and the next waiting lane of the group starts its re-trim. -/
  | retrimEnd (lane : LaneId) (us : Word)
  /-- LANE_FOFS_MEASURE (R40). Every 100 ms the lane's recovered clock is measured into LANE_FOFS and checked against
  the alarm threshold. -/
  | laneFofsMeasure (lane : LaneId) (ofs : BitVec 16) (sig : Bool)
  /-- FOFS_OFF (R40). The offset alarm clears after the offset has stayed below 18 ppm or 95 ppm for 1 s. -/
  | fofsOff (lane : LaneId)
  /-- GROUP_PLL_UNLOCK (R41). A group LC PLL loses lock and holds its last control value. -/
  | groupPllUnlock (group : GroupId) (eth : Bool)
  /-- PLL_RELOCK_TIMEOUT (R41). A PLL that has not relocked within 10 ms sends its lanes to PLL_WAIT with their
  transmitters idle. -/
  | pllRelockTimeout (group : GroupId) (eth : Bool)
  /-- GROUP_PLL_RELOCK (R41). The PLL relocks and its lanes return through ACQ to UP without calibration. -/
  | groupPllRelock (group : GroupId) (eth : Bool)
  /-- LANE_CAL_FULL (R42). LANE_CAL with KIND FULL runs a full calibration, or is refused on a live lane. -/
  | laneCalFull (d : Nat)
  /-- LANE_CAL_ADAPT (R42). LANE_CAL with KIND ADAPT restarts adaptation with a raised step limit for 100 ms. -/
  | laneCalAdapt (d : Nat)
  /-- ADAPT_BOOST_END (R42). The 100 ms of raised adaptation step limit end, and LANE_CAL ADAPT completes. -/
  | adaptBoostEnd (lane : LaneId) (us : Word)
  /-- LANE_CAL_RETRIM (R42). LANE_CAL with KIND RETRIM runs a re-trim at once. -/
  | laneCalRetrim (d : Nat)
  /-- PRBS_ERR_INJ (R48). LANE_PRBS.ERR_INJ inverts one generated bit at the next 64-bit boundary. -/
  | prbsErrInj (lane : LaneId) (v : Word)
  /-- PRBS_LOCK_CHANGE (R46). The PRBS checker locks after 128 matching bits, or loses lock on 1,024 errors in 8,192
  bits. -/
  | prbsLockChange (lane : LaneId) (balls : List Byte)
  /-- EYE_SCAN_START (R47). LANE_EYE_CTL.START begins one eye-scan point. -/
  | eyeScanStart (lane : LaneId) (v : Word)
  /-- EYE_SCAN_DONE (R47). The eye-scan dwell ends and DONE is set with the error count. -/
  | eyeScanDone (lane : LaneId) (errs : Nat)
  /-- EYE_SUM_REFRESH (R47). Each second LANE_EYE_SUM is refreshed from the background margin monitor. -/
  | eyeSumRefresh (lane : LaneId) (height : BitVec 8) (width : BitVec 7)
  /-- LANE_FRM_CTL_WRITE (R71). A LANE_FRM_CTL write sets framer controls, subject to the live guard. -/
  | laneFrmCtlWrite (lane : LaneId) (v : Word)
  /-- B1_INJ (R71). B1_INJ inverts B1 bit 0 in the next transmitted frame. -/
  | b1Inj (lane : LaneId) (v : Word)
  /-- B2_INJ (R71). B2_INJ inverts bit 0 of the first B2 byte in the next transmitted frame. -/
  | b2Inj (lane : LaneId) (v : Word)
  /-- FRAME_PATTERN_MATCH (R51). While OOF, a sighting of the A1/A2 pattern opens a candidate or scores a hit for one.
  -/
  | framePatternMatch (lane : LaneId) (t : Nat)
  /-- LANE_FRAME_RX (R53). A received SDH/SONET frame is checked at its expected alignment, B1 and B2 are counted and
  overhead bytes are captured. -/
  | laneFrameRx (lane : LaneId) (t : Nat) (bytes : List Byte)
  /-- LINE_DEFECT_CHANGE (R54). A section or line defect is declared or cleared when its persistence count or time is
  met, with masking and consequent actions. -/
  | lineDefectChange (lane : LaneId) (defect : LineDefect) (present : Bool)
  /-- BER_STEP_END (R58). At each step end of the EXC/DEG window, the B2 BER estimate is evaluated against the
  thresholds. -/
  | berStepEnd (lane : LaneId) (deg : Bool)
  /-- J0_MESSAGE_RX (R59). A received J0 trace message is checked; three identical messages are accepted and compared
  with the expected trace. -/
  | j0MessageRx (lane : LaneId)
  /-- DCC_CTL_WRITE (R63). An OHP_DCC_CTL write configures a DCC channel from the next frame boundary, or is ignored
  under its checks. -/
  | dccCtlWrite (c : Fin 256) (v : Word)
  /-- OSP_CTL_WRITE (R72). An OHP_OSP_CTL write enables an overhead serial port or sets its rate, subject to its
  checks. -/
  | ospCtlWrite (p : Fin 8) (v : Word)
  /-- OSP_OW_WRITE (R64). An OHP_OSP_OW write names the lane of an orderwire triple, subject to the duplicate check.
  -/
  | ospOwWrite (i : Fin 96) (v : Word)
  /-- OSP_FRAME (R65). Each 125 µs OSP frame carries out the latest received overhead bytes and takes in bytes for the
  next transmitted line frame. -/
  | ospFrame (p : Fin 8) (di : List Byte)
  /-- DCC_FRAME_RX (R66). A received HDLC frame of a host-mode DCC channel is checked and placed in the next fetched
  buffer, or discarded and counted. -/
  | dccFrameRx (c : Fin 256) (io : HostIO)
  /-- DCC_TX (R67). DCC_TX queues one HDLC frame for a host-mode channel, waiting for queue space if needed. -/
  | dccTx (d : Nat) (io : HostIO)
  /-- DCC_TX_SENT (R67). The closing flag of a queued DCC frame is sent and its DCC_TX completes OK. -/
  | dccTxSent (c : Fin 256)
  /-- DCC_RX_BUF (R68). DCC_RX_BUF posts one receive buffer for a DCC channel. -/
  | dccRxBuf (d : Nat)
  /-- PM_SECOND_CLASSIFY (R70). Ten seconds after a second ends it is classified as ES, SES or unavailable, and the
  counters are updated. -/
  | pmSecondClassify (unit : PmUnit)
  /-- PATH_CFG (R76). PATH_CFG validates and configures a high-order or low-order path, taking effect at the next
  frame or multiframe boundary. -/
  | pathCfg (d : Nat) (io : HostIO)
  /-- POINTER_RX (R78). A received AU or TU pointer is classified and drives the interpreter's NORM, LOP and AIS
  states. -/
  | pointerRx (path : Word) (member : Nat) (b0 b1 : Byte)
  /-- LOM_CHANGE (R82). LOM is declared after 8 frames of OOM, or cleared after 8 frames in multiframe, and the TUs
  inside enter AIS. -/
  | lomChange (path : Word) (h4 : Byte)
  /-- POH_RX (R84). Received path overhead of a period is monitored for BIP, label, trace, REI, RDI and RFI. -/
  | pohRx (path : Word) (data : List Byte)
  /-- PATH_SECOND_EVAL (R84). At each second, errored blocks are compared with EXCTHR and DEGTHR to declare or clear
  path EXC and DEG. -/
  | pathSecondEval (path : Word)
  /-- MARKER_GROUP_RX (R90). A punty marker group is checked for sync and CRC-8, updates channel lock, and delivers
  its marker to the marver and the guard. -/
  | markerGroupRx (path : Word) (unit : Byte)
  /-- DEMAP_MULTIFRAME (R92). A received VC-12 or VC-11 multiframe is demapped by majority C-bit decisions into the
  desynchronizer. -/
  | demapMultiframe (path : Word) (bytes : List Byte) (read : Nat)
  /-- LEAK_RELEASE (R95). The leak timer releases one queued leak bit into the desynchronizer. -/
  | leakRelease (path : Word)
  /-- PATH_STATUS (R99). PATH_STATUS writes the status records of a lane's monitored paths to host memory. -/
  | pathStatus (d : Nat) (io : HostIO)
  /-- TRIB_CTL_WRITE (R103). A TRIB_CTL write starts, stops or reconfigures a tributary port, subject to the live
  guard and its checks. -/
  | tribCtlWrite (p : PortId) (v : Word)
  /-- TRIB_FRM_WRITE (R106). A TRIB_FRM write sets the port's framing word from the next frame boundary and may
  restart frame search. -/
  | tribFrmWrite (p : PortId) (v : Word)
  /-- TRIB_TRIM_DONE (R105). Termination trim ends and the port enters ACQ. -/
  | tribTrimDone (p : PortId) (trim : BitVec 5)
  /-- TRIB_LIU_ADJUST (R105). Periodic in-service trim, equalizer and cable-loss adjustments of a line interface. -/
  | tribLiuAdjust (p : PortId) (what : LiuAdjust)
  /-- LOSS_HIGH (R105). A cable-loss estimate above 6.0 dB, or below 5.5 dB, for 1 s raises LOSS_HIGH. -/
  | lossHigh (p : PortId) (high : Bool)
  /-- TRIB_TX_FAULT_CHANGE (R105). The transmit driver detects an open or shorted pair, or its clearing. -/
  | tribTxFaultChange (p : PortId) (fault : Bool)
  /-- PDH_FRAME_PATTERN (R107). While OOF, a PDH framer sights a FAS, Ft/FPS or C37.94 header and opens, confirms or
  drops candidates. -/
  | pdhFramePattern (u : PdhUnit) (pos t : Nat) (qual : Option Bool)
  /-- MFA_TIMEOUT (R107). If no candidate reaches CRC-4 MFA within 8 ms, the taken candidate is dropped and OOF is
  entered. -/
  | mfaTimeout (u : PdhUnit)
  /-- INTERWORK_TIMEOUT (R107). After 400 ms without MFA under FORMAT 2, the framer keeps basic alignment and enters
  CRC-4 interworking. -/
  | interworkTimeout (u : PdhUnit)
  /-- PDH_FRAME_RX (R110). A received PDH frame is checked and written into the slip buffer, with a negative slip if
  two unread frames are present. -/
  | pdhFrameRx (u : PdhUnit) (f : PdhRx)
  /-- PDH_DEFECT_CHANGE (R110). A PDH defect is declared or cleared when its persistence condition is met, with
  masking and consequent actions. -/
  | pdhDefectChange (u : PdhUnit) (defect : PdhDefect) (present : Bool)
  /-- PARITY_INJECT_ARM (R142). A FAB_PAR_INJ write arms a parity inversion for the next write of allocated content to
  a bank. -/
  | parityInjectArm (v : Word)
  /-- FABRIC_WORD_READ (R139). The output stage reads a slot-memory word, checks parity and rebuilds failing sections
  from the replay bank. -/
  | fabricWordRead (r : WordRead)
  /-- PAIR_GATE_OFF (R126). A pair that has held no content for 1 s is gated off. -/
  | pairGateOff (pair : Fin 32)
  /-- PMON_CTL_WRITE (R142). A write to FAB_PMON_CTL_m or FAB_PMON_SLOT_m configures a pattern monitor, subject to its
  validity checks. -/
  | pmonCtlWrite (m : Fin 8) (slotReg : Bool) (v : Word)
  /-- PMON_LOCK_CHANGE (R134). A pattern monitor gains or loses lock as the PRBS checker does. -/
  | pmonLockChange (m : Fin 8)
  /-- LATENCY_MEASURE (R136). The device measures an output's latency after its first source, after each source change
  and at each 1PPS. -/
  | latencyMeasure (out : Word) (ns : Nat)
  /-- MAP_EDIT_DIRECT (R156). A MAP_EDIT without IN_GATHER validates its records and applies them together at the next
  frame boundary. -/
  | mapEditDirect (d : Nat) (io : HostIO)
  /-- MAP_EDIT_STAGE (R162). A MAP_EDIT with IN_GATHER stages its edit records into an open gather. -/
  | mapEditStage (d : Nat) (io : HostIO)
  /-- TERM_CFG (R152). A direct TERM_CFG gives an E1 or T1 a terminated number and DS0 position. -/
  | termCfg (d : Nat)
  /-- TERM_CFG_STAGE (R154). A TERM_CFG with IN_GATHER is staged as one edit of a gather. -/
  | termCfgStage (d : Nat)
  /-- TERM_RELEASE (R154). A TERM_CFG with SRC 0 releases a terminated number and its DS0 position, unless refused. -/
  | termRelease (d : Nat)
  /-- CC_CFG (R153). A direct CC_CFG joins two endpoints in a clear-channel connection. -/
  | ccCfg (d : Nat)
  /-- CC_CFG_STAGE (R154). A CC_CFG with IN_GATHER is staged as one edit of a gather. -/
  | ccCfgStage (d : Nat)
  /-- CC_RELEASE (R154). A CC_CFG with RELEASE ends a clear-channel connection, unless refused. -/
  | ccRelease (d : Nat)
  /-- MAP_READ (R157). MAP_READ writes one record per output of a tier to host memory. -/
  | mapRead (d : Nat) (io : HostIO)
  /-- GATHER_OPEN (R162). GATHER_OPEN takes a free gather slot for a GATHER_ID. -/
  | gatherOpen (d : Nat)
  /-- GATHER_COMMIT (R169). GATHER_COMMIT queues a gather for validation, naming its commit superframe. -/
  | gatherCommit (d : Nat)
  /-- GATHER_ABORT (R177). GATHER_ABORT discards an OPEN or VALIDATING gather, or completes TOO_LATE on a SCHEDULED
  one. -/
  | gatherAbort (d : Nat)
  /-- GATHER_VALIDATION_START (R167). Once the validations ahead of it have ended, a gather's validation begins and
  its slot becomes VALIDATING. -/
  | gatherValidationStart (slot : Fin 16)
  /-- GATHER_VALIDATION_END (R166). Validation against the validation basis ends in rejection, or in allocation and
  the writing of the commit record. -/
  | gatherValidationEnd (slot : Fin 16)
  /-- COMMIT_RECORD_HELD (R174). The mirror copy of the commit record completes, the gather becomes SCHEDULED and
  GATHER_COMMIT completes OK. -/
  | commitRecordHeld (slot : Fin 16) (uncorr : Bool)
  /-- BRIDGE_READY (R172). A bridged new source is stored and aligned, ready for the roll. -/
  | bridgeReady (slot : Fin 16)
  /-- GATHER_APPLY (R173). At frame 0 of the commit superframe the fabric applies every edit of the gather, rolling
  bridged outputs. -/
  | gatherApply (slot : Fin 16)
  /-- HOLDOFF_EXPIRY (R183). A hold-off timer expires with its condition still present, and the condition becomes a
  request. -/
  | holdoffExpiry (t : ProtTarget) (copy : Nat)
  /-- PROTECTION_DECISION (R188). The engine decides the request in force and the new selection within 125 µs of a
  request change. -/
  | protectionDecision (t : ProtTarget)
  /-- WTR_EXPIRY (R187). The wait-to-restore timer expires and the request becomes NR. -/
  | wtrExpiry (t : ProtTarget)
  /-- SEL_CFG (R184). SEL_CFG creates a selector or changes its parameters from the next frame boundary. -/
  | selCfg (d : Nat)
  /-- SEL_REMOVE (R185). SEL_CFG with REMOVE removes a selector, unless it is in use. -/
  | selRemove (d : Nat)
  /-- SEL_CMD_CLEAR (R189). SEL_CMD CLEAR removes the stored command of a selector or group. -/
  | selCmdClear (d : Nat)
  /-- SEL_CMD_LOCKOUT (R189). SEL_CMD LOCKOUT applies a lockout of protection. -/
  | selCmdLockout (d : Nat)
  /-- SEL_CMD_FS (R189). SEL_CMD FS applies a forced switch to protection, or to a group channel. -/
  | selCmdFs (d : Nat)
  /-- SEL_CMD_FS_W (R189). SEL_CMD FS_W applies a forced switch to working. -/
  | selCmdFsW (d : Nat)
  /-- SEL_CMD_MS (R189). SEL_CMD MS applies a manual switch to protection, or to a group channel. -/
  | selCmdMs (d : Nat)
  /-- SEL_CMD_MS_W (R189). SEL_CMD MS_W applies a manual switch to working. -/
  | selCmdMsW (d : Nat)
  /-- SEL_CMD_EXER (R189). SEL_CMD EXER starts an exercise on a selector or group channel. -/
  | selCmdExer (d : Nat)
  /-- SEL_EXER_END (R190). After 1 s a selector exercise ends with its result. -/
  | selExerEnd (key : Nat)
  /-- APS_EXER_END (R190). A group exercise ends when the far end answers within 50 ms or the wait runs out. -/
  | apsExerEnd (g : Fin 64)
  /-- APS_CFG (R191). APS_CFG creates an MSP group or changes its parameters from the next frame boundary. -/
  | apsCfg (d : Nat)
  /-- APS_REMOVE (R192). APS_CFG with REMOVE removes a group and returns every channel to its own lane. -/
  | apsRemove (d : Nat)
  /-- APS_K_ACCEPT (R195). A K1/K2 pair received identically in 3 frames is accepted and checked for validity as the
  remote request. -/
  | apsKAccept (g : Fin 64)
  /-- FOP_ARCH (R196). A K2 architecture mismatch lasting 50 ms is declared, or it clears after 50 ms of agreement. -/
  | fopArch (g : Fin 64)
  /-- FOP_MODE (R196). A K2 mode mismatch lasting 50 ms is declared, or it clears after 50 ms of agreement. -/
  | fopMode (g : Fin 64)
  /-- FOP_NORESP (R196). A request unanswered 50 ms after the transmitted K1 last changed is declared. -/
  | fopNoresp (g : Fin 64)
  /-- FOP_FLAP (R196). A fifth remote-driven selection change in 1 s is declared, holding the selection. -/
  | fopFlap (g : Fin 64)
  /-- SEL_STATUS (R199). SEL_STATUS writes one state record per selector to host memory. -/
  | selStatus (d : Nat) (io : HostIO)
  /-- MERGE_CFG (R203). MERGE_CFG puts a selector into merge mode, allocating its delay line, or changes STEP_MODE. -/
  | mergeCfg (d : Nat)
  /-- MERGE_OFF (R206). MERGE_CFG with OFF ends merge mode, steps the output to the selected copy and frees the delay
  line. -/
  | mergeOff (d : Nat)
  /-- MERGE_ALIGN_REACHED (R211). At the first block boundary at which the delay line covers the offset, the merge
  enters ALIGNED and sets its output timing. -/
  | mergeAlignReached (key : Nat)
  /-- MERGE_WINDOW_END (R213). A correlation window ends and is compared at every offset, giving a candidate, a match,
  a flat window or ambiguity. -/
  | mergeWindowEnd (key : Nat)
  /-- MERGE_STATUS (R222). MERGE_STATUS writes one record per merge-mode selector to host memory. -/
  | mergeStatus (d : Nat) (io : HostIO)
  /-- GUARD_CFG (R225). GUARD_CFG creates a guarded connection with its delay line, or changes its parameters. -/
  | guardCfg (d : Nat)
  /-- GUARD_REMOVE (R226). GUARD_CFG with REMOVE removes compensation as a step and frees the delay line. -/
  | guardRemove (d : Nat)
  /-- LEIV_PROBE_RX (R237). A received Leiv probe message is checked and its stamp, STEP and COMP records update the
  guards' measurements and targets. -/
  | leivProbeRx (lane : LaneId)
  /-- GUARD_ASYM_CLEAR (R233). ASYM clears after the asymmetry has stayed below 0.9 × ASYM_THR for 100 ms. -/
  | guardAsymClear (g : Fin 4096)
  /-- PARTNER_LOST (R233). No valid message from the partner for 100 ms makes the guard STALE. -/
  | partnerLost (g : Fin 4096)
  /-- GUARD_COMP_STEP_DUE (R235). At the announced superframe, c_in steps to its target. -/
  | guardCompStepDue (g : Fin 4096)
  /-- GUARD_SLEW_UNIT (R235). In SLEW, c_in moves one unit toward its target as a pointer justification. -/
  | guardSlewUnit (g : Fin 4096)
  /-- GUARD_PULSE_HOLD_END (R236). HOLD ms after a step, the guard stops driving GUARD_PULSE. -/
  | guardPulseHoldEnd (g : Fin 4096)
  /-- GUARD_STATUS (R238). GUARD_STATUS writes one record per configured guard to host memory. -/
  | guardStatus (d : Nat) (io : HostIO)
  /-- ETH_LINK_CHANGE (R242). A change of PCS block lock, high BER, fault or quad alignment changes link up. -/
  | ethLinkChange (lane : LaneId) (block align hiBer localF remoteF : Bool) (deskew : Nat)
  /-- ETH_FRAME_RX (R245). A received Ethernet frame is checked and stamped, then claimed by a pseudowire, delivered
  as a host frame, or discarded. -/
  | ethFrameRx (lane : LaneId) (f : EthRx) (io : HostIO)
  /-- ETH_TX (R246). ETH_TX queues one host frame, optionally with one-step PTP correction, waiting for link up. -/
  | ethTx (d : Nat) (io : HostIO)
  /-- ETH_TX_SENT (R246). A host frame has left the lane, and its ETH_TX completes with its egress stamp. -/
  | ethTxSent (lane : LaneId)
  /-- ETH_RX_BUF (R245). ETH_RX_BUF posts one host-frame receive buffer. -/
  | ethRxBuf (d : Nat)
  /-- ETH_CTL_WRITE (R262). A LANE_ETH_CTL write sets MTU, stamp form and host-frame delivery, subject to its checks.
  -/
  | ethCtlWrite (lane : LaneId) (v : Word)
  /-- PW_CFG (R249). PW_CFG creates a pseudowire with its jitter buffer, or changes its parameters. -/
  | pwCfg (d : Nat) (io : HostIO)
  /-- PW_REMOVE (R249). PW_CFG with REMOVE removes a pseudowire and frees its buffer, unless it is in use. -/
  | pwRemove (d : Nat)
  /-- PW_PACKET_TX (R251). At each packet period a pseudowire packet is built and sent, or dropped while the link is
  down. -/
  | pwPacketTx (n : Fin 16384)
  /-- PW_PLAYOUT (R254). At each slot period the jitter buffer plays slot E, or fill for a missing packet, and updates
  its state. -/
  | pwPlayout (n : Fin 16384)
  /-- PW_STATUS (R261). PW_STATUS writes one record per configured pseudowire to host memory. -/
  | pwStatus (d : Nat) (io : HostIO)
  /-- REF_MEASURE (R268). Every 1 s each active candidate's offset and drift are measured and its state is updated. -/
  | refMeasure (r : Fin 24) (ofs : Int)
  /-- REF_ACTIVITY_LOSS (R267). A candidate loses activity, is disqualified, and its drift samples are discarded. -/
  | refActivityLoss (r : Fin 24)
  /-- REF_ACTIVITY_REGAIN (R267). A candidate becomes active again after its required run of edges. -/
  | refActivityRegain (r : Fin 24)
  /-- REF_WTR_EXPIRY (R270). A candidate's wait-to-restore ends and it becomes QUALIFIED or SUSPECT. -/
  | refWtrExpiry (r : Fin 24)
  /-- DPLL_DECISION (R272). Every 100 ms, or within 1 ms of losing its reference, a DPLL decides its wanted reference
  and may change selection. -/
  | dpllDecision (d : Fin 4) (phase : Int)
  /-- DPLL_LOCK_REACHED (R274). The phase error stays within ±100 ns for 1 s after the lehr, and the DPLL enters
  LOCKED. -/
  | dpllLockReached (d : Fin 4)
  /-- LEHR_END (R276). The lehr reaches its new alignment and ends. -/
  | lehrEnd (d : Fin 4) (moved : Int)
  /-- DPLL_HISTORY_SAMPLE (R277). Each second a DPLL stores one frequency sample in its history, marked clean or not.
  -/
  | dpllHistorySample (d : Fin 4) (freq : Int)
  /-- OSCIN_STOP (R279). OSCIN stops, the monitors freeze and the QL of every DPLL becomes DNU. -/
  | oscinStop
  /-- OSCIN_RETURN (R279). OSCIN returns and everything resumes at the next measurement. -/
  | oscinReturn
  /-- TIM_REF_CFG_WRITE (R266). A TIM_REF_CFG write configures a reference candidate and disqualifies it, subject to
  its checks. -/
  | timRefCfgWrite (r : Fin 24) (v : Word)
  /-- DPLL_CTL_WRITE (R275). A write to a DPLL's control or lehr registers sets its mode and parameters, with DPLL-S
  restrictions. -/
  | dpllCtlWrite (d : Fin 4) (reg : Fin 6) (v : Word)
  /-- FPOUT_CTL_WRITE (R282). A TIM_FPOUT_CTL write configures a frame-pulse output; EN takes the first heel at once.
  -/
  | fpoutCtlWrite (j : Fin 4) (v : Word) (at_ : Int)
  /-- FPOUT_REHEEL (R282). REHEEL takes the heel again. -/
  | fpoutReheel (j : Fin 4) (at_ : Int)
  /-- HEEL_SOURCE_PULSE (R282). A pulse of the heel source is compared in TRACK, and a persistent deviation starts a
  correction. -/
  | heelSourcePulse (j : Fin 4) (dev : Int)
  /-- HEEL_LOST (R282). Three missing source pulses set HEEL_LOST, and the output runs on its DPLL. -/
  | heelLost (j : Fin 4)
  /-- FPOUT_MOVE_END (R282). An output moving to a new heel point reaches it and MOVING clears. -/
  | fpoutMoveEnd (j : Fin 4)
  /-- CLOCK_PLL_UNLOCK (R415). A control, PCIe, fabric or HBM PLL loses or regains lock and raises PLL_UNLOCK. -/
  | clockPllUnlock (pll : Fin 4) (stack : Fin 4) (locked : Bool)
  /-- PPS_TICK (R288). SUBSEC rolls over through counting, giving the 1PPS of DPLL-T. -/
  | ppsTick
  /-- TIME_WRAP (R289). NS wraps, WRAPS increments and TIME_WRAP is raised. -/
  | timeWrap
  /-- TOD_NS_READ (R290). A read of TOD_NS latches TOD_FRAC, TOD_SUBSEC and TOD_WRAPS from the same tick. -/
  | todNsRead
  /-- TIME_SET_SET (R294). TIME_SET kind SET loads NS, SUBSEC and fraction at its applying tick. -/
  | timeSetSet (d : Nat)
  /-- TIME_SET_STEP (R294). TIME_SET kind STEP adds a signed step to the counter at its applying tick. -/
  | timeSetStep (d : Nat)
  /-- TIME_SET_RATE (R294). TIME_SET kind RATE loads INC at its applying tick. -/
  | timeSetRate (d : Nat)
  /-- TIME_SET_OFFSET (R294). TIME_SET kind OFFSET gives the servo one sample. -/
  | timeSetOffset (d : Nat)
  /-- TIME_SET_REACQUIRE (R294). TIME_SET kind REACQUIRE sets STEP_ARMED and returns the servo to ACQUIRING. -/
  | timeSetReacquire (d : Nat)
  /-- TIME_SET_APPLY (R295). At the first free tick after validation, a TIME_SET takes effect and completes. -/
  | timeSetApply
  /-- SERVO_SAMPLE (R292). A stamped 1PPS edge or accepted OFFSET gives the servo a sample, which it uses to acquire,
  step or track. -/
  | servoSample
  /-- SERVO_HOLDOVER_TIMEOUT (R292). No sample for 3 s or 4 s puts the servo in HOLDOVER. -/
  | servoHoldoverTimeout
  /-- TOD_LOCK_EXPIRY (R293). In HOST mode the lock ends HOST_TTL seconds after the last locking TIME_SET. -/
  | todLockExpiry
  /-- DOORBELL_PRODUCER (R310). A producer doorbell on a command ring posts descriptors for fetching. -/
  | doorbellProducer (ring : RingId) (bytes : Nat) (w0 : Word)
  /-- DOORBELL_CONSUMER (R311). A consumer doorbell on a completion or event ring frees entries, letting waiting
  records be written. -/
  | doorbellConsumer (ring : RingId) (bytes : Nat) (w0 : Word)
  /-- RESUME_DOORBELL (R338). A resume doorbell on ring 3 re-walks the faulting address of a FAULT kennel slot. -/
  | resumeDoorbell (w0 : Option (Nat × Word)) (bytes : Nat) (w1 : Word) (io : HostIO)
  /-- DESCRIPTOR_FETCH (R313). A fetched descriptor is checked in order and taken under the ordering rules, or
  completes INVALID. -/
  | descriptorFetch (ring : RingId) (words : List Word)
  /-- FETCH_ERROR (R328). A failed descriptor fetch disables the ring, sets FETCH_ERR and records the ring. -/
  | fetchError (ring : RingId)
  /-- RING_ENABLE (R308). A write of RING_CTL.EN = 1 enables a ring and resets its indices and phase, subject to its
  checks. -/
  | ringEnable (ring : RingId)
  /-- RING_DISABLE (R308). A write of RING_CTL.EN = 0 stops the ring and sets BUSY until its work drains. -/
  | ringDisable (ring : RingId)
  /-- RING_DISABLE_DONE (R308). The last descriptor of a disabling ring completes, BUSY clears and EN reads 0. -/
  | ringDisableDone (ring : RingId)
  /-- RING_CFG_WRITE (R307). A RING_CFG or RING_BASE write configures a disabled ring, subject to its checks. -/
  | ringCfgWrite (ring : RingId) (reg : Fin 3) (v : Word)
  /-- NOP (R315). NOP completes OK with both result words 0. -/
  | nop (d : Nat)
  /-- FENCE (R321). FENCE completes once every earlier descriptor of its ring has completed, holding back later ones.
  -/
  | fence (d : Nat)
  /-- ABORT (R324). ABORT finds its target by ring, index and tag, and stops it, marks it PARTIAL or reports TOO_LATE.
  -/
  | abort (d : Nat) (entry : List Word)
  /-- BUS_MASTER_ENABLE (R305). Setting Bus Master Enable lets the device write held records and resume fetching. -/
  | busMasterEnable (cfg : PcieCfg) (io : HostIO)
  /-- HOT_RESET (R305). PERST_N low or link-down resets the configuration space and MSI-X table and sets CFG_RESET. -/
  | hotReset
  /-- COALESCE_TIMEOUT (R354). TIME µs after the oldest unannounced record, the ring's vector is signalled. -/
  | coalesceTimeout (v : Fin 64)
  /-- KENNEL_TIMEOUT (R339). A context in FAULT for HIF_KNL_TIMEOUT completes FAULT_UNRESOLVED and frees its slot. -/
  | kennelTimeout (slot : Fin 256)
  /-- BULK_CHECKPOINT (R341). A bulk descriptor reaches a checkpoint, where a decided pre-emption parks it PREEMPTED.
  -/
  | bulkCheckpoint (engine : Fin 4) (io : HostIO)
  /-- ENGINE_TAKE (R343). A free bulk engine takes the highest-priority waiting descriptor or parked context. -/
  | engineTake (engine : Fin 4) (io : HostIO)
  /-- TLB_INVALIDATE (R335). A HIF_XLAT_INV write removes translations of its scope and sets INV_BUSY. -/
  | tlbInvalidate (v : Word)
  /-- TLB_INV_DONE (R335). The invalidation has drained and INV_BUSY clears. -/
  | tlbInvDone
  /-- XLAT_CONFIG_WRITE (R335). A write to HIF_XLAT_CTL or the root registers sets translation and invalidates the
  whole TLB. -/
  | xlatConfigWrite (reg : Fin 3) (v : Word)
  /-- HELD_RECORD_FLUSH (R353). When no holding condition remains, held event records are written in order of their
  oldest timestamps. -/
  | heldRecordFlush
  /-- EVT_ROUTE_WRITE (R350). An EVT_ROUTE write sets a source's ring, enable, mask and severity, discarding held
  records on EN = 0. -/
  | evtRouteWrite (n : Fin 2048) (v : Word)
  /-- EVT_COAL_WRITE (R354). An EVT_COAL write sets a vector's coalescing and announces records the new settings
  require. -/
  | evtCoalWrite (v : Fin 64) (w : Word)
  /-- EVT_TEST_FIRE (R363). EVT_TEST.FIRE raises cause 0xFF on the named source. -/
  | evtTestFire (v : Word)
  /-- PMHIST_WRITE (R361). A snapshot is written to its PMHIST slot within 100 ms, truncated if it does not fit. -/
  | pmhistWrite
  /-- COUNTER_CARRY (R357). A chained raw counter wraps, adding one to HIGH and flipping EPOCH. -/
  | counterCarry (off : Nat) (n : Nat)
  /-- CHAIN_HI_READ (R358). A read of PM_CHAIN_HI_k latches EPOCH into EPOCH_LAT. -/
  | chainHiRead (k : Fin 256)
  /-- CHAIN_HI_WRITE (R357). A write of PM_CHAIN_HI_k sets HIGH at the next tick without changing EPOCH. -/
  | chainHiWrite (k : Fin 256) (v : Word)
  /-- CHAIN_CFG_WRITE (R357). A PM_CHAIN_CFG write enables a chain slot or renames its counter, restarting HIGH and
  EPOCH at 0. -/
  | chainCfgWrite (k : Fin 256) (v : Word)
  /-- SNAP_SEQ_READ (R364). A read of PM_SNAP_SEQ latches PM_SNAP_VAL, PM_SNAP_HI and PM_SNAP_STAT from the latest
  snapshot. -/
  | snapSeqRead
  /-- PM_DUMP (R362). PM_DUMP writes a stored or live snapshot's sections to host memory. -/
  | pmDump (d : Nat) (io : HostIO)
  /-- HEARTBEAT (R366). The holder's firmware beats the heartbeat, resetting HB_AGE. -/
  | heartbeat (half : Bool)
  /-- LEASH_LAPSE (R366). Ten ms without a beat lapses the holder, and no descriptor reaches a commit point until a
  grant. -/
  | leashLapse
  /-- LEASH_CLAIM (R367). A half claims the leash with a proposed epoch, opening a claim window or being refused. -/
  | leashClaim (half : Bool) (epoch : Word)
  /-- CLAIM_WINDOW_END (R368). At the end of the 1 µs window the winning claim is granted, its epoch takes force and
  the other half may be reset. -/
  | claimWindowEnd
  /-- CONTROL_LOST (R370). Twenty ms after a lapse with no grant, HIF_FAULT.CONTROL is set and CONTROL_LOST is raised.
  -/
  | controlLost
  /-- PLANNED_HANDOVER (R371). MTX_CTL.HANDOVER requests a planned handover, subject to its checks. -/
  | plannedHandover (v : Word)
  /-- LEASH_RELEASE (R371). The holder reaches its next commit points and releases the leash, and the standby claims.
  -/
  | leashRelease
  /-- HANDOVER_RECOVERY_DONE (R369). The new holder writes the completion records of descriptors in flight at the
  grant. -/
  | handoverRecoveryDone
  /-- HALF_BOOT_DONE (R365). A half finishes boot, verifies its firmware, sets its remap bit and enters STANDBY, or
  enters FAILED. -/
  | halfBootDone (half : Bool) (chk : BootCheck)
  /-- BOOT_FAIL_TIMEOUT (R427). With no slot passing, HIF_FAULT.CONTROL is set 1 s after CTL was powered. -/
  | bootFailTimeout
  /-- MATRIX_ACCESS (R372). A master's access through the control matrix is arbitrated, decoded and performed, or
  answered with an error. -/
  | matrixAccess (a : Access)
  /-- LOCKED_READ (R376). A locked read by a supervisor or debug master locks its target port until the unlocking
  write. -/
  | lockedRead (master : Fin 7) (addr : BitVec 64) (size : Nat)
  /-- LOCK_TIMEOUT (R377). After 256 matrix cycles a lock is released and counted. -/
  | lockTimeout (target : Fin 8)
  /-- MAILBOX_HOST_WRITE (R380). A BAR4 write updates mailbox words and interrupts the supervisor on the host signal
  word. -/
  | mailboxHostWrite (w : MboxWrite) (sup : Option MboxWrite)
  /-- MAILBOX_SUPERVISOR_WRITE (R381). A supervisor-port write updates mailbox words. -/
  | mailboxSupervisorWrite (w : MboxWrite)
  /-- HBM_REGION_WRITE (R387). An HBM_REGION write resizes a region in BRINGUP, setting RESIZING. -/
  | hbmRegionWrite (r : Fin 5) (v : Word)
  /-- RESIZE_DONE (R387). The regions are placed again and RESIZING clears. -/
  | resizeDone
  /-- HBM_READ_CHECK (R389). An HBM beat is read and its check code finds it clean, corrected or uncorrectable. -/
  | hbmReadCheck (addr : BitVec 38) (bad : Nat) (user : HbmUser)
  /-- ROW_RETIRE (R393). A row that qualifies as cullet is copied to a spare and accesses are redirected. -/
  | rowRetire
  /-- BEAGLE_LEASE_START (R395). Beagle leases the next unit of a kind, saving its content as the kind requires. -/
  | beagleLeaseStart (kind : Fin 3)
  /-- BEAGLE_UNIT_END (R398). The nine-element march of a unit ends, the content is restored and the lease released,
  with failures handled. -/
  | beagleUnitEnd (kind : Fin 3) (badRows : List Nat)
  /-- BGL_REQ_GO (R396). BGL_REQ.GO queues a named unit ahead of the sweep. -/
  | bglReqGo (v : Word)
  /-- LEASE_REVOKE (R397). A claim on a leased unit stops the march and revokes the lease. -/
  | leaseRevoke (kind : Fin 3) (bad : List Nat)
  /-- LEASE_RESTORE_DONE (R397). The revoked block is restored, the lease released and the claimant's access proceeds.
  -/
  | leaseRestoreDone (kind : Fin 3)
  /-- SELFTEST (R399). SELFTEST starts the requested test parts in ascending order, or only the non-destructive ones
  outside BRINGUP and TEST. -/
  | selftest (d : Nat)
  /-- SELFTEST_DONE (R400). The last part ends and SELFTEST completes OK or DEFERRED with parts run and failed. -/
  | selftestDone (failed : Byte) (rows banks : List Nat)
  /-- CAPTURE_RECORD (R401). CAPTURE RECORD starts recording a slot's content each frame into CAPTURE. -/
  | captureRecord (d : Nat)
  /-- CAPTURE_RECORD_DONE (R401). The last recorded frame is written and CAPTURE RECORD completes. -/
  | captureRecordDone
  /-- CAPTURE_READ (R401). CAPTURE READ copies bytes from an HBM region to host memory. -/
  | captureRead (d : Nat) (io : HostIO)
  /-- LEASE_QUERY (R402). LEASE_QUERY writes one record per Beagle lease in force. -/
  | leaseQuery (d : Nat) (io : HostIO)
  /-- THERMAL_SAMPLE (R418). Every 10 ms the die sensors are read and the thermal conditions evaluated. -/
  | thermalSample (temps : List Int)
  /-- AVS_READING (R416). Every 10 ms the delay monitors are read and VDD_CORE moved by one 5 mV step. -/
  | avsReading (ask : AvsAsk)
  /-- VDIFF_CHECK (R417). Every 100 µs the domain supplies are compared, and a difference above 40 mV for 1 ms raises
  VDD_CORE. -/
  | vdiffCheck (mv : Nat)
  /-- RAIL_OUT_OF_RANGE (R420). A rail outside ±5 % for 100 µs, or with a fault, takes down its domains or acts as
  TRIP. -/
  | railOutOfRange (n : Fin 6) (status : BitVec 16)
  /-- EXTENSION_LOAD_DONE (R428). The extension segment is loaded into HBM 0 and checked, or both halves reboot from
  the other slot. -/
  | extensionLoadDone (ok : Bool)
  /-- SVN_COMMIT (R429). GLB_BOOT.SVN_COMMIT raises the fused MIN_SVN to the SVN of the slot in force. -/
  | svnCommit (v : Word)
  /-- FLASH_READ (R430). GLB_FLASH_CMD 1 reads a flash page into GLB_FLASH_BUF. -/
  | flashRead (v : Word)
  /-- FLASH_PROGRAM (R430). GLB_FLASH_CMD 2 programs a flash page and reads it back. -/
  | flashProgram (v : Word)
  /-- FLASH_ERASE (R430). GLB_FLASH_CMD 3 erases a 64 KiB flash sector. -/
  | flashErase (v : Word)
  /-- FLASH_CMD_DONE (R430). A flash command finishes, BUSY clears and ERR gives its result. -/
  | flashCmdDone (page : List Byte)
  /-- FOP_FLAP_CLEAR (R196). FOP_FLAP clears once the accepted K1/K2 has stayed unchanged for 1 s, releasing the held
  selection and bridge. -/
  | fopFlapClear (g : Fin 64)
  /-- BUS_MASTER_DISABLE (R305). The host clears Bus Master Enable or puts the function in D3hot, and the device stops
  issuing memory writes, reads and MSI-X, holding its records. -/
  | busMasterDisable (d3 : Bool)
  /-- PCIE_LINK_UP (R424). Link training, started once PERST_N is high and PCIE is powered, completes, and the
  configuration space answers. -/
  | pcieLinkUp
  /-- DEBUG_SESSION_END (R378). The end of a debug session resets the debug-port master: accepted beats complete, the
  rest are dropped, locks are released and MASTER_RESET is raised. -/
  | debugSessionEnd
  /-- VDD_AON_DETECTOR (R406). The on-die detector sees VDD_AON enter or leave its range, releasing AON or holding it
  in reset, so that a RESET_N rise made earlier takes effect. -/
  | vddAonDetector (inRange : Bool)
  /-- MSIX_VECTOR_UNMASK (R354). A host write to the MSI-X table that unmasks a vector with its pending bit set sends
  the pending message, as PCIe defines. -/
  | msixVectorUnmask (v : Fin 65)
  deriving DecidableEq, Repr

end Sys2Proof
end

