-- ==== Sys2Proof/Config.lean ====
section
/-! DEFINITION. What an implementation fixes and what the spec leaves open. An opaque constant has no body: nothing can
be proved of its value. -/

namespace Sys2Proof.Config

/-- Free values: what the spec leaves open, one for each value of the counter the state holds (log entry 2). -/
opaque freeValue : Nat → Word

/-- Which of the candidates an implementation picks where the spec names none, for each value of the counter the state
holds (log entry 3). -/
opaque pick : Nat → Nat

/-- A byte of what the device holds and the spec does not give: boot ROM (memory 0; from 2^38 on the firmware and supervisor data of HBM), and the firmware that the k-th load from an
image slot put into the scratchpad (memory 1 + k) (log entry 2). -/
opaque imageByte : Nat → Nat → Byte

/-- ABCD bits that stand for a slot whose signalling nothing has given, by slot number (log entry 94). -/
opaque idleAbcd : Nat → BitVec 4

/-- The period in ns, for a lane's MODE, of the edges that a DPLL in REALIGN takes from the lane's recovered clock (log entry 143). -/
opaque lanePeriod : Nat → Nat

/-- The supervisor marks HBM test block `u` of its data busy at a tick of the time counter (log entry 150). -/
opaque supervisorBusy : Nat → Nat → Bool

end Sys2Proof.Config
end

