-- ==== Sys2Proof/Machine/Bits.lean ====
section
/-! DEFINITION. Bit fields, signs, byte order, parity and check sums. -/

namespace Sys2Proof

/-- Bits [hi:lo] of a number. -/
def nbits (v hi lo : Nat) : Nat := (v / 2 ^ lo) % 2 ^ (hi + 1 - lo)

/-- Bits [hi:lo] of a word, as a number (R4). -/
def fld (w : Word) (hi lo : Nat) : Nat := nbits w.toNat hi lo

/-- Bit `i` of a word is 1. -/
def bit (w : Word) (i : Nat) : Bool := w.getLsbD i

/-- The word whose bits [hi:lo] are 1. -/
def maskOf (hi lo : Nat) : Word := BitVec.ofNat 32 ((2 ^ (hi + 1 - lo) - 1) * 2 ^ lo)

/-- The word with bits [hi:lo] replaced by the low bits of `v` (R4). -/
def setFld (w : Word) (hi lo v : Nat) : Word :=
  (w &&& ~~~ (maskOf hi lo)) ||| (BitVec.ofNat 32 ((v % 2 ^ (hi + 1 - lo)) * 2 ^ lo))

/-- The word with bit `i` replaced. -/
def setBit (w : Word) (i : Nat) (b : Bool) : Word := setFld w i i (if b then 1 else 0)

/-- A truth value as 0 or 1. -/
def b2n (b : Bool) : Nat := if b then 1 else 0

/-- A number as a word. -/
def w32 (n : Nat) : Word := BitVec.ofNat 32 n

/-- An integer as a word in two's complement. -/
def i32 (i : Int) : Word := BitVec.ofInt 32 i

/-- The value of the low `n` bits in two's complement. -/
def sgn (n v : Nat) : Int :=
  let m := v % 2 ^ n
  if m < 2 ^ (n - 1) then (m : Int) else (m : Int) - (2 ^ n : Nat)

/-- The low `n` bits of an integer in two's complement, as a number. -/
def unsgn (n : Nat) (i : Int) : Nat := (i % (2 ^ n : Nat)).toNat

/-- Distance of an integer from 0. -/
def iabs (i : Int) : Nat := i.natAbs

/-- An integer held within [lo, hi]. -/
def iclamp (lo hi i : Int) : Int := if i < lo then lo else if hi < i then hi else i

/-- The four bytes of a word, the low one first (R4). -/
def wordBytes (w : Word) : List Byte :=
  [w.extractLsb' 0 8, w.extractLsb' 8 8, w.extractLsb' 16 8, w.extractLsb' 24 8]

/-- Byte `i` of a word. -/
def wordByte (w : Word) (i : Nat) : Byte := BitVec.ofNat 8 (w.toNat / 2 ^ (8 * i))

/-- Bytes of words in order, each word's low byte first (R4). -/
def wordsBytes (l : List Word) : List Byte := l.flatMap wordBytes

/-- The word made of up to four bytes, the first lowest. -/
def bytesWord (l : List Byte) : Word :=
  w32 ((l.take 4).foldr (fun b acc => b.toNat + 256 * acc) 0)

/-- The number made of bytes, the first lowest. -/
def leNat (l : List Byte) : Nat := l.foldr (fun b acc => b.toNat + 256 * acc) 0

/-- The number made of bytes, the first highest. -/
def beNat (l : List Byte) : Nat := l.foldl (fun acc b => acc * 256 + b.toNat) 0

/-- `n` bytes of a number, the highest first. -/
def natBe (n v : Nat) : List Byte := (List.range n).map (fun i => BitVec.ofNat 8 (v / 256 ^ (n - 1 - i)))

/-- Words made of bytes, four at a time; a short last group is filled with zeros. -/
def bytesWords (fuel : Nat) (l : List Byte) : List Word :=
  match fuel, l with
  | 0, _ => []
  | _, [] => []
  | n + 1, l => bytesWord (l.take 4) :: bytesWords n (l.drop 4)

/-- How many bits of a number below 2^n are 1. -/
def popc (n v : Nat) : Nat := (List.range n).foldl (fun acc i => acc + (v / 2 ^ i) % 2) 0

/-- How many bits of a byte are 1. -/
def ones (b : Byte) : Nat := popc 8 b.toNat

/-- The bytewise exclusive or of a list: bit-interleaved parity of eight columns. -/
def xorAll (l : List Byte) : Byte := l.foldl (fun a b => a ^^^ b) 0

/-- The bits of bytes in order, the most significant of each byte first. -/
def bytesBits (l : List Byte) : List Bool := l.flatMap (fun b => [7, 6, 5, 4, 3, 2, 1, 0].map b.getLsbD)

/-- The number that bits spell, the first the most significant. -/
def bitsNat (l : List Bool) : Nat := l.foldl (fun n b => 2 * n + b2n b) 0

/-- Bytes made of bits, eight at a time, the first the most significant; a short last group is filled with zeros. -/
def bitsBytes : List Bool → List Byte
  | [] => []
  | a :: b :: c :: d :: e :: f :: g :: h :: r => BitVec.ofNat 8 (bitsNat [a, b, c, d, e, f, g, h]) :: bitsBytes r
  | l => [BitVec.ofNat 8 (bitsNat (l ++ List.replicate (8 - l.length) false))]

/-- The positions at which a predicate holds for the bits of a word. -/
def bitList (n v : Nat) : List Nat := (List.range n).filter (fun i => (v / 2 ^ i) % 2 == 1)

/-- One bit of a right-shifting CRC-32 with the IEEE 802.3 polynomial. -/
def crc32Bit (c : BitVec 32) : BitVec 32 := if c.getLsbD 0 then (c >>> 1) ^^^ 0xEDB88320 else c >>> 1

/-- One byte of the CRC-32. -/
def crc32Byte (c : BitVec 32) (b : Byte) : BitVec 32 :=
  let x := c ^^^ b.setWidth 32
  crc32Bit (crc32Bit (crc32Bit (crc32Bit (crc32Bit (crc32Bit (crc32Bit (crc32Bit x)))))))

/-- CRC-32 with the IEEE 802.3 polynomial over bytes (R175, R360, R407). -/
def crc32 (l : List Byte) : BitVec 32 := ~~~ (l.foldl crc32Byte 0xFFFFFFFF)

/-- One bit of a left-shifting check sum of width `n` with polynomial `p`. -/
def crcBit (n p c : Nat) (b : Bool) : Nat :=
  let top := (c / 2 ^ (n - 1)) % 2
  let c2 := (c * 2) % 2 ^ n
  if xor (top == 1) b then Nat.xor c2 p else c2

/-- A left-shifting check sum over the bits of bytes, the most significant bit of each byte first. -/
def crcBytes (n p init : Nat) (l : List Byte) : Nat :=
  l.foldl (fun c b => [7, 6, 5, 4, 3, 2, 1, 0].foldl (fun c i => crcBit n p c (b.getLsbD i)) c) init

end Sys2Proof
end

