-- ==== Sys2Proof/Machine/RegTable.lean ====
section
/-! DEFINITION. The register map: every register of R435 with its offset, its stride, its count, its reset word and its
fields with their types. -/

namespace Sys2Proof.Machine

/-- The access types of R5. -/
inductive Acc where
  | rw | ro | wo | w1c | rc | rwl
  deriving DecidableEq, Repr

/-- One field of a register: bits [hi:lo] and their type. -/
structure RegField where
  hi : Nat
  lo : Nat
  acc : Acc
  deriving DecidableEq, Repr

/-- One row of the register map: `count` registers from BAR0 offset `base` in steps of `stride`, the reset word, and the
assigned fields (every other bit is reserved). -/
structure RegRow where
  name : String
  base : Nat
  stride : Nat
  count : Nat
  reset : Nat
  fields : List RegField
  deriving DecidableEq, Repr

/-- Offset `off` is one of the row's registers. -/
def RegRow.has (r : RegRow) (off : Nat) : Bool :=
  decide (r.base ≤ off) &&
    (if r.stride = 0 then off == r.base
     else (off - r.base) % r.stride == 0 && decide ((off - r.base) / r.stride < r.count))

/-- GLB registers (R434, R435, R21, R432, R436). -/
def rowsGlb : List RegRow :=
  [ ⟨"GLB_ID", 0x0, 0x0, 1, 0x94401F3D,
      [⟨15, 0, .ro⟩, ⟨31, 16, .ro⟩]⟩,
    ⟨"GLB_REV", 0x4, 0x0, 1, 0x1B0,
      [⟨7, 0, .ro⟩, ⟨15, 8, .ro⟩]⟩,
    ⟨"GLB_MODE", 0x10, 0x0, 1, 0x0,
      [⟨1, 0, .rw⟩]⟩,
    ⟨"GLB_STATUS", 0x14, 0x0, 1, 0x0,
      [⟨1, 0, .ro⟩, ⟨2, 2, .ro⟩, ⟨3, 3, .ro⟩, ⟨4, 4, .ro⟩]⟩,
    ⟨"GLB_BOOT", 0x20, 0x0, 1, 0x0,
      [⟨0, 0, .ro⟩, ⟨1, 1, .ro⟩, ⟨2, 2, .ro⟩, ⟨4, 3, .ro⟩, ⟨5, 5, .wo⟩]⟩,
    ⟨"GLB_FW_VERSION", 0x24, 0x0, 1, 0x0,
      [⟨31, 0, .ro⟩]⟩,
    ⟨"GLB_FW_SVN", 0x28, 0x0, 1, 0x0,
      [⟨7, 0, .ro⟩, ⟨15, 8, .ro⟩]⟩,
    ⟨"GLB_FLASH_ADDR", 0x30, 0x0, 1, 0x0,
      [⟨27, 8, .rw⟩]⟩,
    ⟨"GLB_FLASH_CMD", 0x34, 0x0, 1, 0x0,
      [⟨1, 0, .wo⟩, ⟨8, 8, .ro⟩, ⟨10, 9, .ro⟩]⟩,
    ⟨"GLB_FLASH_BUF", 0x100, 0x4, 64, 0x0,
      [⟨31, 0, .rw⟩]⟩ ]

/-- PWR registers (R434, R435, R431). -/
def rowsPwr : List RegRow :=
  [ ⟨"PWR_CTL", 0x10000, 0x0, 1, 0x10,
      [⟨1, 0, .rw⟩, ⟨4, 4, .rw⟩, ⟨5, 5, .rw⟩]⟩,
    ⟨"PWR_STATUS", 0x10004, 0x0, 1, 0x1,
      [⟨1, 0, .ro⟩, ⟨2, 2, .ro⟩, ⟨3, 3, .ro⟩, ⟨5, 4, .ro⟩]⟩,
    ⟨"PWR_DOMAIN", 0x10008, 0x0, 1, 0x0,
      [⟨15, 0, .ro⟩, ⟨16, 16, .ro⟩, ⟨17, 17, .ro⟩, ⟨21, 18, .ro⟩]⟩,
    ⟨"PWR_WAKE_TIMER", 0x1000C, 0x0, 1, 0x0,
      [⟨15, 0, .rw⟩]⟩,
    ⟨"PWR_AVS", 0x10010, 0x0, 1, 0x0,
      [⟨9, 0, .ro⟩, ⟨10, 10, .ro⟩, ⟨25, 16, .rwl⟩]⟩,
    ⟨"PWR_RAIL", 0x10040, 0x4, 6, 0x0,
      [⟨0, 0, .ro⟩, ⟨1, 1, .ro⟩, ⟨2, 2, .w1c⟩, ⟨15, 3, .ro⟩, ⟨31, 16, .ro⟩]⟩,
    ⟨"PWR_THERM", 0x10080, 0x4, 16, 0x8000,
      [⟨7, 0, .ro⟩, ⟨15, 8, .ro⟩]⟩,
    ⟨"PWR_THERM_LIM", 0x100C0, 0x0, 1, 0x1964,
      [⟨7, 0, .rw⟩, ⟨15, 8, .rw⟩]⟩,
    ⟨"PWR_THERM_STATUS", 0x100C4, 0x0, 1, 0x0,
      [⟨0, 0, .ro⟩, ⟨1, 1, .ro⟩, ⟨2, 2, .ro⟩, ⟨7, 4, .ro⟩, ⟨15, 8, .ro⟩]⟩ ]

/-- MTX registers (R434, R435, R383). -/
def rowsMtx : List RegRow :=
  [ ⟨"MTX_CTL", 0x20000, 0x0, 1, 0x0,
      [⟨0, 0, .ro⟩, ⟨1, 1, .ro⟩, ⟨2, 2, .ro⟩, ⟨3, 3, .wo⟩]⟩,
    ⟨"MTX_LEASH", 0x20004, 0x0, 1, 0x0,
      [⟨31, 0, .ro⟩]⟩,
    ⟨"MTX_HALF", 0x20008, 0x0, 1, 0x0,
      [⟨2, 0, .ro⟩, ⟨5, 3, .ro⟩, ⟨6, 6, .ro⟩, ⟨7, 7, .ro⟩, ⟨23, 8, .ro⟩]⟩,
    ⟨"MTX_CLAIM_A", 0x2000C, 0x0, 1, 0x0,
      [⟨31, 0, .ro⟩]⟩,
    ⟨"MTX_CLAIM_B", 0x20010, 0x0, 1, 0x0,
      [⟨31, 0, .ro⟩]⟩,
    ⟨"MTX_CLAIM_RES", 0x20014, 0x0, 1, 0x0,
      [⟨1, 0, .ro⟩, ⟨2, 2, .ro⟩, ⟨3, 3, .ro⟩, ⟨4, 4, .ro⟩]⟩,
    ⟨"MTX_ERR_CNT", 0x20020, 0x0, 1, 0x0,
      [⟨31, 0, .ro⟩]⟩,
    ⟨"MTX_ERR_LAST", 0x20024, 0x0, 1, 0x0,
      [⟨2, 0, .ro⟩, ⟨3, 3, .ro⟩, ⟨6, 4, .ro⟩, ⟨9, 7, .ro⟩]⟩,
    ⟨"MTX_ERR_ADDR_LO", 0x20028, 0x0, 1, 0x0,
      [⟨31, 0, .ro⟩]⟩,
    ⟨"MTX_ERR_ADDR_HI", 0x2002C, 0x0, 1, 0x0,
      [⟨8, 0, .ro⟩]⟩,
    ⟨"MTX_LOCK", 0x20030, 0x0, 1, 0xFFF,
      [⟨3, 0, .ro⟩, ⟨7, 4, .ro⟩, ⟨11, 8, .ro⟩]⟩,
    ⟨"MTX_LOCK_TO_CNT", 0x20034, 0x0, 1, 0x0,
      [⟨31, 0, .ro⟩]⟩,
    ⟨"MTX_MBOX_COLL", 0x20040, 0x0, 1, 0x0,
      [⟨12, 0, .ro⟩, ⟨13, 13, .ro⟩]⟩,
    ⟨"MTX_MBOX_COLL_CNT", 0x20044, 0x0, 1, 0x0,
      [⟨31, 0, .ro⟩]⟩ ]

/-- HIF registers, part 1 (R434, R435, R329, R347). -/
def rowsHifA : List RegRow :=
  [ ⟨"HIF_STATUS", 0x30000, 0x0, 1, 0x0,
      [⟨16, 0, .ro⟩, ⟨17, 17, .ro⟩]⟩,
    ⟨"HIF_IGNORED_CNT", 0x30004, 0x0, 1, 0x0,
      [⟨31, 0, .ro⟩]⟩,
    ⟨"HIF_IGNORED_LAST", 0x30008, 0x0, 1, 0x0,
      [⟨2, 0, .ro⟩, ⟨15, 4, .ro⟩]⟩,
    ⟨"HIF_IGNORED_ADDR", 0x3000C, 0x0, 1, 0x0,
      [⟨25, 0, .ro⟩]⟩,
    ⟨"HIF_FAULT", 0x30010, 0x0, 1, 0x0,
      [⟨0, 0, .w1c⟩, ⟨1, 1, .w1c⟩, ⟨2, 2, .w1c⟩]⟩,
    ⟨"HIF_FAULT_RING", 0x30014, 0x0, 1, 0x0,
      [⟨11, 0, .ro⟩]⟩,
    ⟨"HIF_EPOCH", 0x30018, 0x0, 1, 0x0,
      [⟨31, 0, .ro⟩]⟩,
    ⟨"HIF_XLAT_ROOT_LO", 0x30100, 0x0, 1, 0x0,
      [⟨31, 12, .rwl⟩]⟩,
    ⟨"HIF_XLAT_ROOT_HI", 0x30104, 0x0, 1, 0x0,
      [⟨31, 0, .rwl⟩]⟩,
    ⟨"HIF_XLAT_CTL", 0x30108, 0x0, 1, 0x900,
      [⟨0, 0, .rwl⟩, ⟨12, 8, .rwl⟩]⟩,
    ⟨"HIF_XLAT_INV", 0x3010C, 0x0, 1, 0x0,
      [⟨25, 0, .wo⟩, ⟨31, 30, .wo⟩]⟩,
    ⟨"HIF_XLAT_STATUS", 0x30110, 0x0, 1, 0x0,
      [⟨0, 0, .ro⟩, ⟨12, 1, .ro⟩]⟩,
    ⟨"HIF_XLAT_WALKS", 0x30114, 0x0, 1, 0x0,
      [⟨31, 0, .ro⟩]⟩,
    ⟨"HIF_XLAT_FAULTS", 0x30118, 0x0, 1, 0x0,
      [⟨31, 0, .ro⟩]⟩,
    ⟨"HIF_KNL_STATUS", 0x30120, 0x0, 1, 0x0,
      [⟨8, 0, .ro⟩, ⟨17, 9, .ro⟩, ⟨26, 18, .ro⟩]⟩,
    ⟨"HIF_KNL_TIMEOUT", 0x30124, 0x0, 1, 0x3E8,
      [⟨15, 0, .rw⟩]⟩ ]

/-- HIF registers, part 2 (R434, R435, R347). -/
def rowsHifB : List RegRow :=
  [ ⟨"HIF_KNL_SEL", 0x30128, 0x0, 1, 0x0,
      [⟨7, 0, .rw⟩]⟩,
    ⟨"HIF_KNL_INFO0", 0x3012C, 0x0, 1, 0x0,
      [⟨1, 0, .ro⟩, ⟨4, 2, .ro⟩, ⟨5, 5, .ro⟩, ⟨6, 6, .ro⟩, ⟨19, 8, .ro⟩]⟩,
    ⟨"HIF_KNL_INFO1", 0x30130, 0x0, 1, 0x0,
      [⟨31, 0, .ro⟩]⟩,
    ⟨"HIF_KNL_INFO2", 0x30134, 0x0, 1, 0x0,
      [⟨31, 0, .ro⟩]⟩,
    ⟨"HIF_KNL_INFO3", 0x30138, 0x0, 1, 0x0,
      [⟨25, 0, .ro⟩]⟩,
    ⟨"HIF_KNL_INFO4", 0x3013C, 0x0, 1, 0x0,
      [⟨31, 0, .ro⟩]⟩ ]

/-- EVT registers (R434, R435, R363). -/
def rowsEvt : List RegRow :=
  [ ⟨"EVT_ROUTE", 0x40000, 0x4, 192, 0x5002,
      [⟨11, 0, .rw⟩, ⟨12, 12, .rw⟩, ⟨13, 13, .rw⟩, ⟨15, 14, .rw⟩, ⟨18, 16, .ro⟩]⟩,
    ⟨"EVT_ROUTE", 0x40300, 0x4, 64, 0x9002,
      [⟨11, 0, .rw⟩, ⟨12, 12, .rw⟩, ⟨13, 13, .rw⟩, ⟨15, 14, .rw⟩, ⟨18, 16, .ro⟩]⟩,
    ⟨"EVT_ROUTE", 0x40400, 0x4, 256, 0x5002,
      [⟨11, 0, .rw⟩, ⟨12, 12, .rw⟩, ⟨13, 13, .rw⟩, ⟨15, 14, .rw⟩, ⟨18, 16, .ro⟩]⟩,
    ⟨"EVT_ROUTE", 0x40800, 0x4, 256, 0x9002,
      [⟨11, 0, .rw⟩, ⟨12, 12, .rw⟩, ⟨13, 13, .rw⟩, ⟨15, 14, .rw⟩, ⟨18, 16, .ro⟩]⟩,
    ⟨"EVT_ROUTE", 0x40C00, 0x4, 256, 0x5002,
      [⟨11, 0, .rw⟩, ⟨12, 12, .rw⟩, ⟨13, 13, .rw⟩, ⟨15, 14, .rw⟩, ⟨18, 16, .ro⟩]⟩,
    ⟨"EVT_ROUTE", 0x41000, 0x4, 512, 0x5002,
      [⟨11, 0, .rw⟩, ⟨12, 12, .rw⟩, ⟨13, 13, .rw⟩, ⟨15, 14, .rw⟩, ⟨18, 16, .ro⟩]⟩,
    ⟨"EVT_ROUTE", 0x41800, 0x4, 128, 0x5002,
      [⟨11, 0, .rw⟩, ⟨12, 12, .rw⟩, ⟨13, 13, .rw⟩, ⟨15, 14, .rw⟩, ⟨18, 16, .ro⟩]⟩,
    ⟨"EVT_ROUTE", 0x41A00, 0x4, 128, 0x9002,
      [⟨11, 0, .rw⟩, ⟨12, 12, .rw⟩, ⟨13, 13, .rw⟩, ⟨15, 14, .rw⟩, ⟨18, 16, .ro⟩]⟩,
    ⟨"EVT_ROUTE", 0x41C00, 0x4, 128, 0xD002,
      [⟨11, 0, .rw⟩, ⟨12, 12, .rw⟩, ⟨13, 13, .rw⟩, ⟨15, 14, .rw⟩, ⟨18, 16, .ro⟩]⟩,
    ⟨"EVT_ROUTE", 0x41E00, 0x4, 64, 0x9002,
      [⟨11, 0, .rw⟩, ⟨12, 12, .rw⟩, ⟨13, 13, .rw⟩, ⟨15, 14, .rw⟩, ⟨18, 16, .ro⟩]⟩,
    ⟨"EVT_ROUTE", 0x41F00, 0x4, 64, 0xD002,
      [⟨11, 0, .rw⟩, ⟨12, 12, .rw⟩, ⟨13, 13, .rw⟩, ⟨15, 14, .rw⟩, ⟨18, 16, .ro⟩]⟩,
    ⟨"EVT_COAL", 0x42000, 0x4, 64, 0x1,
      [⟨7, 0, .rw⟩, ⟨23, 8, .rw⟩, ⟨25, 24, .rw⟩]⟩,
    ⟨"EVT_STATUS", 0x42100, 0x0, 1, 0x0,
      [⟨11, 0, .ro⟩]⟩,
    ⟨"EVT_HELD_MAP", 0x42200, 0x4, 64, 0x0,
      [⟨31, 0, .ro⟩]⟩,
    ⟨"EVT_TEST", 0x42300, 0x0, 1, 0x0,
      [⟨10, 0, .wo⟩, ⟨31, 31, .wo⟩]⟩ ]

/-- TIM registers, part 1 (R434, R435, R284). -/
def rowsTimA : List RegRow :=
  [ ⟨"TIM_OSC", 0x80000, 0x0, 1, 0x700000,
      [⟨0, 0, .rwl⟩, ⟨1, 1, .ro⟩, ⟨19, 4, .rw⟩, ⟨23, 20, .rw⟩]⟩,
    ⟨"TIM_MON_TOL", 0x80004, 0x0, 1, 0x23F007D0,
      [⟨15, 0, .rw⟩, ⟨31, 16, .rw⟩]⟩,
    ⟨"TIM_MON_DRIFT", 0x80008, 0x0, 1, 0x1F401F4,
      [⟨15, 0, .rw⟩, ⟨31, 16, .rw⟩]⟩,
    ⟨"TIM_MON_WTR", 0x8000C, 0x0, 1, 0x12C,
      [⟨9, 0, .rw⟩]⟩,
    ⟨"TIM_REF_CFG", 0x80100, 0x10, 24, 0x1E000000,
      [⟨0, 0, .rw⟩, ⟨3, 1, .rw⟩, ⟨6, 4, .rw⟩, ⟨23, 8, .rw⟩, ⟨24, 24, .rw⟩, ⟨28, 25, .rw⟩]⟩,
    ⟨"TIM_REF_STATUS", 0x80104, 0x10, 24, 0x780,
      [⟨1, 0, .ro⟩, ⟨2, 2, .ro⟩, ⟨3, 3, .ro⟩, ⟨4, 4, .ro⟩, ⟨5, 5, .ro⟩, ⟨6, 6, .ro⟩, ⟨10, 7, .ro⟩, ⟨11, 11, .ro⟩, ⟨15, 12, .ro⟩, ⟨25, 16, .ro⟩]⟩,
    ⟨"TIM_REF_OFS", 0x80108, 0x10, 24, 0x0,
      [⟨31, 0, .ro⟩]⟩,
    ⟨"TIM_REF_DRIFT", 0x8010C, 0x10, 24, 0x0,
      [⟨31, 0, .ro⟩]⟩,
    ⟨"TIM_DPLL_CTL", 0x80400, 0x40, 1, 0x20180,
      [⟨1, 0, .rw⟩, ⟨6, 2, .rw⟩, ⟨7, 7, .rw⟩, ⟨8, 8, .rw⟩, ⟨9, 9, .rw⟩, ⟨10, 10, .rw⟩, ⟨21, 11, .rw⟩]⟩,
    ⟨"TIM_DPLL_BW", 0x80404, 0x40, 1, 0x2710,
      [⟨19, 0, .rw⟩]⟩,
    ⟨"TIM_DPLL_CTL", 0x80440, 0x40, 1, 0x20380,
      [⟨1, 0, .rw⟩, ⟨6, 2, .rw⟩, ⟨7, 7, .rw⟩, ⟨8, 8, .rw⟩, ⟨9, 9, .rw⟩, ⟨10, 10, .rw⟩, ⟨21, 11, .rw⟩]⟩,
    ⟨"TIM_DPLL_BW", 0x80444, 0x40, 1, 0x3E8,
      [⟨19, 0, .rw⟩]⟩,
    ⟨"TIM_DPLL_CTL", 0x80480, 0x40, 1, 0x20180,
      [⟨1, 0, .rw⟩, ⟨6, 2, .rw⟩, ⟨7, 7, .rw⟩, ⟨8, 8, .rw⟩, ⟨9, 9, .rw⟩, ⟨10, 10, .rw⟩, ⟨21, 11, .rw⟩]⟩,
    ⟨"TIM_DPLL_BW", 0x80484, 0x40, 1, 0x1E,
      [⟨19, 0, .rw⟩]⟩,
    ⟨"TIM_DPLL_CTL", 0x804C0, 0x40, 1, 0x20180,
      [⟨1, 0, .rw⟩, ⟨6, 2, .rw⟩, ⟨7, 7, .rw⟩, ⟨8, 8, .rw⟩, ⟨9, 9, .rw⟩, ⟨10, 10, .rw⟩, ⟨21, 11, .rw⟩]⟩,
    ⟨"TIM_DPLL_BW", 0x804C4, 0x40, 1, 0x1E,
      [⟨19, 0, .rw⟩]⟩ ]

/-- TIM registers, part 2 (R434, R435, R284). -/
def rowsTimB : List RegRow :=
  [ ⟨"TIM_DPLL_LEHR", 0x80408, 0x40, 4, 0x14,
      [⟨10, 0, .rw⟩]⟩,
    ⟨"TIM_DPLL_PRIO0", 0x8040C, 0x40, 4, 0x0,
      [⟨31, 0, .rw⟩]⟩,
    ⟨"TIM_DPLL_PRIO1", 0x80410, 0x40, 4, 0x0,
      [⟨31, 0, .rw⟩]⟩,
    ⟨"TIM_DPLL_PRIO2", 0x80414, 0x40, 4, 0x0,
      [⟨31, 0, .rw⟩]⟩,
    ⟨"TIM_DPLL_STATUS", 0x80418, 0x40, 4, 0x7F8,
      [⟨2, 0, .ro⟩, ⟨7, 3, .ro⟩, ⟨11, 8, .ro⟩, ⟨12, 12, .ro⟩, ⟨13, 13, .ro⟩, ⟨14, 14, .ro⟩]⟩,
    ⟨"TIM_DPLL_FREQ", 0x8041C, 0x40, 4, 0x0,
      [⟨31, 0, .ro⟩]⟩,
    ⟨"TIM_DPLL_HOLD", 0x80420, 0x40, 4, 0x0,
      [⟨31, 0, .ro⟩]⟩,
    ⟨"TIM_DPLL_PHASE", 0x80424, 0x40, 4, 0x0,
      [⟨31, 0, .ro⟩]⟩,
    ⟨"TIM_CLKOUT", 0x80500, 0x4, 8, 0xE00,
      [⟨0, 0, .rw⟩, ⟨2, 1, .rw⟩, ⟨6, 3, .rw⟩, ⟨8, 7, .rw⟩, ⟨12, 9, .rw⟩]⟩,
    ⟨"TIM_FPOUT_CTL", 0x80540, 0x8, 4, 0x102,
      [⟨0, 0, .rw⟩, ⟨2, 1, .rw⟩, ⟨4, 3, .rw⟩, ⟨9, 5, .rw⟩, ⟨10, 10, .rw⟩, ⟨11, 11, .rw⟩, ⟨19, 12, .rw⟩, ⟨20, 20, .wo⟩, ⟨21, 21, .ro⟩, ⟨22, 22, .ro⟩, ⟨23, 23, .ro⟩]⟩,
    ⟨"TIM_FPOUT_HEEL", 0x80544, 0x8, 4, 0x0,
      [⟨29, 0, .rw⟩]⟩ ]

/-- TOD registers (R434, R435, R299). -/
def rowsTod : List RegRow :=
  [ ⟨"TOD_CTL", 0x90000, 0x0, 1, 0x40,
      [⟨1, 0, .rwl⟩, ⟨7, 4, .rwl⟩]⟩,
    ⟨"TOD_STATUS", 0x90004, 0x0, 1, 0x0,
      [⟨2, 0, .ro⟩, ⟨3, 3, .ro⟩, ⟨4, 4, .ro⟩, ⟨5, 5, .ro⟩]⟩,
    ⟨"TOD_NS", 0x90008, 0x0, 1, 0x0,
      [⟨31, 0, .ro⟩]⟩,
    ⟨"TOD_FRAC", 0x9000C, 0x0, 1, 0x0,
      [⟨31, 0, .ro⟩]⟩,
    ⟨"TOD_SUBSEC", 0x90010, 0x0, 1, 0x0,
      [⟨31, 0, .ro⟩]⟩,
    ⟨"TOD_WRAPS", 0x90014, 0x0, 1, 0x0,
      [⟨31, 0, .ro⟩]⟩,
    ⟨"TOD_INC_LO", 0x90018, 0x0, 1, 0x0,
      [⟨31, 0, .ro⟩]⟩,
    ⟨"TOD_INC_HI", 0x9001C, 0x0, 1, 0x2,
      [⟨31, 0, .ro⟩]⟩,
    ⟨"TOD_SERVO", 0x90020, 0x0, 1, 0x640A10,
      [⟨7, 0, .rwl⟩, ⟨15, 8, .rwl⟩, ⟨31, 16, .rwl⟩]⟩,
    ⟨"TOD_PPS", 0x90024, 0x0, 1, 0x0,
      [⟨2, 0, .rwl⟩, ⟨31, 8, .rwl⟩]⟩,
    ⟨"TOD_OFS", 0x90028, 0x0, 1, 0x0,
      [⟨31, 0, .ro⟩]⟩ ]

/-- LANE registers, part 1 (R434, R435, R48, R71). -/
def rowsLaneA : List RegRow :=
  [ ⟨"LANE_CTL", 0x100000, 0x1000, 128, 0x0,
      [⟨0, 0, .rw⟩, ⟨4, 1, .rw⟩, ⟨6, 5, .rw⟩, ⟨7, 7, .rw⟩, ⟨8, 8, .rw⟩, ⟨9, 9, .rw⟩, ⟨10, 10, .rw⟩, ⟨11, 11, .rw⟩]⟩,
    ⟨"LANE_STATUS", 0x100004, 0x1000, 128, 0x0,
      [⟨2, 0, .ro⟩, ⟨3, 3, .ro⟩, ⟨4, 4, .ro⟩, ⟨5, 5, .ro⟩, ⟨6, 6, .ro⟩, ⟨7, 7, .ro⟩, ⟨8, 8, .ro⟩, ⟨9, 9, .ro⟩, ⟨10, 10, .ro⟩, ⟨23, 16, .ro⟩, ⟨31, 24, .ro⟩]⟩,
    ⟨"LANE_TXFIR", 0x100008, 0x1000, 128, 0x2300,
      [⟨3, 0, .rw⟩, ⟨9, 4, .rw⟩, ⟨14, 10, .rw⟩]⟩,
    ⟨"LANE_RXEQ", 0x10000C, 0x1000, 128, 0x0,
      [⟨3, 0, .ro⟩, ⟨9, 4, .ro⟩, ⟨15, 10, .ro⟩, ⟨20, 16, .ro⟩, ⟨25, 21, .ro⟩, ⟨30, 26, .ro⟩]⟩,
    ⟨"LANE_FOFS", 0x100010, 0x1000, 128, 0x0,
      [⟨15, 0, .ro⟩]⟩,
    ⟨"LANE_PRBS", 0x100014, 0x1000, 128, 0x0,
      [⟨2, 0, .rw⟩, ⟨5, 3, .rw⟩, ⟨6, 6, .rw⟩, ⟨7, 7, .rw⟩, ⟨8, 8, .ro⟩, ⟨9, 9, .wo⟩]⟩,
    ⟨"LANE_PRBS_ERR", 0x100018, 0x1000, 128, 0x0,
      [⟨31, 0, .ro⟩]⟩,
    ⟨"LANE_PRBS_BITS", 0x10001C, 0x1000, 128, 0x0,
      [⟨31, 0, .ro⟩]⟩,
    ⟨"LANE_PRBS_PAT_LO", 0x100020, 0x1000, 128, 0x0,
      [⟨31, 0, .rw⟩]⟩,
    ⟨"LANE_PRBS_PAT_HI", 0x100024, 0x1000, 128, 0x0,
      [⟨31, 0, .rw⟩]⟩,
    ⟨"LANE_EYE_CTL", 0x100028, 0x1000, 128, 0x50000,
      [⟨5, 0, .rw⟩, ⟨13, 6, .rw⟩, ⟨19, 14, .rw⟩, ⟨31, 31, .wo⟩]⟩,
    ⟨"LANE_EYE_RES", 0x10002C, 0x1000, 128, 0x0,
      [⟨0, 0, .ro⟩, ⟨1, 1, .ro⟩, ⟨2, 2, .ro⟩, ⟨31, 8, .ro⟩]⟩,
    ⟨"LANE_EYE_SUM", 0x100030, 0x1000, 128, 0x0,
      [⟨7, 0, .ro⟩, ⟨14, 8, .ro⟩]⟩,
    ⟨"LANE_GPLL", 0x100040, 0x1000, 128, 0x0,
      [⟨0, 0, .ro⟩, ⟨1, 1, .ro⟩, ⟨2, 2, .ro⟩, ⟨3, 3, .ro⟩, ⟨4, 4, .ro⟩]⟩,
    ⟨"LANE_FRM_CTL", 0x100100, 0x1000, 128, 0x120,
      [⟨0, 0, .rw⟩, ⟨1, 1, .rw⟩, ⟨3, 2, .rw⟩, ⟨4, 4, .rw⟩, ⟨5, 5, .rw⟩, ⟨7, 6, .rw⟩, ⟨10, 8, .rw⟩, ⟨11, 11, .rw⟩, ⟨12, 12, .rw⟩, ⟨13, 13, .rw⟩, ⟨14, 14, .rw⟩, ⟨15, 15, .wo⟩, ⟨16, 16, .wo⟩]⟩,
    ⟨"LANE_FRM_STATUS", 0x100104, 0x1000, 128, 0x5,
      [⟨0, 0, .ro⟩, ⟨1, 1, .ro⟩, ⟨2, 2, .ro⟩, ⟨3, 3, .ro⟩, ⟨4, 4, .ro⟩, ⟨5, 5, .ro⟩, ⟨6, 6, .ro⟩, ⟨7, 7, .ro⟩, ⟨8, 8, .ro⟩, ⟨9, 9, .ro⟩, ⟨10, 10, .ro⟩, ⟨14, 11, .ro⟩]⟩ ]

/-- LANE registers, part 2 (R434, R435, R70, R71). -/
def rowsLaneB : List RegRow :=
  [ ⟨"LANE_S1", 0x100108, 0x1000, 128, 0xF0000,
      [⟨7, 0, .ro⟩, ⟨15, 8, .ro⟩, ⟨23, 16, .rw⟩, ⟨31, 24, .ro⟩]⟩,
    ⟨"LANE_K12", 0x10010C, 0x1000, 128, 0x0,
      [⟨7, 0, .ro⟩, ⟨15, 8, .ro⟩, ⟨23, 16, .ro⟩, ⟨31, 24, .ro⟩]⟩,
    ⟨"LANE_RS_BIP", 0x100180, 0x1000, 128, 0x0,
      [⟨31, 0, .ro⟩]⟩,
    ⟨"LANE_RS_EB", 0x100184, 0x1000, 128, 0x0,
      [⟨31, 0, .ro⟩]⟩,
    ⟨"LANE_RS_ES", 0x100188, 0x1000, 128, 0x0,
      [⟨31, 0, .ro⟩]⟩,
    ⟨"LANE_RS_SES", 0x10018C, 0x1000, 128, 0x0,
      [⟨31, 0, .ro⟩]⟩,
    ⟨"LANE_RS_SEFS", 0x100190, 0x1000, 128, 0x0,
      [⟨31, 0, .ro⟩]⟩,
    ⟨"LANE_MS_BIP", 0x100194, 0x1000, 128, 0x0,
      [⟨31, 0, .ro⟩]⟩,
    ⟨"LANE_MS_EB", 0x100198, 0x1000, 128, 0x0,
      [⟨31, 0, .ro⟩]⟩,
    ⟨"LANE_MS_REI", 0x10019C, 0x1000, 128, 0x0,
      [⟨31, 0, .ro⟩]⟩,
    ⟨"LANE_MS_FEB", 0x1001A0, 0x1000, 128, 0x0,
      [⟨31, 0, .ro⟩]⟩,
    ⟨"LANE_MS_ES", 0x1001A4, 0x1000, 128, 0x0,
      [⟨31, 0, .ro⟩]⟩,
    ⟨"LANE_MS_SES", 0x1001A8, 0x1000, 128, 0x0,
      [⟨31, 0, .ro⟩]⟩,
    ⟨"LANE_MS_UAS", 0x1001AC, 0x1000, 128, 0x0,
      [⟨31, 0, .ro⟩]⟩,
    ⟨"LANE_MS_FE_ES", 0x1001B0, 0x1000, 128, 0x0,
      [⟨31, 0, .ro⟩]⟩,
    ⟨"LANE_MS_FE_SES", 0x1001B4, 0x1000, 128, 0x0,
      [⟨31, 0, .ro⟩]⟩ ]

/-- LANE registers, part 3 (R434, R435, R70, R262). -/
def rowsLaneC : List RegRow :=
  [ ⟨"LANE_MS_FE_UAS", 0x1001B8, 0x1000, 128, 0x0,
      [⟨31, 0, .ro⟩]⟩,
    ⟨"LANE_OOF_CNT", 0x1001BC, 0x1000, 128, 0x0,
      [⟨31, 0, .ro⟩]⟩,
    ⟨"LANE_ETH_CTL", 0x100200, 0x1000, 128, 0x5F2,
      [⟨13, 0, .rw⟩, ⟨14, 14, .rw⟩, ⟨15, 15, .rw⟩, ⟨27, 16, .rw⟩]⟩,
    ⟨"LANE_ETH_STATUS", 0x100204, 0x1000, 128, 0x0,
      [⟨0, 0, .ro⟩, ⟨1, 1, .ro⟩, ⟨2, 2, .ro⟩, ⟨3, 3, .ro⟩, ⟨4, 4, .ro⟩, ⟨5, 5, .ro⟩]⟩,
    ⟨"LANE_LAT", 0x100208, 0x1000, 128, 0x0,
      [⟨15, 0, .ro⟩, ⟨31, 16, .ro⟩]⟩,
    ⟨"LANE_ETH_MAC_LO", 0x10020C, 0x1000, 128, 0x0,
      [⟨31, 0, .rwl⟩]⟩,
    ⟨"LANE_ETH_MAC_HI", 0x100210, 0x1000, 128, 0x0,
      [⟨15, 0, .rwl⟩]⟩,
    ⟨"LANE_ETH_RX_OK", 0x100280, 0x1000, 128, 0x0,
      [⟨31, 0, .ro⟩]⟩,
    ⟨"LANE_ETH_RX_FCS", 0x100284, 0x1000, 128, 0x0,
      [⟨31, 0, .ro⟩]⟩,
    ⟨"LANE_ETH_RX_NOMATCH", 0x100288, 0x1000, 128, 0x0,
      [⟨31, 0, .ro⟩]⟩,
    ⟨"LANE_ETH_RX_HOSTDROP", 0x10028C, 0x1000, 128, 0x0,
      [⟨31, 0, .ro⟩]⟩,
    ⟨"LANE_ETH_RX_PAUSE", 0x100290, 0x1000, 128, 0x0,
      [⟨31, 0, .ro⟩]⟩,
    ⟨"LANE_ETH_TX_OK", 0x100294, 0x1000, 128, 0x0,
      [⟨31, 0, .ro⟩]⟩,
    ⟨"LANE_ETH_TX_DROP", 0x100298, 0x1000, 128, 0x0,
      [⟨31, 0, .ro⟩]⟩,
    ⟨"LANE_ETH_FEC_CORR", 0x10029C, 0x1000, 128, 0x0,
      [⟨31, 0, .ro⟩]⟩,
    ⟨"LANE_ETH_FEC_UNCORR", 0x1002A0, 0x1000, 128, 0x0,
      [⟨31, 0, .ro⟩]⟩ ]

/-- TRIB registers, part 1 (R434, R435, R119, R120). -/
def rowsTribA : List RegRow :=
  [ ⟨"TRIB_CTL", 0x180000, 0x400, 64, 0x0,
      [⟨0, 0, .rw⟩, ⟨2, 1, .rw⟩, ⟨4, 3, .rw⟩, ⟨5, 5, .rw⟩, ⟨8, 6, .rw⟩, ⟨10, 9, .rw⟩, ⟨11, 11, .rw⟩, ⟨12, 12, .rw⟩, ⟨13, 13, .rw⟩, ⟨19, 14, .rw⟩]⟩,
    ⟨"TRIB_CTL", 0x180000, 0x400, 64, 0x0,
      [⟨0, 0, .rw⟩, ⟨2, 1, .rw⟩, ⟨4, 3, .rw⟩, ⟨5, 5, .rw⟩, ⟨8, 6, .rw⟩, ⟨10, 9, .rw⟩, ⟨11, 11, .rw⟩, ⟨12, 12, .rw⟩, ⟨13, 13, .rw⟩, ⟨19, 14, .rw⟩]⟩,
    ⟨"TRIB_FRM", 0x180004, 0x400, 64, 0x0,
      [⟨1, 0, .rw⟩, ⟨3, 2, .rw⟩, ⟨4, 4, .rw⟩, ⟨5, 5, .rw⟩, ⟨6, 6, .rw⟩, ⟨7, 7, .rw⟩, ⟨12, 8, .rw⟩]⟩,
    ⟨"TRIB_STATUS", 0x180008, 0x400, 64, 0x0,
      [⟨2, 0, .ro⟩, ⟨3, 3, .ro⟩, ⟨4, 4, .ro⟩, ⟨5, 5, .ro⟩, ⟨6, 6, .ro⟩, ⟨7, 7, .ro⟩, ⟨8, 8, .ro⟩, ⟨9, 9, .ro⟩, ⟨10, 10, .ro⟩, ⟨11, 11, .ro⟩, ⟨12, 12, .ro⟩, ⟨13, 13, .ro⟩, ⟨14, 14, .ro⟩, ⟨15, 15, .ro⟩, ⟨19, 16, .ro⟩]⟩,
    ⟨"TRIB_LIU", 0x18000C, 0x400, 64, 0x0,
      [⟨5, 0, .ro⟩, ⟨10, 6, .ro⟩, ⟨15, 11, .ro⟩, ⟨16, 16, .ro⟩]⟩,
    ⟨"TRIB_RXOH", 0x180010, 0x400, 64, 0x0,
      [⟨4, 0, .ro⟩, ⟨11, 8, .ro⟩]⟩,
    ⟨"TRIB_CV", 0x180080, 0x400, 64, 0x0,
      [⟨31, 0, .ro⟩]⟩,
    ⟨"TRIB_EXZ", 0x180084, 0x400, 64, 0x0,
      [⟨31, 0, .ro⟩]⟩,
    ⟨"TRIB_FAS_ERR", 0x180088, 0x400, 64, 0x0,
      [⟨31, 0, .ro⟩]⟩,
    ⟨"TRIB_CRC", 0x18008C, 0x400, 64, 0x0,
      [⟨31, 0, .ro⟩]⟩,
    ⟨"TRIB_REI", 0x180090, 0x400, 64, 0x0,
      [⟨31, 0, .ro⟩]⟩,
    ⟨"TRIB_OOF_CNT", 0x180094, 0x400, 64, 0x0,
      [⟨31, 0, .ro⟩]⟩,
    ⟨"TRIB_RX_SLIP_P", 0x180098, 0x400, 64, 0x0,
      [⟨31, 0, .ro⟩]⟩,
    ⟨"TRIB_RX_SLIP_N", 0x18009C, 0x400, 64, 0x0,
      [⟨31, 0, .ro⟩]⟩,
    ⟨"TRIB_TX_SLIP_P", 0x1800A0, 0x400, 64, 0x0,
      [⟨31, 0, .ro⟩]⟩,
    ⟨"TRIB_TX_SLIP_N", 0x1800A4, 0x400, 64, 0x0,
      [⟨31, 0, .ro⟩]⟩ ]

/-- TRIB registers, part 2 (R434, R435, R120). -/
def rowsTribB : List RegRow :=
  [ ⟨"TRIB_ES", 0x1800A8, 0x400, 64, 0x0,
      [⟨31, 0, .ro⟩]⟩,
    ⟨"TRIB_SES", 0x1800AC, 0x400, 64, 0x0,
      [⟨31, 0, .ro⟩]⟩,
    ⟨"TRIB_UAS", 0x1800B0, 0x400, 64, 0x0,
      [⟨31, 0, .ro⟩]⟩,
    ⟨"TRIB_FE_ES", 0x1800B4, 0x400, 64, 0x0,
      [⟨31, 0, .ro⟩]⟩,
    ⟨"TRIB_FE_SES", 0x1800B8, 0x400, 64, 0x0,
      [⟨31, 0, .ro⟩]⟩,
    ⟨"TRIB_FE_UAS", 0x1800BC, 0x400, 64, 0x0,
      [⟨31, 0, .ro⟩]⟩ ]

/-- OHP registers (R434, R435, R72). -/
def rowsOhp : List RegRow :=
  [ ⟨"OHP_J0_TX", 0x200000, 0x4, 2048, 0x0,
      [⟨31, 0, .rw⟩]⟩,
    ⟨"OHP_J0_EXP", 0x202000, 0x4, 2048, 0x0,
      [⟨31, 0, .rw⟩]⟩,
    ⟨"OHP_J0_ACC", 0x204000, 0x4, 2048, 0x0,
      [⟨31, 0, .ro⟩]⟩,
    ⟨"OHP_DCC_CTL", 0x206000, 0x4, 256, 0x0,
      [⟨0, 0, .rw⟩, ⟨1, 1, .rw⟩, ⟨8, 2, .rw⟩, ⟨9, 9, .rw⟩, ⟨12, 10, .rw⟩, ⟨17, 13, .rw⟩, ⟨29, 18, .rw⟩, ⟨30, 30, .rw⟩]⟩,
    ⟨"OHP_OSP_CTL", 0x206400, 0x4, 8, 0x0,
      [⟨0, 0, .rw⟩, ⟨2, 1, .rw⟩]⟩,
    ⟨"OHP_OSP_OW", 0x206500, 0x4, 96, 0x0,
      [⟨6, 0, .rw⟩, ⟨7, 7, .rw⟩]⟩,
    ⟨"OHP_DCC_RX_BAD", 0x207000, 0x4, 256, 0x0,
      [⟨31, 0, .ro⟩]⟩,
    ⟨"OHP_DCC_RX_DROP", 0x207400, 0x4, 256, 0x0,
      [⟨31, 0, .ro⟩]⟩ ]

/-- FAB registers (R434, R435, R142). -/
def rowsFab : List RegRow :=
  [ ⟨"FAB_STATUS", 0x300000, 0x0, 1, 0x0,
      [⟨13, 0, .ro⟩, ⟨30, 14, .ro⟩]⟩,
    ⟨"FAB_POOL", 0x300004, 0x0, 1, 0x0,
      [⟨18, 0, .ro⟩, ⟨24, 19, .ro⟩]⟩,
    ⟨"FAB_BANK_ON", 0x300008, 0x0, 1, 0x0,
      [⟨31, 0, .ro⟩]⟩,
    ⟨"FAB_BANK_LEASE", 0x30000C, 0x0, 1, 0x0,
      [⟨31, 0, .ro⟩]⟩,
    ⟨"FAB_IDLE", 0x300010, 0x0, 1, 0xFFD5,
      [⟨7, 0, .rwl⟩, ⟨15, 8, .rwl⟩]⟩,
    ⟨"FAB_BANK_LEASE_R", 0x300014, 0x0, 1, 0x0,
      [⟨31, 0, .ro⟩]⟩,
    ⟨"FAB_DUAL", 0x300018, 0x0, 1, 0x0,
      [⟨10, 0, .ro⟩]⟩,
    ⟨"FAB_PAR_RECOV", 0x300020, 0x0, 1, 0x0,
      [⟨31, 0, .ro⟩]⟩,
    ⟨"FAB_PAR_UNREC", 0x300024, 0x0, 1, 0x0,
      [⟨31, 0, .ro⟩]⟩,
    ⟨"FAB_PAR_INJ", 0x300030, 0x0, 1, 0x0,
      [⟨5, 0, .wo⟩, ⟨10, 6, .wo⟩, ⟨11, 11, .wo⟩, ⟨31, 31, .wo⟩]⟩,
    ⟨"FAB_LAT_SLOT", 0x300040, 0x0, 1, 0x0,
      [⟨31, 0, .rw⟩]⟩,
    ⟨"FAB_LAT_VAL", 0x300044, 0x0, 1, 0x0,
      [⟨28, 0, .ro⟩, ⟨29, 29, .ro⟩]⟩,
    ⟨"FAB_PMON_CTL", 0x300100, 0x10, 8, 0x0,
      [⟨0, 0, .rw⟩, ⟨2, 1, .rw⟩, ⟨3, 3, .ro⟩]⟩,
    ⟨"FAB_PMON_SLOT", 0x300104, 0x10, 8, 0x0,
      [⟨31, 0, .rw⟩]⟩,
    ⟨"FAB_PMON_ERR", 0x300108, 0x10, 8, 0x0,
      [⟨31, 0, .ro⟩]⟩,
    ⟨"FAB_PMON_BITS", 0x30010C, 0x10, 8, 0x0,
      [⟨31, 0, .ro⟩]⟩ ]

/-- MAP registers (R434, R435, R158). -/
def rowsMap : List RegRow :=
  [ ⟨"MAP_USED_HO", 0x310000, 0x0, 1, 0x0,
      [⟨21, 0, .ro⟩]⟩,
    ⟨"MAP_USED_LO", 0x310004, 0x0, 1, 0x0,
      [⟨21, 0, .ro⟩]⟩,
    ⟨"MAP_USED_DS0", 0x310008, 0x0, 1, 0x0,
      [⟨21, 0, .ro⟩]⟩,
    ⟨"MAP_GEN", 0x31000C, 0x0, 1, 0x0,
      [⟨31, 0, .ro⟩]⟩,
    ⟨"MAP_PEEK_SLOT", 0x310010, 0x0, 1, 0x0,
      [⟨31, 0, .rw⟩]⟩,
    ⟨"MAP_PEEK_W0", 0x310014, 0x0, 1, 0x0,
      [⟨31, 0, .ro⟩]⟩,
    ⟨"MAP_PEEK_W1", 0x310018, 0x0, 1, 0x80000000,
      [⟨3, 0, .ro⟩, ⟨4, 4, .ro⟩, ⟨31, 31, .ro⟩]⟩,
    ⟨"MAP_PEEK_INFORCE", 0x31001C, 0x0, 1, 0x0,
      [⟨31, 0, .ro⟩]⟩,
    ⟨"MAP_CC_COUNT", 0x310020, 0x0, 1, 0x0,
      [⟨14, 0, .ro⟩]⟩ ]

/-- GTH registers (R434, R435, R179). -/
def rowsGth : List RegRow :=
  [ ⟨"GTH_SFC", 0x320000, 0x0, 1, 0x0,
      [⟨15, 0, .ro⟩, ⟨19, 16, .ro⟩]⟩,
    ⟨"GTH_USE", 0x320004, 0x0, 1, 0x0,
      [⟨4, 0, .ro⟩, ⟨23, 5, .ro⟩]⟩,
    ⟨"GTH_NEXT", 0x320008, 0x0, 1, 0x0,
      [⟨15, 0, .ro⟩, ⟨16, 16, .ro⟩]⟩,
    ⟨"GTH_JRN_HEAD", 0x32000C, 0x0, 1, 0x0,
      [⟨31, 0, .ro⟩]⟩,
    ⟨"GTH_SLOT_ID", 0x320100, 0x10, 16, 0x0,
      [⟨15, 0, .ro⟩, ⟨17, 16, .ro⟩]⟩,
    ⟨"GTH_SLOT_EDITS", 0x320104, 0x10, 16, 0x0,
      [⟨16, 0, .ro⟩]⟩,
    ⟨"GTH_SLOT_SFC", 0x320108, 0x10, 16, 0x0,
      [⟨15, 0, .ro⟩, ⟨16, 16, .ro⟩]⟩ ]

/-- PROT registers (R434, R435, R200). -/
def rowsProt : List RegRow :=
  [ ⟨"PROT_CNT_HO", 0x330000, 0x0, 1, 0x0,
      [⟨17, 0, .ro⟩]⟩,
    ⟨"PROT_CNT_LO", 0x330004, 0x0, 1, 0x0,
      [⟨17, 0, .ro⟩]⟩,
    ⟨"PROT_CNT_DS0", 0x330008, 0x0, 1, 0x0,
      [⟨17, 0, .ro⟩]⟩,
    ⟨"PROT_PEEK_SEL", 0x330010, 0x0, 1, 0x0,
      [⟨16, 0, .rw⟩, ⟨18, 17, .rw⟩]⟩,
    ⟨"PROT_PEEK_STATE", 0x330014, 0x0, 1, 0x80000000,
      [⟨31, 0, .ro⟩]⟩,
    ⟨"PROT_PEEK_TIMER", 0x330018, 0x0, 1, 0x0,
      [⟨19, 0, .ro⟩, ⟨20, 20, .ro⟩]⟩,
    ⟨"PROT_GRP_STATUS", 0x330100, 0x10, 64, 0x0,
      [⟨3, 0, .ro⟩, ⟨7, 4, .ro⟩, ⟨11, 8, .ro⟩, ⟨15, 12, .ro⟩, ⟨16, 16, .ro⟩, ⟨17, 17, .ro⟩, ⟨18, 18, .ro⟩, ⟨19, 19, .ro⟩, ⟨20, 20, .ro⟩, ⟨21, 21, .ro⟩, ⟨24, 22, .ro⟩, ⟨25, 25, .ro⟩]⟩,
    ⟨"PROT_GRP_K", 0x330104, 0x10, 64, 0x0,
      [⟨7, 0, .ro⟩, ⟨15, 8, .ro⟩, ⟨23, 16, .ro⟩, ⟨31, 24, .ro⟩]⟩,
    ⟨"PROT_GRP_SWITCHES", 0x330108, 0x10, 64, 0x0,
      [⟨31, 0, .ro⟩]⟩,
    ⟨"PROT_GRP_TIMER", 0x33010C, 0x10, 64, 0x0,
      [⟨31, 0, .ro⟩]⟩ ]

/-- MRG registers (R434, R435, R223). -/
def rowsMrg : List RegRow :=
  [ ⟨"MRG_RATE", 0x340000, 0x0, 1, 0x0,
      [⟨29, 0, .ro⟩]⟩,
    ⟨"MRG_COUNT", 0x340004, 0x0, 1, 0x0,
      [⟨17, 0, .ro⟩]⟩,
    ⟨"MRG_PAGES", 0x340008, 0x0, 1, 0x0,
      [⟨23, 0, .ro⟩]⟩,
    ⟨"MRG_PEEK_SEL", 0x340010, 0x0, 1, 0x0,
      [⟨16, 0, .rw⟩, ⟨18, 17, .rw⟩]⟩,
    ⟨"MRG_PEEK_STATE", 0x340014, 0x0, 1, 0x80000000,
      [⟨1, 0, .ro⟩, ⟨5, 2, .ro⟩, ⟨6, 6, .ro⟩, ⟨7, 7, .ro⟩, ⟨8, 8, .ro⟩, ⟨9, 9, .ro⟩, ⟨10, 10, .ro⟩, ⟨11, 11, .ro⟩, ⟨12, 12, .ro⟩, ⟨31, 31, .ro⟩]⟩,
    ⟨"MRG_PEEK_DIFF", 0x340018, 0x0, 1, 0x0,
      [⟨25, 0, .ro⟩, ⟨26, 26, .ro⟩]⟩,
    ⟨"MRG_PEEK_ALT", 0x34001C, 0x0, 1, 0x0,
      [⟨31, 0, .ro⟩]⟩,
    ⟨"MRG_PEEK_BOTH", 0x340020, 0x0, 1, 0x0,
      [⟨31, 0, .ro⟩]⟩ ]

/-- SYM registers (R434, R435, R239). -/
def rowsSym : List RegRow :=
  [ ⟨"SYM_CTL", 0x350000, 0x0, 1, 0x2,
      [⟨0, 0, .rwl⟩, ⟨1, 1, .rw⟩]⟩,
    ⟨"SYM_NODE_ID", 0x350004, 0x0, 1, 0x0,
      [⟨31, 0, .rwl⟩]⟩,
    ⟨"SYM_COUNT", 0x350008, 0x0, 1, 0x0,
      [⟨12, 0, .ro⟩]⟩,
    ⟨"SYM_PROBE_BAD", 0x35000C, 0x0, 1, 0x0,
      [⟨31, 0, .ro⟩]⟩,
    ⟨"SYM_PEEK_SEL", 0x350010, 0x0, 1, 0x0,
      [⟨11, 0, .rw⟩]⟩,
    ⟨"SYM_PEEK_STATE", 0x350014, 0x0, 1, 0x80000000,
      [⟨2, 0, .ro⟩, ⟨3, 3, .ro⟩, ⟨4, 4, .ro⟩, ⟨5, 5, .ro⟩, ⟨6, 6, .ro⟩, ⟨22, 7, .ro⟩, ⟨31, 31, .ro⟩]⟩,
    ⟨"SYM_PEEK_IN", 0x350018, 0x0, 1, 0x0,
      [⟨27, 0, .ro⟩, ⟨28, 28, .ro⟩]⟩,
    ⟨"SYM_PEEK_OUT", 0x35001C, 0x0, 1, 0x0,
      [⟨27, 0, .ro⟩, ⟨28, 28, .ro⟩]⟩,
    ⟨"SYM_PEEK_COMP", 0x350020, 0x0, 1, 0x0,
      [⟨22, 0, .ro⟩]⟩,
    ⟨"SYM_PEEK_ASYM", 0x350024, 0x0, 1, 0x0,
      [⟨27, 0, .ro⟩]⟩,
    ⟨"SYM_PAGES", 0x350028, 0x0, 1, 0x0,
      [⟨25, 0, .ro⟩]⟩ ]

/-- CEM registers (R434, R435, R263). -/
def rowsCem : List RegRow :=
  [ ⟨"CEM_COUNT", 0x360000, 0x0, 1, 0x0,
      [⟨14, 0, .ro⟩]⟩,
    ⟨"CEM_PAGES", 0x360004, 0x0, 1, 0x0,
      [⟨20, 0, .ro⟩]⟩,
    ⟨"CEM_PEEK_SEL", 0x36000C, 0x0, 1, 0x0,
      [⟨13, 0, .rw⟩]⟩,
    ⟨"CEM_PEEK_STATE", 0x360010, 0x0, 1, 0x80000000,
      [⟨1, 0, .ro⟩, ⟨2, 2, .ro⟩, ⟨3, 3, .ro⟩, ⟨31, 31, .ro⟩]⟩,
    ⟨"CEM_PEEK_FILL", 0x360014, 0x0, 1, 0x0,
      [⟨15, 0, .ro⟩, ⟨31, 16, .ro⟩]⟩,
    ⟨"CEM_PEEK_FREQ", 0x360018, 0x0, 1, 0x0,
      [⟨31, 0, .ro⟩]⟩ ]

/-- PM registers (R434, R435, R364). -/
def rowsPm : List RegRow :=
  [ ⟨"PM_SNAP_ADDR", 0x400000, 0x0, 1, 0x0,
      [⟨25, 0, .rw⟩]⟩,
    ⟨"PM_SNAP_SEQ", 0x400004, 0x0, 1, 0x0,
      [⟨31, 0, .ro⟩]⟩,
    ⟨"PM_SNAP_VAL", 0x400008, 0x0, 1, 0x0,
      [⟨31, 0, .ro⟩]⟩,
    ⟨"PM_SNAP_HI", 0x40000C, 0x0, 1, 0x0,
      [⟨31, 0, .ro⟩]⟩,
    ⟨"PM_SNAP_STAT", 0x400010, 0x0, 1, 0x1,
      [⟨0, 0, .ro⟩, ⟨1, 1, .ro⟩, ⟨2, 2, .ro⟩]⟩,
    ⟨"PM_HIST_SLOT", 0x400020, 0x0, 1, 0x0,
      [⟨31, 0, .ro⟩]⟩,
    ⟨"PM_HIST_OLDEST", 0x400024, 0x0, 1, 0x0,
      [⟨31, 0, .ro⟩]⟩,
    ⟨"PM_CHAIN_CFG", 0x400100, 0x10, 256, 0x0,
      [⟨25, 0, .rw⟩, ⟨31, 31, .rw⟩]⟩,
    ⟨"PM_CHAIN_HI", 0x400104, 0x10, 256, 0x0,
      [⟨31, 0, .rw⟩]⟩,
    ⟨"PM_CHAIN_ST", 0x400108, 0x10, 256, 0x0,
      [⟨0, 0, .ro⟩, ⟨1, 1, .ro⟩]⟩ ]

/-- RING registers (R434, R435, R307). -/
def rowsRing : List RegRow :=
  [ ⟨"RING_BASE_LO", 0x600000, 0x40, 4096, 0x0,
      [⟨31, 12, .rwl⟩]⟩,
    ⟨"RING_BASE_HI", 0x600004, 0x40, 4096, 0x0,
      [⟨31, 0, .rwl⟩]⟩,
    ⟨"RING_CFG", 0x600008, 0x40, 1, 0x10020006,
      [⟨4, 0, .rwl⟩, ⟨6, 5, .rwl⟩, ⟨9, 7, .rwl⟩, ⟨15, 10, .rwl⟩, ⟨27, 16, .rwl⟩, ⟨28, 28, .rwl⟩]⟩,
    ⟨"RING_CFG", 0x600048, 0x40, 1, 0x10020026,
      [⟨4, 0, .rwl⟩, ⟨6, 5, .rwl⟩, ⟨9, 7, .rwl⟩, ⟨15, 10, .rwl⟩, ⟨27, 16, .rwl⟩, ⟨28, 28, .rwl⟩]⟩,
    ⟨"RING_CFG", 0x600088, 0x40, 1, 0x10020046,
      [⟨4, 0, .rwl⟩, ⟨6, 5, .rwl⟩, ⟨9, 7, .rwl⟩, ⟨15, 10, .rwl⟩, ⟨27, 16, .rwl⟩, ⟨28, 28, .rwl⟩]⟩,
    ⟨"RING_CFG", 0x6000C8, 0x40, 1, 0x10020446,
      [⟨4, 0, .rwl⟩, ⟨6, 5, .rwl⟩, ⟨9, 7, .rwl⟩, ⟨15, 10, .rwl⟩, ⟨27, 16, .rwl⟩, ⟨28, 28, .rwl⟩]⟩,
    ⟨"RING_CFG", 0x600108, 0x40, 4092, 0x10020006,
      [⟨4, 0, .rwl⟩, ⟨6, 5, .rwl⟩, ⟨9, 7, .rwl⟩, ⟨15, 10, .rwl⟩, ⟨27, 16, .rwl⟩, ⟨28, 28, .rwl⟩]⟩,
    ⟨"RING_CTL", 0x60000C, 0x40, 4096, 0x0,
      [⟨0, 0, .rw⟩, ⟨1, 1, .ro⟩, ⟨2, 2, .ro⟩]⟩,
    ⟨"RING_PROD", 0x600010, 0x40, 4096, 0x10000,
      [⟨15, 0, .ro⟩, ⟨16, 16, .ro⟩]⟩,
    ⟨"RING_CONS", 0x600014, 0x40, 4096, 0x0,
      [⟨15, 0, .ro⟩]⟩,
    ⟨"RING_INFLIGHT", 0x600018, 0x40, 4096, 0x0,
      [⟨16, 0, .ro⟩]⟩ ]

/-- HBM registers (R434, R435, R403). -/
def rowsHbm : List RegRow :=
  [ ⟨"HBM_REGION", 0x1000000, 0x4, 5, 0x0,
      [⟨7, 0, .rw⟩]⟩,
    ⟨"HBM_STATUS", 0x1000020, 0x0, 1, 0xE80,
      [⟨7, 0, .ro⟩, ⟨11, 8, .ro⟩, ⟨12, 12, .ro⟩]⟩,
    ⟨"HBM_CORR_CNT", 0x100002C, 0x0, 1, 0x0,
      [⟨31, 0, .ro⟩]⟩,
    ⟨"HBM_UNCORR_CNT", 0x1000030, 0x0, 1, 0x0,
      [⟨31, 0, .ro⟩]⟩,
    ⟨"HBM_CULLET", 0x1000040, 0x4, 4, 0x0,
      [⟨16, 0, .ro⟩]⟩,
    ⟨"HBM_ERR_ADDR_LO", 0x1000050, 0x0, 1, 0x0,
      [⟨31, 0, .ro⟩]⟩,
    ⟨"HBM_ERR_ADDR_HI", 0x1000054, 0x0, 1, 0x0,
      [⟨5, 0, .ro⟩]⟩ ]

/-- BGL registers (R434, R435, R404). -/
def rowsBgl : List RegRow :=
  [ ⟨"BGL_CTL", 0x1010000, 0x0, 1, 0x40,
      [⟨0, 0, .rw⟩, ⟨1, 1, .rw⟩, ⟨2, 2, .rw⟩, ⟨7, 3, .rw⟩]⟩,
    ⟨"BGL_REQ", 0x1010004, 0x0, 1, 0x0,
      [⟨1, 0, .wo⟩, ⟨18, 2, .wo⟩, ⟨31, 31, .wo⟩]⟩,
    ⟨"BGL_STATUS", 0x1010008, 0x0, 1, 0x1F0,
      [⟨0, 0, .ro⟩, ⟨1, 1, .ro⟩, ⟨2, 2, .ro⟩, ⟨3, 3, .ro⟩, ⟨8, 4, .ro⟩]⟩,
    ⟨"BGL_TESTED", 0x1010010, 0x0, 1, 0x0,
      [⟨31, 0, .ro⟩]⟩,
    ⟨"BGL_FAILED", 0x1010014, 0x0, 1, 0x0,
      [⟨31, 0, .ro⟩]⟩,
    ⟨"BGL_REVOKED", 0x1010018, 0x0, 1, 0x0,
      [⟨31, 0, .ro⟩]⟩ ]

/-- The rows of the block that offset `off` lies in (R434). -/
def blockRows (off : Nat) : List RegRow :=
  let b := off / 0x10000
  if b = 0x0 then rowsGlb else
  if b = 0x1 then rowsPwr else
  if b = 0x2 then rowsMtx else
  if b = 0x3 then rowsHifA ++ rowsHifB else
  if 0x4 ≤ b ∧ b ≤ 0x7 then rowsEvt else
  if b = 0x8 then rowsTimA ++ rowsTimB else
  if b = 0x9 then rowsTod else
  if 0x10 ≤ b ∧ b ≤ 0x17 then rowsLaneA ++ rowsLaneB ++ rowsLaneC else
  if b = 0x18 then rowsTribA ++ rowsTribB else
  if b = 0x20 then rowsOhp else
  if b = 0x30 then rowsFab else
  if b = 0x31 then rowsMap else
  if b = 0x32 then rowsGth else
  if b = 0x33 then rowsProt else
  if b = 0x34 then rowsMrg else
  if b = 0x35 then rowsSym else
  if b = 0x36 then rowsCem else
  if b = 0x40 then rowsPm else
  if 0x60 ≤ b ∧ b ≤ 0x63 then rowsRing else
  if b = 0x100 then rowsHbm else
  if b = 0x101 then rowsBgl else
  []

/-- The row of the register at BAR0 offset `off`, if a register is listed there (R304, R434). -/
def regRow? (off : Nat) : Option RegRow := (blockRows off).find? (fun r => r.has off)

/-- The reset word of the register at `off`; 0 where none is listed (R435). -/
def regReset (off : Nat) : Word := match regRow? off with
  | some r => w32 r.reset
  | none => 0

/-- The bits of a row that hold fields of type `a`. -/
def accMask (r : RegRow) (a : Acc) : Word :=
  r.fields.foldl (fun m f => if f.acc = a then m ||| maskOf f.hi f.lo else m) 0

/-- The bits of a row that are assigned. -/
def assigned (r : RegRow) : Word := r.fields.foldl (fun m f => m ||| maskOf f.hi f.lo) 0

/-- GLB_ID (R435). -/
def Reg.glbId : Nat := 0x0
/-- GLB_REV (R435). -/
def Reg.glbRev : Nat := 0x4
/-- GLB_MODE (R435). -/
def Reg.glbMode : Nat := 0x10
/-- GLB_STATUS (R435). -/
def Reg.glbStatus : Nat := 0x14
/-- GLB_BOOT (R435). -/
def Reg.glbBoot : Nat := 0x20
/-- GLB_FW_VERSION (R435). -/
def Reg.glbFwVersion : Nat := 0x24
/-- GLB_FW_SVN (R435). -/
def Reg.glbFwSvn : Nat := 0x28
/-- GLB_FLASH_ADDR (R435). -/
def Reg.glbFlashAddr : Nat := 0x30
/-- GLB_FLASH_CMD (R435). -/
def Reg.glbFlashCmd : Nat := 0x34
/-- GLB_FLASH_BUF: offset of instance `n` (R435). -/
def Reg.glbFlashBuf (n : Nat) : Nat := 0x100 + 0x4 * n
/-- PWR_CTL (R435). -/
def Reg.pwrCtl : Nat := 0x10000
/-- PWR_STATUS (R435). -/
def Reg.pwrStatus : Nat := 0x10004
/-- PWR_DOMAIN (R435). -/
def Reg.pwrDomain : Nat := 0x10008
/-- PWR_WAKE_TIMER (R435). -/
def Reg.pwrWakeTimer : Nat := 0x1000C
/-- PWR_AVS (R435). -/
def Reg.pwrAvs : Nat := 0x10010
/-- PWR_RAIL: offset of instance `n` (R435). -/
def Reg.pwrRail (n : Nat) : Nat := 0x10040 + 0x4 * n
/-- PWR_THERM: offset of instance `n` (R435). -/
def Reg.pwrTherm (n : Nat) : Nat := 0x10080 + 0x4 * n
/-- PWR_THERM_LIM (R435). -/
def Reg.pwrThermLim : Nat := 0x100C0
/-- PWR_THERM_STATUS (R435). -/
def Reg.pwrThermStatus : Nat := 0x100C4
/-- MTX_CTL (R435). -/
def Reg.mtxCtl : Nat := 0x20000
/-- MTX_LEASH (R435). -/
def Reg.mtxLeash : Nat := 0x20004
/-- MTX_HALF (R435). -/
def Reg.mtxHalf : Nat := 0x20008
/-- MTX_CLAIM_A (R435). -/
def Reg.mtxClaimA : Nat := 0x2000C
/-- MTX_CLAIM_B (R435). -/
def Reg.mtxClaimB : Nat := 0x20010
/-- MTX_CLAIM_RES (R435). -/
def Reg.mtxClaimRes : Nat := 0x20014
/-- MTX_ERR_CNT (R435). -/
def Reg.mtxErrCnt : Nat := 0x20020
/-- MTX_ERR_LAST (R435). -/
def Reg.mtxErrLast : Nat := 0x20024
/-- MTX_ERR_ADDR_LO (R435). -/
def Reg.mtxErrAddrLo : Nat := 0x20028
/-- MTX_ERR_ADDR_HI (R435). -/
def Reg.mtxErrAddrHi : Nat := 0x2002C
/-- MTX_LOCK (R435). -/
def Reg.mtxLock : Nat := 0x20030
/-- MTX_LOCK_TO_CNT (R435). -/
def Reg.mtxLockToCnt : Nat := 0x20034
/-- MTX_MBOX_COLL (R435). -/
def Reg.mtxMboxColl : Nat := 0x20040
/-- MTX_MBOX_COLL_CNT (R435). -/
def Reg.mtxMboxCollCnt : Nat := 0x20044
/-- HIF_STATUS (R435). -/
def Reg.hifStatus : Nat := 0x30000
/-- HIF_IGNORED_CNT (R435). -/
def Reg.hifIgnoredCnt : Nat := 0x30004
/-- HIF_IGNORED_LAST (R435). -/
def Reg.hifIgnoredLast : Nat := 0x30008
/-- HIF_IGNORED_ADDR (R435). -/
def Reg.hifIgnoredAddr : Nat := 0x3000C
/-- HIF_FAULT (R435). -/
def Reg.hifFault : Nat := 0x30010
/-- HIF_FAULT_RING (R435). -/
def Reg.hifFaultRing : Nat := 0x30014
/-- HIF_EPOCH (R435). -/
def Reg.hifEpoch : Nat := 0x30018
/-- HIF_XLAT_ROOT_LO (R435). -/
def Reg.hifXlatRootLo : Nat := 0x30100
/-- HIF_XLAT_ROOT_HI (R435). -/
def Reg.hifXlatRootHi : Nat := 0x30104
/-- HIF_XLAT_CTL (R435). -/
def Reg.hifXlatCtl : Nat := 0x30108
/-- HIF_XLAT_INV (R435). -/
def Reg.hifXlatInv : Nat := 0x3010C
/-- HIF_XLAT_STATUS (R435). -/
def Reg.hifXlatStatus : Nat := 0x30110
/-- HIF_XLAT_WALKS (R435). -/
def Reg.hifXlatWalks : Nat := 0x30114
/-- HIF_XLAT_FAULTS (R435). -/
def Reg.hifXlatFaults : Nat := 0x30118
/-- HIF_KNL_STATUS (R435). -/
def Reg.hifKnlStatus : Nat := 0x30120
/-- HIF_KNL_TIMEOUT (R435). -/
def Reg.hifKnlTimeout : Nat := 0x30124
/-- HIF_KNL_SEL (R435). -/
def Reg.hifKnlSel : Nat := 0x30128
/-- HIF_KNL_INFO0 (R435). -/
def Reg.hifKnlInfo0 : Nat := 0x3012C
/-- HIF_KNL_INFO1 (R435). -/
def Reg.hifKnlInfo1 : Nat := 0x30130
/-- HIF_KNL_INFO2 (R435). -/
def Reg.hifKnlInfo2 : Nat := 0x30134
/-- HIF_KNL_INFO3 (R435). -/
def Reg.hifKnlInfo3 : Nat := 0x30138
/-- HIF_KNL_INFO4 (R435). -/
def Reg.hifKnlInfo4 : Nat := 0x3013C
/-- EVT_ROUTE: offset of instance `n` (R435). -/
def Reg.evtRoute (n : Nat) : Nat := 0x40000 + 0x4 * n
/-- EVT_COAL: offset of instance `n` (R435). -/
def Reg.evtCoal (n : Nat) : Nat := 0x42000 + 0x4 * n
/-- EVT_STATUS (R435). -/
def Reg.evtStatus : Nat := 0x42100
/-- EVT_HELD_MAP: offset of instance `n` (R435). -/
def Reg.evtHeldMap (n : Nat) : Nat := 0x42200 + 0x4 * n
/-- EVT_TEST (R435). -/
def Reg.evtTest : Nat := 0x42300
/-- TIM_OSC (R435). -/
def Reg.timOsc : Nat := 0x80000
/-- TIM_MON_TOL (R435). -/
def Reg.timMonTol : Nat := 0x80004
/-- TIM_MON_DRIFT (R435). -/
def Reg.timMonDrift : Nat := 0x80008
/-- TIM_MON_WTR (R435). -/
def Reg.timMonWtr : Nat := 0x8000C
/-- TIM_REF_CFG: offset of instance `n` (R435). -/
def Reg.timRefCfg (n : Nat) : Nat := 0x80100 + 0x10 * n
/-- TIM_REF_STATUS: offset of instance `n` (R435). -/
def Reg.timRefStatus (n : Nat) : Nat := 0x80104 + 0x10 * n
/-- TIM_REF_OFS: offset of instance `n` (R435). -/
def Reg.timRefOfs (n : Nat) : Nat := 0x80108 + 0x10 * n
/-- TIM_REF_DRIFT: offset of instance `n` (R435). -/
def Reg.timRefDrift (n : Nat) : Nat := 0x8010C + 0x10 * n
/-- TIM_DPLL_CTL: offset of instance `n` (R435). -/
def Reg.timDpllCtl (n : Nat) : Nat := 0x80400 + 0x40 * n
/-- TIM_DPLL_BW: offset of instance `n` (R435). -/
def Reg.timDpllBw (n : Nat) : Nat := 0x80404 + 0x40 * n
/-- TIM_DPLL_LEHR: offset of instance `n` (R435). -/
def Reg.timDpllLehr (n : Nat) : Nat := 0x80408 + 0x40 * n
/-- TIM_DPLL_PRIO0: offset of instance `n` (R435). -/
def Reg.timDpllPrio0 (n : Nat) : Nat := 0x8040C + 0x40 * n
/-- TIM_DPLL_PRIO1: offset of instance `n` (R435). -/
def Reg.timDpllPrio1 (n : Nat) : Nat := 0x80410 + 0x40 * n
/-- TIM_DPLL_PRIO2: offset of instance `n` (R435). -/
def Reg.timDpllPrio2 (n : Nat) : Nat := 0x80414 + 0x40 * n
/-- TIM_DPLL_STATUS: offset of instance `n` (R435). -/
def Reg.timDpllStatus (n : Nat) : Nat := 0x80418 + 0x40 * n
/-- TIM_DPLL_FREQ: offset of instance `n` (R435). -/
def Reg.timDpllFreq (n : Nat) : Nat := 0x8041C + 0x40 * n
/-- TIM_DPLL_HOLD: offset of instance `n` (R435). -/
def Reg.timDpllHold (n : Nat) : Nat := 0x80420 + 0x40 * n
/-- TIM_DPLL_PHASE: offset of instance `n` (R435). -/
def Reg.timDpllPhase (n : Nat) : Nat := 0x80424 + 0x40 * n
/-- TIM_CLKOUT: offset of instance `n` (R435). -/
def Reg.timClkout (n : Nat) : Nat := 0x80500 + 0x4 * n
/-- TIM_FPOUT_CTL: offset of instance `n` (R435). -/
def Reg.timFpoutCtl (n : Nat) : Nat := 0x80540 + 0x8 * n
/-- TIM_FPOUT_HEEL: offset of instance `n` (R435). -/
def Reg.timFpoutHeel (n : Nat) : Nat := 0x80544 + 0x8 * n
/-- TOD_CTL (R435). -/
def Reg.todCtl : Nat := 0x90000
/-- TOD_STATUS (R435). -/
def Reg.todStatus : Nat := 0x90004
/-- TOD_NS (R435). -/
def Reg.todNs : Nat := 0x90008
/-- TOD_FRAC (R435). -/
def Reg.todFrac : Nat := 0x9000C
/-- TOD_SUBSEC (R435). -/
def Reg.todSubsec : Nat := 0x90010
/-- TOD_WRAPS (R435). -/
def Reg.todWraps : Nat := 0x90014
/-- TOD_INC_LO (R435). -/
def Reg.todIncLo : Nat := 0x90018
/-- TOD_INC_HI (R435). -/
def Reg.todIncHi : Nat := 0x9001C
/-- TOD_SERVO (R435). -/
def Reg.todServo : Nat := 0x90020
/-- TOD_PPS (R435). -/
def Reg.todPps : Nat := 0x90024
/-- TOD_OFS (R435). -/
def Reg.todOfs : Nat := 0x90028
/-- LANE_CTL: offset of instance `n` (R435). -/
def Reg.laneCtl (n : Nat) : Nat := 0x100000 + 0x1000 * n
/-- LANE_STATUS: offset of instance `n` (R435). -/
def Reg.laneStatus (n : Nat) : Nat := 0x100004 + 0x1000 * n
/-- LANE_TXFIR: offset of instance `n` (R435). -/
def Reg.laneTxfir (n : Nat) : Nat := 0x100008 + 0x1000 * n
/-- LANE_RXEQ: offset of instance `n` (R435). -/
def Reg.laneRxeq (n : Nat) : Nat := 0x10000C + 0x1000 * n
/-- LANE_FOFS: offset of instance `n` (R435). -/
def Reg.laneFofs (n : Nat) : Nat := 0x100010 + 0x1000 * n
/-- LANE_PRBS: offset of instance `n` (R435). -/
def Reg.lanePrbs (n : Nat) : Nat := 0x100014 + 0x1000 * n
/-- LANE_PRBS_ERR: offset of instance `n` (R435). -/
def Reg.lanePrbsErr (n : Nat) : Nat := 0x100018 + 0x1000 * n
/-- LANE_PRBS_BITS: offset of instance `n` (R435). -/
def Reg.lanePrbsBits (n : Nat) : Nat := 0x10001C + 0x1000 * n
/-- LANE_PRBS_PAT_LO: offset of instance `n` (R435). -/
def Reg.lanePrbsPatLo (n : Nat) : Nat := 0x100020 + 0x1000 * n
/-- LANE_PRBS_PAT_HI: offset of instance `n` (R435). -/
def Reg.lanePrbsPatHi (n : Nat) : Nat := 0x100024 + 0x1000 * n
/-- LANE_EYE_CTL: offset of instance `n` (R435). -/
def Reg.laneEyeCtl (n : Nat) : Nat := 0x100028 + 0x1000 * n
/-- LANE_EYE_RES: offset of instance `n` (R435). -/
def Reg.laneEyeRes (n : Nat) : Nat := 0x10002C + 0x1000 * n
/-- LANE_EYE_SUM: offset of instance `n` (R435). -/
def Reg.laneEyeSum (n : Nat) : Nat := 0x100030 + 0x1000 * n
/-- LANE_GPLL: offset of instance `n` (R435). -/
def Reg.laneGpll (n : Nat) : Nat := 0x100040 + 0x1000 * n
/-- LANE_FRM_CTL: offset of instance `n` (R435). -/
def Reg.laneFrmCtl (n : Nat) : Nat := 0x100100 + 0x1000 * n
/-- LANE_FRM_STATUS: offset of instance `n` (R435). -/
def Reg.laneFrmStatus (n : Nat) : Nat := 0x100104 + 0x1000 * n
/-- LANE_S1: offset of instance `n` (R435). -/
def Reg.laneS1 (n : Nat) : Nat := 0x100108 + 0x1000 * n
/-- LANE_K12: offset of instance `n` (R435). -/
def Reg.laneK12 (n : Nat) : Nat := 0x10010C + 0x1000 * n
/-- LANE_RS_BIP: offset of instance `n` (R435). -/
def Reg.laneRsBip (n : Nat) : Nat := 0x100180 + 0x1000 * n
/-- LANE_RS_EB: offset of instance `n` (R435). -/
def Reg.laneRsEb (n : Nat) : Nat := 0x100184 + 0x1000 * n
/-- LANE_RS_ES: offset of instance `n` (R435). -/
def Reg.laneRsEs (n : Nat) : Nat := 0x100188 + 0x1000 * n
/-- LANE_RS_SES: offset of instance `n` (R435). -/
def Reg.laneRsSes (n : Nat) : Nat := 0x10018C + 0x1000 * n
/-- LANE_RS_SEFS: offset of instance `n` (R435). -/
def Reg.laneRsSefs (n : Nat) : Nat := 0x100190 + 0x1000 * n
/-- LANE_MS_BIP: offset of instance `n` (R435). -/
def Reg.laneMsBip (n : Nat) : Nat := 0x100194 + 0x1000 * n
/-- LANE_MS_EB: offset of instance `n` (R435). -/
def Reg.laneMsEb (n : Nat) : Nat := 0x100198 + 0x1000 * n
/-- LANE_MS_REI: offset of instance `n` (R435). -/
def Reg.laneMsRei (n : Nat) : Nat := 0x10019C + 0x1000 * n
/-- LANE_MS_FEB: offset of instance `n` (R435). -/
def Reg.laneMsFeb (n : Nat) : Nat := 0x1001A0 + 0x1000 * n
/-- LANE_MS_ES: offset of instance `n` (R435). -/
def Reg.laneMsEs (n : Nat) : Nat := 0x1001A4 + 0x1000 * n
/-- LANE_MS_SES: offset of instance `n` (R435). -/
def Reg.laneMsSes (n : Nat) : Nat := 0x1001A8 + 0x1000 * n
/-- LANE_MS_UAS: offset of instance `n` (R435). -/
def Reg.laneMsUas (n : Nat) : Nat := 0x1001AC + 0x1000 * n
/-- LANE_MS_FE_ES: offset of instance `n` (R435). -/
def Reg.laneMsFeEs (n : Nat) : Nat := 0x1001B0 + 0x1000 * n
/-- LANE_MS_FE_SES: offset of instance `n` (R435). -/
def Reg.laneMsFeSes (n : Nat) : Nat := 0x1001B4 + 0x1000 * n
/-- LANE_MS_FE_UAS: offset of instance `n` (R435). -/
def Reg.laneMsFeUas (n : Nat) : Nat := 0x1001B8 + 0x1000 * n
/-- LANE_OOF_CNT: offset of instance `n` (R435). -/
def Reg.laneOofCnt (n : Nat) : Nat := 0x1001BC + 0x1000 * n
/-- LANE_ETH_CTL: offset of instance `n` (R435). -/
def Reg.laneEthCtl (n : Nat) : Nat := 0x100200 + 0x1000 * n
/-- LANE_ETH_STATUS: offset of instance `n` (R435). -/
def Reg.laneEthStatus (n : Nat) : Nat := 0x100204 + 0x1000 * n
/-- LANE_LAT: offset of instance `n` (R435). -/
def Reg.laneLat (n : Nat) : Nat := 0x100208 + 0x1000 * n
/-- LANE_ETH_MAC_LO: offset of instance `n` (R435). -/
def Reg.laneEthMacLo (n : Nat) : Nat := 0x10020C + 0x1000 * n
/-- LANE_ETH_MAC_HI: offset of instance `n` (R435). -/
def Reg.laneEthMacHi (n : Nat) : Nat := 0x100210 + 0x1000 * n
/-- LANE_ETH_RX_OK: offset of instance `n` (R435). -/
def Reg.laneEthRxOk (n : Nat) : Nat := 0x100280 + 0x1000 * n
/-- LANE_ETH_RX_FCS: offset of instance `n` (R435). -/
def Reg.laneEthRxFcs (n : Nat) : Nat := 0x100284 + 0x1000 * n
/-- LANE_ETH_RX_NOMATCH: offset of instance `n` (R435). -/
def Reg.laneEthRxNomatch (n : Nat) : Nat := 0x100288 + 0x1000 * n
/-- LANE_ETH_RX_HOSTDROP: offset of instance `n` (R435). -/
def Reg.laneEthRxHostdrop (n : Nat) : Nat := 0x10028C + 0x1000 * n
/-- LANE_ETH_RX_PAUSE: offset of instance `n` (R435). -/
def Reg.laneEthRxPause (n : Nat) : Nat := 0x100290 + 0x1000 * n
/-- LANE_ETH_TX_OK: offset of instance `n` (R435). -/
def Reg.laneEthTxOk (n : Nat) : Nat := 0x100294 + 0x1000 * n
/-- LANE_ETH_TX_DROP: offset of instance `n` (R435). -/
def Reg.laneEthTxDrop (n : Nat) : Nat := 0x100298 + 0x1000 * n
/-- LANE_ETH_FEC_CORR: offset of instance `n` (R435). -/
def Reg.laneEthFecCorr (n : Nat) : Nat := 0x10029C + 0x1000 * n
/-- LANE_ETH_FEC_UNCORR: offset of instance `n` (R435). -/
def Reg.laneEthFecUncorr (n : Nat) : Nat := 0x1002A0 + 0x1000 * n
/-- TRIB_CTL: offset of instance `n` (R435). -/
def Reg.tribCtl (n : Nat) : Nat := 0x180000 + 0x400 * n
/-- TRIB_FRM: offset of instance `n` (R435). -/
def Reg.tribFrm (n : Nat) : Nat := 0x180004 + 0x400 * n
/-- TRIB_STATUS: offset of instance `n` (R435). -/
def Reg.tribStatus (n : Nat) : Nat := 0x180008 + 0x400 * n
/-- TRIB_LIU: offset of instance `n` (R435). -/
def Reg.tribLiu (n : Nat) : Nat := 0x18000C + 0x400 * n
/-- TRIB_RXOH: offset of instance `n` (R435). -/
def Reg.tribRxoh (n : Nat) : Nat := 0x180010 + 0x400 * n
/-- TRIB_CV: offset of instance `n` (R435). -/
def Reg.tribCv (n : Nat) : Nat := 0x180080 + 0x400 * n
/-- TRIB_EXZ: offset of instance `n` (R435). -/
def Reg.tribExz (n : Nat) : Nat := 0x180084 + 0x400 * n
/-- TRIB_FAS_ERR: offset of instance `n` (R435). -/
def Reg.tribFasErr (n : Nat) : Nat := 0x180088 + 0x400 * n
/-- TRIB_CRC: offset of instance `n` (R435). -/
def Reg.tribCrc (n : Nat) : Nat := 0x18008C + 0x400 * n
/-- TRIB_REI: offset of instance `n` (R435). -/
def Reg.tribRei (n : Nat) : Nat := 0x180090 + 0x400 * n
/-- TRIB_OOF_CNT: offset of instance `n` (R435). -/
def Reg.tribOofCnt (n : Nat) : Nat := 0x180094 + 0x400 * n
/-- TRIB_RX_SLIP_P: offset of instance `n` (R435). -/
def Reg.tribRxSlipP (n : Nat) : Nat := 0x180098 + 0x400 * n
/-- TRIB_RX_SLIP_N: offset of instance `n` (R435). -/
def Reg.tribRxSlipN (n : Nat) : Nat := 0x18009C + 0x400 * n
/-- TRIB_TX_SLIP_P: offset of instance `n` (R435). -/
def Reg.tribTxSlipP (n : Nat) : Nat := 0x1800A0 + 0x400 * n
/-- TRIB_TX_SLIP_N: offset of instance `n` (R435). -/
def Reg.tribTxSlipN (n : Nat) : Nat := 0x1800A4 + 0x400 * n
/-- TRIB_ES: offset of instance `n` (R435). -/
def Reg.tribEs (n : Nat) : Nat := 0x1800A8 + 0x400 * n
/-- TRIB_SES: offset of instance `n` (R435). -/
def Reg.tribSes (n : Nat) : Nat := 0x1800AC + 0x400 * n
/-- TRIB_UAS: offset of instance `n` (R435). -/
def Reg.tribUas (n : Nat) : Nat := 0x1800B0 + 0x400 * n
/-- TRIB_FE_ES: offset of instance `n` (R435). -/
def Reg.tribFeEs (n : Nat) : Nat := 0x1800B4 + 0x400 * n
/-- TRIB_FE_SES: offset of instance `n` (R435). -/
def Reg.tribFeSes (n : Nat) : Nat := 0x1800B8 + 0x400 * n
/-- TRIB_FE_UAS: offset of instance `n` (R435). -/
def Reg.tribFeUas (n : Nat) : Nat := 0x1800BC + 0x400 * n
/-- OHP_J0_TX: offset of instance `n` (R435). -/
def Reg.ohpJ0Tx (n : Nat) : Nat := 0x200000 + 0x4 * n
/-- OHP_J0_EXP: offset of instance `n` (R435). -/
def Reg.ohpJ0Exp (n : Nat) : Nat := 0x202000 + 0x4 * n
/-- OHP_J0_ACC: offset of instance `n` (R435). -/
def Reg.ohpJ0Acc (n : Nat) : Nat := 0x204000 + 0x4 * n
/-- OHP_DCC_CTL: offset of instance `n` (R435). -/
def Reg.ohpDccCtl (n : Nat) : Nat := 0x206000 + 0x4 * n
/-- OHP_OSP_CTL: offset of instance `n` (R435). -/
def Reg.ohpOspCtl (n : Nat) : Nat := 0x206400 + 0x4 * n
/-- OHP_OSP_OW: offset of instance `n` (R435). -/
def Reg.ohpOspOw (n : Nat) : Nat := 0x206500 + 0x4 * n
/-- OHP_DCC_RX_BAD: offset of instance `n` (R435). -/
def Reg.ohpDccRxBad (n : Nat) : Nat := 0x207000 + 0x4 * n
/-- OHP_DCC_RX_DROP: offset of instance `n` (R435). -/
def Reg.ohpDccRxDrop (n : Nat) : Nat := 0x207400 + 0x4 * n
/-- FAB_STATUS (R435). -/
def Reg.fabStatus : Nat := 0x300000
/-- FAB_POOL (R435). -/
def Reg.fabPool : Nat := 0x300004
/-- FAB_BANK_ON (R435). -/
def Reg.fabBankOn : Nat := 0x300008
/-- FAB_BANK_LEASE (R435). -/
def Reg.fabBankLease : Nat := 0x30000C
/-- FAB_IDLE (R435). -/
def Reg.fabIdle : Nat := 0x300010
/-- FAB_BANK_LEASE_R (R435). -/
def Reg.fabBankLeaseR : Nat := 0x300014
/-- FAB_DUAL (R435). -/
def Reg.fabDual : Nat := 0x300018
/-- FAB_PAR_RECOV (R435). -/
def Reg.fabParRecov : Nat := 0x300020
/-- FAB_PAR_UNREC (R435). -/
def Reg.fabParUnrec : Nat := 0x300024
/-- FAB_PAR_INJ (R435). -/
def Reg.fabParInj : Nat := 0x300030
/-- FAB_LAT_SLOT (R435). -/
def Reg.fabLatSlot : Nat := 0x300040
/-- FAB_LAT_VAL (R435). -/
def Reg.fabLatVal : Nat := 0x300044
/-- FAB_PMON_CTL: offset of instance `n` (R435). -/
def Reg.fabPmonCtl (n : Nat) : Nat := 0x300100 + 0x10 * n
/-- FAB_PMON_SLOT: offset of instance `n` (R435). -/
def Reg.fabPmonSlot (n : Nat) : Nat := 0x300104 + 0x10 * n
/-- FAB_PMON_ERR: offset of instance `n` (R435). -/
def Reg.fabPmonErr (n : Nat) : Nat := 0x300108 + 0x10 * n
/-- FAB_PMON_BITS: offset of instance `n` (R435). -/
def Reg.fabPmonBits (n : Nat) : Nat := 0x30010C + 0x10 * n
/-- MAP_USED_HO (R435). -/
def Reg.mapUsedHo : Nat := 0x310000
/-- MAP_USED_LO (R435). -/
def Reg.mapUsedLo : Nat := 0x310004
/-- MAP_USED_DS0 (R435). -/
def Reg.mapUsedDs0 : Nat := 0x310008
/-- MAP_GEN (R435). -/
def Reg.mapGen : Nat := 0x31000C
/-- MAP_PEEK_SLOT (R435). -/
def Reg.mapPeekSlot : Nat := 0x310010
/-- MAP_PEEK_W0 (R435). -/
def Reg.mapPeekW0 : Nat := 0x310014
/-- MAP_PEEK_W1 (R435). -/
def Reg.mapPeekW1 : Nat := 0x310018
/-- MAP_PEEK_INFORCE (R435). -/
def Reg.mapPeekInforce : Nat := 0x31001C
/-- MAP_CC_COUNT (R435). -/
def Reg.mapCcCount : Nat := 0x310020
/-- GTH_SFC (R435). -/
def Reg.gthSfc : Nat := 0x320000
/-- GTH_USE (R435). -/
def Reg.gthUse : Nat := 0x320004
/-- GTH_NEXT (R435). -/
def Reg.gthNext : Nat := 0x320008
/-- GTH_JRN_HEAD (R435). -/
def Reg.gthJrnHead : Nat := 0x32000C
/-- GTH_SLOT_ID: offset of instance `n` (R435). -/
def Reg.gthSlotId (n : Nat) : Nat := 0x320100 + 0x10 * n
/-- GTH_SLOT_EDITS: offset of instance `n` (R435). -/
def Reg.gthSlotEdits (n : Nat) : Nat := 0x320104 + 0x10 * n
/-- GTH_SLOT_SFC: offset of instance `n` (R435). -/
def Reg.gthSlotSfc (n : Nat) : Nat := 0x320108 + 0x10 * n
/-- PROT_CNT_HO (R435). -/
def Reg.protCntHo : Nat := 0x330000
/-- PROT_CNT_LO (R435). -/
def Reg.protCntLo : Nat := 0x330004
/-- PROT_CNT_DS0 (R435). -/
def Reg.protCntDs0 : Nat := 0x330008
/-- PROT_PEEK_SEL (R435). -/
def Reg.protPeekSel : Nat := 0x330010
/-- PROT_PEEK_STATE (R435). -/
def Reg.protPeekState : Nat := 0x330014
/-- PROT_PEEK_TIMER (R435). -/
def Reg.protPeekTimer : Nat := 0x330018
/-- PROT_GRP_STATUS: offset of instance `n` (R435). -/
def Reg.protGrpStatus (n : Nat) : Nat := 0x330100 + 0x10 * n
/-- PROT_GRP_K: offset of instance `n` (R435). -/
def Reg.protGrpK (n : Nat) : Nat := 0x330104 + 0x10 * n
/-- PROT_GRP_SWITCHES: offset of instance `n` (R435). -/
def Reg.protGrpSwitches (n : Nat) : Nat := 0x330108 + 0x10 * n
/-- PROT_GRP_TIMER: offset of instance `n` (R435). -/
def Reg.protGrpTimer (n : Nat) : Nat := 0x33010C + 0x10 * n
/-- MRG_RATE (R435). -/
def Reg.mrgRate : Nat := 0x340000
/-- MRG_COUNT (R435). -/
def Reg.mrgCount : Nat := 0x340004
/-- MRG_PAGES (R435). -/
def Reg.mrgPages : Nat := 0x340008
/-- MRG_PEEK_SEL (R435). -/
def Reg.mrgPeekSel : Nat := 0x340010
/-- MRG_PEEK_STATE (R435). -/
def Reg.mrgPeekState : Nat := 0x340014
/-- MRG_PEEK_DIFF (R435). -/
def Reg.mrgPeekDiff : Nat := 0x340018
/-- MRG_PEEK_ALT (R435). -/
def Reg.mrgPeekAlt : Nat := 0x34001C
/-- MRG_PEEK_BOTH (R435). -/
def Reg.mrgPeekBoth : Nat := 0x340020
/-- SYM_CTL (R435). -/
def Reg.symCtl : Nat := 0x350000
/-- SYM_NODE_ID (R435). -/
def Reg.symNodeId : Nat := 0x350004
/-- SYM_COUNT (R435). -/
def Reg.symCount : Nat := 0x350008
/-- SYM_PROBE_BAD (R435). -/
def Reg.symProbeBad : Nat := 0x35000C
/-- SYM_PEEK_SEL (R435). -/
def Reg.symPeekSel : Nat := 0x350010
/-- SYM_PEEK_STATE (R435). -/
def Reg.symPeekState : Nat := 0x350014
/-- SYM_PEEK_IN (R435). -/
def Reg.symPeekIn : Nat := 0x350018
/-- SYM_PEEK_OUT (R435). -/
def Reg.symPeekOut : Nat := 0x35001C
/-- SYM_PEEK_COMP (R435). -/
def Reg.symPeekComp : Nat := 0x350020
/-- SYM_PEEK_ASYM (R435). -/
def Reg.symPeekAsym : Nat := 0x350024
/-- SYM_PAGES (R435). -/
def Reg.symPages : Nat := 0x350028
/-- CEM_COUNT (R435). -/
def Reg.cemCount : Nat := 0x360000
/-- CEM_PAGES (R435). -/
def Reg.cemPages : Nat := 0x360004
/-- CEM_PEEK_SEL (R435). -/
def Reg.cemPeekSel : Nat := 0x36000C
/-- CEM_PEEK_STATE (R435). -/
def Reg.cemPeekState : Nat := 0x360010
/-- CEM_PEEK_FILL (R435). -/
def Reg.cemPeekFill : Nat := 0x360014
/-- CEM_PEEK_FREQ (R435). -/
def Reg.cemPeekFreq : Nat := 0x360018
/-- PM_SNAP_ADDR (R435). -/
def Reg.pmSnapAddr : Nat := 0x400000
/-- PM_SNAP_SEQ (R435). -/
def Reg.pmSnapSeq : Nat := 0x400004
/-- PM_SNAP_VAL (R435). -/
def Reg.pmSnapVal : Nat := 0x400008
/-- PM_SNAP_HI (R435). -/
def Reg.pmSnapHi : Nat := 0x40000C
/-- PM_SNAP_STAT (R435). -/
def Reg.pmSnapStat : Nat := 0x400010
/-- PM_HIST_SLOT (R435). -/
def Reg.pmHistSlot : Nat := 0x400020
/-- PM_HIST_OLDEST (R435). -/
def Reg.pmHistOldest : Nat := 0x400024
/-- PM_CHAIN_CFG: offset of instance `n` (R435). -/
def Reg.pmChainCfg (n : Nat) : Nat := 0x400100 + 0x10 * n
/-- PM_CHAIN_HI: offset of instance `n` (R435). -/
def Reg.pmChainHi (n : Nat) : Nat := 0x400104 + 0x10 * n
/-- PM_CHAIN_ST: offset of instance `n` (R435). -/
def Reg.pmChainSt (n : Nat) : Nat := 0x400108 + 0x10 * n
/-- RING_BASE_LO: offset of instance `n` (R435). -/
def Reg.ringBaseLo (n : Nat) : Nat := 0x600000 + 0x40 * n
/-- RING_BASE_HI: offset of instance `n` (R435). -/
def Reg.ringBaseHi (n : Nat) : Nat := 0x600004 + 0x40 * n
/-- RING_CFG: offset of instance `n` (R435). -/
def Reg.ringCfg (n : Nat) : Nat := 0x600008 + 0x40 * n
/-- RING_CTL: offset of instance `n` (R435). -/
def Reg.ringCtl (n : Nat) : Nat := 0x60000C + 0x40 * n
/-- RING_PROD: offset of instance `n` (R435). -/
def Reg.ringProd (n : Nat) : Nat := 0x600010 + 0x40 * n
/-- RING_CONS: offset of instance `n` (R435). -/
def Reg.ringCons (n : Nat) : Nat := 0x600014 + 0x40 * n
/-- RING_INFLIGHT: offset of instance `n` (R435). -/
def Reg.ringInflight (n : Nat) : Nat := 0x600018 + 0x40 * n
/-- HBM_REGION: offset of instance `n` (R435). -/
def Reg.hbmRegion (n : Nat) : Nat := 0x1000000 + 0x4 * n
/-- HBM_STATUS (R435). -/
def Reg.hbmStatus : Nat := 0x1000020
/-- HBM_CORR_CNT (R435). -/
def Reg.hbmCorrCnt : Nat := 0x100002C
/-- HBM_UNCORR_CNT (R435). -/
def Reg.hbmUncorrCnt : Nat := 0x1000030
/-- HBM_CULLET: offset of instance `n` (R435). -/
def Reg.hbmCullet (n : Nat) : Nat := 0x1000040 + 0x4 * n
/-- HBM_ERR_ADDR_LO (R435). -/
def Reg.hbmErrAddrLo : Nat := 0x1000050
/-- HBM_ERR_ADDR_HI (R435). -/
def Reg.hbmErrAddrHi : Nat := 0x1000054
/-- BGL_CTL (R435). -/
def Reg.bglCtl : Nat := 0x1010000
/-- BGL_REQ (R435). -/
def Reg.bglReq : Nat := 0x1010004
/-- BGL_STATUS (R435). -/
def Reg.bglStatus : Nat := 0x1010008
/-- BGL_TESTED (R435). -/
def Reg.bglTested : Nat := 0x1010010
/-- BGL_FAILED (R435). -/
def Reg.bglFailed : Nat := 0x1010014
/-- BGL_REVOKED (R435). -/
def Reg.bglRevoked : Nat := 0x1010018

end Sys2Proof.Machine
end

