-- ==== Sys2Proof/Machine/Tab.lean ====
section
/-! DEFINITION. Reading and writing the sparse tables of State, and of lists by position. -/

namespace Sys2Proof

/-- The value listed for number `k`. -/
def Tab.find? {α : Type} (t : Tab α) (k : Nat) : Option α :=
  match t with
  | [] => none
  | (k', v) :: r => if k' = k then some v else Tab.find? r k

/-- The value for number `k`, `d` where none is listed. -/
def Tab.get {α : Type} (t : Tab α) (k : Nat) (d : α) : α := (Tab.find? t k).getD d

/-- The table with `v` for number `k`, every other number as before; numbers stay strictly rising. -/
def Tab.put {α : Type} (t : Tab α) (k : Nat) (v : α) : Tab α :=
  match t with
  | [] => [(k, v)]
  | (k', v') :: r =>
    if k' = k then (k, v) :: r else if k < k' then (k, v) :: (k', v') :: r else (k', v') :: Tab.put r k v

/-- The table without number `k`. -/
def Tab.drop {α : Type} (t : Tab α) (k : Nat) : Tab α := t.filter (fun p => p.1 != k)

/-- `v` at number `k` while it differs from what an unlisted number holds, and no entry otherwise. -/
def Tab.store {α : Type} [DecidableEq α] (t : Tab α) (k : Nat) (d v : α) : Tab α :=
  if v = d then Tab.drop t k else Tab.put t k v

/-- The value for number `k` changed by `f`, taking `d` where none is listed. -/
def Tab.edit {α : Type} (t : Tab α) (k : Nat) (d : α) (f : α → α) : Tab α := Tab.put t k (f (Tab.get t k d))

/-- Numbers strictly rising. -/
def Tab.wf {α : Type} (t : Tab α) : Bool :=
  match t with
  | [] => true
  | (k, _) :: r => r.all (fun p => decide (k < p.1)) && Tab.wf r

/-- The numbers listed. -/
def Tab.keys {α : Type} (t : Tab α) : List Nat := t.map (fun p => p.1)

/-- The set with `x` added. -/
def setIns (l : List Nat) (x : Nat) : List Nat := if l.contains x then l else l ++ [x]

/-- The set without `x`. -/
def setDel (l : List Nat) (x : Nat) : List Nat := l.filter (fun y => y != x)

/-- The list with `v` at position `i` (unchanged where the list is shorter). -/
def listPut {α : Type} (l : List α) (i : Nat) (v : α) : List α :=
  match l, i with
  | [], _ => []
  | _ :: r, 0 => v :: r
  | a :: r, n + 1 => a :: listPut r n v

/-- `a` put into a sorted list, before the elements that it does not follow. -/
def insertBy {α : Type} (le : α → α → Bool) (a : α) (l : List α) : List α := match l with
  | [] => [a]
  | b :: r => if le a b then a :: b :: r else b :: insertBy le a r

/-- The list sorted; elements that compare equal keep their order. -/
def sortBy {α : Type} (le : α → α → Bool) (l : List α) : List α := l.foldr (insertBy le) []

/-- The numbers from `a`, `n` of them. -/
def rangeFrom (a n : Nat) : List Nat := (List.range n).map (fun i => a + i)

end Sys2Proof
end

