-- ==== Sys2Proof/Machine/State.lean ====
section
/-! DEFINITION. The state of the block: every register, memory, queue, counter, mode and pin of the spec as plain data,
the faults and refusals, and the state right after reset. -/

namespace Sys2Proof.Machine

/-- Why a command stops with a fault. No command of this block does: the spec gives every command an effect or says that
it has none. The type is kept for the interface. -/
inductive Fault where
  /-- Raised by nothing: safe, since no run meets it. -/
  | unreachable
  deriving DecidableEq, Repr

/-- Why a command is refused. -/
inductive Refusal where
  /-- Raised by an arm of exec whose command has no meaning yet; safe: nothing is claimed of it. -/
  | notModelled (mnemonic : String)
  deriving DecidableEq, Repr


/-- A test pattern generator or checker (per lane and per pattern monitor). -/
structure PatSt where
  /-- Its last bits, newest first; missing bits are ones (up to 31 bits; R46). -/
  hist : List Bool := []
  /-- Position in the user pattern or the square wave (6 bits; R46). -/
  phase : Nat := 0
  /-- Consecutive matching bits while out of lock (0 to 127; R46). -/
  run : Nat := 0
  /-- Bits checked since lock (count; R46). -/
  pos : Nat := 0
  /-- The bits in error among the last 8,192, by their number since lock (up to 1,023 numbers; R46). -/
  errs : List Nat := []
  deriving DecidableEq, Repr

/-- State of one line lane that no register shows (per lane, 128). -/
structure LaneSt where
  /-- The LANE_CTL write held while CAL_BUSY is 1 (32 bits or absent; R43). -/
  heldCtl : Option Word := none
  /-- The transmitter is in electrical idle (1 bit; R36). -/
  txIdle : Bool := true
  /-- The LANE_CAL FULL descriptor whose calibration runs (a start-up calibration has none) (descriptor or absent;
  R42). -/
  calRun : Option Nat := none
  /-- A start-up calibration waits for a running re-trim (1 bit; R42). -/
  calDue : Bool := false
  /-- The lane waits in PLL_WAIT for its PLL to relock, and then returns without calibration (1 bit; R41). -/
  back : Bool := false
  /-- The LANE_CAL ADAPT descriptor whose 100 ms of raised step limit run (descriptor or absent; R42). -/
  boost : Option Nat := none
  /-- Equalizer values reported at the end of their range (set of 0 to 5; R38). -/
  atLimit : List Nat := []
  /-- An eye-scan point runs (1 bit; R47). -/
  eyeRun : Bool := false
  /-- The eye scan is paused by a re-trim (1 bit; R42). -/
  eyePaused : Bool := false
  /-- Checked bits not yet counted in LANE_PRBS_BITS (0 to 1,023; R46). -/
  prbsFrac : Nat := 0
  /-- The PRBS generator (state; R46). -/
  gen : PatSt := {}
  /-- The PRBS checker (state; R46). -/
  chk : PatSt := {}
  /-- The first bit generated next is inverted (1 bit; R48). -/
  errInj : Bool := false
  /-- What the serializer sent in the last frame (bytes of 125 µs; R45). -/
  serOut : List Byte := []
  deriving DecidableEq, Repr

/-- State of one lane group that no register shows (per group, 16). -/
structure GroupSt where
  /-- The lane whose re-trim runs (lane or absent; R39). -/
  retrimRun : Option Nat := none
  /-- The LANE_CAL RETRIM descriptor that asked for the running re-trim (descriptor or absent; R42). -/
  retrimFor : Option Nat := none
  /-- Lanes waiting for their re-trim, each with the descriptor that asked for it (list; R39). -/
  retrimWait : List (Nat × Option Nat) := []
  /-- The SDH PLL has lost lock and not relocked (1 bit; R41). -/
  sdhLost : Bool := false
  /-- The Ethernet PLL has lost lock and not relocked (1 bit; R41). -/
  ethLost : Bool := false
  deriving DecidableEq, Repr

/-- One candidate of the frame search (up to 8 per lane). -/
structure Cand where
  /-- Bit time at which the candidate's next match is expected (bit time; R51). -/
  next : Nat := 0
  /-- When the candidate was first sighted (bit time; R51). -/
  first : Nat := 0
  /-- Matches scored; two confirm it (count; R51). -/
  hits : Nat := 1
  /-- BIP-8 over the last frame at this alignment (8 bits or absent; R52). -/
  bip : Option Byte := none
  /-- B1 mismatches since confirmation (count; R52). -/
  miss : Nat := 0
  /-- Consecutive B1 mismatches (0 to 2; R52). -/
  run : Nat := 0
  /-- Frames since confirmation (0 to 8; R52). -/
  age : Nat := 0
  /-- Frame boundaries since its last match (0 to 2; R51). -/
  idle : Nat := 0
  deriving DecidableEq, Repr

/-- Present state of each section and line defect detector, masked or not (per lane). -/
structure Defects where
  /-- LOS present (1 bit; R54). -/
  los : Bool := true
  /-- LOF present (1 bit; R54). -/
  lof : Bool := false
  /-- RS-TIM present (1 bit; R54). -/
  tim : Bool := false
  /-- MS-AIS present (1 bit; R54). -/
  ais : Bool := false
  /-- MS-EXC present (1 bit; R54). -/
  exc : Bool := false
  /-- MS-DEG present (1 bit; R54). -/
  deg : Bool := false
  /-- MS-RDI present (1 bit; R54). -/
  rdi : Bool := false
  /-- PSBF present (1 bit; R54). -/
  psbf : Bool := false
  deriving DecidableEq, Repr

/-- What one second has shown of a lane's section and line layers (per lane). -/
structure SecAcc where
  /-- Frames with a B1 violation (count; R70). -/
  rsEb : Nat := 0
  /-- Frames with a B2 violation (count; R70). -/
  msEb : Nat := 0
  /-- Frames with an M1 count above 0 (count; R70). -/
  feb : Nat := 0
  /-- LOS or LOF seen (1 bit; R70). -/
  rsDef : Bool := false
  /-- OOF seen (1 bit; R70). -/
  oof : Bool := false
  /-- A defect of the multiplex-section SES seen (1 bit; R70). -/
  msDef : Bool := false
  /-- MS-RDI seen (1 bit; R70). -/
  rdi : Bool := false
  deriving DecidableEq, Repr

/-- State of one lane's framer that no register shows (per lane, 128). -/
structure FrmSt where
  /-- Held candidates (up to 8; R51). -/
  cands : List Cand := []
  /-- Consecutive frames with an errored pattern (0 to 4; R53). -/
  patBad : Nat := 0
  /-- Integrating count of frames in OOF (0 to 24; R54). -/
  lofCnt : Nat := 0
  /-- Consecutive in-frame frames (0 to 24; R54). -/
  inCnt : Nat := 0
  /-- BIP-8 over the previous scrambled frame (8 bits or absent; R50). -/
  bip8 : Option Byte := none
  /-- BIP-24N over the previous frame (3N bytes; R50). -/
  bip24 : List Byte := []
  /-- The detectors (8 bits; R54). -/
  det : Defects := { }
  /-- Consecutive frames of K2[2:0] against the present MS-AIS state (0 to 3; R54). -/
  aisRun : Nat := 0
  /-- Consecutive frames of K2[2:0] against the present MS-RDI state (0 to 5; R54). -/
  rdiRun : Nat := 0
  /-- Consecutive identical K1 received in frame (0 to 3; R54). -/
  k1Run : Nat := 0
  /-- Frames in frame since K1 was last identical three times (0 to 12; R54). -/
  k1Win : Nat := 0
  /-- Consecutive identical K1/K2 pairs (0 to 3; R61). -/
  kRun : Nat := 0
  /-- Consecutive identical S1 (0 to 8; R60). -/
  s1Run : Nat := 0
  /-- B2 violations of the last steps of the EXC window, newest first (up to 10; R58). -/
  excSteps : List Nat := []
  /-- B2 violations of the last steps of the DEG window, newest first (up to 10; R58). -/
  degSteps : List Nat := []
  /-- B2 violations of the running EXC step (count; R58). -/
  excAcc : Nat := 0
  /-- B2 violations of the running DEG step (count; R58). -/
  degAcc : Nat := 0
  /-- Last valid received trace message (up to 64 bytes; R59). -/
  j0Last : List Byte := []
  /-- Consecutive identical messages (0 to 3; R59). -/
  j0Run : Nat := 0
  /-- A trace has been accepted under the present J0_MODE (1 bit; R59). -/
  j0Known : Bool := false
  /-- Rest of the trace message in transmission (up to 64 bytes; R59). -/
  j0Tx : List Byte := []
  /-- AU-AIS is sent downstream (1 bit; R56). -/
  auAis : Bool := false
  /-- MS-RDI is sent upstream (1 bit; R56). -/
  txRdi : Bool := false
  /-- B2 violations of the last received frame, for the transmitted M1 (0 to 255; R62). -/
  m1Tx : Nat := 0
  /-- B1 bit 0 is inverted in the next transmitted frame (1 bit; R71). -/
  b1Inv : Bool := false
  /-- The first B2 byte's bit 0 is inverted in the next transmitted frame (1 bit; R71). -/
  b2Inv : Bool := false
  /-- LANE_FRM_CTL as in force since the last boundary (32 bits; R71). -/
  ctl : Word := 0x120
  /-- D1 to D12, E1, F1, E2 of the line frame last received in full (15 bytes; R65). -/
  oh : List Byte := []
  /-- D1 to D12, E1, F1, E2 for the next transmitted line frame (15 bytes; R65). -/
  ohTx : List Byte := []
  /-- The running second (counts; R70). -/
  sec : SecAcc := { }
  /-- Ended seconds not yet classified, oldest first (up to 11; R70). -/
  secs : List SecAcc := []
  /-- Regenerator section in unavailable time (1 bit; R70). -/
  rsUas : Bool := false
  /-- Multiplex section near end in unavailable time (1 bit; R70). -/
  msUas : Bool := false
  /-- Multiplex section far end in unavailable time (1 bit; R70). -/
  feUas : Bool := false
  /-- LANE_FRM_CTL.PROBE_EN as in force since the last superframe boundary (1 bit; R69). -/
  probeOn : Bool := false
  /-- Received J0 bytes of the running trace message (up to 64 bytes; R59). -/
  j0Part : List Byte := []
  /-- Trace messages found in the received frames and not yet checked, oldest first (list of messages; R59). -/
  j0Due : List (List Byte) := []
  /-- J0, D1 to D12, E1, F1, E2, K1, K2, S1, M1 and the injections of the frame in transmission (21 bytes; R50). -/
  soh : List Byte := []
  /-- BIP-8 over the last transmitted scrambled frame (8 bits; R50). -/
  b1Tx : Byte := 0
  /-- BIP-24N over the last transmitted frame (3N bytes; R50). -/
  b2Tx : List Byte := []
  /-- Rest of the Leiv probe message in transmission (up to 64 bytes; R69). -/
  probeTx : List Byte := []
  /-- Form of the received trace in force (2 bits; R59, R71). -/
  j0Mode : Nat := 0
  /-- Received bytes of the running Leiv probe message (up to 64 bytes; R69). -/
  probeRx : List Byte := []
  /-- The boundaries of the received Leiv probe messages are found (1 bit; R69, R228). -/
  probeAt : Bool := false
  /-- Leiv probe messages found in the received frames and not yet checked, oldest first (list of messages of 64
  bytes; R69). -/
  probeDue : List (List Byte) := []
  deriving DecidableEq, Repr

/-- State of one DCC channel that no register shows (per channel, 256). -/
structure DccSt where
  /-- OHP_DCC_CTL as in force since the last frame boundary (32 bits; R63). -/
  ctl : Word := 0
  /-- DCC_TX frames queued, oldest first, each with its descriptor (up to 8; R67). -/
  txq : List (Nat × List Byte) := []
  /-- The opening flag of the oldest queued frame has been sent (1 bit; R67). -/
  opened : Bool := false
  /-- Fetched DCC_RX_BUF descriptors in ring order (up to 16; R68). -/
  rxb : List Nat := []
  /-- Bits of the running flag or frame not yet sent (list of bits; R66). -/
  txBits : List Bool := []
  /-- Bits of the opened frame not yet sent, its closing flag included (count; R66). -/
  txLeft : Nat := 0
  /-- A flag has been received and no abort since (1 bit; R66). -/
  rxOn : Bool := false
  /-- Consecutive ones received (0 to 7; R66). -/
  rxOnes : Nat := 0
  /-- Bits received since the last flag, newest first (list of bits; R66). -/
  rxBits : List Bool := []
  /-- Frames received and not yet checked, oldest first (list of frames; R66). -/
  rxDone : List HdlcRx := []
  deriving DecidableEq, Repr

/-- Overhead serial ports as in force (one). -/
structure OhpSt where
  /-- OHP_OSP_CTL as in force since the last frame boundary (32 bits per port; R72). -/
  osp : Tab Word := []
  /-- OHP_OSP_OW as in force since the last frame boundary (32 bits per triple; R72). -/
  ow : Tab Word := []
  deriving DecidableEq, Repr

/-- Configuration of one path in force (per configured slot address). -/
structure PathCfg where
  /-- HO_TYPE, MON, TRACE, TIM_AIS, PLM_EN, PLM_AIS, MARK_TX, MARK_RX, MAPPING, LEAK (32 bits; R74). -/
  w7 : Word := 0
  /-- LABEL_TX, LABEL_EXP, DEGTHR, DEGM (32 bits; R74). -/
  w8 : Word := 0
  /-- EXCTHR (32 bits; R74). -/
  w9 : Word := 0
  /-- STRUCT_0 to STRUCT_2 (3 × 16 bits; R75). -/
  struct3 : List Nat := [0, 0, 0]
  /-- Transmitted trace; missing bytes are 0 (64 bytes; R74). -/
  trTx : List Byte := []
  /-- Expected trace; missing bytes are 0 (64 bytes; R74). -/
  trExp : List Byte := []
  deriving DecidableEq, Repr

/-- What one second has shown of a path (per monitored path). -/
structure PathSec where
  /-- Errored blocks (count; R97). -/
  eb : Nat := 0
  /-- Blocks with REI above 0 (count; R97). -/
  feb : Nat := 0
  /-- LOP, AIS, LOM, UNEQ, or TIM or PLM taking consequent action seen (1 bit; R97). -/
  defect : Bool := false
  /-- RDI seen (1 bit; R97). -/
  rdi : Bool := false
  deriving DecidableEq, Repr

/-- Running state of one path: pointer interpreter, store, multiframe, overhead, marker, mapper, counters (per path)
-/
structure PathSt where
  /-- Interpreter state (starts in LOP) (0 NORM, 1 LOP, 2 AIS; R78). -/
  ptr : Nat := 1
  /-- Active pointer value (10 bits or absent; R78). -/
  active : Option Nat := none
  /-- Pointer periods since the last change of the active value (0 to 4; R77). -/
  since : Nat := 4
  /-- Consecutive INV_POINT (0 to 8; R78). -/
  invRun : Nat := 0
  /-- Consecutive NDF_ENABLE (0 to 8; R78). -/
  ndfRun : Nat := 0
  /-- Consecutive AIS_IND (0 to 3; R78). -/
  aisRun : Nat := 0
  /-- Value of the running count of identical pointers (10 bits; R78). -/
  newVal : Nat := 0
  /-- Consecutive identical NEW_POINT or NORM_POINT (0 to 3; R78). -/
  newRun : Nat := 0
  /-- Frames without the concatenation indication, by member (counts per member; R79). -/
  concBad : List (Nat × Nat) := []
  /-- Consecutive frames with the indication or AIS_IND, by member (counts per member; R79). -/
  concOk : List (Nat × Nat) := []
  /-- A member holds the container in LOP (1 bit; R79). -/
  concLop : Bool := false
  /-- Elastic store fill (10^-8 bytes from centre; R80). -/
  fill : Int := 0
  /-- Pointer periods since the last generated adjustment (0 to 3; R80). -/
  adjGap : Nat := 3
  /-- Pointer value sent with the path's content (10 bits; R81). -/
  outPtr : Nat := 0
  /-- The next transmitted pointer carries NDF 1001 (1 bit; R81). -/
  outNdf : Bool := false
  /-- Last received H4 [1:0] (2 bits; R82). -/
  h4Last : Nat := 0
  /-- TU multiframe phase followed in H4 (2 bits; R82). -/
  mfPhase : Nat := 0
  /-- In multiframe (1 bit; R82). -/
  inMf : Bool := false
  /-- Consecutive H4 values that follow the sequence (0 to 8; R82). -/
  h4Ok : Nat := 0
  /-- Consecutive H4 values that break it (0 to 8; R82). -/
  h4Bad : Nat := 0
  /-- Frames OOM has lasted (0 to 8; R82). -/
  oomRun : Nat := 0
  /-- Frames in multiframe (0 to 8; R82). -/
  mfRun : Nat := 0
  /-- LOM present (1 bit; R82). -/
  lom : Bool := false
  /-- Last received label (8 bits; R83). -/
  lblLast : Nat := 0
  /-- Consecutive identical labels (0 to 5; R83). -/
  lblRun : Nat := 0
  /-- Accepted label (8 bits or absent; R83). -/
  label : Option Nat := none
  /-- Received bytes of the running trace message (up to 64 bytes; R83). -/
  trPart : List Byte := []
  /-- Last valid trace message (up to 64 bytes; R83). -/
  trLast : List Byte := []
  /-- Consecutive identical messages (0 to 3; R83). -/
  trRun : Nat := 0
  /-- Accepted trace (message or absent; R83). -/
  trace : Option (List Byte) := none
  /-- BIP over the previous container (8 bits or absent; R83). -/
  bip : Option Byte := none
  /-- Consecutive periods of RDI against the present state (0 to 5; R84). -/
  rdiRun : Nat := 0
  /-- Consecutive periods of RFI against the present state (0 to 5; R84). -/
  rfiRun : Nat := 0
  /-- The second that has just ended is not yet evaluated for EXC and DEG (1 bit; R84). -/
  due : Bool := false
  /-- UNEQ present (1 bit; R84). -/
  uneq : Bool := false
  /-- TIM present (1 bit; R84). -/
  tim : Bool := false
  /-- PLM present (1 bit; R84). -/
  plm : Bool := false
  /-- RDI present (1 bit; R84). -/
  rdi : Bool := false
  /-- RFI present (1 bit; R84). -/
  rfi : Bool := false
  /-- EXC present (1 bit; R84). -/
  exc : Bool := false
  /-- DEG present (1 bit; R84). -/
  deg : Bool := false
  /-- Consecutive seconds against the present EXC state (0 to 2; R84). -/
  excRun : Nat := 0
  /-- Consecutive seconds against the present DEG state (0 to 10; R84). -/
  degRun : Nat := 0
  /-- Defects reported, numbered as PathSt.has numbers them (set of 0 to 8; R85). -/
  rep : List Nat := []
  /-- RDI written upstream (1 bit; R87). -/
  txRdi : Bool := false
  /-- REI written upstream (0 to 8; R87). -/
  txRei : Nat := 0
  /-- Last marker channel units (F2 bytes or K4 nibbles), newest first (up to 8 units; R90). -/
  mkWin : List Byte := []
  /-- Marker channel lock (1 bit; R90). -/
  mkLock : Bool := false
  /-- Consecutive invalid groups while locked (0 to 3; R90). -/
  mkBad : Nat := 0
  /-- How long ago valid groups were seen while out of lock (ages in periods; R90). -/
  mkHits : List Nat := []
  /-- Periods until the next group is expected while locked (periods; R90). -/
  mkPos : Nat := 0
  /-- Desynchronizer fill (0 to 512 bits; R95). -/
  demapFill : Nat := 256
  /-- Queued leak bits (signed bits; R95). -/
  leakQ : Int := 0
  /-- Leaking one bit every 125 µs (1 bit; R95). -/
  leakFast : Bool := false
  /-- The signal for which the mapper has centred its input buffer: 0 a termination, else the far endpoint of a clear-
  channel connection (kind and number, or absent; R93). -/
  mapSrc : Option (Nat × Word) := none
  /-- Counters of the path record, words 1 to 15 (15 × 32 bits; R97). -/
  cnt : List Word := []
  /-- The counters run (1 bit; R98). -/
  cntRun : Bool := false
  /-- The running second (counts; R97). -/
  secNow : PathSec := { }
  /-- Ended seconds not yet classified, oldest first (up to 10; R97). -/
  secs : List PathSec := []
  /-- Near end in unavailable time (1 bit; R97). -/
  uas : Bool := false
  /-- Far end in unavailable time (1 bit; R97). -/
  feUas : Bool := false
  /-- The last block showed a BIP violation (1 bit; R218). -/
  ebLast : Bool := false
  /-- Consecutive frames of AIS_IND, by member (counts per member; R79). -/
  concAis : List (Nat × Nat) := []
  /-- Frames since the last leak bit was released, or since the queue was empty (frames; R95). -/
  leakAge : Nat := 0
  /-- The container of the latest period, as written to the store (one container; R80, R124). -/
  data : List Byte := []
  /-- The container of the period before it (one container; R80, R124). -/
  prev : List Byte := []
  /-- What the markers written into the latest container change in the parity sent with the next one (8 bits; R89). -/
  mkFix : Byte := 0
  /-- Bits in the desynchronizer, oldest first (about 512 bits; R95). -/
  dsq : List Bool := []
  /-- Bits that the desynchronizer has given to the PDH framer or the other endpoint, oldest first (a few frames;
  R96). -/
  dsOut : List Bool := []
  /-- Bits in the input buffer of the mapper into the TU at this address, oldest first (a few frames; R93). -/
  mapQ : List Bool := []
  /-- Whether each of the last containers was errored, newest first (up to 3,300 bits; R218). -/
  ebs : List Bool := []
  /-- All ones go into the fabric for the path, since the last frame boundary (1 bit; R57, R86). -/
  downAis : Bool := false
  /-- RDI goes out at the path's address, since the last frame boundary (1 bit; R57, R87). -/
  upRdi : Bool := false
  deriving DecidableEq, Repr

/-- One candidate of a PDH frame search (up to 8 per framer). -/
structure PdhCand where
  /-- Position in the search window (bit position; R107). -/
  pos : Nat := 0
  /-- Bit time of the next check (bit time; R107). -/
  next : Nat := 0
  /-- Checks passed (count; R107). -/
  hits : Nat := 1
  /-- Confirmed (1 bit; R107). -/
  conf : Bool := false
  /-- When it was confirmed (bit time; R107). -/
  confAt : Nat := 0
  /-- Valid CRC-4 multiframe alignment signals seen since its confirmation (list of bit times; R107). -/
  mfas : List Nat := []
  deriving DecidableEq, Repr

/-- Present state of each PDH defect detector, masked or not (per framer). -/
structure PdhDefects where
  /-- LOS present (1 bit; R110). -/
  los : Bool := false
  /-- AIS present (1 bit; R110). -/
  ais : Bool := false
  /-- LOF present (1 bit; R110). -/
  lof : Bool := false
  /-- NMIS present (1 bit; R110). -/
  nmis : Bool := false
  /-- LOMF present (1 bit; R110). -/
  lomf : Bool := false
  /-- CAS_LOM present (1 bit; R110). -/
  casLom : Bool := false
  /-- DEG present (1 bit; R110). -/
  deg : Bool := false
  /-- RAI present (1 bit; R110). -/
  rai : Bool := false
  deriving DecidableEq, Repr

/-- What one second has shown of a PDH signal (per framer). -/
structure PdhSec where
  /-- Errored blocks (count; R120). -/
  eb : Nat := 0
  /-- Blocks (count; R120). -/
  blocks : Nat := 0
  /-- E bits at 0 (count; R120). -/
  fe : Nat := 0
  /-- LOS, AIS, LOF, LOMF or NMIS seen (1 bit; R120). -/
  defect : Bool := false
  /-- RAI seen (1 bit; R120). -/
  rai : Bool := false
  /-- The errored blocks that make the second severe, as its blocks give them (count; R120). -/
  lim : Nat := 0
  deriving DecidableEq, Repr

/-- Running state of one PDH framer: a tributary port's or a terminated signal's (per port, 64; per terminated number,
65,536). -/
structure PdhSt where
  /-- OOF present (1 bit; R107). -/
  oof : Bool := true
  /-- Held candidates (up to 8; R107). -/
  cands : List PdhCand := []
  /-- Position of the alignment taken (bit position; R107). -/
  taken : Nat := 0
  /-- First confirmation of the running search (bit time or absent; R107). -/
  firstConf : Option Nat := none
  /-- CRC-4 multiframe alignment, ESF or SF qualification held (1 bit; R107). -/
  mfa : Bool := false
  /-- Consecutive confirmed candidates that failed to reach MFA (0 to 2; R110). -/
  failMfa : Nat := 0
  /-- CRC-4 interworking (1 bit; R107). -/
  interwork : Bool := false
  /-- Consecutive frame words in error (0 to 4; R107). -/
  fasBad : Nat := 0
  /-- Whether the last Ft or FPS bits were in error (last 4; R108). -/
  ftHist : List Bool := []
  /-- Whether the last sub-multiframes were errored, newest first (up to 1,000 bits; R107). -/
  crcHist : List Bool := []
  /-- The detectors (8 bits; R110). -/
  det : PdhDefects := { }
  /-- Reported defects (8 bits; R111). -/
  rep : PdhDefects := { }
  /-- Consecutive frames of RAI against the present state (count; R110). -/
  raiRun : Nat := 0
  /-- Consecutive frames of received N against the present NMIS state (0 to 8; R110). -/
  nRun : Nat := 0
  /-- Consecutive TS16 multiframe checks against the present CAS_LOM state (0 to 2; R110). -/
  casRun : Nat := 0
  /-- Last received Sa4 to Sa8 (5 bits; R119). -/
  saLast : Nat := 0
  /-- Consecutive identical Sa4 to Sa8 (0 to 3; R119). -/
  saRun : Nat := 0
  /-- Accepted Sa4 to Sa8 (5 bits; R119). -/
  sa : Nat := 0
  /-- Received N (4 bits; R113). -/
  nRx : Nat := 0
  /-- Unread frames, oldest first (up to 2 frames; R117). -/
  rxBuf : List (List Byte) := []
  /-- Last frame read (one frame; R117). -/
  rxLast : List Byte := []
  /-- Alignment was taken in the running frame, so no slip is made in it (1 bit; R117). -/
  rxFresh : Bool := false
  /-- Frames of the transmit slip buffer of a loop-timed port, oldest first (up to 2 frames; R117). -/
  txBuf : List (List Byte) := []
  /-- RAI sent upstream (1 bit; R112). -/
  txRai : Bool := false
  /-- Whether the last seconds reached 1 % errored blocks (up to 2; R110). -/
  crcSec : List Bool := []
  /-- Framing bits or the CRC block of the last frame were in error (1 bit; R218). -/
  ebLast : Bool := false
  /-- Counters of a terminated signal's record, words 1 to 14 (14 × 32 bits; R121). -/
  cnt : List Word := []
  /-- The running second (counts; R120). -/
  secNow : PdhSec := { }
  /-- Ended seconds not yet classified, oldest first (up to 10; R120). -/
  secs : List PdhSec := []
  /-- Near end in unavailable time (1 bit; R120). -/
  uas : Bool := false
  /-- Far end in unavailable time (1 bit; R120). -/
  feUas : Bool := false
  /-- The frame of timeslots transmitted last (one frame; R117). -/
  txLast : List Byte := []
  /-- Number of the next transmitted frame in its multiframe, or in four extended superframes (0 to 95; R106). -/
  txFrame : Nat := 0
  /-- CRC-4 or CRC-6 of the last transmitted block (6 bits; R106). -/
  txCrc : Nat := 0
  /-- CRC-4 or CRC-6 of the running transmitted block so far (6 bits; R106). -/
  txAcc : Nat := 0
  /-- Received errored CRC-4 sub-multiframes not yet returned as a 0 E bit (count; R106). -/
  txE : Nat := 0
  /-- The frame transmitted last, as a loopback in the port returns it (one frame; R105). -/
  txOut : PdhRx := {}
  /-- Whether the check of each of the last frames failed, newest first: the longest delay line and decision delay of
  a merge (up to 3,300 bits; R218). -/
  fails : List Bool := []
  /-- Received bits of a clear-channel signal that the other endpoint has not taken yet, oldest first (bits; R153). -/
  ccOut : List Bool := []
  /-- Bits of a clear-channel connection that the port has still to send (under one frame; R153). -/
  ccIn : List Bool := []
  /-- The DS0 tier, or a mapper or pseudowire, reads AIS since the last frame boundary (1 bit; R57, R112). -/
  downAis : Bool := false
  /-- Frames and zeros of the running AIS window (counts; R110). -/
  aisZeros : Nat × Nat := (0, 0)
  /-- Whether the last AIS windows had fewer than 3 zeros, newest first (up to 2 bits; R110). -/
  aisHist : List Bool := []
  deriving DecidableEq, Repr

/-- State of one tributary port that no register shows (per port, 64). -/
structure TribSt where
  /-- TRIB_CTL as in force since the last frame boundary (32 bits; R119). -/
  ctl : Word := 0
  /-- TRIB_FRM as in force since the last frame boundary (32 bits; R106). -/
  frm : Word := 0
  /-- LOSS_HIGH reported (1 bit; R105). -/
  lossHigh : Bool := false
  /-- TRIB_CTL.TERM as the last trim has taken it (2 bits; R102, R119). -/
  term : Nat := 0
  deriving DecidableEq, Repr

/-- One content that holds slot-memory storage (per stored content). -/
structure Alloc where
  /-- Kind of content (0 high-order copy, 1 low-order copy, 2 DS0 position; R125). -/
  kind : Nat := 0
  /-- Content stored (slot address of the index, or of slot 0 of the position; R125). -/
  addr : Word := 0
  /-- Slot-memory pair that holds it (0 to 31; R126). -/
  pair : Nat := 0
  /-- First of its locations: 7 in each frame buffer for an index, 1 for DS0 positions (0 to 12,287; R461). -/
  loc : Nat := 0
  /-- Quarter of the location that holds a DS0 position (0 to 3; R461). -/
  quarter : Nat := 0
  deriving DecidableEq, Repr

/-- What a high-order or low-order output sends (per output). -/
structure OutSt where
  /-- Slot at whose position and pace the last period left; absent for a container that the device built (slot address
  or absent; R81). -/
  src : Option Word := none
  /-- Pointer value in force (pointer value; R81). -/
  val : Nat := 0
  /-- Bytes of the last container that the next period begins with (bytes; R81). -/
  tail : List Byte := []
  /-- Bytes of the last period that the next frame or TU multiframe shows before its pointer (bytes; R81). -/
  carry : List Byte := []
  /-- The two pointer bytes, H1 H2 or V1 V2 (2 bytes; R81). -/
  head : List Byte := []
  /-- The bytes of the justification opportunity, H3 or V3 (bytes; R81). -/
  opp : List Byte := []
  /-- The frame under way after its pointers, or the TU-3 frame or TU multiframe with them (bytes; R80). -/
  now : List Byte := []
  /-- The frame or TU multiframe under way is AU-AIS or TU-AIS (1 bit; R86, R148). -/
  ones : Bool := false
  /-- Parity of the last container, for B3 or V5 [7:6] of the next one (8 bits; R83). -/
  last : Byte := 0
  /-- What the marker written at the output changes in the next parity byte (8 bits; R89, R227). -/
  fix : Byte := 0
  /-- Rest of the trace message that the output sends (up to 64 bytes; R59, R74). -/
  tr : List Byte := []
  /-- The container of the last period (bytes; R45). -/
  sent : List Byte := []
  deriving DecidableEq, Repr

/-- One written location of a bank of slot memory (per bank and location, 64 × 12,288). -/
structure BankWord where
  /-- Data bits (1,024 bits; R124). -/
  data : List Byte := []
  /-- Parity bits (32 bits; R138). -/
  par : Word := 0
  deriving DecidableEq, Repr

/-- State of the slot fabric that no register shows (one). -/
structure FabSt where
  /-- Contents stored (list; R126). -/
  alloc : List Alloc := []
  /-- Words recovered in the running second, by pair (counts per pair; R141). -/
  pairRecov : Tab Nat := []
  /-- Locations already counted in the running frame (set of pair and location; R141). -/
  counted : List (Nat × Nat) := []
  /-- Containers marked unrecovered in the running frame, each with the first byte affected in its content (source
  slots and first byte; R140). -/
  marked : List (Word × Nat) := []
  /-- Outputs whose content in the frame that ends is 0xFF, each from a byte on (outputs and first byte; R140). -/
  ffOut : List (Word × Nat) := []
  /-- Armed parity injection (32 bits or absent; R142). -/
  inj : Option Word := none
  /-- Latency measured for the source in force, by output (29 bits per output; R137). -/
  lat : Tab Nat := []
  /-- Checked bits not yet counted, by monitor (0 to 1,023 per monitor; R134). -/
  pmonFrac : Tab Nat := []
  /-- Source that the latency was measured for, by output (slot address per output; R136). -/
  latSrc : Tab Word := []
  /-- Idle codes in force (2 codes of 8 bits; R142). -/
  idle : Word := 0xFFD5
  /-- Pattern monitors enabled and in force (set of monitors; R142). -/
  pmonOn : List Nat := []
  /-- Content that entered a monitored store and is still to be checked (bytes per monitor; R134). -/
  pmonIn : Tab (List Byte) := []
  /-- The checkers of the pattern monitors (state per monitor; R134). -/
  pmonSt : Tab PatSt := []
  /-- Frames that a powered pair has held no content (frames per pair, to 8,000; R126). -/
  pairIdle : Tab Nat := []
  /-- Frames until reads return to the primary bank after its lease (0 to 2 frames per pair; R127). -/
  tailP : Tab Nat := []
  /-- Frames until the replay bank serves again after its lease (0 to 2 frames per pair; R127). -/
  tailR : Tab Nat := []
  /-- Words and parity of the slot-memory banks (per written location: bank × 12,288 + location; R124). -/
  banks : Tab BankWord := []
  deriving DecidableEq, Repr

/-- Generator of one output that names a PRBS pattern (per output). -/
structure Seed where
  /-- The output (slot address; R132). -/
  out : Nat := 0
  /-- Frames since the generator was seeded with all ones (frames; R132). -/
  live : Nat := 0
  /-- The generator (state; R132). -/
  gen : PatSt := {}
  /-- Pattern of the entry that the generator runs for (pattern number; R132). -/
  pat : Nat := 0
  deriving DecidableEq, Repr

/-- One map entry of KIND 1 or 2 (owned and empty entries follow from the configuration) (per output). -/
structure Entry where
  /-- Entry word 0 (32 bits; R145). -/
  src : Word := 0
  /-- Entry word 1 KIND (1 SLOT or 2 SELECTOR; R145). -/
  kind : Nat := 1
  deriving DecidableEq, Repr

/-- One termination in force (per terminated number). -/
structure Term where
  /-- SRC (1 TU, 2 SAToP pseudowire; R152). -/
  src : Nat := 1
  /-- FROM (32 bits; R152). -/
  from_ : Word := 0
  /-- Framing word (32 bits; R106). -/
  framing : Word := 0
  deriving DecidableEq, Repr

/-- One clear-channel connection in force (up to 32,767). -/
structure CC where
  /-- Kind of endpoint A (1 to 3; R153). -/
  aKind : Nat := 1
  /-- Endpoint A (32 bits; R153). -/
  aId : Word := 0
  /-- Kind of endpoint B (1 to 3; R153). -/
  bKind : Nat := 2
  /-- Endpoint B (32 bits; R153). -/
  bId : Word := 0
  deriving DecidableEq, Repr

/-- The three live maps, terminations and clear-channel connections (one). -/
structure MapSt where
  /-- Entries of KIND 1 and 2, by output slot address; any other output's entry is NONE or OWNED (24,576 + 344,064 +
  2,097,152 entries; R144). -/
  entries : Tab Entry := []
  /-- Terminations in force, by number (up to 65,536; R152). -/
  terms : Tab Term := []
  /-- Clear-channel connections in force (list; R153). -/
  ccs : List CC := []
  /-- Low-order outputs that carry TU-AIS until the next multiframe boundary after a direct edit (set of output
  addresses; R156). -/
  tuAis : List Nat := []
  deriving DecidableEq, Repr

/-- One edit record (up to 65,536 per gather). -/
structure EditRec where
  /-- OUTPUT (32 bits; R150). -/
  out : Word := 0
  /-- SOURCE (32 bits; R150). -/
  src : Word := 0
  /-- KIND and reserved bits (32 bits; R150). -/
  w2 : Word := 0
  /-- COUNT, STEP and reserved bits (32 bits; R150). -/
  w3 : Word := 0
  deriving DecidableEq, Repr

/-- What one staged descriptor put into a gather (R161): edit records, the words of a TERM_CFG, or the words of a CC_CFG. -/
inductive Staged where
  | edits (recs : List EditRec)
  | term (words : List Word)
  | cc (words : List Word)
  deriving DecidableEq, Repr


/-- One gather slot (per slot, 16). -/
structure GSlot where
  /-- 0 FREE, 1 OPEN, 2 VALIDATING, 3 SCHEDULED (2 bits; R160). -/
  st : Nat := 0
  /-- GATHER_ID (16 bits; R162). -/
  gid : Nat := 0
  /-- Staged edits in staging order (up to 65,536 edits; R161). -/
  items : List Staged := []
  /-- The GATHER_COMMIT being validated or recorded (descriptor or absent; R166). -/
  commit : Option Nat := none
  /-- TAG of the GATHER_COMMIT (32 bits; R175). -/
  tag : Nat := 0
  /-- Word 6 of the GATHER_COMMIT: SFC and ASAP (32 bits; R162). -/
  named : Word := 0
  /-- Validation has passed and the commit record is being written (1 bit; R167). -/
  valid : Bool := false
  /-- The commit record has begun, so that the commit superframe is fixed (1 bit; R169). -/
  begun : Bool := false
  /-- Commit superframe (16 bits; R169). -/
  sfc : Nat := 0
  /-- MOVED (1 bit; R169). -/
  moved : Bool := false
  /-- Order in which validations ended (counter; R170). -/
  order : Nat := 0
  /-- Its outputs are bridged (1 bit; R172). -/
  bridged : Bool := false
  /-- Its bridges are ready (1 bit; R172). -/
  ready : Bool := false
  deriving DecidableEq, Repr

/-- One journal record, both copies (up to 16,777,216). -/
structure JRec where
  /-- The record (16 × 32 bits; R175). -/
  words : List Word := []
  /-- The JOURNAL copy is intact (1 bit; R176). -/
  main : Bool := true
  /-- The mirror copy has been written, and the record is held while either replica is intact (1 bit; R174, R391). -/
  mirror : Bool := false
  /-- The first replica of the mirror copy reads uncorrectable (1 bit; R390, R391). -/
  badA : Bool := false
  /-- The second replica of the mirror copy reads uncorrectable (1 bit; R390, R391). -/
  badB : Bool := false
  deriving DecidableEq, Repr

/-- The gather engine (one). -/
structure GthSt where
  /-- Gather slots; an unlisted slot is FREE (16 slots; R160). -/
  slots : Tab GSlot := []
  /-- Slots whose GATHER_COMMIT the engine has taken and not yet begun to validate, oldest first (queue of slots;
  R167). -/
  queue : List Nat := []
  /-- Slot whose validation runs (slot or absent; R167). -/
  run : Option Nat := none
  /-- Next validation order number (counter; R170). -/
  orderNext : Nat := 0
  /-- The journal, newest first (records of 64 bytes; R175). -/
  jrn : List JRec := []
  /-- Tick at which JRN_WRAP was last raised (tick or absent; R180). -/
  wrapEv : Option Nat := none
  /-- The journal has been read back since the running warm reset began, so that REPLAY may clear (1 bit; R26). -/
  replayed : Bool := false
  deriving DecidableEq, Repr

/-- Conditions of one selector copy or one group lane (two per selector; up to 15 per group). -/
structure Hold where
  /-- SF present (1 bit; R181). -/
  sf : Bool := false
  /-- SD present (1 bit; R181). -/
  sd : Bool := false
  /-- Frames the hold-off timer has run (frames or absent; R183). -/
  run : Option Nat := none
  /-- The condition has passed hold-off and is a request (1 bit; R183). -/
  pass : Bool := false
  deriving DecidableEq, Repr

/-- One configured selector (up to 12,288 + 131,072 + 16,384). -/
structure Sel where
  /-- Slot address of the working copy (32 bits; R184). -/
  working : Word := 0
  /-- Slot address of the protection copy (32 bits; R184). -/
  protect : Word := 0
  /-- TYPE, REVERT, SD_EN, HOLDOFF, WTR (32 bits; R184). -/
  par : Word := 0
  /-- Copy selected: false working, true protection (1 bit; R186). -/
  prot : Bool := false
  /-- Copy decided, carried from the next boundary of the switching period (1 bit; R188). -/
  want : Bool := false
  /-- Request in force (rank 2 to 11; R186). -/
  req : Nat := 2
  /-- Stored command (0 to 6; R189). -/
  cmd : Nat := 0
  /-- The working copy (conditions; R183). -/
  w : Hold := { }
  /-- The protection copy (conditions; R183). -/
  p : Hold := { }
  /-- Frames the WTR timer has run (frames or absent; R187). -/
  wtr : Option Nat := none
  /-- Do not revert holds the protection copy (1 bit; R187). -/
  dnr : Bool := false
  /-- An exercise runs, and whether the protection copy has been free of SF and SD (absent, or 1 bit; R190). -/
  exer : Option Bool := none
  /-- Selection changes since it was configured (32 bits; R199). -/
  switches : Word := 0
  /-- Frames that the exercise has run (frames; R190). -/
  exerRun : Nat := 0
  deriving DecidableEq, Repr

/-- One configured MSP group (per group, 64). -/
structure Grp where
  /-- ARCH, BIDIR, REVERT, EXTRA, SD_EN, HOLDOFF, WTR (32 bits; R191). -/
  w7 : Word := 0
  /-- PROT_LANE, N (32 bits; R191). -/
  w8 : Word := 0
  /-- WORK_1 to WORK_14 (1 to 14 lanes; R191). -/
  work : List Nat := []
  /-- HIPRI (14 bits; R191). -/
  hipri : Word := 0
  /-- Conditions of the protection lane and of each working lane (N + 1; R182). -/
  lanes : List Hold := []
  /-- Stored command (0 to 6; R189). -/
  cmd : Nat := 0
  /-- CHANNEL of the stored command (4 bits; R189). -/
  cmdCh : Nat := 0
  /-- WTR timer (frames and channel, or absent; R187). -/
  wtr : Option (Nat × Nat) := none
  /-- Do not revert holds channel 1 (1 bit; R195). -/
  dnr : Bool := false
  /-- Request in force (rank 0 to 12; R194). -/
  req : Nat := 0
  /-- Its channel (4 bits; R194). -/
  reqCh : Nat := 0
  /-- Local request (rank and channel; R195). -/
  local_ : Nat × Nat := (0, 0)
  /-- Channel read from protection (4 bits; R195). -/
  selCh : Nat := 0
  /-- Channel bridged (4 bits; R195). -/
  bridgeCh : Nat := 0
  /-- K1 transmitted (8 bits; R195). -/
  k1Tx : Nat := 0
  /-- K2 transmitted (8 bits; R195). -/
  k2Tx : Nat := 0
  /-- Last valid accepted K1 (8 bits; R196). -/
  k1Used : Nat := 0
  /-- Last valid accepted K2 (8 bits; R196). -/
  k2Used : Nat := 0
  /-- Last accepted K1 and K2, valid or not (pair or absent; R195). -/
  kAcc : Option (Nat × Nat) := none
  /-- INVALID, CHANNEL, ARCH, MODE, NORESP, FLAP (6 bits; R196). -/
  fop : List Bool := [false, false, false, false, false, false]
  /-- Frames K2 [3] has stood against the present FOP_ARCH state (frames, to 400; R196). -/
  archRun : Nat := 0
  /-- Frames K2 [2:0] has stood against the present FOP_MODE state (frames, to 400; R196). -/
  modeRun : Nat := 0
  /-- Frames since the transmitted K1 last changed (frames, to 400; R196). -/
  noresp : Nat := 0
  /-- Ages in frames of remote-driven selection changes in the last second (frame ages; R196). -/
  flaps : List Nat := []
  /-- Frames the accepted K1/K2 has been unchanged (frames, to 8,000; R196). -/
  kStable : Nat := 0
  /-- A group exercise runs (channel and frames, or absent; R190). -/
  exer : Option (Nat × Nat) := none
  /-- The local request of the last frame (rank and channel; R196). -/
  locWas : Nat × Nat := (0, 0)
  /-- The request in force in the last frame was the remote one (1 bit; R196). -/
  byRem : Bool := false
  deriving DecidableEq, Repr

/-- The protection engine (one). -/
structure ProtSt where
  /-- Configured selectors (by tier × 131,072 + number; R184). -/
  sels : Tab Sel := []
  /-- Configured groups (by group; R191). -/
  grps : Tab Grp := []
  deriving DecidableEq, Repr

/-- One block in a delay line: a container, or the byte of a DS0 slot (per block of a delay line). -/
structure LineBlk where
  /-- Slot at whose pace the block was carried (slot address; R208). -/
  pace : Word := 0
  /-- Position of the block, as the pointer value of that slot (pointer value; R81). -/
  pos : Nat := 0
  /-- Its position came from a re-centring (1 bit; R81). -/
  ndf : Bool := false
  /-- Its source showed all ones (1 bit; R86). -/
  ones : Bool := true
  /-- Its bytes (bytes; R208). -/
  data : List Byte := []
  /-- A section of it could not be recovered (1 bit; R140, R218). -/
  bad : Bool := false
  deriving DecidableEq, Repr

/-- One selector in merge mode (per merge). -/
structure Merge where
  /-- ALIGN: false punty markers, true correlation (1 bit; R203). -/
  corr : Bool := false
  /-- STEP_MODE HOLD (1 bit; R203). -/
  stepHold : Bool := false
  /-- MAX_DELAY (1 to 400 ms; R203). -/
  maxMs : Nat := 1
  /-- Delay line held in DELAY (4,096-byte pages; R205). -/
  pages : Nat := 0
  /-- Charged rate (kb/s; R205). -/
  rate : Nat := 0
  /-- State (0 ACQUIRING, 1 ALIGNED, 2 HOLD; R207). -/
  st : Nat := 0
  /-- Cause (0 to 7; R223). -/
  cause : Nat := 0
  /-- Reference copy: false working, true protection (1 bit; R208). -/
  ref : Bool := false
  /-- Working copy verified (1 bit; R216). -/
  verW : Bool := false
  /-- Protection copy verified (1 bit; R216). -/
  verP : Bool := false
  /-- Consecutive confirmations of the working copy since it became unverified (0 to 2; R216). -/
  confW : Nat := 0
  /-- Consecutive confirmations of the protection copy since it became unverified (0 to 2; R216). -/
  confP : Nat := 0
  /-- Copy carried in the last block (1 bit; R219). -/
  choice : Bool := false
  /-- Held offset (ns; R208). -/
  held : Int := 0
  /-- First measured offset: how much later the protection copy arrives (ns or absent; R211). -/
  cand : Option Int := none
  /-- Confirmed offset, waiting for the delay line to cover it (ns or absent; R211). -/
  delta : Option Int := none
  /-- Clean history of the stored copy that the delay line holds (ns; R211). -/
  hist : Nat := 0
  /-- Pending offset: the moved copy, and how far it arrives later than before (copy and ns, or absent; R217). -/
  pend : Option (Bool × Int) := none
  /-- Consecutive pairs or windows outside the tracking window (0 to 2; R212). -/
  bad : Nat := 0
  /-- Movement of the held offset that the next block boundary takes (ns; R212). -/
  track : Int := 0
  /-- History of the former reference copy, written for an exchange of roles (ns; R217). -/
  hist2 : Nat := 0
  /-- Marker and arrival on the working copy of the last pair at the held offset (marker value and ns, or absent;
  R212). -/
  okW : Option (Nat × Nat) := none
  /-- Marker and arrival on the protection copy of the last pair at the held offset (marker value and ns, or absent;
  R212). -/
  okP : Option (Nat × Nat) := none
  /-- Copy that last had SF or an accepted NDF_ENABLE (copy or absent; R215). -/
  lastHit : Option Bool := none
  /-- Markers recorded on the working copy, newest first (marker value and ns; R211). -/
  recW : List (Nat × Nat) := []
  /-- Markers recorded on the protection copy, newest first (marker value and ns; R211). -/
  recP : List (Nat × Nat) := []
  /-- Correlation phase: false working stored, true protection stored (1 bit; R213). -/
  phaseP : Bool := false
  /-- Windows compared in the running phase (windows; R213). -/
  phaseWin : Nat := 0
  /-- A flat window has been seen and no match since (1 bit; R215). -/
  flat : Bool := false
  /-- ALT count (32 bits; R222). -/
  alt : Word := 0
  /-- BOTH count (32 bits; R222). -/
  both : Word := 0
  /-- Steps taken (32 bits; R222). -/
  steps : Word := 0
  /-- Amount of the last step (signed ns; R222). -/
  lastStep : Int := 0
  /-- Blocks of the working copy that may still be read, newest first (blocks; R208). -/
  lineW : List LineBlk := []
  /-- Blocks of the protection copy that may still be read, newest first (blocks; R208). -/
  lineP : List LineBlk := []
  /-- The running block of the working copy had an uncorrectable HBM read (1 bit; R218). -/
  badW : Bool := false
  /-- The running block of the protection copy had an uncorrectable HBM read (1 bit; R218). -/
  badP : Bool := false
  /-- Bytes of the running block of the working copy that could not be recovered, each range with its end (ranges of
  bytes; R140, R218). -/
  lostW : List (Nat × Nat) := []
  /-- Bytes of the running block of the protection copy that could not be recovered, each range with its end (ranges
  of bytes; R140, R218). -/
  lostP : List (Nat × Nat) := []
  /-- Blocks since the last comparison window ended (blocks; R213). -/
  winRun : Nat := 0
  deriving DecidableEq, Repr

/-- The marver (one). -/
structure MrgSt where
  /-- Selectors in merge mode (by selector key; R203). -/
  merges : Tab Merge := []
  /-- Delay-line pages freed at the next frame boundary (pages; R206). -/
  freeing : Nat := 0
  deriving DecidableEq, Repr

/-- One guarded connection (up to 4,096). -/
structure Guard where
  /-- GUARD_CFG words 7 to 14 in force (8 × 32 bits; R225). -/
  words : List Word := []
  /-- Delay line held in DELAY (4,096-byte pages; R226). -/
  pages : Nat := 0
  /-- Held delay of the in direction (ns or absent; R230). -/
  dIn : Option Int := none
  /-- Delay of the out direction (ns or absent; R230). -/
  dOut : Option Int := none
  /-- Path asymmetry (ns; R231). -/
  a : Int := 0
  /-- Both directions have been measured (1 bit; R231). -/
  aSet : Bool := false
  /-- Compensation in force here, in units of the delay line (units of the container; R234). -/
  cIn : Nat := 0
  /-- Compensation in force at the partner (ns; R230). -/
  cOut : Int := 0
  /-- COMMON of the last message from the partner (1 bit; R230). -/
  pCommon : Bool := false
  /-- Announced step: target and superframe (units and superframe, or absent; R235). -/
  ann : Option (Nat × Nat) := none
  /-- Target of the running slew (units or absent; R235). -/
  slew : Option Nat := none
  /-- Frames since the last unit of a slew (frames, to 1,000,000; R235). -/
  slewGap : Nat := 0
  /-- C_in in the last COMP record queued (ns; R235). -/
  lastComp : Int := 0
  /-- ASYM (1 bit; R233). -/
  asym : Bool := false
  /-- CAP (1 bit; R234). -/
  cap : Bool := false
  /-- PARTNER_LOST is present (1 bit; R233). -/
  stale : Bool := false
  /-- Frames since the last step was taken, while it holds GUARD_PULSE (frames or absent; R236). -/
  holdRun : Option Nat := none
  /-- Frames the channel asymmetry has stayed below 0.9 of ASYM_THR (frames, to 800; R233). -/
  asymRun : Nat := 0
  /-- Frames since the last valid message of the partner (frames, to 800; R233). -/
  silent : Nat := 0
  /-- Last marker channel units read on RX, newest first (up to 8 units; R227). -/
  rxUnits : List Byte := []
  /-- Own latest TX stamp (marker and ns, or absent; R229). -/
  txLast : Option (Nat × Nat) := none
  /-- Own latest RX stamp (marker and ns, or absent; R229). -/
  rxLast : Option (Nat × Nat) := none
  /-- Partner's latest TX stamp (marker and ns, or absent; R230). -/
  pTx : Option (Nat × Nat) := none
  /-- Event number of the last STEP or COMP record received (16 bits or absent; R237). -/
  evIn : Option Nat := none
  /-- Event number of the next STEP or COMP record (16 bits; R229). -/
  evOut : Nat := 0
  /-- STEP and COMP records to send: kind, event number, value, sends left on PROBE_A and on PROBE_B (records; R229).
  -/
  outbox : List (Nat × Nat × Int × Nat × Nat) := []
  /-- Declared local steps not yet applied to a while the partner is silent (ns; R231). -/
  localPend : Int := 0
  /-- Steps declared (32 bits; R238). -/
  steps : Word := 0
  /-- Blocks of the received path that the delay line holds, newest first (blocks; R225). -/
  line : List LineBlk := []
  /-- COMMON has changed and the in direction has not been measured since (1 bit; R237). -/
  newIn : Bool := false
  /-- COMMON has changed and the out direction has not been measured since (1 bit; R237). -/
  newOut : Bool := false
  /-- Partner's latest RX stamp (marker and ns, or absent; R230). -/
  pRx : Option (Nat × Nat) := none
  /-- When the first marker channel unit crossed the ingress balls since the offset of the units last changed (ns;
  R232). -/
  rxRef : Nat := 0
  /-- Marker channel units since then (units, to 8; R232). -/
  rxRun : Nat := 0
  /-- A step has been taken whose first period has still to leave with a new pointer (periods, 0 to 2; R235). -/
  stepped : Nat := 0
  /-- When the last marker channel units crossed the ingress balls, ns, newest first (up to 8; R227). -/
  rxTimes : List Nat := []
  deriving DecidableEq, Repr

/-- The symmetry guard (one). -/
structure SymSt where
  /-- Configured guards (by guard number; R225). -/
  guards : Tab Guard := []
  /-- Message sequence, by probe lane (8 bits per lane; R228). -/
  seq : Tab Nat := []
  /-- Rotation position, by probe lane (guard numbers; R229). -/
  rot : Tab Nat := []
  /-- Delay-line pages freed at the next frame boundary (pages; R226). -/
  freeing : Nat := 0
  deriving DecidableEq, Repr

/-- State of one Ethernet lane that no register shows (per lane, 128). -/
structure EthSt where
  /-- ETH_TX frames queued, oldest first, each with its descriptor (queue; R246). -/
  txq : List (Nat × List Byte) := []
  /-- The preamble of the oldest queued frame has started (1 bit; R246). -/
  sending : Bool := false
  /-- Fetched ETH_RX_BUF descriptors in ring order (up to 16; R245). -/
  rxb : List Nat := []
  /-- Deskew of the lane that carries the SFD (1/16 ns; R243). -/
  deskew : Nat := 0
  /-- Uncorrectable codewords in this second (count; R264). -/
  fecSec : Nat := 0
  /-- Frames that a near-end loopback has still to bring back to the receive path, oldest first (frames; R45). -/
  looped : List (List Byte) := []
  /-- Pseudowire packets that fell due while a host frame was leaving, oldest first, each with its pseudowire
  (packets; R246). -/
  held : List (Nat × List Byte) := []
  deriving DecidableEq, Repr

/-- One packet held in a jitter buffer (per packet slot). -/
structure PwPkt where
  /-- Sequence number (16 bits; R253). -/
  seq : Nat := 0
  /-- Payload, all ones when L = 1 (payload; R253). -/
  data : List Byte := []
  /-- The packet carried L = 1 (1 bit; R252). -/
  l : Bool := false
  /-- Signalling substructure that it carried (up to 16 bytes; R258). -/
  sig : List Byte := []
  deriving DecidableEq, Repr

/-- One configured pseudowire (up to 16,384). -/
structure Pw where
  /-- TYPE, CAS, ENCAP, RTP, LANE, LOSS_FILL (32 bits; R247). -/
  w7 : Word := 0
  /-- PAYLOAD, FRAMES (32 bits; R247). -/
  w8 : Word := 0
  /-- TIMESLOTS (32 bits; R247). -/
  w9 : Word := 0
  /-- DEPTH, LOPS_N, LOPS_EXIT, ACR_BW, FILL (32 bits; R247). -/
  w10 : Word := 0
  /-- RX_KEY (32 bits; R247). -/
  w11 : Word := 0
  /-- Header template (14 to 128 bytes; R248). -/
  tmpl : List Byte := []
  /-- CEM pages held (4,096-byte pages; R249). -/
  pages : Nat := 0
  /-- Jitter buffer state (0 WAIT, 1 FILL, 2 PLAY, 3 LOPS; R254). -/
  st : Nat := 0
  /-- Sequence next due for playout (16 bits; R253). -/
  e : Nat := 0
  /-- Packets held (buffer slots; R253). -/
  buf : List PwPkt := []
  /-- Consecutive slots played without their packets (0 to 15; R255). -/
  missRun : Nat := 0
  /-- Consecutive packets in sequence while in LOPS (0 to 15; R255). -/
  inRun : Nat := 0
  /-- Sequence of the last packet received (16 bits; R255). -/
  inLast : Nat := 0
  /-- Payload of the slot in play (payload; R254). -/
  play : List Byte := []
  /-- The slot in play was a received packet without L (1 bit; R218). -/
  playOk : Bool := false
  /-- L received (1 bit; R252). -/
  lRx : Bool := false
  /-- M = 0b10 received (1 bit; R252). -/
  raiRx : Bool := false
  /-- Sequence of the next packet sent (16 bits; R251). -/
  seqTx : Nat := 0
  /-- IPv4 identification of the next packet (16 bits; R248). -/
  ipId : Nat := 0
  /-- Bits (SAToP) or frames (CESoPSN) sent since the first packet, from which the RTP timestamp follows (modulo 2^32
  × 256; R251). -/
  tsTx : Nat := 0
  /-- Recovered offset against DPLL-S (0.001 ppm; R256). -/
  freq : Int := 0
  /-- Counts, words 2 to 13 of the record (12 × 32 bits; R261). -/
  cnt : List Word := []
  /-- Received signalling substructure (up to 15 bytes; R258). -/
  casRx : List Byte := []
  /-- Bits of a SAToP pseudowire that have been played and not yet taken on, oldest first (a few frames; R250, R254).
  -/
  out : List Bool := []
  /-- Frames of the packet in play that the DS0 tier has read (0 to 64; R255). -/
  playPos : Nat := 0
  /-- Bits collected for the next packets, oldest first (bits; R250). -/
  txBits : List Bool := []
  /-- Whether each of the last frames was played without its packet or with L, newest first (up to 3,300 bits; R218).
  -/
  fails : List Bool := []
  /-- TS16 of the frames in play, with CAS (bytes; R258). -/
  play16 : List Byte := []
  /-- Payload of the last slot played (payload; R255). -/
  lastPay : List Byte := []
  /-- Last bytes that output 16 has received, newest first (up to 16 bytes; R258). -/
  casSeen : List Byte := []
  /-- Frame of the CAS multiframe that was last received, once it is found (0 to 15 or absent; R258). -/
  casAt : Option Nat := none
  /-- The CAS alignment pattern was absent at its last position (1 bit; R258). -/
  casMiss : Bool := false
  /-- Last byte received in each frame of the CAS multiframe (16 bytes; R258). -/
  casMf : List Byte := []
  /-- Bits of the played stream that the recovered clock has passed and not yet read (billionths of a bit; R256). -/
  outFrac : Nat := 0
  deriving DecidableEq, Repr

/-- Circuit emulation (one). -/
structure CemSt where
  /-- Configured pseudowires (by pseudowire number; R247). -/
  pws : Tab Pw := []
  deriving DecidableEq, Repr

/-- State of one reference candidate that no register shows (per candidate, 24). -/
structure RefSt where
  /-- Offset samples without a loss of activity, newest first, 0.001 ppm (up to 1,000; R268). -/
  samples : List Int := []
  /-- Seconds the wait-to-restore has run (seconds; R270). -/
  wtr : Nat := 0
  /-- TIM_REF_CFG whose QL and QL_MODE are in force, as the last decision took it (32 bits; R269, R284). -/
  ql : Word := 0x1E000000
  deriving DecidableEq, Repr

/-- State of one DPLL that no register shows (per DPLL, 4). -/
structure DpllSt where
  /-- History: frequency in 0.001 ppb, clean, reference; newest first (up to 2,048; R277). -/
  hist : List (Int × Bool × Nat) := []
  /-- Reference wanted by the last decision; 31 none (0 to 31; R272). -/
  want : Nat := 31
  /-- Decisions that have named it without a break (decisions of 100 ms; R273). -/
  wantRun : Nat := 0
  /-- Decisions since the last voluntary change (decisions of 100 ms, to 100; R273). -/
  sinceVol : Nat := 100
  /-- The running lehr realigns the phase (1 bit; R276). -/
  real : Bool := false
  /-- Frequency just before the event (0.001 ppb; R276). -/
  lehrFrom : Int := 0
  /-- Output frequency against OSCIN (0.001 ppb; R274). -/
  freq : Int := 0
  /-- The members of top furthest apart (two candidates; R285). -/
  dis : Nat × Nat := (0, 0)
  /-- Candidates outvoted for this DPLL (set of candidates; R273). -/
  outv : List Nat := []
  /-- MODE or FORCE_REF has changed since the last decision (1 bit; R273). -/
  modeNew : Bool := false
  /-- The selected reference has lost its activity, so that the next decision comes within 1 ms and is none of the 100
  ms decisions (1 bit; R272, R273). -/
  early : Bool := false
  /-- Since the last sample the DPLL has been LOCKED to one QUALIFIED reference (1 bit; R277). -/
  whole : Bool := false
  deriving DecidableEq, Repr

/-- State of one frame-pulse output that no register shows (per output, 4). -/
structure FpSt where
  /-- Heel point (ns; R281). -/
  heel : Int := 0
  /-- Consecutive source pulses that deviate by more than 8 ns (0 to 3; R282). -/
  dev : Nat := 0
  deriving DecidableEq, Repr

/-- The timing block beyond its registers (one). -/
structure TimSt where
  /-- Candidates (by candidate; R268). -/
  refs : Tab RefSt := []
  /-- DPLLs (by DPLL; R277). -/
  dplls : Tab DpllSt := []
  /-- OSCIN has stopped and no measurement has been made since it returned (1 bit; R279). -/
  frozen : Bool := false
  /-- Frame-pulse outputs (by output; R281). -/
  fps : Tab FpSt := []
  /-- TIM_MON_TOL in force, as the last decision took it (32 bits; R284). -/
  tol : Word := 0x23F007D0
  /-- TIM_MON_DRIFT in force, as the last decision took it (32 bits; R284). -/
  drift : Word := 0x01F401F4
  /-- TIM_OSC.OSC_QL in force, as the last decision took it (4 bits; R284). -/
  oscQl : Nat := 7
  /-- Frequency that each CLKOUT carries, 0 while it holds low; empty while all do (8 outputs, Hz; R280). -/
  clk : List Nat := []
  deriving DecidableEq, Repr

/-- The time counter (one). -/
structure TodSt where
  /-- Accumulator: NS in [63:32], fraction in [31:0] (64 bits; R286). -/
  acc : BitVec 64 := 0
  /-- Increment INC in force (64 bits; R286). -/
  inc : BitVec 64 := 0x200000000
  /-- Nanoseconds within the second (0 to 999,999,999; R287). -/
  subsec : Nat := 0
  /-- Wraps of NS by counting (32 bits; R287). -/
  wraps : Word := 0
  /-- Latched fraction (32 bits; R290). -/
  latFrac : Word := 0
  /-- Latched SUBSEC (32 bits; R290). -/
  latSub : Word := 0
  /-- Latched WRAPS (32 bits; R290). -/
  latWraps : Word := 0
  /-- SERVO mode in effect since the last 1PPS (0 to 2; R291). -/
  servo : Nat := 0
  /-- Tick at which the HOST lock ends (ticks; R293). -/
  lockEnd : Nat := 0
  /-- Last samples in ACQUIRING: offset and time in ns, newest first (up to 3; R292). -/
  samples : List (Int × Nat) := []
  /-- The loop's integral term as an INC (64 bits; R292). -/
  integ : BitVec 64 := 0x200000000
  /-- Consecutive samples within LOCK_THR (0 to 16; R292). -/
  okRun : Nat := 0
  /-- Consecutive samples above 4 × LOCK_THR while LOCKED (0 to 4; R292). -/
  badRun : Nat := 0
  /-- TIME_SET descriptors validated and waiting for their tick, oldest first (queue; R294). -/
  waiting : List Nat := []
  /-- Ticks of the 500 MHz timebase since the cold reset (count; R286). -/
  ticks : Nat := 0
  /-- Tick of the servo's last sample (ticks; R292). -/
  sampled : Nat := 0
  deriving DecidableEq, Repr

/-- One descriptor in flight (up to 65,536). -/
structure Desc where
  /-- The model's serial number of the descriptor (counter; R319). -/
  id : Nat := 0
  /-- Its command ring (12 bits; R319). -/
  ring : Nat := 0
  /-- Its entry (16 bits; R316). -/
  idx : Nat := 0
  /-- The descriptor as fetched (16 × 32 bits; R312). -/
  words : List Word := []
  /-- 0 fetched, 1 taken, 2 past its commit point, 3 ended with its record waiting (0 to 3; R314). -/
  st : Nat := 0
  /-- A warm reset has started while it was in flight (1 bit; R458). -/
  frozen : Bool := false
  /-- GLB_MODE when it was fetched (2 bits; R23). -/
  mode : Nat := 0
  /-- What the descriptor is attached to while it runs (gather slot, channel, lane) (a slot or number, or absent;
  R314). -/
  bound : Option (Nat × Nat) := none
  /-- Bytes of its input buffer read before a fault stopped it (bytes; R337). -/
  got : List Byte := []
  deriving DecidableEq, Repr

/-- One completion record, written or waiting (32 bytes). -/
structure Cpl where
  /-- Completion ring (12 bits; R311). -/
  ring : Nat := 0
  /-- TAG (32 bits; R316). -/
  tag : Word := 0
  /-- STATUS (16 bits; R317). -/
  status : Nat := 0
  /-- OPCODE (16 bits; R316). -/
  op : Nat := 0
  /-- Recovery epoch (32 bits; R316). -/
  epoch : Word := 0
  /-- Time counter (32 bits; R316). -/
  ns : Word := 0
  /-- Result word 0 (32 bits; R316). -/
  r0 : Word := 0
  /-- Result word 1 (32 bits; R316). -/
  r1 : Word := 0
  /-- INDEX (16 bits; R316). -/
  idx : Nat := 0
  /-- RING (12 bits; R316). -/
  cmd : Nat := 0
  /-- The descriptor it ends (counter; R319). -/
  d : Nat := 0
  deriving DecidableEq, Repr

/-- State of one ring that no register shows (per ring, 4,096). -/
structure RingSt where
  /-- Entries fetched since the ring was last enabled (count; R459). -/
  fetched : Nat := 0
  /-- Posted entries aborted before their fetch (set of entries; R324). -/
  skip : List Nat := []
  /-- Doorbells recorded while the device may not act on them: their INDEX values, oldest first (list of 16 bits; R305). -/
  dbs : List Nat := []
  /-- When the ring was last served (counter; R320). -/
  rotate : Nat := 0
  deriving DecidableEq, Repr

/-- Rings, descriptors in flight and records (one). -/
structure RngSt where
  /-- Rings (by ring; R306). -/
  rings : Tab RingSt := []
  /-- Descriptors in flight, oldest first (up to 65,536; R319). -/
  descs : List Desc := []
  /-- Serial number of the next descriptor (counter; R319). -/
  next : Nat := 1
  /-- Records waiting for space or for Bus Master Enable, oldest first (queue; R319). -/
  cplWait : List Cpl := []
  /-- ABORT descriptors waiting for their target's record: the ABORT, its target, and whether it stopped the target
  (list; R324). -/
  abWait : List (Nat × Nat × Bool) := []
  /-- Bus Master Enable as the device sees it (1 bit; R305). -/
  bme : Bool := false
  /-- The PCIe link is up (1 bit; R301). -/
  linkUp : Bool := false
  /-- Fetching from every ring is stopped (1 bit; R23). -/
  stopped : Bool := false
  /-- Doorbell writes of ring 3 that cover word 1, recorded: the INDEX of word 0 and the slot of word 1, each where
  the write brings it (indices and kennel slots; R26). -/
  resumes : List (Option Nat × Option Nat) := []
  /-- What the host has configured in the configuration space (PCIe configuration; R301). -/
  cfg : PcieCfg := { }
  deriving DecidableEq, Repr

/-- One translation (up to 2,048). -/
structure TlbEnt where
  /-- Device-virtual address [37:12] of the page's first 4 KiB (26 bits; R334). -/
  vpn : Nat := 0
  /-- A 2 MiB page (1 bit; R334). -/
  big : Bool := false
  /-- Host bus address of the page (52 bits; R332). -/
  pa : Nat := 0
  /-- The device may write the page (1 bit; R332). -/
  w : Bool := false
  deriving DecidableEq, Repr

/-- One kennel slot that is not FREE (up to 256). -/
structure Knl where
  /-- State (1 FAULT, 2 PREEMPTED, 3 READY; R347). -/
  st : Nat := 1
  /-- The descriptor parked (counter; R337). -/
  d : Nat := 0
  /-- Fault kind (0 to 5; R347). -/
  kind : Nat := 0
  /-- The faulting access was a write (1 bit; R347). -/
  write : Bool := false
  /-- Faulting device-virtual address (38 bits; R347). -/
  va : Nat := 0
  /-- Order of parking (counter; R343). -/
  order : Nat := 0
  /-- Host memory moved when it parked (bytes; R347). -/
  moved : Nat := 0
  /-- The frame that a parked buffer descriptor is to write (bytes; R337). -/
  data : List Byte := []
  /-- Its result word 0 (32 bits; R337). -/
  r0 : Word := 0
  /-- Its result word 1 (32 bits; R337). -/
  r1 : Word := 0
  /-- Tick of its last PAGE_REQ (ticks; R339). -/
  since : Nat := 0
  deriving DecidableEq, Repr

/-- Progress of one bulk descriptor (per bulk descriptor). -/
structure Bulk where
  /-- Next entry or record to visit (position; R337). -/
  pos : Nat := 0
  /-- Entries or records still to visit (count; R337). -/
  left : Nat := 0
  /-- Whole records written (count; R317). -/
  recs : Nat := 0
  /-- Records that did not fit in LENGTH (count; R222). -/
  missed : Nat := 0
  /-- Host memory moved (bytes; R341). -/
  moved : Nat := 0
  /-- MAP_GEN at the first record (32 bits or absent; R157). -/
  gen0 : Option Nat := none
  /-- MAP_GEN at the last record (32 bits; R157). -/
  gen1 : Nat := 0
  /-- LENGTH filled before the visit ended (1 bit; R157). -/
  full : Bool := false
  /-- Past its commit point (1 bit; R314). -/
  commit : Bool := false
  /-- Input buffer read so far (MAP_EDIT) (words; R336). -/
  data : List Word := []
  /-- Time counter when it began (32 bits; R362). -/
  ns0 : Word := 0
  /-- Host memory moved at its last checkpoint (bytes; R341). -/
  mark : Nat := 0
  /-- Entries or records visited since its last checkpoint (count; R341). -/
  seen : Nat := 0
  deriving DecidableEq, Repr

/-- One bulk engine at work (4). -/
structure Eng where
  /-- The descriptor it runs (counter; R341). -/
  d : Nat := 0
  /-- Order in which it was taken (counter; R342). -/
  order : Nat := 0
  /-- A pre-emption of it has been decided (1 bit; R342). -/
  preempt : Bool := false
  deriving DecidableEq, Repr

/-- Translation, kennel and bulk engines (one). -/
structure XlatSt where
  /-- Translations held (up to 2,048; R334). -/
  tlb : List TlbEnt := []
  /-- Invalidation that drains (32 bits or absent; R335). -/
  inv : Option Word := none
  /-- Kennel; an unlisted slot is FREE (256 slots; R337). -/
  knl : Tab Knl := []
  /-- Bulk engines; an unlisted engine is free (4 engines; R341). -/
  engs : Tab Eng := []
  /-- Progress of the bulk descriptors taken (by descriptor; R337). -/
  bulk : Tab Bulk := []
  /-- Bulk descriptors taken and waiting for an engine, oldest first (queue; R343). -/
  queue : List Nat := []
  /-- Next order number (counter; R342). -/
  order : Nat := 0
  deriving DecidableEq, Repr

/-- One event record (32 bytes). -/
structure EvRec where
  /-- SOURCE (11 bits; R349). -/
  src : Nat := 0
  /-- When it was raised (32 bits; R349). -/
  ns : Word := 0
  /-- Data word 0 (32 bits; R349). -/
  d0 : Word := 0
  /-- Data word 1 (32 bits; R349). -/
  d1 : Word := 0
  /-- Records merged into it (16 bits; R349). -/
  held : Nat := 0
  /-- When the oldest event merged was raised (32 bits; R349). -/
  old : Word := 0
  deriving DecidableEq, Repr

/-- Unannounced records of one event ring (per event ring). -/
structure Unann where
  /-- Records (count; R354). -/
  n : Nat := 0
  /-- Tick at which the oldest was written (ticks; R354). -/
  since : Nat := 0
  /-- Highest severity among them (2 bits; R354). -/
  sev : Nat := 0
  deriving DecidableEq, Repr

/-- Event delivery (one). -/
structure EvtSt where
  /-- Records held, by source, oldest first (up to 4 per source; R352). -/
  held : Tab (List EvRec) := []
  /-- Unannounced records (by event ring; R354). -/
  unann : Tab Unann := []
  /-- SEQ of the next record (32 bits per event ring; R349). -/
  seq : Tab Nat := []
  /-- Events limited to once per second that have been raised in this second: source × 256 + cause, instance (set;
  R460). -/
  once : List (Nat × Nat) := []
  /-- Vectors whose MSI-X pending bit is set (65 bits; R354). -/
  pba : List Nat := []
  /-- Vectors masked in the MSI-X table (65 bits; R303). -/
  vmask : List Nat := List.range 65
  /-- Address and data words of the MSI-X table, by word number; an unlisted word is 0 (260 × 32 bits; R303). -/
  tab : Tab Word := []
  deriving DecidableEq, Repr

/-- One chain slot in a snapshot (per chained counter). -/
structure ChainSnap where
  /-- OFFSET (26 bits; R359). -/
  off : Nat := 0
  /-- HIGH (32 bits; R359). -/
  high : Word := 0
  /-- EPOCH (1 bit; R359). -/
  epoch : Bool := false
  deriving DecidableEq, Repr

/-- One one-second snapshot (up to 3,600 and the latest). -/
structure Snap where
  /-- SEQ (32 bits; R359). -/
  seq : Nat := 0
  /-- Time counter at the 1PPS tick (32 bits; R360). -/
  ns : Word := 0
  /-- WRAPS (32 bits; R360). -/
  wraps : Word := 0
  /-- Leash epoch (32 bits; R360). -/
  epoch : Word := 0
  /-- STEP (1 bit; R360). -/
  step : Bool := false
  /-- Raw counters that are not 0, by BAR0 offset (raw counters; R359). -/
  cnt : Tab Word := []
  /-- Enabled chain slots (256 slots; R359). -/
  chain : Tab ChainSnap := []
  /-- Path section (64-byte records; R360). -/
  paths : List (List Word) := []
  /-- Termination section (64-byte records; R360). -/
  terms : List (List Word) := []
  /-- Pseudowire section (64-byte records; R360). -/
  pws : List (List Word) := []
  /-- Records left out of PMHIST (count; R361). -/
  trunc : Nat := 0
  /-- Byte offset of its slot in PMHIST (38 bits; R361). -/
  off : Nat := 0
  /-- Bytes of its slot (38 bits; R361). -/
  size : Nat := 0
  /-- Its slot is marked invalid (1 bit; R361, R390). -/
  invalid : Bool := false
  deriving DecidableEq, Repr

/-- Counters and snapshots (one). -/
structure PmSt where
  /-- Latest snapshot, kept on die (snapshot or absent; R361). -/
  snap : Option Snap := none
  /-- Snapshots PMHIST holds, newest first (up to 3,600; R361). -/
  hist : List Snap := []
  /-- Snapshots that wait to be written to PMHIST, oldest first (snapshots; R359). -/
  toWrite : List Snap := []
  /-- SEQ of the latest snapshot (32 bits; R359). -/
  seq : Nat := 0
  /-- A SET or STEP applied in this second (1 bit; R360). -/
  stepSec : Bool := false
  /-- PM_SNAP_VAL as latched (32 bits; R364). -/
  latVal : Word := 0
  /-- PM_SNAP_HI as latched (32 bits; R364). -/
  latHi : Word := 0
  /-- PM_SNAP_STAT as latched (32 bits; R364). -/
  latStat : Word := 1
  deriving DecidableEq, Repr

/-- A burst of which the target has not yet accepted every beat (per master). -/
structure Burst where
  /-- The access whose beats these are (an access; R378). -/
  acc : Access := {}
  /-- Beats accepted; a burst to the map-memory window is staged until its last one is (0 to 16; R378). -/
  done : Nat := 0
  /-- What the accepted beats of a read have read (bytes; R378). -/
  got : List Byte := []
  /-- What its address decoded to when the master issued it (target and offset; R373). -/
  tgt : Nat × Nat := (7, 0)
  deriving DecidableEq, Repr

/-- An access whose port does not serve it yet (queue entry). -/
structure MtxWait where
  /-- The access (an access; R376). -/
  acc : Access := {}
  /-- It is a locked read (1 bit; R376). -/
  lock : Bool := false
  /-- What its address decoded to when the master issued it (target and offset; R373). -/
  tgt : Nat × Nat := (7, 0)
  /-- It is the second cycle of a scratchpad access across an 8-byte boundary: what the first cycle of a read has read
  (bytes or absent; R379). -/
  rot : Option (List Byte) := none
  /-- That second cycle comes no earlier than the next access (1 bit; R379). -/
  hold : Bool := false
  /-- It is a write of the supervisor port of the mailbox (a write or absent; R376). -/
  mbox : Option MboxWrite := none
  deriving DecidableEq, Repr

/-- The control complex beyond its registers (one). -/
structure MtxSt where
  /-- A half holds the leash (it has been granted, and neither lapsed nor released since) (1 bit; R366). -/
  held : Bool := false
  /-- Why the leash is free: 0 start-up, 1 lapse, 2 planned handover, 3 warm reset (0 to 3; R384). -/
  vacant : Nat := 0
  /-- A planned handover is pending (1 bit; R371). -/
  handover : Bool := false
  /-- Valid claims of the open claim window: half (false A) and epoch, oldest first (list; R368). -/
  claims : List (Bool × Word) := []
  /-- A grant has been made and the descriptors in flight at it wait for their records (1 bit; R369). -/
  recover : Bool := false
  /-- Locks that the limit released and whose unlocking write is still to come, each as master + 8 × target (set;
  R377). -/
  lost : List Nat := []
  /-- Accesses waiting for a lock, or for a stack to wake, oldest first (queue; R376). -/
  waits : List MtxWait := []
  /-- Master each port served last; an absent entry has none (unparked) (master per target; R375). -/
  served : Tab Nat := []
  /-- Master each idle port is parked on (master per target; R375). -/
  parked : Tab Nat := []
  /-- Bursts in progress (per master; R378). -/
  bursts : Tab Burst := []
  /-- Mailbox memory (65,536 bytes; R380). -/
  mailbox : List Host.Cell := []
  /-- Scratchpad (2,097,152 bytes; R379). -/
  scratch : List Host.Cell := []
  /-- Map memory as the window shows it (25,165,824 bytes; R372). -/
  mapWin : List Host.Cell := []
  /-- Supervisor interrupts signalled by host writes of word 8,190 (count; R382). -/
  irq : Nat := 0
  /-- The loads of a manifest and resident segment into the start of the scratchpad, newest first: how many bytes each
  filled; what they hold is the firmware's (list of lengths; R427). -/
  fw : List Nat := []
  /-- A debug session is open (1 bit; R378). -/
  dbg : Bool := false
  /-- Tick of the holder's last heartbeat; absent before the first grant (ticks or absent; R366). -/
  beat : Option Nat := none
  /-- Tick at which the holder lapsed (ticks; R370). -/
  lapse : Nat := 0
  deriving DecidableEq, Repr

/-- Buffer memory beyond its registers (one). -/
structure HbmSt where
  /-- Content of the four stacks, by byte address (154,618,822,656 bytes; R385). -/
  mem : List Host.Cell := []
  /-- 32-byte beats that read uncorrectable until they are written (set of beats; R389). -/
  bad : List Nat := []
  /-- Region sizes in effect (5 × 8 bits; R387). -/
  placed : List Nat := [0, 0, 0, 0, 0]
  /-- Corrected reads of each row in the last 24 h: address and tick (lists per row; R392). -/
  corr : Tab (List (Nat × Nat)) := []
  /-- Beats that read uncorrectable and have been written since (set of beats; R392). -/
  again : List Nat := []
  /-- Rows that qualify as cullet and are not yet retired (queue of rows; R392). -/
  due : List Nat := []
  /-- Rows retired (set of rows; R394). -/
  cullet : List Nat := []
  /-- CEM pages freed at the next frame boundary (pages; R388). -/
  freeing : Nat := 0
  /-- Rail 4 holds (false: every read is uncorrectable) (1 bit; R420). -/
  rail4 : Bool := true
  /-- Stacks in self-refresh (4 bits; R386). -/
  selfRef : List Bool := [false, true, true, true]
  /-- Rows retired in the second that runs (count per stack; R393). -/
  retired : Tab Nat := []
  /-- Bytes of DELAY and CEM in use at the last allocation (2 × 38 bits; R388). -/
  inUse : List Nat := [0, 0]
  /-- Bytes of DELAY and CEM that pages have filled so far (2 × 38 bits; R388). -/
  peak : List Nat := [0, 0]
  deriving DecidableEq, Repr

/-- One Beagle lease (at most one of each kind). -/
structure Lease where
  /-- Unit (17 bits; R395). -/
  unit : Nat := 0
  /-- Time counter when the lease began (32 bits; R402). -/
  ns : Word := 0
  /-- A claim has revoked it and the restore runs (1 bit; R397). -/
  revoked : Bool := false
  /-- Named by BGL_REQ (1 bit; R396). -/
  named : Bool := false
  /-- Content in the save area or the shadow segment (2 MiB; R395). -/
  saved : List Host.Cell := []
  /-- Failures that the march had found when a claim stopped it (set of rows or units; R397). -/
  bad : List Nat := []
  /-- March element in progress of an HBM block (0 to 8, or 15 while the block is copied in; R395, R402). -/
  elem : Nat := 15
  /-- Bytes that the element in progress has written and read (bytes; R395). -/
  done : Nat := 0
  /-- BGL_CTL.RATE as the element in progress took it (5 bits; R404). -/
  rate : Nat := 0
  /-- Beats of the block that read uncorrectable when it was copied in (set of beats; R397). -/
  savedBad : List Nat := []
  deriving DecidableEq, Repr

/-- The SELFTEST in progress (at most one). -/
structure SelfTest where
  /-- Its descriptor (counter; R399). -/
  d : Nat := 0
  /-- Parts that run (8 bits; R400). -/
  run : Nat := 0
  /-- Status it completes with: 0 OK, 5 DEFERRED (0 or 5; R400). -/
  status : Nat := 0
  /-- Frames since the part in progress began (frames; R399). -/
  frames : Nat := 0
  /-- Part in progress (0 to 7, or 8 once all have ended; R399). -/
  part : Nat := 0
  /-- Parts of which a unit has failed (8 bits; R400). -/
  failed : Nat := 0
  deriving DecidableEq, Repr

/-- The capture in progress (at most one). -/
structure Capture where
  /-- Its descriptor (counter; R401). -/
  d : Nat := 0
  /-- Source slot address (32 bits; R401). -/
  slot : Word := 0
  /-- Frames still to record (frames; R401). -/
  left : Nat := 0
  /-- Byte offset in CAPTURE of the next frame (37 bits; R401). -/
  off : Nat := 0
  /-- Bytes written (bytes; R401). -/
  bytes : Nat := 0
  /-- The first frame boundary has come (1 bit; R401). -/
  started : Bool := false
  /-- Content bytes of one frame (bytes; R401). -/
  size : Nat := 0
  deriving DecidableEq, Repr

/-- Beagle beyond its registers (one). -/
structure BglSt where
  /-- Leases in force (by kind 1 to 3; R395). -/
  leases : Tab Lease := []
  /-- Units named by BGL_REQ, oldest first: kind and unit (queue; R396). -/
  reqs : List (Nat × Nat) := []
  /-- Next unit of the sweep (by kind; R396). -/
  pos : Tab Nat := []
  /-- Units tested in the running sweep (by kind; R405). -/
  swept : Tab Nat := []
  /-- Slot banks retired (set of banks; R398). -/
  badBanks : List Nat := []
  /-- Paused by CRIT (1 bit; R418). -/
  paused : Bool := false
  /-- SELFTEST in progress (test or absent; R399). -/
  test : Option SelfTest := none
  /-- Capture in progress (capture or absent; R401). -/
  cap : Option Capture := none
  deriving DecidableEq, Repr

/-- Power, clocks, reset and boot beyond the registers (one). -/
structure PwrSt where
  /-- Power state (0 DORMANT or booting, 1 STANDBY, 2 ACTIVE; R409). -/
  st : Nat := 0
  /-- A cold boot or an exit from DORMANT runs (1 bit; R409). -/
  booting : Bool := true
  /-- The device rests in DORMANT (1 bit; R18). -/
  dormant : Bool := false
  /-- RESET_N is low and has qualified (1 bit; R422). -/
  rstLow : Bool := false
  /-- WARM_RESET_N is low and has qualified (1 bit; R423). -/
  warmLow : Bool := false
  /-- VDD_AON is in range (1 bit; R406). -/
  aonOk : Bool := true
  /-- The valid board block kept in AON (68 bytes or absent; R407). -/
  board : Option (List Byte) := none
  /-- Device-sequenced rail that ramps (rail or absent; R408). -/
  rail : Option Nat := none
  /-- Rails that the running sequence raises: 0 none, 1 rails 0 to 3, 2 rail 4, 3 rail 5 (2 bits; R408). -/
  target : Nat := 0
  /-- Failures of the running sequence since the last cold reset (0 to 3; R408). -/
  fails : Nat := 0
  /-- A retry of the sequence waits for its second (1 bit; R408). -/
  retry : Bool := false
  /-- Rails 2 to 5 lost in service and raised again every second (set of rails; R420). -/
  lostRails : List Nat := []
  /-- Rail faults to be reported at the next entry to STANDBY (rails; R408). -/
  railRep : List (Nat × Word) := []
  /-- Domains in wake: 0 to 15 LG g, 16 TRIB, 17 FAB, 18 to 21 HBM stack (set of domains; R414). -/
  wakes : List Nat := []
  /-- Register writes waiting for a domain, oldest first: BAR0 offset and value (queue; R410). -/
  works : List (Nat × Word) := []
  /-- The extension segment is being loaded (1 bit; R428). -/
  loading : Bool := false
  /-- Level of FAULT_N (1 bit; R407). -/
  faultN : Bool := true
  /-- TRIP has acted (1 bit; R421). -/
  tripped : Bool := false
  /-- Consecutive samples at or above 110 °C (0 to 1; R418). -/
  critRun : Nat := 0
  /-- Consecutive samples that contradict the present GRADIENT (samples, to 100; R418). -/
  gradRun : Nat := 0
  /-- Consecutive readings at 850 mV that ask for more (readings, to 100; R416). -/
  avsRun : Nat := 0
  /-- Consecutive checks above 40 mV (checks, to 10; R417). -/
  vdOver : Nat := 0
  /-- Consecutive checks below 30 mV (checks, to 10,000; R417). -/
  vdUnder : Nat := 0
  /-- AVS waits for the difference to stay below 30 mV (1 bit; R417). -/
  vdHold : Bool := false
  /-- Fused MIN_SVN (8 bits; R429). -/
  minSvn : Nat := 0
  /-- A slot is in force (1 bit; R427). -/
  inForce : Bool := false
  /-- The other slot's manifest is valid (1 bit; R428). -/
  otherOk : Bool := false
  /-- The extension segment failed with no other valid slot: the device stays in STANDBY (1 bit; R428). -/
  extDead : Bool := false
  /-- The halves boot after an extension failure (1 bit; R428). -/
  extFail : Bool := false
  /-- GLB_FLASH command that runs (command and byte address, or absent; R430). -/
  flash : Option (Nat × Nat) := none
  /-- Seconds of the time counter since DORMANT was entered (seconds; R413). -/
  secs : Nat := 0
  /-- PLLs out of lock (set of 0 to 6; R415). -/
  pllBad : List Nat := []
  /-- Tick at which the wait of 1 s before the board block is read again, or before rails are raised again, began
  (ticks; R407, R408, R420). -/
  waitFrom : Nat := 0
  /-- Tick since which LG g (0 to 15) or TRIB (16) has had no enabled lane or port; an absent entry is 0 (ticks per
  domain, 0 to 16; R409). -/
  idleFrom : Tab Nat := []
  /-- Tick at which CTL was powered (ticks; R427). -/
  ctlAt : Nat := 0
  /-- The GLB_FLASH command waits while the SPI controller serves a half boot (1 bit; R430). -/
  flashHold : Bool := false
  /-- The boot under way is one from DORMANT (1 bit; R275). -/
  fromDormant : Bool := false
  deriving DecidableEq, Repr

/-- Frame and mode state of the device (one). -/
structure GlbSt where
  /-- Fabric frame within the superframe (4 bits; R12). -/
  frame : Nat := 0
  /-- Superframe count (16 bits; R12). -/
  sfc : Nat := 0
  /-- The superframe boundary of this frame boundary is still to act (1 bit; R12). -/
  sfDue : Bool := false
  /-- The TU multiframe boundary of this frame boundary is still to act (1 bit; R171). -/
  mfDue : Bool := false
  /-- A GLB_MODE request waits for the descriptors in flight (1 bit; R23). -/
  modeGo : Bool := false
  /-- Seconds counted by the 1PPS (the model's own clock for 24 h windows) (count; R392). -/
  second : Nat := 0
  /-- Free-value counter (the model's own field) (counter; R1). -/
  free : Nat := 0
  /-- The time counter when the fabric frame under way began (ns; R227). -/
  frameNs : Word := 0
  deriving DecidableEq, Repr

/-- What the block sends out: the model's record of it, newest first. -/
inductive Output where
  /-- A record written to entry `idx` of a completion or event ring, at its host bus address (R306, R311). -/
  | record (ring idx addr : Nat) (words : List Word)
  /-- An MSI-X message (R326). -/
  | msix (v : Nat)
  /-- One memory write of buffer data to a host bus address, with relaxed ordering or without (R301, R336). -/
  | host (addr : Nat) (relaxed : Bool) (bytes : List Byte)
  /-- One memory read request of `len` bytes of host memory (R301, R310, R336). -/
  | read (addr len : Nat)
  /-- Something that leaves through a line, port, pin or bus: what it is, its instance, and its content. -/
  | wire (kind : String) (inst : Nat) (bytes : List Byte)
  deriving DecidableEq, Repr

/-- A change that waits for a frame boundary or a TU multiframe boundary (R123, R171). -/
inductive DefAct where
  | edits (recs : List EditRec)
  | term (words : List Word)
  | cc (words : List Word)
  | path (words : List Word) (buf : List Byte)
  | sel (words : List Word)
  | aps (words : List Word)
  | merge (words : List Word)
  | guard (words : List Word)
  | pw (words : List Word) (buf : List Byte)
  deriving DecidableEq, Repr

/-- A pending change: whether it waits for a TU multiframe boundary, whether it is one for a frame boundary that has come and follows one
of those (R173), what it does, and the descriptor it completes. -/
structure Deferred where
  tu : Bool := false
  due : Bool := false
  act : DefAct
  d : Nat := 0
  deriving DecidableEq, Repr

/-- The state of the block. -/
structure State where
  /-- Registers by BAR0 offset; an unlisted register holds its reset word (R435). -/
  regs : Tab Word := []
  lanes : Tab LaneSt := []
  groups : Tab GroupSt := []
  frms : Tab FrmSt := []
  dccs : Tab DccSt := []
  ohp : OhpSt := {}
  cfgs : Tab PathCfg := []
  paths : Tab PathSt := []
  tribs : Tab TribSt := []
  ports : Tab PdhSt := []
  termFr : Tab PdhSt := []
  fab : FabSt := {}
  seeds : Tab Seed := []
  outs : Tab OutSt := []
  map : MapSt := {}
  gth : GthSt := {}
  prot : ProtSt := {}
  mrg : MrgSt := {}
  sym : SymSt := {}
  eths : Tab EthSt := []
  cem : CemSt := {}
  tim : TimSt := {}
  tod : TodSt := {}
  rng : RngSt := {}
  xlat : XlatSt := {}
  evt : EvtSt := {}
  pm : PmSt := {}
  mtx : MtxSt := {}
  hbm : HbmSt := {}
  bgl : BglSt := {}
  pwr : PwrSt := {}
  glb : GlbSt := {}
  /-- Changes that wait for a boundary, oldest first. -/
  deferred : List Deferred := []
  /-- What has been sent out, newest first. -/
  out : List Output := []
  /-- The commands that wait, first in, first out. -/
  pending : List Instr := []
  deriving DecidableEq, Repr

/-- The state right after a cold reset. -/
def State.reset : State := {}


end Sys2Proof.Machine
end

