-- ==== Sys2Proof/Machine/Ops.lean ====
section
/-! DEFINITION. The named operations over registers, counters, ignored sequences, events, rings and completion
records. -/

namespace Sys2Proof.Machine

/-- The outcome type of every meaning. -/
abbrev Out := Host.Outcome State Fault Refusal

/-! ### Registers -/

/-- The stored word of the register at BAR0 offset `off` (R435). -/
def rd (s : State) (off : Nat) : Word := Tab.get s.regs off (regReset off)

/-- The register at `off` holds `v`. -/
def wr (s : State) (off : Nat) (v : Word) : State := { s with regs := Tab.store s.regs off (regReset off) v }

/-- Field [hi:lo] of a register. -/
def fget (s : State) (off hi lo : Nat) : Nat := fld (rd s off) hi lo

/-- Field [hi:lo] of a register holds the low bits of `v`. -/
def fset (s : State) (off hi lo v : Nat) : State := wr s off (setFld (rd s off) hi lo v)

/-- Bit `i` of a register. -/
def bget (s : State) (off i : Nat) : Bool := bit (rd s off) i

/-- Bit `i` of a register holds `b`. -/
def bset (s : State) (off i : Nat) (b : Bool) : State := wr s off (setBit (rd s off) i b)

/-- Chain slot `k` extends the raw counter at `off` (R357). -/
def chained (s : State) (k off : Nat) : Bool :=
  bget s (Reg.pmChainCfg k) 31 && fget s (Reg.pmChainCfg k) 25 0 == off

/-- One carry of the raw counter at `off`: HIGH of every chain slot on it goes up by one and EPOCH flips (R357). -/
def carry (s : State) (off : Nat) : State :=
  (List.range 256).foldl (fun s k =>
    if chained s k off then
      let s := wr s (Reg.pmChainHi k) (rd s (Reg.pmChainHi k) + 1)
      bset s (Reg.pmChainSt k) 0 (!bget s (Reg.pmChainSt k) 0)
    else s) s

/-- The raw counter at `off` counts `n` more, modulo 2^32, with its carry (R355). -/
def count (s : State) (off n : Nat) : State :=
  let v := (rd s off).toNat + n
  let s := wr s off (w32 v)
  if v < 2 ^ 32 then s else carry s off

/-! ### Modes, time and the leash -/

/-- GLB_MODE: 0 BRINGUP, 1 TEST, 2 SERVICE, 3 RECOVERY (R21). -/
def mode (s : State) : Nat := fget s Reg.glbMode 1 0

/-- GLB_MODE is SERVICE. -/
def inService (s : State) : Bool := mode s == 2

/-- GLB_MODE is SERVICE or RECOVERY: live guards hold (R34). -/
def guarded (s : State) : Bool := mode s == 2 || mode s == 3

/-- GLB_STATUS.REPLAY (R26). -/
def replay (s : State) : Bool := bget s Reg.glbStatus 3

/-- The time counter's nanoseconds (R286). -/
def nsNow (s : State) : Word := s.tod.acc.extractLsb' 32 32

/-- A stamp taken now: the time counter's nanoseconds, and its fraction in 2^-16 ns at a resolution of 0.125 ns (R243, R296). -/
def stampNow (s : State) : Nat × Nat := ((nsNow s).toNat, s.tod.acc.toNat % 2 ^ 32 / 2 ^ 29 * 2 ^ 13)

/-- The leash epoch in force (R366). -/
def epochNow (s : State) : Word := rd s Reg.mtxLeash

/-- The device is in ACTIVE with its extension segment loaded, so that work may proceed (R409). -/
def activeNow (s : State) : Bool := s.pwr.st == 2 && bget s Reg.pwrStatus 3

/-! ### Free values -/

/-- The next free value: what the spec leaves open is drawn here and nowhere else. -/
def freeNow (s : State) : Word := Config.freeValue s.glb.free

/-- The counter of free values has gone on. -/
def freeNext (s : State) : State := { s with glb := { s.glb with free := s.glb.free + 1 } }

/-! ### What leaves the block -/

/-- Something leaves the block. -/
def emit (s : State) (o : Output) : State := { s with out := o :: s.out }

/-- Something leaves through a line, port, pin or bus. -/
def wire (s : State) (kind : String) (inst : Nat) (b : List Byte) : State := emit s (.wire kind inst b)

/-! ### Ignored host sequences -/

/-- An ignored host sequence: counted, and its kind, ring and offset recorded (R325). -/
def ignored (s : State) (kind ring off : Nat) : State :=
  let s := count s Reg.hifIgnoredCnt 1
  let s := wr s Reg.hifIgnoredLast (w32 (kind % 8 + 16 * (if 2 ≤ kind ∧ kind ≤ 6 then ring % 4096 else 0)))
  wr s Reg.hifIgnoredAddr (w32 (off % 2 ^ 26))

/-- A BAR0 write to `off` that a rule declares ignored (R325 kind 1). -/
def ignoredWrite (s : State) (off : Nat) : State := ignored s 1 0 off

/-! ### Rings -/

/-- RING_CTL_n.EN: the ring is enabled (R308). -/
def ringEn (s : State) (n : Nat) : Bool := bget s (Reg.ringCtl n) 0
/-- RING_CTL_n.BUSY: a disable waits (R308). -/
def ringBusy (s : State) (n : Nat) : Bool := bget s (Reg.ringCtl n) 1
/-- RING_CFG_n.CLASS: 0 command, 1 completion, 2 event (R306). -/
def ringClass (s : State) (n : Nat) : Nat := fget s (Reg.ringCfg n) 6 5
/-- SIZE of the ring in entries (R306). -/
def ringSize (s : State) (n : Nat) : Nat := 2 ^ fget s (Reg.ringCfg n) 4 0
/-- Bytes of an entry: a descriptor, or a record (R306). -/
def entrySize (s : State) (n : Nat) : Nat := if ringClass s n = 0 then 64 else 32
/-- Host bus address of entry `i` of ring `n`: BASE and the entries before it, without translation (R306, R307). -/
def ringAddr (s : State) (n i : Nat) : Nat :=
  fget s (Reg.ringBaseLo n) 31 12 * 4096 + 2 ^ 32 * (rd s (Reg.ringBaseHi n)).toNat + i * entrySize s n
/-- RING_PROD_n.INDEX (R307). -/
def ringProd (s : State) (n : Nat) : Nat := fget s (Reg.ringProd n) 15 0
/-- RING_CONS_n.INDEX (R307). -/
def ringCons (s : State) (n : Nat) : Nat := fget s (Reg.ringCons n) 15 0
/-- Entries between consumer and producer: unread records, or posted descriptors (R310, R311). -/
def ringUsed (s : State) (n : Nat) : Nat := (ringProd s n + ringSize s n - ringCons s n % ringSize s n) % ringSize s n
/-- The ring holds SIZE - 1 unread records (R311). -/
def ringFull (s : State) (n : Nat) : Bool := ringUsed s n == ringSize s n - 1
/-- An enabled event ring (R351). -/
def isEventRing (s : State) (n : Nat) : Bool := decide (n < 4096) && ringEn s n && ringClass s n == 2
/-- An enabled completion ring whose disable is not pending (R313). -/
def isCplRing (s : State) (n : Nat) : Bool := decide (n < 4096) && ringEn s n && ringClass s n == 1 && !ringBusy s n

/-- The device's write index of a completion or event ring goes on by one; PHASE flips at the wrap (R311). -/
def advance (s : State) (n : Nat) : State :=
  let i := ringProd s n + 1
  let w := rd s (Reg.ringProd n)
  if i = ringSize s n then wr s (Reg.ringProd n) (setBit (setFld w 15 0 0) 16 (!bit w 16))
  else wr s (Reg.ringProd n) (setFld w 15 0 i)

/-- MSI-X messages may be sent: Bus Master Enable and MSI-X Enable are 1 (R301, R305). -/
def msixOn (s : State) : Bool := s.rng.bme && s.rng.cfg.msix

/-- An MSI-X message of vector `v`, or its pending bit while the vector is masked or none may be sent (R301, R305, R354). -/
def msix (s : State) (v : Nat) : State :=
  if s.evt.vmask.contains v || !msixOn s then { s with evt := { s.evt with pba := setIns s.evt.pba v } }
  else emit s (.msix v)

/-- The vector of event ring `r` is signalled: every unannounced record of the ring is announced (R354). -/
def signal (s : State) (r : Nat) : State :=
  msix { s with evt := { s.evt with unann := Tab.drop s.evt.unann r } } (fget s (Reg.ringCfg r) 15 10)

/-- A record of severity `sev` from source `src` has been written for event ring `r`: it is unannounced until the ring's
vector is signalled (R354). -/
def announce (s : State) (r sev src : Nat) : State :=
  let v := fget s (Reg.ringCfg r) 15 10
  let u := Tab.get s.evt.unann r {}
  let u' : Unann :=
    { n := u.n + 1, since := if u.n = 0 then s.tod.ticks else u.since, sev := max u.sev sev }
  let s := { s with evt := { s.evt with unann := Tab.put s.evt.unann r u' } }
  let c := rd s (Reg.evtCoal v)
  if fld c 7 0 ≤ u'.n ∨ fld c 25 24 ≤ sev ∨ src = 0x681 then signal s r else s

/-- A bit of HIF_FAULT is set; a rise signals vector 64 (R326, R327). -/
def setFault (s : State) (i : Nat) : State :=
  if bget s Reg.hifFault i then s else msix (bset s Reg.hifFault i true) 64

/-- A write to a register while RWL locks it: it counts as ignored where it carries another value than the one in force in
an RWL field (R438). -/
def lockedWrite (s : State) (off : Nat) (v : Word) : State := match regRow? off with
  | some r => if (rd s off ^^^ v) &&& accMask r .rwl = 0 then s else ignoredWrite s off
  | none => s

/-! ### Events -/

/-- The ring that source `src` writes to now: the routed ring, else ring 2; source 0x681 always ring 3 (R350, R351). -/
def eventRing (s : State) (src : Nat) : Option Nat :=
  if src = 0x681 then (if isEventRing s 3 then some 3 else none)
  else
    let r := fget s (Reg.evtRoute src) 11 0
    if isEventRing s r then some r else if isEventRing s 2 then some 2 else none

/-- A record of source `src` cannot be written now (R352, and R384 for source 0x700). -/
def eventBlocked (s : State) (src : Nat) : Bool :=
  (src != 0x681 && bget s (Reg.evtRoute src) 13) || !s.rng.bme || replay s || (src == 0x700 && !s.mtx.held) ||
    match eventRing s src with
    | none => true
    | some r => ringFull s r

/-- The records held by source `src`, oldest first (R352). -/
def heldBy (s : State) (src : Nat) : List EvRec := Tab.get s.evt.held src []

/-- Source `src` holds the records `l`. -/
def setHeld (s : State) (src : Nat) (l : List EvRec) : State :=
  { s with evt := { s.evt with held := Tab.store s.evt.held src [] l } }

/-- The 8 words of an event record (R349). -/
def eventWords (s : State) (r : EvRec) (sev seq : Nat) (phase : Bool) : List Word :=
  [w32 (r.src % 2048 + 2048 * (sev % 4) + 65536 * (r.held % 65536)), r.ns, r.d0, r.d1, epochNow s, r.old, w32 seq,
    w32 (b2n phase)]

/-- Event record `r` is written to event ring `n` and waits to be announced (R349, R351, R354). -/
def writeEvent (s : State) (n : Nat) (r : EvRec) : State :=
  let sev := fget s (Reg.evtRoute r.src) 15 14
  let seq := Tab.get s.evt.seq n 0
  let s := emit s (.record n (ringProd s n) (ringAddr s n (ringProd s n)) (eventWords s r sev seq (bget s (Reg.ringProd n) 16)))
  let s := { s with evt := { s.evt with seq := Tab.put s.evt.seq n ((seq + 1) % 2 ^ 32) } }
  announce (advance s n) n sev r.src

/-- The hold queue of a source with one more record: a full queue merges it into the newest (R352). -/
def mergeHeld (l : List EvRec) (r : EvRec) : List EvRec :=
  if l.length < 4 then l ++ [r]
  else match l.getLast? with
    | some o => l.dropLast ++ [{ r with held := min 65535 (o.held + 1), old := o.old }]
    | none => [r]

/-- How long ago a record's oldest event was raised, in ns of the time counter. -/
def heldAge (s : State) (r : EvRec) : Nat := (nsNow s - r.old).toNat

/-- The source whose oldest held record is next to be written: source 0x681, which is held behind no other, or of those not blocked the one raised
longest ago (R353). -/
def nextHeld (s : State) : Option (Nat × EvRec) :=
  s.evt.held.foldl (fun best p =>
    match p.2.head? with
    | none => best
    | some r =>
      if eventBlocked s p.1 then best
      else match best with
        | none => some (p.1, r)
        | some b =>
          if b.1 = 0x681 then best
          else if p.1 = 0x681 ∨ heldAge s b.2 < heldAge s r then some (p.1, r) else best) none

/-- Held records that no condition of R352 holds back are written, oldest first (R353). -/
def flushHeld (fuel : Nat) (s : State) : State :=
  match fuel with
  | 0 => s
  | n + 1 => match nextHeld s with
    | none => s
    | some (src, r) => match eventRing s src with
      | none => s
      | some ring => flushHeld n (writeEvent (setHeld s src ((heldBy s src).drop 1)) ring r)

/-- Every held record that can be written now is written (R353). -/
def flushEvents (s : State) : State := flushHeld ((s.evt.held.map (fun p => p.2.length)).sum) s

/-- Before a new record of source `src` every held record that can be written is written; source 0x681 waits for none (R353). -/
def raiseFrom (s : State) (src : Nat) : State := if s.evt.held.isEmpty || src == 0x681 then s else flushEvents s

/-- Source `src` raises an event: discarded while EN is 0, held while it cannot be written, written otherwise, after every held record that can be
written; source 0x681 waits for no other's (R350 to R353). -/
def raise (s : State) (src : Nat) (d0 d1 : Word) : State :=
  if src ≠ 0x681 ∧ !bget s (Reg.evtRoute src) 12 then s
  else
    let r : EvRec := { src := src, ns := nsNow s, d0 := d0, d1 := d1, held := 0, old := nsNow s }
    if eventBlocked s src || !(heldBy s src).isEmpty then setHeld s src (mergeHeld (heldBy s src) r)
    else
      let s := raiseFrom s src
      if eventBlocked s src then setHeld s src [r]
      else match eventRing s src with
        | some n => writeEvent s n r
        | none => s

/-- Source `src` raises an event that its rule limits to once per second and instance (R460). -/
def raiseOnce (s : State) (src cause inst : Nat) (d0 d1 : Word) : State :=
  if s.evt.once.contains (src * 256 + cause, inst) then s
  else raise { s with evt := { s.evt with once := (src * 256 + cause, inst) :: s.evt.once } } src d0 d1

/-! ### Descriptors and completion records -/

/-- Word `i` of a descriptor as fetched (R312). -/
def Desc.w (d : Desc) (i : Nat) : Word := d.words.getD i 0
/-- OPCODE (R312). -/
def Desc.op (d : Desc) : Nat := fld (d.w 0) 15 0
/-- LENGTH (R312). -/
def Desc.len (d : Desc) : Nat := (d.w 3).toNat
/-- ADDRESS (R312). -/
def Desc.addr (d : Desc) : Nat := (d.w 4).toNat + 2 ^ 32 * (d.w 5).toNat
/-- GATHER_ID (R312). -/
def Desc.gather (d : Desc) : Nat := fld (d.w 2) 15 0

/-- The descriptor in flight with serial number `id` (R319). -/
def desc? (s : State) (id : Nat) : Option Desc := s.rng.descs.find? (fun d => d.id == id)

/-- The descriptor `id` changed by `f`. -/
def editDesc (s : State) (id : Nat) (f : Desc → Desc) : State :=
  { s with rng := { s.rng with descs := s.rng.descs.map (fun d => if d.id = id then f d else d) } }

/-- The descriptor `id` has progress `st`: 1 taken, 2 past its commit point, 3 ended (R314). -/
def setDesc (s : State) (id st : Nat) : State := editDesc s id (fun d => { d with st := st })

/-- The descriptor `id` is no longer in flight (R319). -/
def dropDesc (s : State) (id : Nat) : State :=
  { s with rng := { s.rng with descs := s.rng.descs.filter (fun d => d.id != id) } }

/-- The 8 words of a completion record (R316). -/
def cplWords (s : State) (c : Cpl) (phase : Bool) : List Word :=
  [c.tag, w32 (c.status % 65536 + 65536 * (c.op % 65536)), epochNow s, nsNow s, c.r0, c.r1,
    w32 (c.idx % 65536 + 65536 * (c.cmd % 4096)), w32 (b2n phase)]

/-- A completion record cannot be written to its ring now: Bus Master Enable is 0 (R305), no half holds the leash (R366),
REPLAY is 1 (R26), the ring is full (R311), or an earlier record waits for the same ring (R316). -/
def cplBlocked (s : State) (ring : Nat) : Bool :=
  !s.rng.bme || !s.mtx.held || replay s || ringFull s ring || s.rng.cplWait.any (fun c => c.ring == ring)

/-- A completion record is written, its descriptor ends, and the record is announced through NOTIFY (R311, R316, R354). -/
def writeCpl (s : State) (c : Cpl) : State :=
  let s := emit s (.record c.ring (ringProd s c.ring) (ringAddr s c.ring (ringProd s c.ring)) (cplWords s c (bget s (Reg.ringProd c.ring) 16)))
  let s := dropDesc (advance s c.ring) c.d
  let n := fget s (Reg.ringCfg c.ring) 27 16
  if bget s (Reg.ringCfg c.ring) 28 && isEventRing s n then announce s n 0 0 else s

/-- STALL of a completion ring rises, and CPL_FULL is raised (R307, R330). -/
def stall (s : State) (ring : Nat) : State :=
  if bget s (Reg.ringCtl ring) 2 then s else raise (bset s (Reg.ringCtl ring) 2 true) 0x680 1 (w32 ring)

/-- A completion record is written, or waits (R305, R311, R366). -/
def postCpl0 (s : State) (c : Cpl) : State :=
  if cplBlocked s c.ring then
    let s := if ringFull s c.ring then stall s c.ring else s
    { s with rng := { s.rng with cplWait := s.rng.cplWait ++ [c] } }
  else writeCpl s c

/-- The completion record of descriptor `d` with its status and results (R316); a descriptor whose CPL_RING is no enabled
completion ring has its record on ring 1 (R313). -/
def cplOf (s : State) (d : Desc) (status : Nat) (r0 r1 : Word) : Cpl :=
  let r := fld (d.w 2) 27 16
  { ring := if isCplRing s r || (ringEn s r && ringClass s r == 1) then r else 1, tag := d.w 1, status := status,
    op := d.op, r0 := r0, r1 := r1, idx := d.idx, cmd := d.ring, d := d.id }

/-- An ABORT that waited for its target's record completes after it: OK where it stopped the target, TOO_LATE otherwise,
with the target's status (R324). -/
def endWaiter (s : State) (w : Nat × Nat × Bool) (status : Nat) : State :=
  let s := { s with rng := { s.rng with abWait := s.rng.abWait.filter (fun p => p != w) } }
  match desc? s w.1 with
  | none => s
  | some a => postCpl0 (setDesc s w.1 3) (cplOf s a (if w.2.2 then 0 else 2) (w32 status) 0)

/-- Every ABORT that waited for the record of `target` completes (R324). -/
def endWaiters (s : State) (target status : Nat) : State :=
  (s.rng.abWait.filter (fun p => p.2.1 == target)).foldl (fun s w => endWaiter s w status) s

/-- A completion record is written or waits; once it is written, the ABORTs waiting for it complete (R324). -/
def postCpl (s : State) (c : Cpl) : State :=
  let w := cplBlocked s c.ring
  let s := postCpl0 s c
  if w then s else endWaiters s c.d c.status

/-- The waiting records that can be written are written, in order (R305, R311). -/
def flushCpl (s : State) : State :=
  s.rng.cplWait.foldl postCpl { s with rng := { s.rng with cplWait := [] } }

/-- Descriptor `id` ends with a status and two result words: its record is written or waits, or, with NO_COMPLETION and
status OK, it writes none (R316, R318). -/
def complete (s : State) (id status : Nat) (r0 r1 : Word) : State :=
  match desc? s id with
  | none => s
  | some d =>
    if status = 0 ∧ bit (d.w 0) 17 ∧ d.op ≠ 2 then endWaiters (dropDesc s id) id status
    else postCpl (setDesc s id 3) (cplOf s d status r0 r1)

/-- Descriptor `id` completes OK. -/
def completeOk (s : State) (id : Nat) (r0 r1 : Word) : State := complete s id 0 r0 r1

/-- Descriptor `id` completes INVALID with a reason, and has no effect (R313, R317). -/
def invalid (s : State) (id reason : Nat) : State := complete s id 3 (w32 reason) 0

/-- FENCE_BEFORE (R312). -/
def Desc.fence (d : Desc) : Bool := bit (d.w 0) 16 || d.op == 1

/-- The ordering rules admit descriptor `d` now: a fence waits for the completion of every earlier descriptor of its ring,
a FENCE holds back every later one (R321); in SERVICE every earlier descriptor has reached its commit point (R322). -/
def orderOk (s : State) (d : Desc) : Bool :=
  s.rng.descs.all (fun e =>
    !(e.ring == d.ring && decide (e.id < d.id)) ||
      (!d.fence && e.op != 1 && (d.mode != 2 || decide (2 ≤ e.st))))

/-- Descriptor `d` may be taken now: fetched and not yet taken, no warm reset has frozen it (R458), a half holds the leash
(R366) and is not about to release it (R371), the device is in the power state its work needs (R409), and the ordering rules admit it. -/
def mayTake (s : State) (d : Desc) : Bool :=
  d.st == 0 && !d.frozen && s.mtx.held && !s.mtx.handover && (activeNow s || [0, 1, 2, 0x50].contains d.op) && orderOk s d

/-- Descriptor `id`, if it has opcode `op` and may be taken now. -/
def takeDesc (s : State) (id op : Nat) : Option Desc :=
  match desc? s id with
  | some d => if d.op == op && mayTake s d then some d else none
  | none => none

/-- Descriptor `id` completes INVALID where its rule gives no reason: result word 0 [7:0] is a free value (R313). -/
def invalidOpen (s : State) (id : Nat) : State := complete (freeNext s) id 3 (freeNow s &&& 0xFF) 0

/-! ### SELFTEST and traffic -/

/-- The part of a SELFTEST that takes the traffic now: 5, 6 or 7 (R399). -/
def testPart (s : State) : Option Nat := match s.bgl.test with
  | some t => if 5 ≤ t.part ∧ t.part ≤ 7 then some t.part else none
  | none => none

/-! ### Host register writes and power domains -/

/-- In DORMANT the host has no access: the PCIe link is down, and no host write reaches the device (R18). -/
def hostDeaf (s : State) : Bool := s.pwr.st == 0

/-- Lowest bit of the MTX_LOCK field of a target that accepts locks: scratchpad, register file, mailbox (R383). -/
def lockLo (t : Nat) : Option Nat := if t = 1 then some 0 else if t = 2 then some 4 else if t = 5 then some 8 else none

/-- The master that holds a lock on target `t` (R376). -/
def lockOf (s : State) (t : Nat) : Option Nat := match lockLo t with
  | none => none
  | some lo => if fget s Reg.mtxLock (lo + 3) lo = 15 then none else some (fget s Reg.mtxLock (lo + 3) lo)

/-- A master holds a lock on the register file, behind which the host's BAR0 accesses wait (R376). -/
def regLocked (s : State) : Bool := (lockOf s 2).isSome

/-- A BAR0 access of the host waits for the register file (R376). -/
def hostWait (s : State) (off size : Nat) (write : Bool) (b : List Byte) : State :=
  { s with mtx := { s.mtx with waits := s.mtx.waits ++
    [{ acc := { master := 2, addr := BitVec.ofNat 64 off, size := size, write := write, data := b }, tgt := (2, off % 2 ^ 26) }] } }

/-- A BAR0 write does not arrive in DORMANT (R18), waits behind a lock on the register file (R376), and is ignored and counted while REPLAY is 1
(R26); otherwise it acts. -/
def hostWrite (s : State) (off : Nat) (v : Word) (f : State → State) : State :=
  if hostDeaf s then s else if regLocked s then hostWait s off 4 true (wordBytes v)
  else if replay s then ignoredWrite s off else f s

/-- The device is held in reset: RESET_N is low, or VDD_AON is out of range (R406, R422). -/
def inReset (s : State) : Bool := s.pwr.rstLow || !s.pwr.aonOk

/-- The power state becomes `st`: PWR_STATUS.STATE shows it, and STATE is raised where it changes (R431, R433). -/
def setPower (s : State) (st : Nat) : State :=
  let o := s.pwr.st
  let s := { s with pwr := { s.pwr with st := st } }
  let s := if st = 0 then s else fset s Reg.pwrStatus 1 0 st
  if o = st then s else raise s 0x7C0 1 (w32 (st + 16 * o + 256 * fget s Reg.pwrStatus 5 4))

/-- Target of device-sequenced rail `n` in mV, from the board block (R407). -/
def railMv (s : State) (n : Nat) : Nat := match s.pwr.board with
  | some b => leNat ((b.drop (18 + 8 * n)).take 2)
  | none => 0

/-- PWR_RAIL_n.ON: rail `n` is commanded on (R431). -/
def railOn (s : State) (n : Nat) : Bool := bget s (Reg.pwrRail n) 0

/-- PWR_RAIL_n.GOOD (R408, R431). -/
def railGood (s : State) (n : Nat) : Bool := bget s (Reg.pwrRail n) 1

/-- A PMBus command to the regulator of rail `n`: its PAGE and whether PEC is used, as the board block gives them, before the command's
data (R407, R408). -/
def pmbus (s : State) (n : Nat) (cmd : String) (data : List Byte) : State := match s.pwr.board with
  | some b =>
    let f := fun i => b.getD (16 + 8 * n + i) 0
    wire s ("pmbus-" ++ cmd) (f 0).toNat (f 1 :: f 5 :: data)
  | none => s

/-- What rail `n` is brought up to, in mV: the board block's output; for VDD_CORE a non-zero FIXED_MV holds it (R407, R416). -/
def railTarget (s : State) (n : Nat) : Nat :=
  let f := fget s Reg.pwrAvs 25 16
  if n = 1 ∧ f ≠ 0 then f else railMv s n

/-- The power manager begins to bring rail `n` up: CLEAR_FAULTS, VOUT_COMMAND, OPERATION on (R408); rail 1 starts at the board
block's start voltage (R416). -/
def startRail (s : State) (n : Nat) : State :=
  let mv := railTarget s n
  let s := bset { s with pwr := { s.pwr with rail := some n } } (Reg.pwrRail n) 0 true
  let s := if n = 1 then fset s Reg.pwrAvs 9 0 mv else s
  pmbus (pmbus (pmbus s n "clear-faults" []) n "vout-command" (natBe 2 mv)) n "operation-on" []

/-- Domain `dom` is powered (PWR_DOMAIN, R431). -/
def domainUp (s : State) (dom : Nat) : Bool := bget s Reg.pwrDomain dom

/-- The rail that a domain in wake needs and that is off is brought up on demand: rail 4 for the stacks, rail 5 for TRIB once
the extension segment has been loaded (R408, R409, R414). -/
def railDemand (s : State) : State :=
  if s.pwr.rail.isSome || s.pwr.retry || s.pwr.st != 2 then s
  else if s.pwr.wakes.any (fun d => decide (18 ≤ d)) && !railOn s 4 then
    startRail { s with pwr := { s.pwr with target := 2 } } 4
  else if s.pwr.wakes.contains 16 && bget s Reg.pwrStatus 3 && !railOn s 5 then
    startRail { s with pwr := { s.pwr with target := 3 } } 5
  else s

/-- The device enters ACTIVE from STANDBY, and FAB and HBM 0 wake first (R409). -/
def enterActive (s : State) : State :=
  let s := setPower s 2
  { s with pwr := { s.pwr with wakes := setIns (setIns s.pwr.wakes 17) 18 } }

/-- Work needs domain `dom` (0 to 15 LG g, 16 TRIB, 17 FAB, 18 to 21 HBM stack): the device enters ACTIVE from STANDBY, and a
domain that is not up, or a stack in self-refresh, begins its wake (R19, R386, R409). -/
def needDomain (s : State) (dom : Nat) : State :=
  let s := if s.pwr.st = 1 ∧ !s.pwr.extDead then enterActive s else s
  let asleep := decide (18 ≤ dom) && s.hbm.selfRef.getD (dom - 18) false
  if domainUp s dom && !asleep then s
  else railDemand { s with pwr := { s.pwr with wakes := setIns s.pwr.wakes dom } }

/-- LG g (0 to 15) or TRIB (16) may have lost its last enabled lane or port: its second begins (R409). -/
def idleMark (s : State) (dom : Nat) : State :=
  { s with pwr := { s.pwr with idleFrom := Tab.put s.pwr.idleFrom dom s.tod.ticks } }

/-- A write to a register of a powered-down domain wakes the domain and takes effect once it is up (R410). -/
def holdWrite (s : State) (dom off : Nat) (v : Word) : State :=
  needDomain { s with pwr := { s.pwr with works := s.pwr.works ++ [(off, v)] } } dom

/-- A BAR0 write to a register of domain `dom`: refused in REPLAY, held while the domain is down, acting otherwise. -/
def domainWrite (s : State) (dom off : Nat) (v : Word) (f : State → State) : State :=
  hostWrite s off v (fun s => if domainUp s dom && s.pwr.st == 2 then f s else holdWrite s dom off v)

end Sys2Proof.Machine
end

