-- ==== Sys2Proof/Machine/Layout.lean ====
section
/-! DEFINITION. Where HBM holds what, and the writing of its bytes (19_buffer_memory.md, R385, R386, R389, R390). -/

namespace Sys2Proof.Machine

/-! ### Layout -/

/-- Bytes of a granule, 1 GiB (R385). -/
def granule : Nat := 2 ^ 30

/-- Bytes of one stack, 36 GiB (R385). -/
def stackBytes : Nat := 36 * 2 ^ 30

/-- Stack that holds byte address `a`: 36 GiB each (R385). -/
def stackOf (a : Nat) : Nat := a / stackBytes

/-- First byte address of the `g`-th granule in the order of placement: 26 in HBM 0, 34 in each other stack, from the bottom of the
stack (R385, R386). -/
def granuleBase (g : Nat) : Nat :=
  if g < 26 then g * granule else (36 * (1 + (g - 26) / 34) + (g - 26) % 34) * granule

/-- Place, in the order of placement, of the granule that holds byte address `a`; none in the device-private area (R385, R386). -/
def granuleAt (a : Nat) : Option Nat :=
  let q := a % stackBytes / granule
  if stackOf a = 0 then (if q < 26 then some q else none)
  else if stackOf a < 4 ∧ q < 34 then some (26 + 34 * (stackOf a - 1) + q) else none

/-- Size in effect of region `r` in granules under sizes `p`. -/
def regionSize (p : List Nat) (r : Nat) : Nat := p.getD r 0

/-- Granules placed before region `r` under sizes `p` (R386). -/
def regionFirst (p : List Nat) (r : Nat) : Nat := (p.take r).sum

/-- Byte address of byte `off` of region `r` under sizes `p` (R386). -/
def regionAddr (p : List Nat) (r off : Nat) : Nat := granuleBase (regionFirst p r + off / granule) + off % granule

/-- Region and offset of byte address `a` under sizes `p`; none where no region lies (R386). -/
def regionAt (p : List Nat) (a : Nat) : Option (Nat × Nat) := match granuleAt a with
  | none => none
  | some g =>
    ((List.range 5).find? (fun r => decide (regionFirst p r ≤ g ∧ g < regionFirst p r + regionSize p r))).map
      (fun r => (r, (g - regionFirst p r) * granule + a % granule))

/-- Stack `i` holds a region granule under sizes `p` (R386). -/
def stackUsed (p : List Nat) (i : Nat) : Bool :=
  if i = 0 then true else decide (26 + 34 * (i - 1) < p.sum)

/-- First byte address of the firmware and supervisor data, 2 GiB of HBM 0 (R385); of the private parts the table's order is their
order from the 26th granule on, with the spares of every stack on top (log entry 149). -/
def firmwareBase : Nat := 26 * granule

/-- First byte address of replica `r` (0 or 1) of the journal mirror, 1 GiB each (R385, R391). -/
def mirrorBase (r : Nat) : Nat := (28 + r) * granule

/-- First byte address of the table shadows, 2 GiB (R385). -/
def shadowBase : Nat := 30 * granule

/-- First byte address of Beagle's save area, 1 GiB (R385). -/
def saveBase : Nat := 32 * granule

/-- Byte address `a` lies in the firmware and supervisor data. -/
def inFirmware (a : Nat) : Bool := decide (firmwareBase ≤ a) && decide (a < mirrorBase 0)

/-- A byte of HBM `b` at `a`, as the list of cells holds it, and back: firmware and supervisor data are what the boot has put there,
which is open, but for what is written (R385). -/
def cellByte (a : Nat) (b : Byte) : Byte := if inFirmware a then b ^^^ Config.imageByte 0 (2 ^ 38 + a) else b

/-! ### Bytes -/

/-- The beats of `n` bytes from `a` on have been written: none reads uncorrectable for what it held (R390, R392). -/
def hbmWritten (s : State) (a n : Nat) : State :=
  let hit := fun (b : Nat) => decide (a < 32 * (b + 1)) && decide (32 * b < a + n)
  { s with hbm := { s.hbm with
      bad := s.hbm.bad.filter (fun b => !hit b)
      again := (s.hbm.bad.filter hit).foldl setIns s.hbm.again } }

/-- The byte of HBM at `a` is `b`; its beat is written (R389, R390). -/
def hbmPut (s : State) (a : Nat) (b : Byte) : State :=
  let t := hbmWritten s a 1
  { t with hbm := { t.hbm with mem := Tab.store t.hbm.mem a 0 (cellByte a b) } }

/-- Bytes are written from `a` on, each at its place. -/
def hbmPuts (s : State) (at_ : Nat → Nat) (bytes : List Byte) : State :=
  (bytes.zipIdx).foldl (fun s p => hbmPut s (at_ p.2) p.1) s

/-- Place in the log of record number `k` (R174, R175): byte offset in JOURNAL and in a replica. -/
def jrnOffset (k : Nat) : Nat := k % 16777216 * 64

/-- Record number `k` of the log has been written to JOURNAL (R174). -/
def mainWritten (s : State) (k : Nat) : State := hbmWritten s (regionAddr s.hbm.placed 2 (jrnOffset k)) 64

/-- Record number `k` of the log has been written to both replicas of the mirror (R174, R391). -/
def mirrorWritten (s : State) (k : Nat) : State :=
  hbmWritten (hbmWritten s (mirrorBase 0 + jrnOffset k) 64) (mirrorBase 1 + jrnOffset k) 64

end Sys2Proof.Machine
end

