-- ==== Sys2Proof/Machine/Slot.lean ====
section
/-! DEFINITION. Lanes, slot addresses, container structure, DS0 positions, map entries and the conditions that a source
presents: what every later file reads of them (R8, R9, R28 to R33, R74 to R87, R125 to R131, R144 to R148, R181). -/

namespace Sys2Proof.Machine

/-! ### Lanes, groups and quads -/

/-- The hidden state of lane `n`. -/
def laneSt (s : State) (n : Nat) : LaneSt := Tab.get s.lanes n {}
/-- The hidden state of lane `n` changed by `f`. -/
def editLane (s : State) (n : Nat) (f : LaneSt → LaneSt) : State := { s with lanes := Tab.edit s.lanes n {} f }
/-- The hidden state of group `g`. -/
def groupSt (s : State) (g : Nat) : GroupSt := Tab.get s.groups g {}
/-- The hidden state of group `g` changed by `f`. -/
def editGroup (s : State) (g : Nat) (f : GroupSt → GroupSt) : State := { s with groups := Tab.edit s.groups g {} f }

/-- Group of lane `n` (R28). -/
def laneGroup (n : Nat) : Nat := n / 8
/-- First lane of the quad of lane `n` (R28). -/
def quadFirst (n : Nat) : Nat := n / 4 * 4
/-- The lanes of group `g` (R28). -/
def groupLanes (g : Nat) : List Nat := rangeFrom (8 * g) 8
/-- LANE_CTL.EN of a control word. -/
def ctlEn (v : Word) : Bool := bit v 0
/-- LANE_CTL.MODE of a control word (R29). -/
def ctlMode (v : Word) : Nat := fld v 4 1
/-- LANE_CTL of lane `n`. -/
def laneCtl (s : State) (n : Nat) : Word := rd s (Reg.laneCtl n)
/-- Lane `n` is enabled. -/
def laneEn (s : State) (n : Nat) : Bool := ctlEn (laneCtl s n)
/-- Mode of lane `n` (R29). -/
def laneMode (s : State) (n : Nat) : Nat := ctlMode (laneCtl s n)
/-- An Ethernet-family mode (R29). -/
def ethMode (m : Nat) : Bool := decide (4 ≤ m)
/-- An oversampled mode (R29). -/
def oversampled (m : Nat) : Bool := decide (m ≤ 1)
/-- Lanes of one quad run 100GBASE-R4 (R31). -/
def quadRuns (s : State) (n : Nat) : Bool := laneEn s (quadFirst n) && laneMode s (quadFirst n) == 6
/-- Lane `n` is lane 4q+1 to 4q+3 of a running quad (R31). -/
def quadMember (s : State) (n : Nat) : Bool := n % 4 != 0 && quadRuns s n
/-- STS-1 indices that a lane of mode `m` offers (R16). -/
def modeCapacity (m : Nat) : Nat := match m with
  | 0 => 3
  | 1 => 12
  | 2 => 48
  | 3 => 192
  | _ => 0

/-- The framer of lane `n`. -/
def frm (s : State) (n : Nat) : FrmSt := Tab.get s.frms n {}
/-- The framer of lane `n` changed by `f`. -/
def editFrm (s : State) (n : Nat) (f : FrmSt → FrmSt) : State := { s with frms := Tab.edit s.frms n {} f }

/-- A defect's detector. -/
def Defects.has (d : Defects) : LineDefect → Bool
  | .los => d.los | .lof => d.lof | .tim => d.tim | .ais => d.ais
  | .exc => d.exc | .deg => d.deg | .rdi => d.rdi | .psbf => d.psbf

/-- The detectors with one of them set. -/
def Defects.put (d : Defects) (x : LineDefect) (b : Bool) : Defects := match x with
  | .los => { d with los := b } | .lof => { d with lof := b } | .tim => { d with tim := b } | .ais => { d with ais := b }
  | .exc => { d with exc := b } | .deg => { d with deg := b } | .rdi => { d with rdi := b } | .psbf => { d with psbf := b }

/-- The masking order of R55. -/
def maskedBy (d : Defects) : LineDefect → Bool
  | .los => false
  | .lof => d.los
  | .tim => d.los || d.lof
  | .ais => d.los || d.lof || d.tim
  | .exc => d.los || d.lof || d.tim || d.ais
  | .deg => d.los || d.lof || d.tim || d.ais || d.exc
  | .rdi => d.los || d.lof || d.ais
  | .psbf => d.los || d.lof || d.ais

/-- The defect is reported: present and not masked (R55). -/
def reported (d : Defects) (x : LineDefect) : Bool := d.has x && !maskedBy d x

/-- Every section and line defect, in the order of its event causes (R73). -/
def allDefects : List LineDefect := [.los, .lof, .ais, .rdi, .tim, .exc, .deg, .psbf]

/-- Event cause of a defect (R73). -/
def defectCause : LineDefect → Nat
  | .los => 0x20 | .lof => 0x21 | .ais => 0x22 | .rdi => 0x23 | .tim => 0x24 | .exc => 0x25 | .deg => 0x26 | .psbf => 0x27

/-- LANE_FRM_CTL of lane `n`. -/
def frmCtl (s : State) (n : Nat) : Word := rd s (Reg.laneFrmCtl n)

/-- SF to protection, AU-AIS downstream and MS-RDI upstream follow from these reported defects (R56). -/
def lineSf (d : Defects) (ctl : Word) : Bool :=
  reported d .los || reported d .lof || reported d .ais || (reported d .tim && bit ctl 4) ||
    (reported d .exc && bit ctl 5)

/-- SD to protection (R56). -/
def lineSd (d : Defects) : Bool := reported d .deg


/-! ### Slot addresses -/

/-- Tier value of a slot address (R8). -/
def saTier (a : Word) : Nat := fld a 31 29
/-- Lane of a tier 0 or 1 slot address (R8). -/
def saLane (a : Word) : Nat := fld a 22 16
/-- STS-1 or TUG-3 index of a tier 0 or 1 slot address (R8). -/
def saIdx (a : Word) : Nat := if saTier a = 0 then fld a 7 0 else fld a 15 8
/-- TUG-2 of a tier 1 slot address; 7 for a TU-3 (R8). -/
def saTug (a : Word) : Nat := fld a 7 5
/-- TU of a tier 1 slot address (R8). -/
def saTu (a : Word) : Nat := fld a 4 3
/-- Terminated number or pseudowire number of a tier 2 or 5 slot address (R8). -/
def saNum (a : Word) : Nat := fld a 20 5
/-- Port of a tier 3 slot address (R8). -/
def saPort (a : Word) : Nat := fld a 13 8
/-- Timeslot of a tier 2, 3 or 5 slot address (R8). -/
def saSlot (a : Word) : Nat := fld a 4 0

/-- A tier 0 slot address. -/
def hoAddr (l i : Nat) : Word := w32 (l * 2 ^ 16 + i)
/-- A tier 1 slot address. -/
def loAddr (l i g t : Nat) : Word := w32 (2 ^ 29 + l * 2 ^ 16 + i * 2 ^ 8 + g * 2 ^ 5 + t * 2 ^ 3)
/-- A tier 2 slot address. -/
def ds0Addr (n k : Nat) : Word := w32 (2 * 2 ^ 29 + n * 2 ^ 5 + k)
/-- A tier 3 slot address. -/
def tribAddr (p k : Nat) : Word := w32 (3 * 2 ^ 29 + p * 2 ^ 8 + k)
/-- A tier 5 slot address. -/
def pwAddr (n k : Nat) : Word := w32 (5 * 2 ^ 29 + n * 2 ^ 5 + k)

/-! ### Containers and their structure -/

/-- The path configuration listed for a slot address (R74). -/
def cfg? (s : State) (a : Word) : Option PathCfg := Tab.find? s.cfgs a.toNat
/-- HO_TYPE of a path configuration (R74). -/
def hoType (c : PathCfg) : Nat := fld c.w7 2 0
/-- Indices that a container of an HO_TYPE covers (R74). -/
def hoSpan (ty : Nat) : Nat := match ty with
  | 0 => 3
  | 1 => 1
  | 2 => 12
  | 3 => 48
  | _ => 192
/-- The configuration at index `i` of lane `l` is listed with HO_TYPE `ty`. -/
def listedAs (s : State) (l i ty : Nat) : Bool := match cfg? s (hoAddr l i) with
  | some c => hoType c == ty
  | none => false
/-- First index and HO_TYPE of the container that covers index `i` of lane `l`; where nothing is configured, a group of
three indices is an AU-4 (R74, R76). -/
def container (s : State) (l i : Nat) : Nat × Nat :=
  if listedAs s l (i / 192 * 192) 4 then (i / 192 * 192, 4)
  else if listedAs s l (i / 48 * 48) 3 then (i / 48 * 48, 3)
  else if listedAs s l (i / 12 * 12) 2 then (i / 12 * 12, 2)
  else if listedAs s l (i / 3 * 3) 1 then (i, 1)
  else (i / 3 * 3, 0)
/-- The configuration of the path at slot address `a`: what is listed, or that of a cold reset (R76). -/
def pathCfg (s : State) (a : Word) : PathCfg :=
  (cfg? s a).getD (if saTier a = 0 ∧ (container s (saLane a) (saIdx a)).2 = 1 then { w7 := 1 } else {})
/-- The STRUCT word of index `i` of lane `l` (R75). -/
def structWord (s : State) (l i : Nat) : Nat :=
  let c := container s l i
  if c.2 = 0 then (pathCfg s (hoAddr l c.1)).struct3.getD (i - c.1) 0
  else if c.2 = 1 then (pathCfg s (hoAddr l i)).struct3.getD 0 0 else 0
/-- Index `i` of lane `l` is structured (R75, R125). -/
def structured (s : State) (l i : Nat) : Bool := structWord s l i % 4 != 0
/-- TU type under a STRUCT word: 0 TU-12, 1 TU-11, 2 TU-2, 3 TU-3 (R75). -/
def tuUnder (w g t : Nat) : Option Nat :=
  if w % 4 = 1 then (if g = 7 ∧ t = 0 then some 3 else none)
  else if w % 4 = 2 ∧ g < 7 then
    let ty := w / 2 ^ (2 * g + 2) % 4
    if (ty = 0 ∧ t < 3) ∨ (ty = 1 ∧ t < 4) ∨ (ty = 2 ∧ t = 0) then some ty else none
  else none
/-- STS-1 indices that lane `l` offers (R16, R144). -/
def laneCap (s : State) (l : Nat) : Nat := modeCapacity (laneMode s l)
/-- A tier 0 slot address names an index within its lane's capacity (R8, R16). -/
def hoOk (s : State) (a : Word) : Bool :=
  saTier a == 0 && fld a 28 23 == 0 && fld a 15 8 == 0 && decide (fld a 7 0 < laneCap s (saLane a))
/-- Type of the TU that a tier 1 slot address names, if its index is structured so (R9, R75). -/
def tuType? (s : State) (a : Word) : Option Nat :=
  if saTier a = 1 ∧ fld a 28 23 = 0 ∧ fld a 2 0 = 0 ∧ saIdx a < laneCap s (saLane a) then
    tuUnder (structWord s (saLane a) (saIdx a)) (saTug a) (saTu a)
  else none
/-- First index, as a slot address, of the high-order path that carries `a` (a tier 0 or tier 1 slot). -/
def hoOf (s : State) (a : Word) : Word := hoAddr (saLane a) (container s (saLane a) (saIdx a)).1
/-- `a` names a path: the first index of a container or a TU (R74). -/
def isPath (s : State) (a : Word) : Bool :=
  if saTier a = 0 then hoOk s a && hoOf s a == a else (tuType? s a).isSome
/-- SFC of the frame that has begun, whose superframe boundary may still have to act (R12). -/
def frameSfc (s : State) : Nat := if s.glb.sfDue then (s.glb.sfc + 1) % 65536 else s.glb.sfc
/-- The running state of the path at `a`. -/
def path (s : State) (a : Word) : PathSt := Tab.get s.paths a.toNat {}
/-- The running state of the path at `a` changed by `f`. -/
def editPath (s : State) (a : Word) (f : PathSt → PathSt) : State :=
  { s with paths := Tab.edit s.paths a.toNat {} f }

/-! ### DS0 positions -/

/-- TRIB_CTL of port `p` as in force (R119). -/
def portCtl (s : State) (p : Nat) : Word := (Tab.get s.tribs p {}).ctl
/-- TRIB_FRM of port `p` as in force (R119). -/
def portFrm (s : State) (p : Nat) : Word := (Tab.get s.tribs p {}).frm
/-- TRIB_CTL.MODE of a control word (R101). -/
def tribMode (v : Word) : Nat := fld v 2 1
/-- TRIB_CTL.N of a control word (R119). -/
def tribN (v : Word) : Nat := fld v 19 14
/-- TYPE of a framing word (R106). -/
def frmType (v : Word) : Nat := fld v 1 0
/-- FORMAT of a framing word (R106). -/
def frmFormat (v : Word) : Nat := fld v 3 2
/-- The pseudowire `n`, if configured (R247). -/
def pw? (s : State) (n : Nat) : Option Pw := Tab.find? s.cem.pws n
/-- TYPE of a pseudowire (R247). -/
def Pw.type (p : Pw) : Nat := fld p.w7 1 0
/-- The termination of number `n`, if in use (R152). -/
def term? (s : State) (n : Nat) : Option Term := Tab.find? s.map.terms n

/-- The items of the gathers that have passed validation (R167, R172). -/
def validItems (s : State) : List Staged :=
  (s.gth.slots.filter (fun p => p.2.st == 3 || p.2.valid)).flatMap (fun p => p.2.items)

/-- The termination that a staged TERM_CFG of number `n` makes (R152). -/
def Staged.term? (n : Nat) : Staged → Option Term
  | .term w =>
    if fld (w.getD 0 0) 15 0 = n ∧ fld (w.getD 1 0) 1 0 ≠ 0 then
      some { src := fld (w.getD 1 0) 1 0, from_ := w.getD 2 0, framing := w.getD 3 0 }
    else none
  | _ => none

/-- A staged item makes the TU at `a` a terminated TU or an endpoint (R152, R153). -/
def Staged.takesTu (a : Word) : Staged → Bool
  | .edits _ => false
  | .term w => fld (w.getD 1 0) 1 0 == 1 && w.getD 2 0 == a
  | .cc w => !bit (w.getD 0 0) 31 &&
      ((fld (w.getD 0 0) 1 0 == 1 && w.getD 1 0 == a) || (fld (w.getD 2 0) 1 0 == 1 && w.getD 3 0 == a))

/-- The termination whose receive direction number `n` runs: the one in force, or one of a gather that has passed validation
(R152, R172). -/
def termRx? (s : State) (n : Nat) : Option Term :=
  (term? s n).or ((validItems s).filterMap (Staged.term? n)).head?

/-- Slots that carry traffic on a port with these words, in the tier 3 numbering; `none` where it takes no position (R101,
R128). -/
def portSlots (ctl frm : Word) : Option Nat :=
  match tribMode ctl with
  | 0 => if frmType frm ≤ 1 then some 32 else none
  | 1 => if frmType frm ≤ 1 then some 24 else none
  | 2 => some (tribN ctl)
  | _ => some 32

/-- Slots of the DS0 position that holds slot address `a`; `none` where the position is not taken (R128). -/
def posSlots (s : State) (a : Word) : Option Nat :=
  if saTier a = 2 then (term? s (saNum a)).map (fun t => if frmType t.framing = 1 then 24 else 32)
  else if saTier a = 3 then (if bit (portCtl s (saPort a)) 0 then portSlots (portCtl s (saPort a)) (portFrm s (saPort a)) else none)
  else if saTier a = 5 then
    match pw? s (saNum a) with
    | some p => if p.type = 2 then some 32 else if p.type = 3 then some 24 else none
    | none => none
  else none

/-- DS0 positions taken (R128). -/
def ds0Positions (s : State) : Nat :=
  s.map.terms.length +
  (s.tribs.filter (fun p => bit p.2.ctl 0 && (portSlots p.2.ctl p.2.frm).isSome)).length +
  (s.cem.pws.filter (fun p => decide (2 ≤ p.2.type))).length

/-- The terminations among the changes that wait for a boundary (R154). -/
def waitingTerms (s : State) : List Staged :=
  s.deferred.filterMap (fun x => match x.act with
    | .term w => some (.term w)
    | _ => none)

/-- Terminated numbers in use after one more item (R152, R154). -/
def numbersAfter (l : List Nat) : Staged → List Nat
  | .term w =>
    let n := fld (w.getD 0 0) 15 0
    if fld (w.getD 1 0) 1 0 = 0 then l.erase n else if l.contains n then l else n :: l
  | _ => l

/-- CESoPSN pseudowires in force after one more change that waits for its boundary (R247, R249). -/
def cesAfter (l : List Nat) (x : Deferred) : List Nat := match x.act with
  | .pw w _ =>
    let n := fld (w.getD 0 0) 13 0
    if bit (w.getD 0 0) 31 then l.erase n
    else if fld (w.getD 1 0) 1 0 < 2 ∨ l.contains n then l else n :: l
  | _ => l

/-- Port `p` takes a DS0 position as in force, or will from the next frame boundary on (R119, R128). -/
def portTakes (s : State) (p : Nat) : Bool :=
  (bit (portCtl s p) 0 && (portSlots (portCtl s p) (portFrm s p)).isSome) ||
    (let c := rd s (Reg.tribCtl p)
     bit c 0 && (portSlots c (rd s (Reg.tribFrm p))).isSome)

/-- DS0 positions taken once these items and every change that waits for a boundary are in force (R129). -/
def ds0Ahead (s : State) (items : List Staged) : Nat :=
  ((items ++ waitingTerms s).foldl numbersAfter (s.map.terms.map (fun p => p.1))).length +
  ((List.range 64).filter (portTakes s)).length +
  (s.deferred.foldl cesAfter ((s.cem.pws.filter (fun p => decide (2 ≤ p.2.type))).map (fun p => p.1))).length

/-! ### Validity and existence -/

/-- A tier 4 pattern number is valid for a container output (`ds0 = false`) or a DS0-level output (R131). -/
def patternOk (n : Nat) (ds0 : Bool) : Bool :=
  n == 0 || n == 1 || n == 0x11 || (0x100 ≤ n && n ≤ 0x1FF) ||
    (if ds0 then n == 2 || n == 0x10 else n == 0x12 || n == 0x13)

/-- The slot address is valid (R8, R9). -/
def saValid (s : State) (a : Word) : Bool := match saTier a with
  | 0 => hoOk s a
  | 1 => (tuType? s a).isSome
  | 2 => fld a 28 21 == 0 && (match posSlots s a with
    | some n => decide (saSlot a < n)
    | none => true)
  | 3 => fld a 28 14 == 0 && fld a 7 5 == 0 && (match portSlots (portCtl s (saPort a)) (portFrm s (saPort a)) with
    | some n => decide (saSlot a < n)
    | none => false)
  | 4 => fld a 28 16 == 0 && (patternOk (fld a 15 0) true || patternOk (fld a 15 0) false)
  | 5 => fld a 28 21 == 0 && decide (saNum a < 16384)
  | _ => false

/-- An output of the map exists at slot address `a` (R144). -/
def hasEntry (s : State) (a : Word) : Bool :=
  if saTier a ≤ 1 then saValid s a
  else saTier a != 4 && saValid s a && (match posSlots s a with
    | some n => decide (saSlot a < n)
    | none => false)

/-- A source has content (R148). -/
def hasContent (s : State) (a : Word) : Bool :=
  saTier a == 4 || (hasEntry s a && (decide (2 ≤ saTier a) || laneEn s (saLane a)))

/-! ### Entries -/

/-- An entry of the map as its two words show it (R145). -/
structure EntryView where
  src : Word := 0
  kind : Nat := 0
  owner : Nat := 0
  deriving DecidableEq, Repr

/-- The terminated number fed by the TU or pseudowire slot `a` (R152). -/
def termOf (s : State) (a : Word) : Option Nat :=
  (List.find? (fun p => p.2.from_ == a) s.map.terms).map (fun p => p.1)

/-- The clear-channel connection with endpoint (`kind`, `id`) (R153). -/
def ccOf (s : State) (kind : Nat) (id : Word) : Option CC :=
  s.map.ccs.find? (fun c => (c.aKind == kind && c.aId == id) || (c.bKind == kind && c.bId == id))

/-- The entry of output `a` (R145, R146). -/
def entryOf (s : State) (a : Word) : EntryView :=
  let listed : EntryView := match Tab.find? s.map.entries a.toNat with
    | some e => { src := e.src, kind := e.kind }
    | none => {}
  if saTier a = 0 then
    let l := saLane a
    let c := container s l (saIdx a)
    if (c.2 = 0 ∧ (rangeFrom c.1 3).any (structured s l)) ∨ (c.2 = 1 ∧ structured s l c.1) then { kind := 3, owner := 1 }
    else if c.1 ≠ saIdx a then { src := hoAddr l c.1, kind := 3 }
    else listed
  else if saTier a = 1 then
    match termOf s a with
    | some n => { src := ds0Addr n 0, kind := 3, owner := 2 }
    | none => if (ccOf s 1 a).isSome then { kind := 3, owner := 3 } else listed
  else listed

/-- The entry's KIND is 1 and its source has no content (R148). -/
def orphaned (s : State) (a : Word) : Bool :=
  match Tab.find? s.map.entries a.toNat with
  | some e => e.kind == 1 && !hasContent s e.src
  | none => false

/-- The outputs that hold KIND 1 or 2, as slot addresses (R145). -/
def usedOutputs (s : State) : List Word := s.map.entries.map (fun p => w32 p.1)

/-! ### Selectors, guards and groups as they name slots -/

/-- Key of a selector: its tier and number (R184). -/
def selKey (tier n : Nat) : Nat := tier * 131072 + n
/-- Selectors that a tier holds (R184). -/
def selCount (tier : Nat) : Nat := if tier = 0 then 12288 else if tier = 1 then 131072 else 16384
/-- Tier of a selector key. -/
def keyTier (k : Nat) : Nat := k / 131072
/-- Number of a selector key. -/
def keyNum (k : Nat) : Nat := k % 131072
/-- The selector with key `k`, if configured. -/
def sel? (s : State) (k : Nat) : Option Sel := Tab.find? s.prot.sels k
/-- The selector with key `k` is `v`. -/
def setSel (s : State) (k : Nat) (v : Sel) : State := { s with prot := { s.prot with sels := Tab.put s.prot.sels k v } }
/-- The group `g`, if configured. -/
def grp? (s : State) (g : Nat) : Option Grp := Tab.find? s.prot.grps g
/-- The group `g` is `v`. -/
def setGrp (s : State) (g : Nat) (v : Grp) : State := { s with prot := { s.prot with grps := Tab.put s.prot.grps g v } }
/-- The copy of a selector: working or protection. -/
def Sel.copy (x : Sel) (prot : Bool) : Word := if prot then x.protect else x.working
/-- Word `i` (7 to 14) of a guard's configuration (R225). -/
def Guard.w (g : Guard) (i : Nat) : Word := g.words.getD (i - 7) 0
/-- PROT_LANE of a group (R191). -/
def Grp.protLane (g : Grp) : Nat := fld g.w8 6 0
/-- N of a group (R191). -/
def Grp.n (g : Grp) : Nat := fld g.w8 11 8
/-- The group with working lane `l`, and the lane's channel (R191). -/
def grpOfWork (s : State) (l : Nat) : Option (Grp × Nat) :=
  (s.prot.grps.filterMap (fun p =>
    (p.2.work.findIdx? (fun w => w == l)).map (fun i => (p.2, i + 1)))).head?
/-- The group with protection lane `l` (R191). -/
def grpOfProt (s : State) (l : Nat) : Option Grp :=
  (List.find? (fun p => p.2.protLane == l) s.prot.grps).map (fun p => p.2)
/-- The slot lies on the protection lane of a group with EXTRA = 0 (R193). -/
def onSpareLane (s : State) (a : Word) : Bool :=
  decide (saTier a ≤ 1) && (match grpOfProt s (saLane a) with
    | some g => !bit g.w7 3
    | none => false)
/-- The slot that the output stage reads for `a`: the same place on the protection lane while its lane's channel is read
from protection (R193). -/
def mspResolve (s : State) (a : Word) : Word :=
  if saTier a ≤ 1 then
    match grpOfWork s (saLane a) with
    | some (g, c) => if g.selCh = c then setFld a 22 16 g.protLane else a
    | none => a
  else a
/-- A working channel of a group, which 0 and 15 (extra traffic) are not (R195, R200). -/
def workCh (c : Nat) : Bool := c != 0 && c != 15
/-- The lane whose outputs lane `n` transmits: a protection lane sends those of the working lane bridged onto it, in 1+1 always (R193,
R195). -/
def txFrom (s : State) (n : Nat) : Nat := match grpOfProt s n with
  | none => n
  | some g =>
    if !bit g.w7 0 then g.work.getD 0 n else if workCh g.bridgeCh then g.work.getD (g.bridgeCh - 1) n else n
/-- The protection lane of a group carries a working channel: in 1+1 always, in 1:N while one is bridged or read from it (R193,
R195). -/
def Grp.carries (g : Grp) : Bool := !bit g.w7 0 || workCh g.selCh || workCh g.bridgeCh
/-- The slot lies on a protection lane that carries a working channel, so that it reads as all ones (R193). -/
def mspTaken (s : State) (a : Word) : Bool :=
  decide (saTier a ≤ 1) && (match grpOfProt s (saLane a) with
    | some g => g.carries
    | none => false)

/-! ### Path and PDH defects -/

/-- A path defect's detector, numbered as its event cause within its row of R100: 0 LOP, 1 AIS, 2 UNEQ, 3 TIM, 4 PLM, 5 RDI,
6 EXC, 7 DEG, 8 LOM or RFI. -/
def PathSt.has (p : PathSt) (low : Bool) (d : Nat) : Bool := match d with
  | 0 => p.ptr == 1 || (p.concLop && p.ptr != 2)
  | 1 => p.ptr == 2
  | 2 => p.uneq
  | 3 => p.tim
  | 4 => p.plm
  | 5 => p.rdi
  | 6 => p.exc
  | 7 => p.deg
  | _ => if low then p.rfi else p.lom

/-- The path's own masking order (R85). -/
def PathSt.masks (p : PathSt) (low : Bool) (d : Nat) : Bool :=
  let lom := !low && p.lom
  let a := p.has low 0
  let b := a || p.has low 1
  let c := b || lom
  match d with
  | 0 => false
  | 1 => a
  | 2 => c
  | 3 => c || p.uneq
  | 4 => c || p.uneq || p.tim
  | 5 => c || p.uneq
  | 6 => c || p.uneq || p.tim || p.plm
  | 7 => c || p.uneq || p.tim || p.plm || p.exc
  | _ => if low then c || p.uneq else b

/-- Lane `l` gives SF: its reported defects with that action (R56). -/
def laneSf (s : State) (l : Nat) : Bool := lineSf (frm s l).det (frmCtl s l)
/-- Lane `l` gives SD (R56). -/
def laneSd (s : State) (l : Nat) : Bool := lineSd (frm s l).det

/-- Defect `d` of the high-order path at `a` is reported (R85). -/
def hoReported (s : State) (a : Word) (d : Nat) : Bool :=
  (path s a).has false d && !(path s a).masks false d && !laneSf s (saLane a)

/-- TIM or PLM of the path takes consequent action, given which are reported (R86). -/
def takesAction (c : PathCfg) (tim plm : Bool) : Bool := (tim && bit c.w7 6) || (plm && bit c.w7 8)

/-- The high-order path at `h` masks the defects of the TUs inside it (R85). -/
def hoMasksTu (s : State) (h : Word) : Bool :=
  let p := path s h
  laneSf s (saLane h) || p.has false 0 || p.has false 1 || p.lom || p.uneq ||
    takesAction (pathCfg s h) (hoReported s h 3) (hoReported s h 4)

/-- Defect `d` of the path at `a` is reported (R85). -/
def pathReported (s : State) (a : Word) (d : Nat) : Bool :=
  if saTier a = 0 then hoReported s a d
  else (path s a).has true d && !(path s a).masks true d && !hoMasksTu s (hoOf s a)

/-- The reported defects of the path at `a` (R99, R100). -/
def reportedList (s : State) (a : Word) : List Nat := (List.range 9).filter (pathReported s a)

/-- TIM or PLM of the path at `a` takes consequent action (R86). -/
def pathAction (s : State) (a : Word) : Bool :=
  takesAction (pathCfg s a) (pathReported s a 3) (pathReported s a 4)

/-- PDH defects in the masking order, then RAI (R111). -/
def PdhDefects.has (d : PdhDefects) : PdhDefect → Bool
  | .los => d.los | .ais => d.ais | .lof => d.lof | .nmis => d.nmis | .lomf => d.lomf | .casLom => d.casLom
  | .deg => d.deg | .rai => d.rai

/-- The detectors with one of them set. -/
def PdhDefects.put (d : PdhDefects) (x : PdhDefect) (b : Bool) : PdhDefects := match x with
  | .los => { d with los := b } | .ais => { d with ais := b } | .lof => { d with lof := b }
  | .nmis => { d with nmis := b } | .lomf => { d with lomf := b } | .casLom => { d with casLom := b }
  | .deg => { d with deg := b } | .rai => { d with rai := b }

/-- The masking order of R111. -/
def PdhDefects.masks (d : PdhDefects) : PdhDefect → Bool
  | .los => false
  | .ais => d.los
  | .lof => d.los || d.ais
  | .nmis => d.los || d.ais || d.lof
  | .lomf => d.los || d.ais || d.lof || d.nmis
  | .casLom => d.los || d.ais || d.lof || d.nmis || d.lomf
  | .deg => d.los || d.ais || d.lof || d.nmis || d.lomf || d.casLom
  | .rai => d.los || d.ais || d.lof

/-- The PDH defect is reported (R111). -/
def PdhDefects.shows (d : PdhDefects) (x : PdhDefect) : Bool := d.has x && !d.masks x
/-- A PDH signal gives SF to protection (R112). -/
def PdhDefects.sf (d : PdhDefects) : Bool :=
  d.shows .los || d.shows .ais || d.shows .lof || d.shows .nmis || d.shows .lomf
/-- A PDH signal gives SD to protection (R112). -/
def PdhDefects.sd (d : PdhDefects) : Bool := d.shows .deg

/-! ### Conditions of a copy -/

/-- SF of the high-order path at `h` and its lane, as given to what lies inside it (R181). -/
def serverSf (s : State) (h : Word) : Bool :=
  laneSf s (saLane h) || hoReported s h 0 || hoReported s h 1 || hoReported s h 8 || pathAction s h

/-- SF of the copy at `a`; `n` for SNC/N; a terminated E1 or T1 has it in LOP and AIS of the TU that carries it too, which R197 times;
a pseudowire's copy has it in LOPS and while L is received (R181, R197, R255). -/
def copySf (s : State) (a : Word) (n : Bool) : Bool :=
  let r := mspResolve s a
  !hasContent s a || (match saTier a with
    | 0 => laneSf s (saLane r) || pathReported s r 0 || pathReported s r 1 ||
        (n && (pathReported s r 2 || pathAction s r || pathReported s r 6))
    | 1 => serverSf s (hoOf s r) || pathReported s r 0 || pathReported s r 1 ||
        (n && (pathReported s r 2 || pathAction s r || pathReported s r 6))
    | 2 => (Tab.get s.termFr (saNum a) {}).det.sf || (match term? s (saNum a) with
        | some t =>
          let r := mspResolve s t.from_
          t.src == 1 && (serverSf s (hoOf s r) || pathReported s r 0 || pathReported s r 1)
        | none => true)
    | 3 => decide (tribMode (portCtl s (saPort a)) ≤ 2) && (Tab.get s.ports (saPort a) {}).det.sf
    | 5 => match pw? s (saNum a) with
      | some p => p.st == 3 || p.lRx
      | none => true
    | _ => false)

/-- SD of the copy at `a`; `n` for SNC/N (R181). -/
def copySd (s : State) (a : Word) (n : Bool) : Bool :=
  let r := mspResolve s a
  match saTier a with
  | 0 => laneSd s (saLane r) || (n && pathReported s r 7)
  | 1 => laneSd s (saLane r) || (n && pathReported s r 7)
  | 2 => (Tab.get s.termFr (saNum a) {}).det.sd || (match term? s (saNum a) with
      | some t => t.src == 1 && laneSd s (saLane (mspResolve s t.from_))
      | none => false)
  | 3 => decide (tribMode (portCtl s (saPort a)) ≤ 2) && (Tab.get s.ports (saPort a) {}).det.sd
  | _ => false

end Sys2Proof.Machine
end

