-- ==== Sys2Proof/Machine/Runs.lean ====
section
/-! DEFINITION. The order of slot addresses within a tier value, and the runs of edit records (R150, R151, R157). -/

namespace Sys2Proof.Machine

/-! ### Slot addresses in ascending order -/

/-- How many places a tier value numbers; a place is an address of the tier value in ascending order, valid or not. -/
def tierPlaces (tier : Nat) : Nat := match tier with
  | 0 => 128 * 192
  | 1 => 128 * 192 * 32
  | 2 => 65536 * 32
  | 3 => 64 * 32
  | 5 => 16384 * 32
  | _ => 0

/-- The slot address at a place of a tier value (R8). -/
def placeAddr (tier k : Nat) : Word := match tier with
  | 0 => hoAddr (k / 192) (k % 192)
  | 1 => loAddr (k / 6144) (k / 32 % 192) (k / 4 % 8) (k % 4)
  | 2 => ds0Addr (k / 32) (k % 32)
  | 3 => tribAddr (k / 32) (k % 32)
  | _ => pwAddr (k / 32) (k % 32)

/-- The place of a slot address within its tier value. -/
def addrPlace (a : Word) : Nat := match saTier a with
  | 0 => saLane a * 192 + saIdx a
  | 1 => saLane a * 6144 + saIdx a * 32 + saTug a * 4 + saTu a
  | 3 => saPort a * 32 + saSlot a
  | _ => saNum a * 32 + saSlot a

/-- The next `n` places from `k` on at which `ok` holds, `fuel` places being left. -/
def nextPlaces (ok : Nat → Bool) (fuel k n : Nat) : List Nat := match fuel, n with
  | 0, _ => []
  | _, 0 => []
  | f + 1, n + 1 => if ok k then k :: nextPlaces ok f (k + 1) n else nextPlaces ok f (k + 1) (n + 1)

/-- The next `n` addresses of tier value `t`, from place `k` on, at which `ok` holds. -/
def nextSlots (ok : Word → Bool) (t k n : Nat) : List Word :=
  (nextPlaces (fun k => ok (placeAddr t k)) (tierPlaces t - k) k n).map (placeAddr t)

/-- The `n` addresses after `a` in its tier value at which `ok` holds. -/
def slotsAfter (ok : Word → Bool) (a : Word) (n : Nat) : List Word := nextSlots ok (saTier a) (addrPlace a + 1) n

/-! ### Records -/

/-- KIND of an edit record (R150). -/
def EditRec.kind (r : EditRec) : Nat := fld r.w2 1 0
/-- COUNT of an edit record (R150). -/
def EditRec.count (r : EditRec) : Nat := fld r.w3 16 0
/-- STEP of an edit record (R150). -/
def EditRec.step (r : EditRec) : Bool := bit r.w3 17

/-- The edit record of one output. -/
def oneEdit (out src : Word) (kind : Nat) : EditRec := { out := out, src := src, w2 := w32 kind, w3 := 1 }

/-- Map tier of a slot: 0 high-order, 1 low-order, 2 DS0 (R128). -/
def mapTier (a : Word) : Nat := min 2 (saTier a)

/-- An output that a run may take: it exists and is not owned (R151). -/
def runOutput (s : State) (a : Word) : Bool := hasEntry s a && (entryOf s a).kind != 3

/-- A slot that a run of sources may take: the first index of a container, or any slot that exists (R147, R151). -/
def runSource (s : State) (a : Word) : Bool := hasEntry s a && (saTier a != 0 || hoOf s a == a)

/-- The outputs of a run: OUTPUT itself and the next ones of its tier value (R151). -/
def runOuts (s : State) (r : EditRec) : List Word := r.out :: slotsAfter (runOutput s) r.out (r.count - 1)

/-- The sources of a run (R151). -/
def runSrcs (s : State) (r : EditRec) : List Word :=
  if !r.step then List.replicate r.count r.src
  else if r.kind = 2 then (List.range r.count).map (fun k => r.src + w32 k)
  else r.src :: slotsAfter (runSource s) r.src (r.count - 1)

/-- A record as the edits of its single outputs; a run that leaves its tier value has fewer than COUNT (R151). -/
def expandRec (s : State) (r : EditRec) : List EditRec :=
  if r.count = 1 then [oneEdit r.out r.src r.kind]
  else ((runOuts s r).zip (runSrcs s r)).map (fun p => oneEdit p.1 p.2 r.kind)

/-- A staged item with its runs expanded. -/
def expandItem (s : State) : Staged → Staged
  | .edits l => .edits (l.flatMap (expandRec s))
  | .term w => .term w
  | .cc w => .cc w

end Sys2Proof.Machine
end

