-- ==== Sys2Proof/Machine/Live.lean ====
section
/-! DEFINITION. What uses a lane or a port, orphaned entries, and the conditions of selectors and groups (R33, R103, R144,
R148, R159, R168, R181 to R183). -/

namespace Sys2Proof.Machine

/-! ### Uses -/

/-- Slot `a` is a tier 0 or tier 1 slot of lane `n`. -/
def onLane (n : Nat) (a : Word) : Bool := decide (saTier a ≤ 1) && saLane a == n
/-- Slot `a` is a slot of tributary port `p`. -/
def onPort (p : Nat) (a : Word) : Bool := saTier a == 3 && saPort a == p

/-- A live map entry names a slot for which `t` holds, as a source or an output (R33, R103). -/
def entryNames (s : State) (t : Word → Bool) : Bool :=
  s.map.entries.any (fun p => t (w32 p.1) || (p.2.kind == 1 && t p.2.src))
/-- A selector, and with it a merge, names a slot for which `t` holds. -/
def selNames (s : State) (t : Word → Bool) : Bool := s.prot.sels.any (fun p => t p.2.working || t p.2.protect)
/-- A guard names a slot for which `t` holds (R225). -/
def guardNames (s : State) (t : Word → Bool) : Bool :=
  s.sym.guards.any (fun p => (!bit (p.2.w 8) 0 && t (p.2.w 7)) || t (p.2.w 9))
/-- A termination or a clear-channel connection names a TU for which `t` holds (R152, R153). -/
def ownerNames (s : State) (t : Word → Bool) : Bool :=
  s.map.terms.any (fun p => t p.2.from_) ||
    s.map.ccs.any (fun c => (c.aKind == 1 && t c.aId) || (c.bKind == 1 && t c.bId))

/-- A map entry, MSP group, selector, merge, guarded connection, pseudowire or DCC channel in force uses lane `n` (R33). DESIGN CHOICE
(log entry 81): of the map, entries of KIND 1 and 2 count by output and source, and the entries that a termination or a clear-channel
connection owns count by their TU; an entry of KIND 0, and one that only follows a structured or covering container (OWNER 0 or 1), does
not. -/
def laneUsed (s : State) (n : Nat) : Bool :=
  entryNames s (onLane n) || selNames s (onLane n) || guardNames s (onLane n) || ownerNames s (onLane n) ||
  s.prot.grps.any (fun p => p.2.protLane == n || p.2.work.contains n) ||
  s.sym.guards.any (fun p => fld (p.2.w 10) 22 16 == n || (bit (p.2.w 10) 23 && fld (p.2.w 10) 30 24 == n)) ||
  s.cem.pws.any (fun p => fld p.2.w7 12 6 == n) ||
  s.dccs.any (fun p => bit p.2.ctl 0 && fld p.2.ctl 8 2 == n)

/-- Lane `n` is live: enabled and in use, or in a live quad (R31, R33). -/
def laneLive (s : State) (n : Nat) : Bool :=
  laneEn s n && (laneUsed s n || (quadRuns s n && (rangeFrom (quadFirst n) 4).any (laneUsed s)))

/-- A map entry, selector or clear-channel connection in force uses port `p` (R103). -/
def portUsed (s : State) (p : Nat) : Bool :=
  entryNames s (onPort p) || selNames s (onPort p) ||
  s.map.ccs.any (fun c => (c.aKind == 2 && fld c.aId 5 0 == p) || (c.bKind == 2 && fld c.bId 5 0 == p))

/-- Port `p` is live (R103). -/
def portLive (s : State) (p : Nat) : Bool := bit (portCtl s p) 0 && portUsed s p

/-! ### What gathers name -/

/-- The gathers that are OPEN, VALIDATING or SCHEDULED hold an edit for which `t` holds (R168). -/
def gatherNames (s : State) (t : Staged → Bool) : Bool :=
  s.gth.slots.any (fun p => p.2.st != 0 && p.2.items.any (fun i => t (expandItem s i)))

/-- A staged item names a slot for which `t` holds: an output, a source, the TU of a termination or an endpoint (R168). -/
def Staged.names (t : Word → Bool) : Staged → Bool
  | .edits l => l.any (fun r => t r.out || (fld r.w2 1 0 == 1 && t r.src))
  | .term w => (fld (w.getD 1 0) 1 0 != 0 && t (w.getD 2 0)) || t (ds0Addr (fld (w.getD 0 0) 15 0) 0)
  | .cc w => (fld (w.getD 0 0) 1 0 == 1 && t (w.getD 1 0)) || (fld (w.getD 2 0) 1 0 == 1 && t (w.getD 3 0))

/-- A staged item names selector number `n` of tier `tier` (R168). -/
def Staged.namesSel (tier n : Nat) : Staged → Bool
  | .edits l => l.any (fun r => r.kind == 2 && fld r.src 16 0 == n && mapTier r.out == tier)
  | _ => false

/-- A gather names an index of lane `n` at or above `cap`, so that a LANE_CTL write that takes it away is refused (R168). -/
def gatherBlocksLane (s : State) (n cap : Nat) : Bool :=
  gatherNames s (Staged.names (fun a => onLane n a && decide (cap ≤ saIdx a)))

/-! ### Orphans and map changes -/

/-- A map change: MAP_GEN goes up by one (R157, R158). -/
def mapChanged (s : State) : State := wr s Reg.mapGen (rd s Reg.mapGen + 1)

/-- Entries orphaned in `s` that were not orphaned in `before`: ORPHANED is raised once with their number (R159). -/
def orphanCheck (before s : State) : State :=
  let n := (s.map.entries.filter (fun p => orphaned s (w32 p.1) && !orphaned before (w32 p.1))).length
  if n = 0 then s else raise s 0x221 1 (w32 n)

/-- Entries of outputs that no longer exist are deleted (R144). -/
def dropEntries (s : State) : State :=
  { s with map := { s.map with entries := s.map.entries.filter (fun p => hasEntry s (w32 p.1)) } }

/-- Running state of a path that comes into existence: its interpreter starts in LOP with no active value, and nothing is
accepted; its counters are kept, and what it has reported until its defects are read again (R78, R83). -/
def freshPath (p : PathSt) : PathSt :=
  { cnt := p.cnt, cntRun := p.cntRun, secNow := p.secNow, secs := p.secs, uas := p.uas, feUas := p.feUas, rep := p.rep }

/-- After a LANE_CTL write, where `olds` gives lanes with the LANE_CTL that they had: entries that no longer exist are deleted, and a change
of capacity is one map change (R144, R157). -/
def laneMapChange (s : State) (olds : List (Nat × Word)) : State :=
  if olds.all (fun p => laneCap s p.1 == modeCapacity (ctlMode p.2)) then s else mapChanged (dropEntries s)

/-! ### Conditions -/

/-- A condition of a copy or lane after its SF and SD have been read; SD counts without SF only (R181). A rise starts the hold-off of `h`
frames, or is a request at once; a change from SD to SF while the timer runs lets it run on, and every other change of the condition is a
fall and a rise (log entry 96). A fall while the timer runs is absorbed, which the second component says (R183). -/
def holdStep (x : Hold) (sf sd : Bool) (h : Nat) : Hold × Bool :=
  let sd := sd && !sf
  let goesOn := (sf == x.sf && sd == x.sd) || (x.run.isSome && x.sd && sf)
  if !sf && !sd then ({}, x.run.isSome)
  else if goesOn then ({ x with sf := sf, sd := sd }, false)
  else
    let new : Hold := if h = 0 then { sf := sf, sd := sd, pass := true } else { sf := sf, sd := sd, run := some 0 }
    (new, x.run.isSome)

/-- Frames of a hold-off field in units of 100 ms (R183). -/
def holdFrames (f : Nat) : Nat := 800 * f

/-- Event source of a selector (R202). -/
def selSource (k : Nat) : Nat :=
  0x400 + keyNum k / (if keyTier k = 0 then 48 else if keyTier k = 1 then 512 else 64)

/-- A selector raises an event: cause, further bits of data word 0, and data word 1 [31:17] (R202). -/
def selEvent (s : State) (k cause more hi : Nat) : State :=
  raise s (selSource k) (w32 (cause + 256 * keyTier k + more)) (w32 (keyNum k + 2 ^ 17 * hi))

/-- HOLDOFF_ABSORBED of a selector, at most once per second (R202). -/
def selAbsorbed (s : State) (k : Nat) (prot : Bool) : State :=
  raiseOnce s (selSource k) 5 k (w32 (5 + 256 * keyTier k)) (w32 (keyNum k + 2 ^ 17 * b2n prot))

/-- A group raises an event: cause, state bit and data word 1 (R201). -/
def grpEvent (s : State) (g cause : Nat) (state : Bool) (d1 : Word) : State :=
  raise s (0xC0 + g) (w32 (cause + 256 * g + 2 ^ 15 * b2n state)) d1

/-- Copy `c` (true: protection) of a merge becomes unverified; a stored copy's clean history ends (R216). -/
def Merge.unverify (x : Merge) (c : Bool) : Merge :=
  let x := { x with hist := if c != x.ref then 0 else x.hist, hist2 := if c == x.ref then 0 else x.hist2 }
  if c then { x with verP := false, confP := 0 } else { x with verW := false, confW := 0 }

/-- SF is declared on copy `c`, or an NDF_ENABLE accepted on its path: it becomes unverified, and a move is ascribed to it (R215, R216). -/
def Merge.hit (x : Merge) (c : Bool) : Merge := { x.unverify c with lastHit := some c }

/-- The merge of selector `k`, if it is in merge mode, is changed by `f`. -/
def editMerge (s : State) (k : Nat) (f : Merge → Merge) : State := match Tab.find? s.mrg.merges k with
  | some x => { s with mrg := { s.mrg with merges := Tab.put s.mrg.merges k (f x) } }
  | none => s

/-- Copy `c` of the merge of selector `k` becomes unverified (R216). -/
def unverify (s : State) (k : Nat) (c : Bool) : State := editMerge s k (fun x => x.unverify c)

/-- Copy `c` of the merge of selector `k` has SF or an accepted NDF_ENABLE (R215, R216). -/
def mergeHit (s : State) (k : Nat) (c : Bool) : State := editMerge s k (fun x => x.hit c)

/-- The conditions of selector `k` are read again (R181, R183); an exercise notes SF and SD on the protection copy (R190), and SF
makes a merge's copy unverified (R216). -/
def refreshSel (s : State) (k : Nat) : State :=
  match sel? s k with
  | none => s
  | some x =>
    let h := holdFrames (fld x.par 9 3)
    let n := bit x.par 0
    let en := bit x.par 2
    let w := holdStep x.w (copySf s x.working n) (copySd s x.working n && en) h
    let p := holdStep x.p (copySf s x.protect n) (copySd s x.protect n && en) h
    let s := setSel s k { x with w := w.1, p := p.1, exer := x.exer.map (fun b => b && !(p.1.sf || p.1.sd)) }
    let s := if w.1.sf then mergeHit s k false else s
    let s := if p.1.sf then mergeHit s k true else s
    let s := if w.2 then selAbsorbed s k false else s
    if p.2 then selAbsorbed s k true else s

/-- The lane of channel `c` of a group; channel 0 is protection (R191). -/
def Grp.lane (g : Grp) (c : Nat) : Nat := if c = 0 then g.protLane else g.work.getD (c - 1) 0

/-- The conditions of group `g` are read again (R182, R183). -/
def refreshGrp (s : State) (g : Nat) : State :=
  match grp? s g with
  | none => s
  | some x =>
    let h := holdFrames (fld x.w7 11 5)
    let step := fun (c : Nat) =>
      let l := x.lane c
      holdStep (x.lanes.getD c {}) (laneSf s l || (c == 0 && reported (frm s l).det .psbf)) (laneSd s l && bit x.w7 4) h
    let r := (List.range (x.n + 1)).map step
    let s := setGrp s g { x with lanes := r.map (fun p => p.1) }
    match r.findIdx? (fun p => p.2) with
    | some c => raiseOnce s (0xC0 + g) 10 g (w32 (10 + 256 * g)) (w32 (x.lane c))
    | none => s

/-- Every merge copy whose slot resolves otherwise in `s` than it did in `before` becomes unverified (R216). -/
def unverifyMoved (before s : State) : State :=
  (s.mrg.merges.map (fun p => p.1)).foldl (fun s k => match sel? s k with
    | some x =>
      let s := if mspResolve s x.working != mspResolve before x.working then unverify s k false else s
      if mspResolve s x.protect != mspResolve before x.protect then unverify s k true else s
    | none => s) s

/-- Every merge copy that reads the path at `a` becomes unverified by its accepted NDF_ENABLE (R215, R216). -/
def unverifyPath (s : State) (a : Word) : State :=
  (s.mrg.merges.map (fun p => p.1)).foldl (fun s k => match sel? s k with
    | some x =>
      let s := if mspResolve s x.working == a then mergeHit s k false else s
      if mspResolve s x.protect == a then mergeHit s k true else s
    | none => s) s

/-- The conditions of every selector and group are read again (R181 to R183). -/
def refreshConds (s : State) : State :=
  let s := (s.prot.sels.map (fun p => p.1)).foldl refreshSel s
  (s.prot.grps.map (fun p => p.1)).foldl refreshGrp s

/-! ### Reported path defects -/

/-- A path raises an event: cause, state bit and its slot address (R100). -/
def pathEvent (s : State) (a : Word) (cause : Nat) (st : Bool) : State :=
  raise s (saLane a) (w32 (cause + 256 * saLane a + 2 ^ 15 * b2n st)) a

/-- Event cause of path defect `d` of the path at `a` (R100). -/
def pathCause (a : Word) (d : Nat) : Nat := (if saTier a = 0 then 0x40 else 0x50) + d

/-- The path at `a` is monitored (R74). -/
def monitored (s : State) (a : Word) : Bool := bit (pathCfg s a).w7 3

/-- The marker channel lock of the path at `a`, if it stands, is lost, which raises MARK_LOCK (R90). -/
def dropLock (s : State) (a : Word) : State :=
  if (path s a).mkLock then
    let s := editPath s a (fun p => { p with mkLock := false })
    if monitored s a then pathEvent s a 0x5B false else s
  else s

/-- RDI goes upstream for a path with these reported defects (R86, R87). -/
def pathUpstream (s : State) (a : Word) (rep : List Nat) : Bool :=
  rep.contains 0 || rep.contains 1 || rep.contains 2 || (saTier a == 0 && rep.contains 8) ||
    takesAction (pathCfg s a) (rep.contains 3) (rep.contains 4)

/-- The conditions that make the running second of the path at `a` severely errored, and RDI (R97). -/
def notePath (s : State) (a : Word) : State :=
  let p := path s a
  let low := saTier a == 1
  let bad := p.has low 0 || p.has low 1 || (!low && p.lom) || p.uneq || pathAction s a
  let rdi := pathReported s a 5
  editPath s a (fun p => { p with secNow := { p.secNow with
    defect := p.secNow.defect || bad, rdi := p.secNow.rdi || rdi } })

/-- The reported defects of the path at `a` are read again: a monitored path raises one event for each defect newly reported,
and one for each that was reported and is gone; a defect that only becomes masked raises none (R85, R86, R100). -/
def refreshPath (s : State) (a : Word) : State :=
  let p := path s a
  let new := reportedList s a
  let s := if monitored s a then
      (List.range 9).foldl (fun s d =>
        if new.contains d && !p.rep.contains d then pathEvent s a (pathCause a d) true
        else if p.rep.contains d && !new.contains d && !p.has (saTier a == 1) d then
          pathEvent s a (pathCause a d) false
        else s) s
    else s
  let up := pathUpstream s a new
  notePath (editPath s a (fun p => { p with rep := new, txRdi := up })) a

/-- The reported defects of every path of lane `n` are read again (R85). -/
def refreshLanePaths (s : State) (n : Nat) : State :=
  ((s.paths.map (fun p => w32 p.1)).filter (onLane n)).foldl refreshPath s

/-- Every path of lane `n` starts anew: what it had reported ends, and its LOP is declared from that moment (R78, R90, R100). -/
def freshLane (s : State) (n : Nat) : State :=
  let s := ((s.paths.map (fun p => w32 p.1)).filter (onLane n)).foldl dropLock s
  refreshLanePaths { s with paths := s.paths.map (fun p => if onLane n (w32 p.1) then (p.1, freshPath p.2) else p) } n

end Sys2Proof.Machine
end

