-- ==== Sys2Proof/Machine/Pattern.lean ====
section
/-! DEFINITION. Test patterns: what generators send, and the checker of lanes and pattern monitors (R46, R131, R132, R134). -/

namespace Sys2Proof.Machine

/-- Taps of a PRBS by its number: 0 to 4 as LANE_PRBS numbers them, 7 for PRBS11 (R46, R131). -/
def prbsTaps (pat : Nat) : Option (Nat × Nat) := match pat with
  | 0 => some (7, 6)
  | 1 => some (9, 5)
  | 2 => some (15, 14)
  | 3 => some (23, 18)
  | 4 => some (31, 28)
  | 7 => some (11, 9)
  | _ => none

/-- The bit that pattern `pat` has next: of a PRBS by its taps, of the user pattern bit 0 first, of the square wave 8 ones and 8
zeros (R46). A generator that has sent nothing holds all ones (R132; for lanes DESIGN CHOICE, log entry 87). DESIGN CHOICE (log entry 130): the
seed itself is not sent, and the first bit out is the first computed one. -/
def patBit (pat user : Nat) (x : PatSt) : Bool := match prbsTaps pat with
  | some t => xor (x.hist.getD (t.1 - 1) true) (x.hist.getD (t.2 - 1) true)
  | none => if pat = 5 then user / 2 ^ x.phase % 2 == 1 else decide (x.phase % 16 < 8)

/-- The pattern has gone on by the bit `b`. -/
def patPush (x : PatSt) (b : Bool) : PatSt := { x with hist := (b :: x.hist).take 31, phase := (x.phase + 1) % 64 }

/-- The next `n` bits of a generator, and the generator after them (R46, R132). -/
def patBits (pat user n : Nat) (x : PatSt) : List Bool × PatSt :=
  let r := (List.range n).foldl (fun p _ =>
    let b := patBit pat user p.2
    (b :: p.1, patPush p.2 b)) (([] : List Bool), x)
  (r.1.reverse, r.2)

/-- The next `n` bytes of a generator, the most significant bit of each first (R132). -/
def patBytes (pat user n : Nat) (x : PatSt) : List Byte × PatSt :=
  let r := patBits pat user (8 * n) x
  (bitsBytes r.1, r.2)

/-- Bit `b` received out of lock: a match needs a PRBS's register to be full and not all zero; in the user pattern a mismatch moves
the search one bit on (R46; DESIGN CHOICE, log entry 87). -/
def checkSearch (pat user : Nat) (x : PatSt) (b : Bool) : PatSt × Bool :=
  let full := match prbsTaps pat with
    | some t => decide (t.1 ≤ x.hist.length) && (x.hist.take t.1).any (fun c => c)
    | none => true
  let hit := full && patBit pat user x == b
  let y := patPush x b
  if !hit then ({ y with run := 0, phase := (y.phase + 1) % 64 }, false)
  else if x.run < 127 then ({ y with run := x.run + 1 }, false)
  else ({ y with run := 0, pos := 0, errs := [] }, true)

/-- Bit `b` received in lock: the checker's own sequence runs on, and 1,024 errors in 8,192 bits end the lock (R46). -/
def checkLocked (pat user : Nat) (x : PatSt) (b : Bool) : PatSt × Bool :=
  let p := patBit pat user x
  let e := (if p == b then x.errs else x.pos :: x.errs).filter (fun q => decide (x.pos < q + 8192))
  if 1024 ≤ e.length then ({}, false) else ({ patPush x p with errs := e, pos := x.pos + 1 }, true)

/-- What a checker has found in a stretch of bits: its state and lock, the bits checked and the errors seen while locked, and each
change of lock with the errors counted before it, newest first. -/
structure CheckSum where
  x : PatSt := {}
  lock : Bool := false
  bits : Nat := 0
  errs : Nat := 0
  flips : List (Bool × Nat) := []

/-- One received bit (R46): a checker set to the square wave never locks. -/
def checkBit (pat user : Nat) (r : CheckSum) (b : Bool) : CheckSum :=
  if r.lock then
    let n := checkLocked pat user r.x b
    let e := r.errs + b2n (patBit pat user r.x != b)
    { x := n.1, lock := n.2, bits := r.bits + 1, errs := e, flips := if n.2 then r.flips else (false, e) :: r.flips }
  else if pat = 6 then r
  else
    let n := checkSearch pat user r.x b
    { r with x := n.1, lock := n.2, flips := if n.2 then (true, r.errs) :: r.flips else r.flips }

/-- A checker goes through received bits (R46, R134). -/
def checkBits (pat user : Nat) (x : PatSt) (lock : Bool) (l : List Bool) : CheckSum :=
  l.foldl (checkBit pat user) { x := x, lock := lock }

end Sys2Proof.Machine
end

