-- ==== Sys2Proof/Machine/Lane.lean ====
section
/-! DEFINITION. Line lanes and the SerDes analog core (02_line_lanes.md, R28 to R49). -/

namespace Sys2Proof.Machine

/-- LANE_STATUS.STATE: 0 OFF, 1 PLL_WAIT, 2 CAL, 3 ACQ, 4 UP, 5 CAL_FAIL (R48). -/
def laneState (s : State) (n : Nat) : Nat := fget s (Reg.laneStatus n) 2 0
/-- Bit `i` of LANE_STATUS holds `b`. -/
def setLaneBit (s : State) (n i : Nat) (b : Bool) : State := bset s (Reg.laneStatus n) i b
/-- Lane `n` raises an event (R49). -/
def laneEvent (s : State) (n cause : Nat) (d1 : Word) : State := raise s n (w32 (cause + 256 * n)) d1
/-- The running state of Ethernet lane `n`. -/
def eth (s : State) (n : Nat) : EthSt := Tab.get s.eths n {}
/-- The running state of Ethernet lane `n` changed by `f`. -/
def editEth (s : State) (n : Nat) (f : EthSt → EthSt) : State := { s with eths := Tab.edit s.eths n {} f }
/-- Lane `n` is an enabled Ethernet lane; of a quad, its first lane (R29, R31, R262). -/
def ethLane (s : State) (n : Nat) : Bool := laneEn s n && ethMode (laneMode s n) && !quadMember s n
/-- Fixed ingress and egress latency of a mode in 0.1 ns, deskew apart (R243). -/
def modeLat (mode : Nat) (fec : Bool) : Nat × Nat := match mode with
  | 0 => (2361, 1046)
  | 1 => (719, 330)
  | 2 => (392, 207)
  | 3 => (246, 141)
  | 4 => (614, 438)
  | 5 => if fec then (2786, 883) else (349, 241)
  | _ => (527, 402)

/-- Tenths of a ns in 1/16 ns, to the nearest (R262). -/
def sixteenths (n : Nat) : Nat := (n * 16 + 5) / 10

/-- LANE_LAT of lane `n` (R243, R262). -/
def laneLat (s : State) (n : Nat) : Word :=
  if !laneEn s n || quadMember s n then 0
  else
    let l := modeLat (laneMode s n) (bit (laneCtl s n) 10)
    let d := if 6 ≤ laneMode s n then (eth s n).deskew else 0
    w32 (sixteenths l.1 + d + 65536 * sixteenths l.2)

/-- A status bit of lane `n` becomes `b`: a change raises its event (R264). -/
def ethBit (s : State) (n i cause : Nat) (b : Bool) : State :=
  if bget s (Reg.laneEthStatus n) i = b then s
  else laneEvent (bset s (Reg.laneEthStatus n) i b) n cause (w32 (b2n b))

/-- The lane is link up (R242). -/
def linkNow (s : State) (n : Nat) : Bool :=
  let w := rd s (Reg.laneEthStatus n)
  ethLane s n && laneState s n == 4 && bit w 0 && (decide (laneMode s n < 6) || bit w 1) && !bit w 2 && !bit w 3 && !bit w 4

/-- LANE_ETH_STATUS.LINK follows what makes the lane link up (R242, R262, R264). -/
def followLink (s : State) (n : Nat) : State := ethBit s n 5 0x30 (linkNow s n)

/-- The PCS of a lane that stops or starts anew reports nothing any more (R242, R262). -/
def pcsDown (s : State) (n : Nat) : State :=
  if rd s (Reg.laneEthStatus n) = 0 then s
  else followLink (([(0, 0x31), (1, 0x35), (2, 0x32), (3, 0x33), (4, 0x34)] : List (Nat × Nat)).foldl
    (fun s b => ethBit s n b.1 b.2 false) s) n

/-- LANE_STATUS.STATE holds `st`, and LINK follows (R36, R242). -/
def setLaneState (s : State) (n st : Nat) : State := followLink (fset s (Reg.laneStatus n) 2 0 st) n
/-- CAL_BUSY of lane `n` (R48). -/
def calBusy (s : State) (n : Nat) : Bool := bget s (Reg.laneStatus n) 7
/-- RETRIM_BUSY of lane `n` (R48). -/
def retrimBusy (s : State) (n : Nat) : Bool := bget s (Reg.laneStatus n) 8
/-- TEMP_TRIM of lane `n` as stored (R48). -/
def tempTrim (s : State) (n : Nat) : Nat := fget s (Reg.laneStatus n) 31 24
/-- Present reading of the sensor of lane `n`'s group as stored in PWR_THERM_g (R28). -/
def laneTemp (s : State) (n : Nat) : Nat := fget s (Reg.pwrTherm (laneGroup n)) 7 0

/-! ### Group PLLs -/

/-- LANE_GPLL of a group, kept once in the register of its first lane (R48). -/
def gpll (g : Nat) : Nat := Reg.laneGpll (8 * g)
/-- The PLL of a family in group `g` is locked. -/
def pllLocked (s : State) (g : Nat) (eth : Bool) : Bool := bget s (gpll g) (if eth then 3 else 1)
/-- The PLL of a family in group `g` is powered. -/
def pllOn (s : State) (g : Nat) (eth : Bool) : Bool := bget s (gpll g) (if eth then 2 else 0)
/-- The PLL of a family has lost lock (R41). -/
def pllLost (s : State) (g : Nat) (eth : Bool) : Bool := if eth then (groupSt s g).ethLost else (groupSt s g).sdhLost
/-- Whether the PLL of a family counts as lost. -/
def setPllLost (s : State) (g : Nat) (eth b : Bool) : State :=
  editGroup s g (fun x => if eth then { x with ethLost := b } else { x with sdhLost := b })
/-- The enabled lanes of a family in group `g`. -/
def familyLanes (s : State) (g : Nat) (eth : Bool) : List Nat :=
  (groupLanes g).filter (fun n => laneEn s n && ethMode (laneMode s n) == eth)
/-- The family PLL of lane `n` is locked. -/
def ownLock (s : State) (n : Nat) : Bool := pllLocked s (laneGroup n) (ethMode (laneMode s n))

/-- LANE_STATUS.PLL_LOCK of every lane of group `g` follows its family PLL (R48). DESIGN CHOICE (log entry 85): it reads 0 on a lane
that is not enabled, whose family follows from no MODE in use. -/
def showLocks (s : State) (g : Nat) : State :=
  (groupLanes g).foldl (fun s n => setLaneBit s n 10 (laneEn s n && ownLock s n)) s

/-- The setting that the enabled Ethernet lanes of group `g` need: 0 E10, 1 E25 (R30). -/
def ethNeed (s : State) (g : Nat) : Nat := match familyLanes s g true with
  | n :: _ => if laneMode s n = 4 then 0 else 1
  | [] => b2n (bget s (gpll g) 4)

/-- The PLLs of group `g` are powered while an enabled lane needs them; a newly powered PLL, and an Ethernet PLL at a new
setting, is not locked yet (R30). -/
def setPlls (s : State) (g : Nat) : State :=
  let needS := !(familyLanes s g false).isEmpty
  let needE := !(familyLanes s g true).isEmpty
  let w := rd s (gpll g)
  let newSet := ethNeed s g
  let lockS := needS && bit w 0 && bit w 1
  let lockE := needE && bit w 2 && bit w 3 && (newSet == b2n (bit w 4))
  let w' := setBit (setBit (setBit (setBit (setBit w 0 needS) 1 lockS) 2 needE) 3 lockE) 4 (newSet == 1)
  let s := wr s (gpll g) w'
  let s := if lockS || !needS then setPllLost s g false (needS && pllLost s g false) else s
  let s := if lockE || !needE then setPllLost s g true (needE && pllLost s g true) else s
  showLocks s g

/-! ### Calibration and re-trim -/

/-- The running eye scan of lane `n` ends with ABORTED and DONE (R42). -/
def abortEye (s : State) (n : Nat) : State :=
  if (laneSt s n).eyeRun then
    let s := editLane s n (fun l => { l with eyeRun := false, eyePaused := false })
    wr s (Reg.laneEyeRes n) (setBit (setBit (rd s (Reg.laneEyeRes n)) 0 true) 2 true)
  else s

/-- A full calibration of lane `n` begins, for descriptor `d` or at start-up (R36, R37, R42). -/
def beginCal (s : State) (n : Nat) (d : Option Nat) : State :=
  let s := abortEye s n
  let s := if laneLive s n then laneEvent s n 9 0 else s
  let s := editLane s n (fun l => { l with calRun := d, calDue := false, back := false, txIdle := l.txIdle || d.isNone })
  let s := setLaneBit (setLaneBit s n 4 false) n 7 true
  setLaneState s n 2

/-- Lane `n` starts: PLL_WAIT, or CAL where its family PLL is locked; a calibration due while a re-trim runs waits for it
(R36, R42). DESIGN CHOICE (log entry 84): FOFS_ALM of a lane that stops or restarts is cleared without FOFS_OFF. -/
def startLane (s : State) (n : Nat) : State :=
  let s := editLane (pcsDown s n) n (fun l => { l with txIdle := true, back := false, calDue := false })
  let s := setLaneBit (setLaneBit (setLaneBit s n 4 false) n 5 false) n 9 false
  if !ownLock s n then setLaneState s n 1
  else if retrimBusy s n then setLaneState (editLane s n (fun l => { l with calDue := true })) n 2
  else beginCal s n none

/-- Results of a LANE_CAL: STATE, CAL_FAIL and TEMP_TRIM (R42). -/
def calResult (s : State) (n : Nat) : Word :=
  let st := laneState s n
  w32 (st + (if st = 5 then 8 else 0) + 256 * tempTrim s n)

/-- A re-trim of lane `n` begins: TEMP_TRIM takes the reading, RETRIM is raised, a running eye scan pauses (R39, R42). DESIGN CHOICE (log entry
122): R48 does not say whether TRIM_COUNT counts a re-trim at its start or at its end; here at its start. -/
def startRetrim (s : State) (n : Nat) (d : Option Nat) : State :=
  let old := tempTrim s n
  let new := laneTemp s n
  let c := fget s (Reg.laneStatus n) 23 16
  let s := editGroup s (laneGroup n) (fun g => { g with retrimRun := some n, retrimFor := d })
  let s := setLaneBit s n 8 true
  let s := fset (fset s (Reg.laneStatus n) 23 16 (min 255 (c + 1))) (Reg.laneStatus n) 31 24 new
  let s := editLane s n (fun l => { l with eyePaused := l.eyeRun })
  let s := match d with
    | some i => setDesc s i 2
    | none => s
  laneEvent s n 5 (w32 (old + 256 * new))

/-- The waiting lane with the lowest number that may still be re-trimmed (R39). -/
def nextRetrim (s : State) (g : Nat) : Option (Nat × Option Nat) :=
  (groupSt s g).retrimWait.foldl (fun best p =>
    if laneEn s p.1 && !calBusy s p.1 then
      match best with
      | some b => if p.1 < b.1 then some p else best
      | none => some p
    else best) none

/-- The next waiting lane of group `g` starts its re-trim (R39). -/
def serveRetrim (s : State) (g : Nat) : State :=
  match nextRetrim s g with
  | some p =>
    startRetrim (editGroup s g (fun x => { x with retrimWait := x.retrimWait.filter (fun q => q != p) })) p.1 p.2
  | none => s

/-- A re-trim of lane `n` becomes due: at once where the group runs none, else it waits; while a full calibration runs it
is dropped unless a descriptor asked for it (R39, R42). -/
def dueRetrim (s : State) (n : Nat) (d : Option Nat) : State :=
  let g := laneGroup n
  if calBusy s n ∧ d.isNone then s
  else if (groupSt s g).retrimRun.isNone ∧ !calBusy s n then startRetrim s n d
  else if d.isNone ∧ ((groupSt s g).retrimWait.any (fun p => p.1 == n) ∨ (groupSt s g).retrimRun = some n) then s
  else editGroup s g (fun x => { x with retrimWait := x.retrimWait ++ [(n, d)] })

/-- The re-trim that runs in group `g` ends, and the next waiting lane starts (R39). -/
def endRetrim (s : State) (g n us : Nat) : State :=
  let d := (groupSt s g).retrimFor
  let s := editGroup s g (fun x => { x with retrimRun := none, retrimFor := none })
  let s := setLaneBit s n 8 false
  let s := editLane s n (fun l => { l with eyePaused := false })
  let s := match d with
    | some i => completeOk s i (calResult s n) (w32 us)
    | none => s
  let s := if (laneSt s n).calDue then beginCal s n none else s
  serveRetrim s g

/-- Lane `n` stops: transmitter idle, every condition of the lane gone, and the descriptors that waited for it complete
(R36, R42, R48). DESIGN CHOICE (log entry 83): the spec does not say how what runs on a lane ends when EN is cleared; here a LANE_CAL
ADAPT or RETRIM that runs completes OK with run time 0, and an eye scan that runs ends with ABORTED and DONE, as R42 has it for a full
calibration. -/
def stopLane (s : State) (n : Nat) : State :=
  let g := laneGroup n
  let s := pcsDown (abortEye s n) n
  let w := rd s (Reg.laneStatus n)
  let s := wr s (Reg.laneStatus n) (setFld (setFld w 10 7 0) 5 0 0)
  let s := editLane s n (fun l => { l with txIdle := true, calDue := false, back := false, atLimit := [] })
  let ds := (groupSt s g).retrimWait.filterMap (fun p => if p.1 = n then p.2 else none)
  let s := editGroup s g (fun x => { x with retrimWait := x.retrimWait.filter (fun p => p.1 != n) })
  let s := ds.foldl invalidOpen s
  let s := match (laneSt s n).boost with
    | some d => completeOk (editLane s n (fun l => { l with boost := none })) d (calResult s n) 0
    | none => s
  if (groupSt s g).retrimRun = some n then endRetrim s g n 0 else s

/-! ### LANE_CTL writes -/

/-- The live-guarded fields of LANE_CTL (R34): every field but FORCE_LIVE. -/
def ctlGuarded : Word := 0xF7F

/-- A LANE_CTL word that no state admits: a reserved mode or loopback, or FEC outside MODE 5 (R29, R45, R48). -/
def ctlBad (v : Word) : Bool := decide (8 ≤ ctlMode v) || fld v 6 5 == 3 || (bit v 10 && ctlMode v != 5)

/-- The quad rules refuse the write: MODE 7 is the device's, MODE 6 belongs to the first lane of a quad with no other lane
enabled (R31). DESIGN CHOICE (log entry 123): a write of MODE 6 with EN 0 to lane 4q while that lane itself is enabled in another mode is
accepted; R31 names only the case in which no lane of the quad is enabled. -/
def quadRefuses (s : State) (n : Nat) (v : Word) : Bool :=
  ctlMode v == 7 || (ctlMode v == 6 && (n % 4 != 0 ||
    (!quadRuns s n && (rangeFrom (n + 1) 3).any (laneEn s))))

/-- The Ethernet PLL setting refuses the write: another enabled Ethernet lane of the group, a quad counting as one lane,
holds the other setting (R30). -/
def settingRefuses (s : State) (n : Nat) (v : Word) : Bool :=
  ctlEn v && ethMode (ctlMode v) && ((laneCtl s n ^^^ v) &&& 0x1F != 0) &&
    (groupLanes (laneGroup n)).any (fun k =>
      k != n && !(quadRuns s n && quadFirst k == quadFirst n) && laneEn s k && ethMode (laneMode s k) &&
        ((laneMode s k == 4) != (ctlMode v == 4)))

/-- The live guard refuses a change of LANE_CTL (R34). -/
def guardRefuses (s : State) (n : Nat) (v : Word) : Bool :=
  guarded s && !bit v 7 && ((laneCtl s n ^^^ v) &&& ctlGuarded != 0) && laneLive s n

/-- FORCED_OP where a destructive change begins on a live lane (R35). -/
def forcedOps (s : State) (n : Nat) (old v : Word) : State :=
  let live := laneLive s n
  let s := if live ∧ fld (old ^^^ v) 6 5 ≠ 0 ∧ fld v 6 5 ≠ 0 then laneEvent s n 9 1 else s
  if live ∧ (old ^^^ v) &&& 0x71E ≠ 0 then laneEvent s n 9 3 else s

/-- Lane `n`, whose LANE_CTL was `old`, starts, restarts or stops as its LANE_CTL now says; a lane that
starts in MODE 0 to 3 starts its paths anew (R36, R48, R78). -/
def followCtl (s : State) (n : Nat) (old : Word) : State :=
  let v := laneCtl s n
  if !ctlEn v then (if ctlEn old then stopLane s n else s)
  else if !ctlEn old || ctlMode old != ctlMode v then
    startLane (if ethMode (ctlMode v) then s else freshLane s n) n
  else s

/-- The other lanes of a quad that starts or ends with this write (R31). -/
def followQuad (s : State) (n : Nat) (old v : Word) : State :=
  let was := ctlEn old && ctlMode old == 6
  let is := ctlEn v && ctlMode v == 6
  if was == is then s
  else (rangeFrom (n + 1) 3).foldl (fun s k =>
    wr s (Reg.laneCtl k) (setFld (laneCtl s k) 4 0 (if is then 15 else 0))) s

/-- A lane among those that held the words `olds` has lost EN (R409). -/
def groupIdles (s : State) (n : Nat) (olds : List (Nat × Word)) : State :=
  if olds.any (fun p => ctlEn p.2 && !laneEn s p.1) then idleMark s (laneGroup n) else s

/-- An admitted LANE_CTL write takes effect (R30, R31, R35, R36). -/
def acceptCtl (s : State) (n : Nat) (v : Word) : State :=
  let old := laneCtl s n
  let s0 := s
  let s := forcedOps s n old v
  let olds := (rangeFrom (quadFirst n) 4).map (fun k => (k, laneCtl s k))
  let s := wr s (Reg.laneCtl n) (v &&& 0xFFF)
  let s := if n % 4 = 0 then followQuad s n old v else s
  let s := setPlls s (laneGroup n)
  let s := olds.foldl (fun s p => followCtl s p.1 p.2) (laneMapChange s olds)
  let s := olds.foldl (fun s p => if laneLat s p.1 = laneLat s0 p.1 then s else laneEvent s p.1 0x37 (laneLat s p.1)) s
  groupIdles (orphanCheck s0 s) n olds

/-- A LANE_CTL write to a member of a running quad: one that names MODE 6, or the device's own MODE 7, is ignored as a whole;
otherwise FORCE_LIVE, LOOP, TX_INV and RX_INV take effect, and the rest is ignored and counted (R29, R31). -/
def memberCtl (s : State) (n : Nat) (v : Word) : State :=
  let old := laneCtl s n
  let new := (old &&& ~~~ (0x3E0 : Word)) ||| (v &&& 0x3E0)
  if 6 ≤ ctlMode v ∨ fld v 6 5 = 3 ∨ guardRefuses s n new then ignoredWrite s (Reg.laneCtl n)
  else
    let s := acceptCtl s n new
    if (old ^^^ v) &&& 0xC1F ≠ 0 then ignoredWrite s (Reg.laneCtl n) else s

/-- The write starts a quad, which takes every index of its other lanes away, and a gather names one of them (R31, R168). -/
def quadTakes (s : State) (n : Nat) (v : Word) : Bool :=
  ctlEn v && ctlMode v == 6 && !quadRuns s n && (rangeFrom (n + 1) 3).any (fun k => gatherBlocksLane s k 0)

/-- A LANE_CTL write is checked against the state in force and takes effect, or is ignored as a whole (R29 to R31, R34,
R168). -/
def applyCtl (s : State) (n : Nat) (v : Word) : State :=
  if ctlBad v then ignoredWrite s (Reg.laneCtl n)
  else if quadMember s n then memberCtl s n v
  else if quadRefuses s n v || settingRefuses s n v || guardRefuses s n v ||
      gatherBlocksLane s n (modeCapacity (ctlMode v)) || quadTakes s n v then ignoredWrite s (Reg.laneCtl n)
  else acceptCtl s n v

/-- A full calibration runs that a LANE_CTL write of lane `n` would cut short: the lane's own, or, where the write starts or ends a
quad, that of another lane of it (DEDUCED from the last sentence of R43, log entry 86). -/
def ctlBusy (s : State) (n : Nat) (v : Word) : Bool :=
  calBusy s n || (n % 4 == 0 && (quadRuns s n != (ctlEn v && ctlMode v == 6)) && (rangeFrom (n + 1) 3).any (calBusy s))

/-- A LANE_CTL write that changes EN, MODE or FEC while a full calibration runs is held whole; the last one stays (R43). -/
def ctlWrite (s : State) (n : Nat) (v : Word) : State :=
  if ctlBusy s n v ∧ (laneCtl s n ^^^ v) &&& 0x41F ≠ 0 then editLane s n (fun l => { l with heldCtl := some (v &&& 0xFFF) })
  else applyCtl s n v

/-- LANE_CTL_WRITE (R34, R43, R410). -/
def execLaneCtlWrite (lane : LaneId) (v : Word) (s : State) : Out :=
  .next (domainWrite s (laneGroup lane) (Reg.laneCtl lane) v (fun s => ctlWrite s lane v))

/-- LANE_CTL_HELD_RELEASE: once the calibration has ended, the held write is checked and applied, or ignored (R43). -/
def execLaneCtlHeldRelease (lane : LaneId) (s : State) : Out :=
  .next (match (laneSt s lane).heldCtl with
    | some v =>
      if ctlBusy s lane v then s
      else applyCtl (editLane s lane (fun l => { l with heldCtl := none })) lane v
    | none => s)

/-! ### Start-up and service -/

/-- LANE_PLL_LOCKED: the family PLL is locked and the lane, in PLL_WAIT, enters CAL (R36). -/
def execLanePllLocked (lane : LaneId) (s : State) : Out :=
  let g := laneGroup lane
  let e := ethMode (laneMode s lane)
  .next (
    if laneState s lane = 1 ∧ laneEn s lane ∧ !pllLost s g e ∧ !(laneSt s lane).back then
      let s := showLocks (bset s (gpll g) (if e then 3 else 1) true) g
      if retrimBusy s lane then setLaneState (editLane s lane (fun l => { l with calDue := true })) lane 2
      else beginCal s lane none
    else s)

/-- RXEQ as the lane's mode shows it: DFE taps read 0 on oversampled lanes (R48). -/
def shownEq (s : State) (n : Nat) (eq : Word) : Word :=
  if oversampled (laneMode s n) then eq &&& 0xF else eq &&& 0x7FFFFFFF

/-- Equalizer value `i` (0 CTLE, 1 to 5 a DFE tap) is at an end of its range (R38, R48). -/
def eqAtEnd (eq : Word) (i : Nat) : Bool := match i with
  | 0 => fld eq 3 0 == 0 || fld eq 3 0 == 15
  | 1 => fld eq 9 4 == 31 || fld eq 9 4 == 32
  | 2 => fld eq 15 10 == 31 || fld eq 15 10 == 32
  | 3 => fld eq 20 16 == 15 || fld eq 20 16 == 16
  | 4 => fld eq 25 21 == 15 || fld eq 25 21 == 16
  | _ => fld eq 30 26 == 15 || fld eq 30 26 == 16

/-- LANE_RXEQ shows new values in force; a value that has left the end of its range may be reported again (R38). -/
def setEq (s : State) (n : Nat) (eq : Word) : State :=
  let e := shownEq s n eq
  editLane (wr s (Reg.laneRxeq n) e) n (fun l => { l with atLimit := l.atLimit.filter (eqAtEnd e) })

/-- LANE_CAL_END: the full calibration ends in ACQ, or in CAL_FAIL with the value out of range named; `sig` says whether energy is
present at the receive balls (R36, R37, R48, R49). -/
def execLaneCalEnd (lane : LaneId) (fail : Option (Fin 5)) (eq us : Word) (sig : Bool) (s : State) : Out :=
  .next (
    if calBusy s lane then
      let d := (laneSt s lane).calRun
      let s := fset (setLaneBit (setLaneBit s lane 7 false) lane 3 sig) (Reg.laneStatus lane) 23 16 0
      let g := laneGroup lane
      let s := editGroup s g (fun x => { x with retrimWait := x.retrimWait.filter (fun p => p.1 != lane.val || p.2.isSome) })
      let s := match fail with
        | none =>
          let s := setEq (fset s (Reg.laneStatus lane) 31 24 (laneTemp s lane)) lane eq
          let s := editLane (setLaneState s lane 3) lane (fun l => { l with calRun := none, txIdle := false })
          laneEvent s lane 1 us
        | some i =>
          let s := editLane (setLaneState s lane 5) lane (fun l => { l with calRun := none, txIdle := true })
          laneEvent s lane 2 (w32 i.val)
      let s := match d with
        | some i => completeOk s i (calResult s lane) us
        | none => s
      if (groupSt s g).retrimRun.isNone then serveRetrim s g else s
    else s)

/-- LANE_CDR_LOCK: the lane leaves ACQ for UP (R36, R49). -/
def execLaneCdrLock (lane : LaneId) (s : State) : Out :=
  .next (
    if laneState s lane = 3 then
      let s := setLaneBit (setLaneBit (setLaneBit (setLaneState s lane 4) lane 3 true) lane 4 true) lane 5 false
      laneEvent s lane 4 0
    else s)

/-- LANE_CDR_UNLOCK: the lane leaves UP for ACQ; `sig` says whether energy is still present at the receive balls (R36, R48, R49). -/
def execLaneCdrUnlock (lane : LaneId) (sig : Bool) (s : State) : Out :=
  .next (
    if laneState s lane = 4 then
      laneEvent (setLaneBit (setLaneBit (setLaneState s lane 3) lane 4 false) lane 3 sig) lane 3 0
    else s)

/-- ADAPT_CONVERGED: ADAPT_DONE is set in UP (R36). -/
def execAdaptConverged (lane : LaneId) (eq : Word) (s : State) : Out :=
  .next (if laneState s lane = 4 then setLaneBit (setEq s lane eq) lane 5 true else s)

/-- ADAPT_LIMIT: a value at the end of its range for 1 s is reported once until it has left that end (R38). -/
def execAdaptLimit (lane : LaneId) (value : Fin 6) (eq : Word) (s : State) : Out :=
  .next (
    if laneState s lane = 4 then
      let s := setEq s lane eq
      if eqAtEnd (rd s (Reg.laneRxeq lane)) value ∧ !(laneSt s lane).atLimit.contains value.val ∧
          (value.val = 0 ∨ !oversampled (laneMode s lane)) then
        laneEvent (editLane s lane (fun l => { l with atLimit := setIns l.atLimit value })) lane 10 (w32 value.val)
      else s
    else s)

/-- LANE_TEMP_CHECK: a difference of 8 degrees or more between sensor and TEMP_TRIM queues a re-trim (R39). DESIGN CHOICE (log entry
82): R39 does not say in which states of the lane the check runs; here only in ACQ and UP, where the lane has been calibrated. -/
def execLaneTempCheck (lane : LaneId) (s : State) : Out :=
  let diff := iabs (sgn 8 (laneTemp s lane) - sgn 8 (tempTrim s lane))
  .next (if (laneState s lane = 3 ∨ laneState s lane = 4) ∧ 8 ≤ diff then dueRetrim s lane none else s)

/-- RETRIM_END: the re-trim finishes and the group's next waiting lane starts (R39). -/
def execRetrimEnd (lane : LaneId) (us : Word) (s : State) : Out :=
  .next (if (groupSt s (laneGroup lane)).retrimRun = some lane.val then endRetrim s (laneGroup lane) lane us.toNat else s)

/-- The offset alarm threshold in 0.01 ppm, rising and falling (R40). -/
def fofsLimit (s : State) (n : Nat) : Nat × Nat := if ethMode (laneMode s n) then (10000, 9500) else (2000, 1800)

/-- LANE_FOFS_MEASURE: every 100 ms LANE_FOFS takes the offset of a locked lane and the alarm may rise; an enabled lane that is not in UP
shows whether energy is present at its receive balls (R40, R48). -/
def execLaneFofsMeasure (lane : LaneId) (ofs : BitVec 16) (sig : Bool) (s : State) : Out :=
  .next (
    if laneState s lane ≠ 0 ∧ laneState s lane ≠ 4 then setLaneBit s lane 3 sig
    else if bget s (Reg.laneStatus lane) 4 then
      let s := wr s (Reg.laneFofs lane) (w32 ofs.toNat)
      if (fofsLimit s lane).1 < iabs ofs.toInt ∧ !bget s (Reg.laneStatus lane) 9 then
        laneEvent (setLaneBit s lane 9 true) lane 6 (w32 ofs.toNat)
      else s
    else s)

/-- FOFS_OFF: the offset alarm clears after a second below its lower threshold (R40). -/
def execFofsOff (lane : LaneId) (s : State) : Out :=
  let v := fget s (Reg.laneFofs lane) 15 0
  .next (
    if bget s (Reg.laneStatus lane) 9 ∧ iabs (sgn 16 v) < (fofsLimit s lane).2 then
      laneEvent (setLaneBit s lane 9 false) lane 7 (w32 v)
    else s)

/-- GROUP_PLL_UNLOCK: PLL_LOCK reads 0 and every enabled lane of the family raises PLL_UNLOCK; traffic goes on (R41). -/
def execGroupPllUnlock (group : GroupId) (eth : Bool) (s : State) : Out :=
  .next (
    if pllLocked s group eth then
      let s := setPllLost (bset s (gpll group) (if eth then 3 else 1) false) group eth true
      (familyLanes s group eth).foldl (fun s n => laneEvent s n 8 (w32 (b2n eth))) (showLocks s group)
    else s)

/-- PLL_RELOCK_TIMEOUT: after 10 ms without lock the family's lanes enter PLL_WAIT with their transmitters idle (R41). -/
def execPllRelockTimeout (group : GroupId) (eth : Bool) (s : State) : Out :=
  .next (
    if pllLost s group eth then
      ((familyLanes s group eth).filter (fun n => laneState s n == 3 || laneState s n == 4)).foldl (fun s n =>
        let s := setLaneBit (setLaneState s n 1) n 4 false
        editLane s n (fun l => { l with back := true, txIdle := true })) s
    else s)

/-- GROUP_PLL_RELOCK: the lanes that went to PLL_WAIT return through ACQ without calibration (R41). -/
def execGroupPllRelock (group : GroupId) (eth : Bool) (s : State) : Out :=
  .next (
    if pllLost s group eth then
      let s := setPllLost (bset s (gpll group) (if eth then 3 else 1) true) group eth false
      ((familyLanes s group eth).filter (fun n => (laneSt s n).back)).foldl (fun s n =>
        editLane (setLaneState s n 3) n (fun l => { l with back := false, txIdle := false })) (showLocks s group)
    else s)

/-! ### LANE_CAL -/

/-- LANE of a LANE_CAL descriptor (R42). -/
def calLane (d : Desc) : Nat := fld (d.w 6) 6 0
/-- KIND of a LANE_CAL descriptor (R42). -/
def calKind (d : Desc) : Nat := fld (d.w 6) 9 8

/-- The LANE_CAL waits: its lane is in PLL_WAIT, or a calibration or re-trim of it runs (R42). DESIGN CHOICE (log entry 121): a running ADAPT is
no calibration that a FULL or RETRIM waits for; R42 does not say. -/
def calWaits (s : State) (n : Nat) : Bool := laneState s n == 1 || calBusy s n || retrimBusy s n || (laneSt s n).calDue

/-- A LANE_CAL descriptor of kind `kind` is taken: kind 3 or a disabled lane completes INVALID, a lane that must be waited
for leaves it waiting, and `run` begins its work (R42). -/
def takeCal (s : State) (id kind : Nat) (run : State → Desc → Nat → State) : State :=
  match takeDesc s id 0x22 with
  | none => s
  | some d =>
    let n := calLane d
    if calKind d = 3 then invalidOpen s id
    else if calKind d ≠ kind then s
    else if !laneEn s n then invalidOpen s id
    else if calWaits s n then s
    else run s d n

/-- LANE_CAL_FULL: a full calibration, refused on a live lane in SERVICE or RECOVERY without FORCE_LIVE (R42). -/
def execLaneCalFull (d : Nat) (s : State) : Out :=
  .next (takeCal s d 0 (fun s x n =>
    if guarded s ∧ !bit (laneCtl s n) 7 ∧ laneLive s n then complete s x.id 9 (calResult s n) 0
    else beginCal (setDesc s x.id 2) n (some x.id)))

/-- LANE_CAL_ADAPT: adaptation restarts with the raised step limit (R42). -/
def execLaneCalAdapt (d : Nat) (s : State) : Out :=
  .next (takeCal s d 1 (fun s x n =>
    if (laneSt s n).boost.isSome then s
    else editLane (setDesc s x.id 2) n (fun l => { l with boost := some x.id })))

/-- ADAPT_BOOST_END: the 100 ms end and the descriptor completes with the run time (R42). -/
def execAdaptBoostEnd (lane : LaneId) (us : Word) (s : State) : Out :=
  .next (match (laneSt s lane).boost with
    | some d => completeOk (editLane s lane (fun l => { l with boost := none })) d (calResult s lane) us
    | none => s)

/-- LANE_CAL_RETRIM: a re-trim at once, or after those of the group that run and wait (R39, R42). -/
def execLaneCalRetrim (d : Nat) (s : State) : Out :=
  .next (takeCal s d 2 (fun s x n => dueRetrim (setDesc s x.id 1) n (some x.id)))

/-! ### Test facilities -/

/-- A LANE_PRBS write: reserved patterns and a guarded change of GEN_EN are ignored; a new checker pattern or a stopped
checker loses lock, and a new generator pattern, or a generator that starts, begins from its seed (R34, R35, R46, R48). -/
def prbsWrite (s : State) (n : Nat) (v : Word) : State :=
  let off := Reg.lanePrbs n
  let old := rd s off
  if fld v 2 0 = 7 ∨ fld v 5 3 = 7 then ignoredWrite s off
  else if guarded s ∧ !bit (laneCtl s n) 7 ∧ bit old 6 ≠ bit v 6 ∧ laneLive s n then ignoredWrite s off
  else
    let s := if !bit old 6 ∧ bit v 6 ∧ laneLive s n then laneEvent s n 9 2 else s
    let keepC := bit v 7 && fld old 5 3 == fld v 5 3
    let keepG := bit old 6 && fld old 2 0 == fld v 2 0
    let s := wr s off (setBit (v &&& 0xFF) 8 (bit old 8 && keepC))
    editLane s n (fun l => { l with
      chk := if keepC then l.chk else {}
      gen := if keepG then l.gen else {}
      errInj := bit v 6 && (l.errInj || bit v 9) })

/-- PRBS_ERR_INJ: the LANE_PRBS write that carries ERR_INJ (R48). -/
def execPrbsErrInj (lane : LaneId) (v : Word) (s : State) : Out :=
  .next (domainWrite s (laneGroup lane) (Reg.lanePrbs lane) v (fun s => prbsWrite s lane v))

/-- The user pattern of lane `n` (R46). -/
def userPattern (s : State) (n : Nat) : Nat :=
  (rd s (Reg.lanePrbsPatLo n)).toNat + 2 ^ 32 * (rd s (Reg.lanePrbsPatHi n)).toNat

/-- Bytes with every bit inverted where `b` holds (R48). -/
def polarity (b : Bool) (l : List Byte) : List Byte := if b then l.map (fun x => ~~~x) else l

/-- The loopback in force on lane `n`: near-end while part 6 of a SELFTEST runs, else LANE_CTL.LOOP (R45, R399). -/
def loopOf (s : State) (n : Nat) : Nat := if testPart s = some 6 then 1 else fld (laneCtl s n) 6 5

/-- What the receive sampler of lane `n` takes when `balls` arrives at the balls: in near-end loopback what the serializer sent in
the last frame, else the balls with their polarity (R45, R48). DESIGN CHOICE (log entry 120): TX_INV and RX_INV act at the balls, and neither
inside the near-end loop; R45 does not say. -/
def sampled (s : State) (n : Nat) (balls : List Byte) : List Byte :=
  if loopOf s n = 1 then (laneSt s n).serOut else polarity (bit (laneCtl s n) 9) balls

/-- The loopback of a MAC's whole signal: of a running quad, the loopback that its four lanes share, and 3 where they differ, so that no whole
frame goes through any of them (R31, R45; DEDUCED, log entry 132). -/
def macLoop (s : State) (n : Nat) : Nat :=
  if quadRuns s n && (rangeFrom (n + 1) 3).any (fun k => loopOf s k != loopOf s n) then 3 else loopOf s n

/-- What lane `n` itself transmits reaches the balls: the transmitter is not squelched and no far-end loopback replaces it, on a quad of any of
its lanes (R45, R48). -/
def ballsOpen (s : State) (n : Nat) : Bool :=
  !bit (laneCtl s n) 11 && loopOf s n != 2 && (macLoop s n != 3 || (rangeFrom (n + 1) 3).all (fun k => loopOf s k != 2))
/-- A PRBS replaces the transmit data of lane `n`: its generator's, or that of part 6 of a SELFTEST (R46, R399). -/
def genOn (s : State) (n : Nat) : Bool := bget s (Reg.lanePrbs n) 6 || testPart s == some 6
/-- A PRBS replaces transmit data of a MAC's signal: on lane `n`, or on any lane of its running quad (R46). -/
def macGen (s : State) (n : Nat) : Bool := genOn s n || (quadRuns s n && (rangeFrom (n + 1) 3).any (genOn s))
/-- The pattern that lane `n` generates: PRBS31 in part 6 of a SELFTEST (R46, R399). -/
def genPattern (s : State) (n : Nat) : Nat := if testPart s = some 6 then 4 else fget s (Reg.lanePrbs n) 2 0

/-- PRBS_LOCK_CHANGE: an enabled checker goes through the bytes received since the last such command; it gains and loses lock, and
counts bits and errors while it is locked (R46). -/
def execPrbsLockChange (lane : LaneId) (balls : List Byte) (s : State) : Out :=
  let w := rd s (Reg.lanePrbs lane)
  .next (
    if !bit w 7 then s
    else
      let r := checkBits (fld w 5 3) (userPattern s lane) (laneSt s lane).chk (bit w 8) (bytesBits (sampled s lane balls))
      let t := (laneSt s lane).prbsFrac + r.bits
      let s := count (count s (Reg.lanePrbsErr lane) (r.errs % 2 ^ 32)) (Reg.lanePrbsBits lane)
        (t / 1024 % 2 ^ 32)
      bset (editLane s lane (fun l => { l with prbsFrac := t % 1024, chk := r.x })) (Reg.lanePrbs lane) 8 r.lock)

/-- A LANE_EYE_CTL write; START runs one point, or shows NA at once on a lane that is oversampled or not in UP (R47, R48). -/
def eyeWrite (s : State) (n : Nat) (v : Word) : State :=
  let off := Reg.laneEyeCtl n
  if bit v 31 ∧ ((laneSt s n).eyeRun ∨ fld v 19 14 < 10 ∨ 40 < fld v 19 14) then ignoredWrite s off
  else
    let s := wr s off (v &&& 0xFFFFF)
    if !bit v 31 then s
    else
      let r := setFld (rd s (Reg.laneEyeRes n)) 2 0 0
      if oversampled (laneMode s n) ∨ laneState s n ≠ 4 then wr s (Reg.laneEyeRes n) (setFld r 1 0 3)
      else editLane (wr s (Reg.laneEyeRes n) r) n (fun l => { l with eyeRun := true, eyePaused := retrimBusy s n })

/-- EYE_SCAN_START (R47). -/
def execEyeScanStart (lane : LaneId) (v : Word) (s : State) : Out :=
  .next (domainWrite s (laneGroup lane) (Reg.laneEyeCtl lane) v (fun s => eyeWrite s lane v))

/-- EYE_SCAN_DONE: the dwell ends; a paused scan's dwell ends later (R42, R47). -/
def execEyeScanDone (lane : LaneId) (errs : Nat) (s : State) : Out :=
  .next (
    if (laneSt s lane).eyeRun ∧ !(laneSt s lane).eyePaused then
      let r := setFld (setBit (rd s (Reg.laneEyeRes lane)) 0 true) 31 8 (min errs 0xFFFFFF)
      editLane (wr s (Reg.laneEyeRes lane) r) lane (fun l => { l with eyeRun := false })
    else s)

/-- EYE_SUM_REFRESH: the margin monitor's figures; 0 on an oversampled lane (R47). -/
def execEyeSumRefresh (lane : LaneId) (height : BitVec 8) (width : BitVec 7) (s : State) : Out :=
  .next (
    if laneEn s lane then
      wr s (Reg.laneEyeSum lane)
        (if oversampled (laneMode s lane) then 0 else w32 (height.toNat + 256 * width.toNat))
    else s)

/-- A LANE_TXFIR write: taps that sum above 63 are ignored (R48). -/
def txfirWrite (s : State) (n : Nat) (v : Word) : State :=
  if 63 < fld v 3 0 + fld v 9 4 + fld v 14 10 then ignoredWrite s (Reg.laneTxfir n)
  else wr s (Reg.laneTxfir n) (v &&& 0x7FFF)

end Sys2Proof.Machine
end

