-- ==== Sys2Proof/Machine/Hdlc.lean ====
section
/-! DEFINITION. The D-byte streams of host-mode DCC channels: HDLC flags, zero-bit insertion and check sequences
(03_sdh_framing_overhead.md, R66, R67). -/

namespace Sys2Proof.Machine

/-- The running state of DCC channel `c`. -/
def dcc (s : State) (c : Nat) : DccSt := Tab.get s.dccs c {}
/-- The running state of DCC channel `c` changed by `f`. -/
def editDcc (s : State) (c : Nat) (f : DccSt → DccSt) : State := { s with dccs := Tab.edit s.dccs c {} f }
/-- LANE of a channel word (R72). -/
def dccLane (v : Word) : Nat := fld v 8 2

/-- One bit of the reflected FCS-16 (R66). -/
def fcs16Bit (c : BitVec 16) : BitVec 16 := if c.getLsbD 0 then (c >>> 1) ^^^ 0x8408 else c >>> 1
/-- One byte of the FCS-16. -/
def fcs16Byte (c : BitVec 16) (b : Byte) : BitVec 16 :=
  let x := c ^^^ b.setWidth 16
  fcs16Bit (fcs16Bit (fcs16Bit (fcs16Bit (fcs16Bit (fcs16Bit (fcs16Bit (fcs16Bit x)))))))
/-- The 16-bit FCS over bytes (ISO/IEC 13239, R66). -/
def fcs16 (l : List Byte) : BitVec 16 := ~~~ (l.foldl fcs16Byte 0xFFFF)

/-- The FCS of a frame in the order it is sent: 2 bytes, or 4 with OHP_DCC_CTL.FCS (R66, R72). -/
def fcsOf (wide : Bool) (l : List Byte) : List Byte :=
  if wide then wordBytes (crc32 l)
  else [(fcs16 l).extractLsb' 0 8, (fcs16 l).extractLsb' 8 8]

/-- FCS bytes of a channel word (R66). -/
def fcsLen (v : Word) : Nat := if bit v 30 then 4 else 2

/-- Bits of HDLC octets, the least significant of each first (R66). -/
def octetBits (l : List Byte) : List Bool := l.flatMap (fun b => (List.range 8).map b.getLsbD)

/-- Octets made of bits, the least significant first; a last group of fewer than eight is filled with zeros. -/
def bitsOctets : List Bool → List Byte
  | [] => []
  | a :: b :: c :: d :: e :: f :: g :: h :: r => BitVec.ofNat 8 (bitsNat [h, g, f, e, d, c, b, a]) :: bitsOctets r
  | l => [BitVec.ofNat 8 (bitsNat l.reverse)]

/-- The flag 0x7E as it is sent (R66). -/
def flagBits : List Bool := [false, true, true, true, true, true, true, false]

/-- Zero-bit insertion: a 0 follows five ones in a row, of which `n` have been sent (R66). -/
def stuffBits (n : Nat) : List Bool → List Bool
  | [] => []
  | b :: r =>
    if !b then false :: stuffBits 0 r
    else if n = 4 then true :: false :: stuffBits 0 r
    else true :: stuffBits (n + 1) r

/-- The bits of a frame with its FCS, between an opening and a closing flag (R66). -/
def hdlcBits (wide : Bool) (l : List Byte) : List Bool :=
  flagBits ++ stuffBits 0 (octetBits (l ++ fcsOf wide l)) ++ flagBits

/-- A frame that ends at a flag, if anything stands between the flags; bits that make no whole octets fail it (R66). -/
def endFrame (q : DccSt) : DccSt :=
  let b := q.rxBits.drop 7
  let q := { q with rxOn := true, rxBits := [], rxOnes := 0 }
  if b.isEmpty then q
  else { q with rxDone := q.rxDone ++ [{ bytes := bitsOctets b.reverse, failed := b.length % 8 != 0 }] }

/-- The running frame is given up: it is discarded and counted where anything of it has been received (R66). -/
def dropRx (q : DccSt) (f : HdlcRx) : DccSt :=
  let q' := { q with rxOn := false, rxBits := [] }
  if q.rxOn && decide (7 < q.rxBits.length) then { q' with rxDone := q.rxDone ++ [f] } else q'

/-- One received bit: six ones and a 0 are a flag, five ones and a 0 an inserted 0, and seven ones end the frame (R66). What stands
before the first flag is no frame; of a frame longer than the longest the further bits are not kept. -/
def hdlcBit (q : DccSt) (b : Bool) : DccSt :=
  let keep := if !q.rxOn || decide (12872 ≤ q.rxBits.length) then q.rxBits else b :: q.rxBits
  if b then
    if 6 ≤ q.rxOnes then { dropRx q { abort := true } with rxOnes := 7 } else { q with rxBits := keep, rxOnes := q.rxOnes + 1 }
  else if q.rxOnes = 6 then (if q.rxOn then endFrame q else { q with rxOn := true, rxBits := [], rxOnes := 0 })
  else if q.rxOnes = 5 then { q with rxOnes := 0 }
  else { q with rxBits := keep, rxOnes := 0 }

/-- The host-mode channels in force on lane `n`. -/
def hostChannels (s : State) (n : Nat) : List Nat :=
  (s.dccs.filter (fun p => bit p.2.ctl 0 && bit p.2.ctl 9 && dccLane p.2.ctl == n)).map (fun p => p.1)

/-- The D bytes of a received frame enter the streams of lane `n`'s host-mode channels: D1 to D3, or D4 to D12, of `oh` (R66). -/
def dccReceive (s : State) (n : Nat) (oh : List Byte) : State :=
  (hostChannels s n).foldl (fun s c =>
    let b := if bit (dcc s c).ctl 1 then (oh.drop 3).take 9 else oh.take 3
    editDcc s c (fun q => (bytesBits b).foldl hdlcBit q)) s

/-- Lane `n` enters LOS or LOF: a frame that is being received is discarded (R66). -/
def dccLost (s : State) (n : Nat) : State :=
  (hostChannels s n).foldl (fun s c => editDcc s c (fun q => dropRx q { failed := true })) s

/-- The next `k` bits of a channel's stream: the rest of what has begun, then the oldest queued frame if it waits, then flags (R66,
R67). -/
def DccSt.txTake (q : DccSt) (k : Nat) : List Bool × DccSt :=
  let start := !q.opened && decide (q.txBits.length < k)
  match q.txq with
  | (_, b) :: _ =>
    let f := hdlcBits (bit q.ctl 30) b
    let all := if start then q.txBits ++ f else q.txBits
    let left := if start then q.txBits.length + f.length else q.txLeft
    let fill := all ++ (List.range (k / 8 + 1)).flatMap (fun _ => flagBits)
    let rest := if all.length < k then (fill.drop k).take ((8 - (k - all.length) % 8) % 8) else all.drop k
    (fill.take k, { q with txBits := rest, opened := q.opened || start, txLeft := left - k })
  | [] =>
    let fill := q.txBits ++ (List.range (k / 8 + 1)).flatMap (fun _ => flagBits)
    let rest := if q.txBits.length < k then (fill.drop k).take ((8 - (k - q.txBits.length) % 8) % 8) else q.txBits.drop k
    (fill.take k, { q with txBits := rest, txLeft := q.txLeft - k })

end Sys2Proof.Machine
end

