-- ==== Sys2Proof/Machine/Framer.lean ====
section
/-! DEFINITION. SDH and SONET framing, defects, trace, K bytes and line counters (03_sdh_framing_overhead.md, R50 to R62,
R69 to R73). -/

namespace Sys2Proof.Machine

/-- N of STM-N for the lane's mode: 1, 4, 16 or 64; 0 for an Ethernet mode (R29). -/
def stmN (m : Nat) : Nat := match m with
  | 0 => 1
  | 1 => 4
  | 2 => 16
  | 3 => 64
  | _ => 0
/-- N of lane `n` (R29). -/
def laneN (s : State) (n : Nat) : Nat := stmN (laneMode s n)
/-- A frame's length in bits (R53). -/
def frameBits (s : State) (n : Nat) : Nat := 9 * 270 * laneN s n * 8
/-- Lane `n` is enabled in an SDH-family mode. -/
def sdhOn (s : State) (n : Nat) : Bool := laneEn s n && !ethMode (laneMode s n)

/-! ### Defects, masking and consequent actions -/

/-- LANE_FRM_STATUS shows the detectors of lane `n` (R71). -/
def showFrm (s : State) (n : Nat) : State :=
  let d := (frm s n).det
  let w := rd s (Reg.laneFrmStatus n)
  let f := fun (w : Word) (p : Nat × Bool) => setBit w p.1 p.2
  wr s (Reg.laneFrmStatus n)
    ([(1, reported d .lof), (2, reported d .los), (3, reported d .ais), (4, reported d .rdi), (5, reported d .tim),
      (6, reported d .exc), (7, reported d .deg), (8, reported d .psbf), (9, lineSf d (frmCtl s n)),
      (10, lineSd d)].foldl f w)

/-- What the running second has seen so far, from the conditions present now (R70). -/
def noteSecond (s : State) (n : Nat) : State :=
  let d := (frm s n).det
  let ctl := frmCtl s n
  let oof := bget s (Reg.laneFrmStatus n) 0
  editFrm s n (fun x => { x with sec := { x.sec with
    rsDef := x.sec.rsDef || reported d .los || reported d .lof
    oof := x.sec.oof || oof
    msDef := x.sec.msDef || lineSf d ctl
    rdi := x.sec.rdi || reported d .rdi } })

/-- The events of a change of the detectors from `a` to `b`: one for each defect newly reported, and one for each that was
reported and is no longer present; a defect that only becomes masked raises none (R55, R73). -/
def defectEvents (s : State) (n : Nat) (a b : Defects) : State :=
  allDefects.foldl (fun s x =>
    if reported b x && !reported a x then laneEvent s n (defectCause x) 1
    else if reported a x && !b.has x then laneEvent s n (defectCause x) 0
    else s) s

/-- The detectors of lane `n` become `b`: status, events, the second's flags and the protection engine follow (R54 to
R57). -/
def setDefects (s : State) (n : Nat) (b : Defects) : State :=
  let a := (frm s n).det
  if a = b then s
  else
    let s := editFrm s n (fun x => { x with det := b })
    refreshConds (refreshLanePaths (noteSecond (defectEvents (showFrm s n) n a b) n) n)

/-- OOF begins or ends on lane `n`; CAND shows the candidates held (R51 to R53). -/
def showOof (s : State) (n : Nat) (oof : Bool) : State :=
  noteSecond (fset (bset s (Reg.laneFrmStatus n) 0 oof) (Reg.laneFrmStatus n) 14 11 (frm s n).cands.length) n

/-- OOF of lane `n`. -/
def isOof (s : State) (n : Nat) : Bool := bget s (Reg.laneFrmStatus n) 0

/-- LINE_DEFECT_CHANGE is due: the persistence count of R54 has been met. The times of LOS are measured outside the frame, and it
clears only while SIG and CDR_LOCK are 1. -/
def defectDue (s : State) (n : Nat) (x : LineDefect) (present : Bool) : Bool :=
  let f := frm s n
  match x with
  | .los => present || (bget s (Reg.laneStatus n) 3 && bget s (Reg.laneStatus n) 4)
  | .lof => if present then f.lofCnt == 24 else f.inCnt == 24
  | .ais => f.aisRun == 3
  | .rdi => f.rdiRun == 5
  | .psbf => if present then f.k1Win == 12 else f.k1Run == 3
  | .tim | .exc | .deg => false

/-- LINE_DEFECT_CHANGE (R54 to R57). -/
def execLineDefectChange (lane : LaneId) (defect : LineDefect) (present : Bool) (s : State) : Out :=
  .next (
    if sdhOn s lane && (frm s lane).det.has defect != present && defectDue s lane defect present then
      let s := editFrm s lane (fun x => match defect with
        | .ais => { x with aisRun := 0 }
        | .rdi => { x with rdiRun := 0 }
        | .los | .lof => { x with k1Run := 0, k1Win := 0, m1Tx := 0 }
        | _ => x)
      let s := if present && (defect == .los || defect == .lof) then dccLost s lane else s
      setDefects s lane ((frm s lane).det.put defect present)
    else s)

/-! ### BER estimate -/

/-- (1 - exp(-801 / 10^x)) / 2 in units of 10^-24, rounded up: the fraction of B2 bits in violation at a BER of 10^-x
(R58). -/
def berThreshold (x : Nat) : Nat := match x with
  | 3 => 275560070128641506970175
  | 4 => 38487980316287498806255
  | 5 => 3989002716243154931410
  | 6 => 400339642568292043638
  | 7 => 40048396040326009156
  | 8 => 4004983960017826781
  | 9 => 400499839599792827
  | _ => 40049998395997543

/-- B2 bits of a window W_x of a lane at STM-N: 80 frames of 24N bits at x = 3, ten times more for each step of x (R58). -/
def windowBits (x n : Nat) : Nat := 80 * 10 ^ (x - 3) * 24 * n

/-- The estimate over the last ten steps is at least 10^-y, in the window of exponent `x` (R58). -/
def berAtLeast (steps : List Nat) (x y n : Nat) : Bool :=
  decide (berThreshold y * windowBits x n ≤ steps.sum * 10 ^ 24)

/-- The state of a BER detector after a step end: declared at 10^-x, cleared below 10^-(x+1), else kept (R54, R58). -/
def berState (was : Bool) (steps : List Nat) (x n : Nat) : Bool :=
  if berAtLeast steps x x n then true else if berAtLeast steps x (x + 1) n then was else false

/-- The exponent of the EXC or DEG detector (R71). -/
def berExp (ctl : Word) (deg : Bool) : Nat := if deg then 5 + fld ctl 10 8 else 3 + fld ctl 7 6

/-- BER_STEP_END: one step of the window ends and is evaluated over the last ten (R58). -/
def execBerStepEnd (lane : LaneId) (deg : Bool) (s : State) : Out :=
  .next (
    if sdhOn s lane then
      let f := frm s lane
      let x := berExp (frmCtl s lane) deg
      let steps := ((if deg then f.degAcc else f.excAcc) :: (if deg then f.degSteps else f.excSteps)).take 10
      let s := editFrm s lane (fun f =>
        if deg then { f with degSteps := steps, degAcc := 0 } else { f with excSteps := steps, excAcc := 0 })
      let d := f.det
      setDefects s lane (if deg then { d with deg := berState d.deg steps x (laneN s lane) }
        else { d with exc := berState d.exc steps x (laneN s lane) })
    else s)

/-! ### Frame search -/

/-- Candidates whose expected position has passed without a match at bit time `t` are dropped (R51). -/
def dropLate (l : List Cand) (t : Nat) : List Cand := l.filter (fun c => decide (t ≤ c.next))

/-- A frame boundary passes in the search: a candidate that has met two of them since its last match has not been matched for more
than a frame, so its expected position has passed, and it is dropped (R51). -/
def ageCands (l : List Cand) : List Cand :=
  (l.map (fun c => { c with idle := c.idle + 1 })).filter (fun c => decide (c.idle < 3))

/-- Bits from a candidate's frame start to its match at STM-`n` (R51). -/
def startBits (n : Nat) : Nat := 8 * (3 * n - 3)

/-- A match at bit time `t`: a hit of the candidate expected there, or a new candidate while fewer than eight are held and
none is confirmed (R51, R52). -/
def scoreMatch (l : List Cand) (t len : Nat) : List Cand :=
  if l.any (fun c => c.next == t) then
    l.map (fun c => if c.next = t then { c with hits := c.hits + 1, next := t + len, idle := 0 } else c)
  else if l.length < 8 ∧ !l.any (fun c => decide (2 ≤ c.hits)) then l ++ [{ next := t + len, first := t }]
  else l

/-- Candidates with two B1 mismatches in a row are dropped, unless none would remain (R52). -/
def eliminate (l : List Cand) : List Cand :=
  let k := l.filter (fun c => decide (c.run < 2))
  if k.isEmpty then l else k

/-- The candidate with the fewest B1 mismatches, the one sighted first on a tie (R52). -/
def fewestMisses (l : List Cand) : Option Cand :=
  l.foldl (fun b c => match b with
    | none => some c
    | some x => if c.miss < x.miss ∨ (c.miss = x.miss ∧ c.first < x.first) then some c else some x) none

/-- The candidate whose alignment is taken now, if one is (R52). -/
def takenCand (l : List Cand) : Option Cand :=
  if l.any (fun c => decide (c.hits < 2)) then none
  else match l with
    | [] => none
    | [c] => some c
    | l => if l.all (fun c => decide (8 ≤ c.age)) then fewestMisses l else none

/-- The candidates of lane `n` are `l`; if one is to be taken, its alignment is taken and OOF ends (R52). -/
def setCands (s : State) (n : Nat) (l : List Cand) : State :=
  match takenCand l with
  | some c =>
    showOof (editFrm s n (fun f => { f with cands := [], patBad := 0, bip8 := c.bip, bip24 := [] })) n false
  | none => showOof (editFrm s n (fun f => { f with cands := l })) n true

/-- The pattern at the expected position is free of errors (R53). -/
def framePatternOk (l : List Byte) (n : Nat) : Bool :=
  (l.drop (3 * n - 3)).take 6 == [0xF6, 0xF6, 0xF6, 0x28, 0x28, 0x28]

/-- FRAME_PATTERN_MATCH at bit time `t` while out of frame; in any state but UP the receive path presents no signal (R35, R51,
R52). -/
def execFramePatternMatch (lane : LaneId) (t : Nat) (s : State) : Out :=
  .next (
    let own := (laneSt s lane).serOut
    if sdhOn s lane && laneState s lane == 4 && isOof s lane &&
        (loopOf s lane != 1 || framePatternOk own (laneN s lane)) then
      setCands s lane (scoreMatch (dropLate (frm s lane).cands t) t (frameBits s lane))
    else s)

/-- The candidate after its B1 check at a frame: from the first frame after its confirmation on, B1 is compared with the BIP-8 of the
frame before (R52). -/
def checkOne (c : Cand) (bip b1 : Byte) : Cand :=
  if c.hits < 2 then { c with bip := some bip }
  else
    let bad := match c.bip with
      | some p => p != b1
      | none => false
    { c with
      bip := some bip, age := c.age + 1, run := if bad then c.run + 1 else 0
      miss := if bad then c.miss + 1 else c.miss }

/-- B1 elimination: the frame at a candidate's alignment, whose next frame starts at bit time `t`, the candidate's start bits before
its next match (R51, R52). -/
def checkCand (l : List Cand) (start t : Nat) (bip b1 : Byte) : List Cand :=
  eliminate (l.map (fun c => if c.next = t + start then checkOne c bip b1 else c))

/-! ### Trace -/

/-- CRC-7 (x^7 + x^3 + 1) of a 16-byte trace message with its first byte's check bits 0 (R59; G.707). -/
def crc7 (msg : List Byte) : Nat := crcBytes 7 9 0 (0x80 :: msg.drop 1)

/-- A 16-byte message is valid with its start bit and CRC-7, a 64-byte one with 0x0D 0x0A at bytes 62 and 63 (R59). -/
def traceValid (m : Nat) (msg : List Byte) : Bool :=
  if m = 2 then (msg.getD 0 0).toNat == 128 + crc7 msg else m != 3 || msg.drop 62 == [0x0D, 0x0A]

/-- One received trace byte in form `m`: the bytes of the running message, and the message that it completes. A 16-byte message begins
with the byte whose bit 7 is 1, a 64-byte one ends with 0x0D 0x0A (R59). -/
def traceByte (m : Nat) (part : List Byte) (b : Byte) : List Byte × Option (List Byte) :=
  if m = 0 then ([], none)
  else if m = 1 then ([], some [b])
  else if m = 2 then
    let p := if b.getLsbD 7 then [b] else if part.isEmpty then [] else part ++ [b]
    if p.length = 16 then ([], some p) else (p, none)
  else
    let p := (part ++ [b]).drop (part.length - 63)
    if p.length = 64 ∧ p.drop 62 = [0x0D, 0x0A] then ([], some p) else (p, none)

/-- The bytes of a trace array of lane `n`, from the words at `base` (R72). -/
def traceBytes (s : State) (base : Nat → Nat) (n len : Nat) : List Byte :=
  (List.range len).map (fun k => wordByte (rd s (base (16 * n + k / 4))) (k % 4))

/-- A trace is written into the words at `base` (R72). -/
def putTrace (s : State) (base : Nat → Nat) (n : Nat) (msg : List Byte) : State :=
  (List.range ((msg.length + 3) / 4)).foldl (fun s i =>
    wr s (base (16 * n + i)) (bytesWord ((msg.drop (4 * i)).take 4))) s

/-- Two trace messages are equal as the expected trace is compared: on bytes 1 to 15 in 16-byte mode (R59). -/
def traceEq (m : Nat) (a b : List Byte) : Bool := if m = 2 then a.drop 1 == b.drop 1 else a == b

/-! ### A received frame -/

/-- One byte of the x^7 + x^6 + 1 scrambler: the next 8 bits, first the most significant, and the register after them
(R50). -/
def scrByte (reg : Nat) : Nat × Nat :=
  (List.range 8).foldl (fun (p : Nat × Nat) _ =>
    let out := p.2 / 64
    (p.1 * 2 + out, (p.2 * 2) % 128 + (p.2 / 64 + p.2 / 32) % 2)) (0, reg)

/-- Bytes scrambled or descrambled from register `reg` (R50). -/
def scramble (l : List Byte) (reg : Nat) : List Byte := match l with
  | [] => []
  | b :: r =>
    let p := scrByte reg
    (b ^^^ BitVec.ofNat 8 p.1) :: scramble r p.2

/-- The frame after descrambling: the first row's 9N section bytes are not scrambled (R50). -/
def descramble (l : List Byte) (n : Nat) : List Byte := l.take (9 * n) ++ scramble (l.drop (9 * n)) 127

/-- Byte at row `a` (1 to 9) and column `c` (from 0) of a frame at STM-N. -/
def fbyte (l : List Byte) (n a c : Nat) : Byte := l.getD ((a - 1) * 270 * n + c) 0

/-- The B2 parity of a descrambled frame: 3N columns of BIP-8 over every byte but the regenerator-section overhead (R50). -/
def bip24Of (l : List Byte) (n : Nat) : List Byte :=
  (List.range (3 * n)).map (fun k =>
    xorAll ((List.range 810).map (fun i =>
      let pos := 3 * n * i + k
      if pos / (270 * n) < 3 ∧ pos % (270 * n) < 9 * n then 0 else l.getD pos 0)))

/-- Violations between computed and received parity bytes, in bits. -/
def violations (a b : List Byte) : Nat := ((List.zip a b).map (fun p => ones (p.1 ^^^ p.2))).sum

/-- The top of the M1 range for STM-N (R62). -/
def m1Top (n : Nat) : Nat := if n = 1 then 24 else if n = 4 then 96 else 255

/-- D1 to D12, E1, F1 and E2 of a descrambled frame (R50, R65). -/
def overheadOf (l : List Byte) (n : Nat) : List Byte :=
  [fbyte l n 3 0, fbyte l n 3 (3 * n), fbyte l n 3 (6 * n)] ++
    [6, 7, 8].flatMap (fun a => [fbyte l n a 0, fbyte l n a (3 * n), fbyte l n a (6 * n)]) ++
    [fbyte l n 2 (3 * n), fbyte l n 2 (6 * n), fbyte l n 9 (6 * n)]

/-- The pattern check of a frame: four errored patterns in a row declare OOF, and the search starts again (R53). -/
def patternStep (s : State) (n : Nat) (ok : Bool) : State :=
  if ok then editFrm s n (fun f => { f with patBad := 0 })
  else if (frm s n).patBad + 1 < 4 then editFrm s n (fun f => { f with patBad := f.patBad + 1 })
  else
    let s := editFrm s n (fun f => { f with
      patBad := 0, cands := [], inCnt := 0, bip8 := none, bip24 := [], k1Run := 0, k1Win := 0, m1Tx := 0 })
    showOof (count s (Reg.laneOofCnt n) 1) n true

/-- A frame time of 125 µs passes on lane `n`: in any state but UP it presents no signal, so in frame the pattern fails; out of frame it counts
toward LOF, and in the search candidates age (R35, R51, R53, R54). -/
def oofFrame (s : State) (n : Nat) : State :=
  let s := if sdhOn s n && !isOof s n && laneState s n != 4 then patternStep s n false else s
  if sdhOn s n && isOof s n then
    let l := ageCands (frm s n).cands
    let s := editFrm s n (fun f => { f with lofCnt := min 24 (f.lofCnt + 1), inCnt := 0 })
    if l.length = (frm s n).cands.length then editFrm s n (fun f => { f with cands := l }) else setCands s n l
  else s

/-- A frame in frame counts toward the end of LOF (R54). -/
def inFrameStep (s : State) (n : Nat) : State :=
  editFrm s n (fun f =>
    let c := min 24 (f.inCnt + 1)
    { f with inCnt := c, lofCnt := if c = 24 then 0 else f.lofCnt })

/-- B1 of a frame: violations against the BIP-8 of the frame before, not counted in LOS or LOF (R50, R55, R70). -/
def b1Step (s : State) (n : Nat) (bip b1 : Byte) : State :=
  let f := frm s n
  let v := match f.bip8 with
    | some p => ones (p ^^^ b1)
    | none => 0
  let s := editFrm s n (fun f => { f with bip8 := some bip })
  if f.det.los || f.det.lof || v == 0 then s
  else
    let s := count (count s (Reg.laneRsBip n) v) (Reg.laneRsEb n) 1
    editFrm s n (fun f => { f with sec := { f.sec with rsEb := f.sec.rsEb + 1 } })

/-- B2 of a frame, not counted in LOS, LOF or MS-AIS; the violations are returned in M1 (R50, R55, R58, R62, R70). -/
def b2Step (s : State) (n : Nat) (bip b2 : List Byte) : State :=
  let f := frm s n
  let v := violations f.bip24 b2
  let off := f.det.los || f.det.lof || f.det.ais
  let s := editFrm s n (fun f => { f with bip24 := bip, m1Tx := if off then 0 else min v (m1Top (laneN s n)) })
  if off || v == 0 then s
  else
    let s := count (count s (Reg.laneMsBip n) v) (Reg.laneMsEb n) 1
    editFrm s n (fun f => { f with
      excAcc := f.excAcc + v, degAcc := f.degAcc + v, sec := { f.sec with msEb := f.sec.msEb + 1 } })

/-- M1 of a frame (R55, R62, R70). -/
def m1Step (s : State) (n : Nat) (m1 : Nat) : State :=
  let d := (frm s n).det
  if d.los || d.lof || d.ais || m1 == 0 || decide (m1Top (laneN s n) < m1) then s
  else
    let s := count (count s (Reg.laneMsRei n) m1) (Reg.laneMsFeb n) 1
    editFrm s n (fun f => { f with sec := { f.sec with feb := f.sec.feb + 1 } })

/-- S1 of a frame: accepted after 8 identical frames (R60). -/
def s1Step (s : State) (n : Nat) (v : Nat) : State :=
  let w := rd s (Reg.laneS1 n)
  let run := if fld w 15 8 = v then min 8 ((frm s n).s1Run + 1) else 1
  let s := editFrm (wr s (Reg.laneS1 n) (setFld w 15 8 v)) n (fun f => { f with s1Run := run })
  if run = 8 ∧ fld w 7 0 ≠ v then
    laneEvent (fset s (Reg.laneS1 n) 7 0 v) n 0x28 (w32 (v + 256 * fld w 7 0))
  else s

/-- K1 and K2 of a frame: the pair is accepted after 3 identical frames, and the runs of R54 go on; of the window of 12 frames without three
identical K1, the last two frames of such a run are the first (R54, R61). -/
def kStep (s : State) (n : Nat) (k1 k2 : Nat) : State :=
  let w := rd s (Reg.laneK12 n)
  let f := frm s n
  let lost := f.det.los || f.det.lof
  let run := if fld w 23 16 = k1 ∧ fld w 31 24 = k2 then min 3 (f.kRun + 1) else 1
  let k1Run := if fld w 23 16 = k1 ∧ f.k1Run ≠ 0 then min 3 (f.k1Run + 1) else 1
  let ais := k2 % 8 == 7
  let rdi := k2 % 8 == 6
  let s := editFrm (wr s (Reg.laneK12 n) (setFld (setFld w 23 16 k1) 31 24 k2)) n (fun f => { f with
    kRun := run
    aisRun := if ais != f.det.ais then min 3 (f.aisRun + 1) else 0
    rdiRun := if rdi != f.det.rdi then min 5 (f.rdiRun + 1) else 0
    k1Run := if lost then 0 else k1Run
    k1Win := if lost then 0 else if k1Run = 3 then 2 else min 12 (f.k1Win + 1) })
  if run = 3 ∧ (fld w 7 0 ≠ k1 ∨ fld w 15 8 ≠ k2) then
    laneEvent (fset (fset s (Reg.laneK12 n) 7 0 k1) (Reg.laneK12 n) 15 8 k2) n 0x29 (w32 (k1 + 256 * k2))
  else s

/-- The byte `b` comes inside a received J0 message, so that a new J0_MODE is not yet in force: a message of 16 bytes goes on until a byte with
bit 7 set, one of 64 bytes until its end; where none is found in 64 bytes there is no message to wait for (R59, R71; DEDUCED, log entry 133). -/
def j0Inside (f : FrmSt) (b : Byte) : Bool :=
  !f.j0Part.isEmpty && decide (f.j0Part.length < 64) && !(f.j0Mode == 2 && b.getLsbD 7)

/-- A new J0_MODE is in force on receive: nothing of the old form counts (R59, R71). -/
def j0Follow (f : FrmSt) (m : Nat) : FrmSt :=
  if f.j0Mode = m then f
  else { f with j0Mode := m, j0Run := 0, j0Last := [], j0Known := false, j0Part := [], j0Due := [] }

/-- J0 of a frame: the message that it completes is found; a new J0_MODE is in force from a message boundary on (R59, R71). -/
def j0Step (s : State) (n : Nat) (b : Byte) : State :=
  editFrm s n (fun f =>
    let f := if j0Inside f b then f else j0Follow f (fld (frmCtl s n) 3 2)
    let r := traceByte f.j0Mode f.j0Part b
    { f with
      j0Part := r.1
      j0Due := match r.2 with
        | some m => f.j0Due ++ [m]
        | none => f.j0Due })

/-- A Leiv probe message begins with its sync bytes (R228). -/
def probeSync (m : List Byte) : Bool := m.take 2 == [0xA5, 0x3C]
/-- The CRC-32 of a Leiv probe message is right (R228). -/
def probeCrcOk (m : List Byte) : Bool := m.drop 60 == natBe 4 (crc32 (m.take 60)).toNat

/-- One received probe byte: boundaries are sought at sync bytes, and kept every 64 bytes as long as the messages have their sync bytes and
CRC-32 (R69, R228; DESIGN CHOICE, log entry 134). -/
def probeByte (f : FrmSt) (b : Byte) : FrmSt :=
  let w := f.probeRx ++ [b]
  if w.length < 64 then { f with probeRx := w }
  else if f.probeAt || probeSync w then
    { f with probeRx := [], probeAt := probeSync w && probeCrcOk w, probeDue := f.probeDue ++ [w] }
  else { f with probeRx := w.drop 1 }

/-- The four probe bytes of a frame, S(2,8,1), S(2,9,1), S(3,8,1) and S(3,9,1), are collected while PROBE_EN is in force (R50, R69). -/
def probeStep (s : State) (n : Nat) (l : List Byte) : State :=
  if (frm s n).probeOn then editFrm s n (fun f => l.foldl probeByte f) else s

/-- A frame received in frame: pattern, J0, B1, B2, M1, S1, K1/K2, the probe bytes, the bytes captured and the D bytes (R50, R53, R59, R66,
R69). -/
def frameInFrame (s : State) (n : Nat) (bytes : List Byte) : State :=
  let m := laneN s n
  let plain := if bit (frm s n).ctl 1 then bytes else descramble bytes m
  let s := inFrameStep s n
  let s := b1Step s n (xorAll bytes) (fbyte plain m 2 0)
  let s := b2Step s n (bip24Of plain m) ((List.range (3 * m)).map (fun i => fbyte plain m 5 i))
  let s := m1Step s n (fbyte plain m 9 (3 * m + 2)).toNat
  let s := s1Step s n (fbyte plain m 9 0).toNat
  let s := kStep s n (fbyte plain m 5 (3 * m)).toNat (fbyte plain m 5 (6 * m)).toNat
  let s := j0Step s n (fbyte plain m 1 (6 * m))
  let s := probeStep s n [fbyte plain m 2 (7 * m), fbyte plain m 2 (8 * m), fbyte plain m 3 (7 * m), fbyte plain m 3 (8 * m)]
  let oh := overheadOf plain m
  let s := dccReceive (editFrm s n (fun f => { f with oh := oh })) n oh
  patternStep s n (framePatternOk bytes m)

/-- LANE_FRAME_RX: a frame of 9 x 270N bytes in frame; while out of frame, one at the alignment of a candidate, whose next frame
starts at bit time `t`. Only a lane in UP presents a signal; in near-end loopback it is the lane's own, and in far-end loopback the
received data also goes back to the balls (R35, R45, R51 to R53). -/
def execLaneFrameRx (lane : LaneId) (t : Nat) (balls : List Byte) (s : State) : Out :=
  let m := laneN s lane
  let bytes := sampled s lane balls
  .next (
    if sdhOn s lane && laneState s lane == 4 && bytes.length == 2430 * m then
      let s := if loopOf s lane = 2 ∧ !bit (laneCtl s lane) 11 then
          wire s "line" lane (polarity (bit (laneCtl s lane) 8) (polarity (bit (laneCtl s lane) 9) balls))
        else s
      if isOof s lane then
        let plain := if bit (frm s lane).ctl 1 then bytes else descramble bytes m
        setCands s lane (checkCand (dropLate (frm s lane).cands t) (startBits m) t (xorAll bytes) (fbyte plain m 2 0))
      else frameInFrame s lane bytes
    else s)

/-- J0_MESSAGE_RX: the oldest message that the framer has found is checked; three identical messages are accepted and compared with
the expected trace (R54, R59). DESIGN CHOICE (log entry 90): the first trace accepted after reset or after a change of J0_MODE is a
change of the accepted trace and raises J0_CHG, even where OHP_J0_ACC already holds the same bytes. -/
def execJ0MessageRx (lane : LaneId) (s : State) : Out :=
  let m := (frm s lane).j0Mode
  .next (match (frm s lane).j0Due with
    | [] => s
    | msg :: rest =>
      let s := editFrm s lane (fun f => { f with j0Due := rest })
      if !traceValid m msg then editFrm s lane (fun f => { f with j0Run := 0, j0Last := [] })
      else
        let run := if (frm s lane).j0Last = msg then min 3 ((frm s lane).j0Run + 1) else 1
        let s := editFrm s lane (fun f => { f with j0Run := run, j0Last := msg })
        if run < 3 then s
        else
          let chg := !(frm s lane).j0Known || traceBytes s Reg.ohpJ0Acc lane msg.length != msg
          let s := editFrm (putTrace s Reg.ohpJ0Acc lane msg) lane (fun f => { f with j0Known := true })
          let s := if chg then laneEvent s lane 0x2A 0 else s
          let bad := fld (frmCtl s lane) 3 2 != 0 && !traceEq m msg (traceBytes s Reg.ohpJ0Exp lane msg.length)
          setDefects s lane { (frm s lane).det with tim := bad })

/-! ### LANE_FRM_CTL -/

/-- A LANE_FRM_CTL write: reserved exponents and guarded changes are ignored; a changed exponent restarts its detector;
J0_MODE 0 ends RS-TIM; the injections arm (R34, R54, R58, R59, R71). -/
def frmWrite (s : State) (n : Nat) (v : Word) : State :=
  let off := Reg.laneFrmCtl n
  let old := frmCtl s n
  let guardedChange := (old ^^^ v) &&& 0x6003 != 0
  if fld v 7 6 = 3 ∨ 5 ≤ fld v 10 8 then ignoredWrite s off
  else if guardedChange && guarded s && !bit (laneCtl s n) 7 && laneLive s n then ignoredWrite s off
  else
    let s := if guardedChange && laneLive s n then laneEvent s n 9 3 else s
    let s := wr s off (v &&& 0x7FFF)
    let s := editFrm s n (fun f => { f with
      excSteps := if fld old 7 6 = fld v 7 6 then f.excSteps else []
      excAcc := if fld old 7 6 = fld v 7 6 then f.excAcc else 0
      degSteps := if fld old 10 8 = fld v 10 8 then f.degSteps else []
      degAcc := if fld old 10 8 = fld v 10 8 then f.degAcc else 0
      b1Inv := f.b1Inv || bit v 15
      b2Inv := f.b2Inv || bit v 16 })
    let s := if fld v 3 2 = 0 then setDefects s n { (frm s n).det with tim := false } else s
    refreshConds (refreshLanePaths (noteSecond (showFrm s n) n) n)

/-- LANE_FRM_CTL_WRITE (R71). -/
def execLaneFrmCtlWrite (lane : LaneId) (v : Word) (s : State) : Out :=
  .next (domainWrite s (laneGroup lane) (Reg.laneFrmCtl lane) v (fun s => frmWrite s lane v))

/-- B1_INJ: a LANE_FRM_CTL write that carries B1_INJ (R71). -/
def execB1Inj (lane : LaneId) (v : Word) (s : State) : Out :=
  .next (domainWrite s (laneGroup lane) (Reg.laneFrmCtl lane) (setBit v 15 true) (fun s =>
    frmWrite s lane (setBit v 15 true)))

/-- B2_INJ: a LANE_FRM_CTL write that carries B2_INJ (R71). -/
def execB2Inj (lane : LaneId) (v : Word) (s : State) : Out :=
  .next (domainWrite s (laneGroup lane) (Reg.laneFrmCtl lane) (setBit v 16 true) (fun s =>
    frmWrite s lane (setBit v 16 true)))

/-! ### Seconds -/

/-- Unavailable time after a second: it begins with the first of ten SES in a row and ends with the first of ten seconds
that are not SES; `l` holds whether the second and the ones after it are SES (R70). -/
def uasStep (was : Bool) (l : List Bool) : Bool :=
  let t := l.take 10
  if was then !(t.length == 10 && t.all (fun b => !b)) else t.length == 10 && t.all (fun b => b)

/-- Regenerator-section SES (R70). -/
def SecAcc.rsSes (a : SecAcc) : Bool := decide (2400 ≤ a.rsEb) || a.rsDef
/-- Multiplex-section SES (R70). -/
def SecAcc.msSes (a : SecAcc) : Bool := decide (2400 ≤ a.msEb) || a.msDef
/-- Far-end SES (R70). -/
def SecAcc.feSes (a : SecAcc) : Bool := decide (2400 ≤ a.feb) || a.rdi

/-- A counter goes up by one where `b` holds. -/
def countIf (s : State) (b : Bool) (off : Nat) : State := if b then count s off 1 else s

/-- The oldest ended second of lane `n` is classified once ten seconds have followed it (R70). DESIGN CHOICE (log entry 89): LANE_RS_SEFS
counts at that classification too; R70 gives its 10 s only to ES, SES and UAS. -/
def classifyLane (s : State) (n : Nat) : State :=
  let f := frm s n
  match f.secs with
  | [] => s
  | a :: r =>
    if f.secs.length < 11 then s
    else
      let rsU := uasStep f.rsUas (f.secs.map SecAcc.rsSes)
      let msU := uasStep f.msUas (f.secs.map SecAcc.msSes)
      let feU := uasStep f.feUas (f.secs.map SecAcc.feSes)
      let s := editFrm s n (fun f => { f with secs := r, rsUas := rsU, msUas := msU, feUas := feU })
      let s := countIf s (!rsU && (decide (0 < a.rsEb) || a.oof || a.rsDef)) (Reg.laneRsEs n)
      let s := countIf s (!rsU && a.rsSes) (Reg.laneRsSes n)
      let s := countIf s (a.oof || a.rsDef) (Reg.laneRsSefs n)
      let s := countIf s (!msU && (decide (0 < a.msEb) || a.msDef)) (Reg.laneMsEs n)
      let s := countIf s (!msU && a.msSes) (Reg.laneMsSes n)
      let s := countIf s msU (Reg.laneMsUas n)
      let s := countIf s (!feU && (decide (0 < a.feb) || a.rdi)) (Reg.laneMsFeEs n)
      let s := countIf s (!feU && a.feSes) (Reg.laneMsFeSes n)
      countIf s feU (Reg.laneMsFeUas n)

/-- The running second of lane `n` ends at the 1PPS, and the next begins with the conditions present (R70). -/
def endLaneSecond (s : State) (n : Nat) : State :=
  noteSecond (editFrm s n (fun f => { f with secs := (f.secs ++ [f.sec]).drop (f.secs.length - 10), sec := {} })) n

end Sys2Proof.Machine
end

