-- ==== Sys2Proof/Machine/Xlat.lean ====
section
/-! DEFINITION. Host address translation, the TLB, the kennel and buffer accesses (16_translation_preemption.md, R331 to
R348). -/

namespace Sys2Proof.Machine

/-! ### Translation -/

/-- HIF_XLAT_CTL.EN (R331). -/
def xlatEn (s : State) : Bool := bget s Reg.hifXlatCtl 0

/-- End of the device-virtual space (R331). -/
def vaSpace (s : State) : Nat := 2 ^ (21 + fget s Reg.hifXlatCtl 12 8)

/-- The range check of R333: translation is on and the buffer reaches past the end of the space. -/
def rangeBad (s : State) (d : Desc) : Bool := xlatEn s && decide (0 < d.len) && decide (vaSpace s < d.addr + d.len)

/-- Host bus address of the root table (R347). -/
def xlatRoot (s : State) : Nat :=
  fget s Reg.hifXlatRootLo 31 12 * 4096 + 2 ^ 32 * (rd s Reg.hifXlatRootHi).toNat

/-- A 64-bit table entry as the host's memory holds it; an address that the host does not answer reads in error. -/
def read64 (io : HostIO) (a : Nat) : Option (BitVec 64) := match io.walk.find? (fun p => p.1 == a) with
  | some p => p.2
  | none => none

/-- ADDR [51:12] of a table entry, as an address (R332). -/
def entAddr (e : BitVec 64) : Nat := nbits e.toNat 51 12 * 4096

/-- Reserved bits of a root entry, and ADDR [20:12] of a 2 MiB page, make it malformed (R332, R333). -/
def rootBad (e : BitVec 64) : Bool :=
  nbits e.toNat 11 3 != 0 || nbits e.toNat 63 52 != 0 || (e.getLsbD 2 && nbits e.toNat 20 12 != 0)

/-- Reserved bits of a level-2 entry make it malformed (R332, R333). -/
def leafBad (e : BitVec 64) : Bool := nbits e.toNat 11 2 != 0 || nbits e.toNat 63 52 != 0

/-- What a walk finds: a fault kind (1 NOT_VALID, 3 MALFORMED, 4 WALK_ERR) or a leaf translation (R333). -/
def walk (s : State) (io : HostIO) (va : Nat) : Nat ⊕ TlbEnt :=
  match read64 io (xlatRoot s + va / 2 ^ 21 * 8) with
  | none => .inl 4
  | some r =>
    if !r.getLsbD 0 then .inl 1
    else if rootBad r then .inl 3
    else if r.getLsbD 2 then
      .inr { vpn := va / 2 ^ 21 * 512, big := true, pa := entAddr r, w := r.getLsbD 1 }
    else match read64 io (entAddr r + va / 4096 % 512 * 8) with
      | none => .inl 4
      | some l =>
        if !l.getLsbD 0 then .inl 1
        else if leafBad l then .inl 3
        else .inr { vpn := va / 4096, big := false, pa := entAddr l, w := l.getLsbD 1 }

/-- A translation covers a device-virtual address (R334). -/
def TlbEnt.covers (t : TlbEnt) (va : Nat) : Bool :=
  if t.big then t.vpn / 512 == va / 2 ^ 21 else t.vpn == va / 4096

/-- The bus address of `va` under a translation (R333). -/
def TlbEnt.bus (t : TlbEnt) (va : Nat) : Nat := t.pa + va % (if t.big then 2 ^ 21 else 4096)

/-- The TLB takes a translation; a full one loses an entry that the implementation picks (R334). -/
def tlbAdd (s : State) (t : TlbEnt) : State :=
  let l := s.xlat.tlb
  let l := if l.length < 2048 then l
    else l.eraseIdx (Config.pick s.glb.free % 2048)
  { s with xlat := { s.xlat with tlb := t :: l } }

/-- One access to the buffer byte at `va`: its bus address, or a fault kind (R331, R333, R334). -/
def translate (s : State) (io : HostIO) (write : Bool) (va : Nat) : State × (Nat ⊕ Nat) :=
  let bad := io.bad.contains (va / 4096)
  if !xlatEn s then (s, if bad then .inl 5 else .inr va)
  else
    let use := fun (s : State) (t : TlbEnt) =>
      (s, if write && !t.w then .inl 2 else if bad then .inl 5 else .inr (t.bus va))
    match s.xlat.tlb.find? (fun t => t.covers va) with
    | some t => use s t
    | none =>
      let s := count s Reg.hifXlatWalks 1
      match walk s io va with
      | .inl k => (s, .inl k)
      | .inr t => use (tlbAdd s t) t

/-- The first address in each page of the `len` bytes at `addr`. -/
def pagesOf (addr len : Nat) : List Nat :=
  if len = 0 then []
  else (rangeFrom (addr / 4096) ((addr + len - 1) / 4096 + 1 - addr / 4096)).map (fun p => max addr (p * 4096))

/-- Every page of a range is translated before it is used: the pieces as device-virtual and bus address, or the first
fault (R336). -/
def translateAll (s : State) (io : HostIO) (write : Bool) (l : List Nat) : State × (Nat × Nat ⊕ List (Nat × Nat)) :=
  match l with
  | [] => (s, .inr [])
  | va :: r =>
    match translate s io write va with
    | (s, .inl k) => (s, .inl (k, va))
    | (s, .inr pa) => match translateAll s io write r with
      | (s, .inl f) => (s, .inl f)
      | (s, .inr m) => (s, .inr ((va, pa) :: m))

/-- Offsets and lengths of the requests, of `m` bytes at most, that move `n` bytes. -/
def requests (m n : Nat) : List (Nat × Nat) := (List.range ((n + m - 1) / m)).map (fun i => (i * m, min m (n - i * m)))

/-- `b` is written to host memory at bus address `a`, in writes of the max payload size, with relaxed ordering where it is enabled (R301). -/
def putHost (s : State) (a : Nat) (b : List Byte) : State :=
  (requests (128 * 2 ^ s.rng.cfg.mps.val) b.length).foldl (fun s r =>
    emit s (.host (a + r.1) s.rng.cfg.relaxed ((b.drop r.1).take r.2))) s

/-- `n` bytes of host memory at bus address `a` are asked for, in requests of the max read request size (R301). -/
def askHost (s : State) (a n : Nat) : State :=
  (requests (128 * 2 ^ s.rng.cfg.mrrs.val) n).foldl (fun s r => emit s (.read (a + r.1) r.2)) s

/-- `bytes` are written at `addr`: every page is translated first, so a fault leaves nothing written (R336). -/
def writeHost (s : State) (io : HostIO) (addr : Nat) (bytes : List Byte) : State × Option (Nat × Nat) :=
  match translateAll s io true (pagesOf addr bytes.length) with
  | (s, .inl f) => (s, some f)
  | (s, .inr m) =>
    (m.foldl (fun s p => putHost s p.2 ((bytes.drop (p.1 - addr)).take (4096 - p.1 % 4096))) s, none)

/-- `bytes`, which are no record and no frame, are written at `addr` page by page up to the first fault: its kind and address (R333, R337). -/
def writePages (s : State) (io : HostIO) (addr : Nat) (bytes : List Byte) (l : List Nat) : State × Option (Nat × Nat) := match l with
  | [] => (s, none)
  | va :: r =>
    match translate s io true va with
    | (s, .inl k) => (s, some (k, va))
    | (s, .inr pa) => writePages (putHost s pa ((bytes.drop (va - addr)).take (4096 - va % 4096))) io addr bytes r

/-- The first `n` of the bytes that a command's input brings. -/
def ioBytes (io : HostIO) (n : Nat) : List Byte := (wordsBytes (io.data.take ((n + 3) / 4)) ++ List.replicate n 0).take n

/-- The pages of a read from `addr` on are asked for one by one, up to the first fault: its kind and address (R333, R336, R337). -/
def askPages (s : State) (io : HostIO) (last : Nat) (l : List Nat) : State × Option (Nat × Nat) := match l with
  | [] => (s, none)
  | va :: r =>
    match translate s io false va with
    | (s, .inl k) => (s, some (k, va))
    | (s, .inr pa) => askPages (askHost s pa (min (last - va) (4096 - va % 4096))) io last r

/-- The `len` bytes at `addr` are read; what the host's memory holds comes with the command (R336). -/
def readHost (s : State) (io : HostIO) (addr len : Nat) : State × (Nat × Nat ⊕ List Byte) :=
  match askPages s io (addr + len) (pagesOf addr len) with
  | (s, some f) => (s, .inl f)
  | (s, none) => (s, .inr (ioBytes io len))

/-! ### The kennel -/

/-- Kennel slots not FREE (R347). -/
def knlUsed (s : State) : Nat := s.xlat.knl.length
/-- Kennel slots in FAULT (R347). -/
def knlFaulted (s : State) : Nat := (s.xlat.knl.filter (fun p => p.2.st == 1)).length
/-- HIF_KNL_STATUS (R347). -/
def knlStatus (s : State) : Word :=
  w32 (knlUsed s + 512 * knlFaulted s + 2 ^ 18 * (knlUsed s - knlFaulted s))
/-- The free kennel slot with the lowest number. -/
def knlFree (s : State) : Option Nat := (List.range 256).find? (fun i => (Tab.find? s.xlat.knl i).isNone)
/-- The kennel slot in which descriptor `d` is parked (R345). -/
def knlOf (s : State) (d : Nat) : Option (Nat × Knl) := List.find? (fun p => p.2.d == d) s.xlat.knl
/-- Kennel slot `i` is FREE. -/
def knlDrop (s : State) (i : Nat) : State := { s with xlat := { s.xlat with knl := Tab.drop s.xlat.knl i } }
/-- Kennel slot `i` holds `k`. -/
def knlPut (s : State) (i : Nat) (k : Knl) : State := { s with xlat := { s.xlat with knl := Tab.put s.xlat.knl i k } }

/-- PAGE_REQ for slot `i`: always to ring 3, never coalesced (R337, R348). -/
def pageReq (s : State) (i : Nat) (k : Knl) : State :=
  raise s 0x681 (w32 (1 + 256 * i + 65536 * k.kind + 2 ^ 19 * b2n k.write)) (w32 (k.va / 4096 % 2 ^ 26))

/-- The result words of a fault that is not resolved (R340). -/
def faultWords (k : Knl) : Word × Word := (w32 (k.kind + 8 * b2n k.write), w32 (k.va / 4096 % 2 ^ 26))

/-- The engines without descriptor `d`. -/
def engFree (s : State) (d : Nat) : State :=
  { s with xlat := { s.xlat with engs := s.xlat.engs.filter (fun p => p.2.d != d) } }

/-- The progress of bulk descriptor `d`. -/
def bulkOf (s : State) (d : Nat) : Bulk := Tab.get s.xlat.bulk d {}
/-- The progress of bulk descriptor `d` is `b`. -/
def setBulk (s : State) (d : Nat) (b : Bulk) : State := { s with xlat := { s.xlat with bulk := Tab.put s.xlat.bulk d b } }
/-- Descriptor `d` has left the bulk engines and the kennel. -/
def bulkDrop (s : State) (d : Nat) : State :=
  { s with xlat := { s.xlat with
    bulk := Tab.drop s.xlat.bulk d
    queue := setDel s.xlat.queue d
    engs := s.xlat.engs.filter (fun p => p.2.d != d)
    knl := s.xlat.knl.filter (fun p => p.2.d != d) } }

/-- A frame that a buffer descriptor could not deliver is dropped and counted by its user: the DCC channel or the Ethernet
lane it is bound to (R68, R245, R339). -/
def dropFrame (s : State) (b : Option (Nat × Nat)) : State := match b with
  | some (0x29, c) =>
    let n := fget s (Reg.ohpDccCtl c) 8 2
    raiseOnce (count s (Reg.ohpDccRxDrop c) 1) n 0x2B c (w32 (0x2B + 256 * n)) (w32 c)
  | some (0x4B, n) =>
    raiseOnce (count s (Reg.laneEthRxHostdrop n) 1) 0x640 0x10 n 0x10 (w32 n)
  | _ => s

/-- Descriptor `d`, with context `k`, ends FAULT_UNRESOLVED; a buffer opcode drops its frame (R339, R340). -/
def unresolved (s : State) (k : Knl) : State :=
  let b := match desc? s k.d with
    | some x => x.bound
    | none => none
  let s := if k.data.isEmpty then s else dropFrame s b
  complete (bulkDrop s k.d) k.d 4 (faultWords k).1 (faultWords k).2

/-- An access of descriptor `d` faults: its context goes to a free kennel slot and the page is asked for; without a free
slot it ends at once (R337, R340). -/
def parkFault (s : State) (d kind : Nat) (write : Bool) (va moved : Nat) (data : List Byte) (r0 r1 : Word) : State :=
  let s := count (engFree s d) Reg.hifXlatFaults 1
  let k : Knl := { st := 1, d := d, kind := kind, write := write, va := va % 2 ^ 38, order := s.xlat.order, moved := moved,
                   data := data, r0 := r0, r1 := r1, since := s.tod.ticks }
  match knlFree s with
  | none => unresolved (raiseOnce s 0x682 2 0 2 (knlStatus s)) k
  | some i =>
    let s := knlPut { s with xlat := { s.xlat with order := s.xlat.order + 1 } } i k
    pageReq s i k

/-- Descriptor `d` may go on: it is not parked waiting for a page; a READY slot of it is freed as it goes on, which takes Bus Master
Enable (R305, R338, R343). -/
def unpark (s : State) (d : Nat) : Option State := match knlOf s d with
  | none => some s
  | some (i, k) => if k.st = 1 ∨ !s.rng.bme then none else some (knlDrop s i)

/-- A descriptor that runs outside the bulk engines reads its input buffer and goes on with its bytes, or parks and keeps those it has, from
where it goes on when it is resumed; `io` brings what is still to be read. Without Bus Master Enable it waits (R305, R336, R337). -/
def withInput (s : State) (io : HostIO) (d : Desc) (len : Nat) (go : State → List Byte → State) : State :=
  let k := d.got.length
  if !s.rng.bme then s
  else match readHost s io (d.addr + k) (len - k) with
    | (s, .inl f) =>
      let b := d.got ++ ioBytes io (f.2 - (d.addr + k))
      parkFault (editDesc s d.id (fun x => { x with got := b })) d.id f.1 false f.2 b.length [] 0 0
    | (s, .inr b) => go s (d.got ++ b)

/-- A frame is written to the buffer of a descriptor past its commit point, which then completes OK, or parks with its
frame (R68, R245, R336, R337). -/
def deliver (s : State) (io : HostIO) (d : Desc) (bytes : List Byte) (r0 r1 : Word) : State :=
  match writeHost s io d.addr bytes with
  | (s, some f) => parkFault s d.id f.1 true f.2 0 bytes r0 r1
  | (s, none) => completeOk s d.id r0 r1

/-- The bytes of a copy from byte `k` of its buffer on are written page by page; the descriptor then completes OK, or parks with what is left
(R336, R337). -/
def copyOut (s : State) (io : HostIO) (d : Desc) (k : Nat) (bytes : List Byte) (r0 r1 : Word) : State :=
  let a := d.addr + k
  match writePages s io a bytes (pagesOf a bytes.length) with
  | (s, some f) => parkFault s d.id f.1 true f.2 (f.2 - d.addr) (bytes.drop (f.2 - a)) r0 r1
  | (s, none) => completeOk s d.id r0 r1

/-! ### Rows of the chapter -/

/-- A resume doorbell's effect on kennel slot `i`: nothing for PREEMPTED and READY, ignored for FREE; in FAULT the address
is walked again, and the context is READY, or the page is asked for again; a frame or a copy waiting for its page goes on from the faulting
access (R309, R338). -/
def resumeSlot (s : State) (io : HostIO) (i : Nat) : State :=
  match Tab.find? s.xlat.knl i with
  | none => ignored s 5 3 0x34
  | some k =>
    if k.st ≠ 1 then s
    else
      let s := if xlatEn s then count s Reg.hifXlatWalks 1 else s
      let r : Nat ⊕ Option TlbEnt :=
        if !xlatEn s then .inr none
        else match walk s io k.va with
          | .inl f => .inl f
          | .inr t => if k.write && !t.w then .inl 2 else .inr (some t)
      match r with
      | .inl f =>
        let k := { k with kind := f, since := s.tod.ticks }
        pageReq (knlPut (count s Reg.hifXlatFaults 1) i k) i k
      | .inr t =>
        let s := match t with
          | some t => tlbAdd { s with xlat := { s.xlat with tlb := s.xlat.tlb.filter (fun x => !x.covers k.va) } } t
          | none => s
        if k.data.isEmpty then knlPut s i { k with st := 3 }
        else match desc? s k.d with
          | none => knlDrop s i
          | some d =>
            if d.op = 0x59 then copyOut (knlDrop s i) io d k.moved k.data k.r0 k.r1
            else deliver (knlDrop s i) io d k.data k.r0 k.r1

/-- The translations outside the scope of an invalidation word (R335, R347). -/
def tlbOutside (w : Word) (l : List TlbEnt) : List TlbEnt :=
  let va := fld w 25 0 * 4096
  match fld w 31 30 with
  | 0 => l.filter (fun t => !t.covers va)
  | 1 => l.filter (fun t => t.vpn / 512 != va / 2 ^ 21)
  | _ => []

/-- An invalidation acts at once and INV_BUSY is 1 until it has drained (R335). -/
def invalidate (s : State) (w : Word) : State :=
  bset { s with xlat := { s.xlat with tlb := tlbOutside w s.xlat.tlb, inv := some w } } Reg.hifXlatStatus 0 true

/-- TLB_INVALIDATE: a write of HIF_XLAT_INV (R335, R347). -/
def execTlbInvalidate (v : Word) (s : State) : Out :=
  .next (hostWrite s Reg.hifXlatInv v (fun s =>
    if s.xlat.inv.isSome || fld v 31 30 == 3 then ignoredWrite s Reg.hifXlatInv else invalidate s v))

/-- TLB_INV_DONE: INV_BUSY clears (R335). -/
def execTlbInvDone (s : State) : Out :=
  .next (
    if s.xlat.inv.isSome then bset { s with xlat := { s.xlat with inv := none } } Reg.hifXlatStatus 0 false else s)

/-- XLAT_CONFIG_WRITE: ROOT_LO, ROOT_HI or CTL; RWL, checked, and the whole TLB is invalidated (R6, R335, R347, R438). -/
def execXlatConfigWrite (reg : Fin 3) (v : Word) (s : State) : Out :=
  let off := if reg.val = 0 then Reg.hifXlatRootLo else if reg.val = 1 then Reg.hifXlatRootHi else Reg.hifXlatCtl
  .next (hostWrite s off v (fun s =>
    if inService s then (if reg.val = 2 then lockedWrite s off v else ignoredWrite s off)
    else if reg.val = 2 ∧ (fld v 12 8 < 9 ∨ 17 < fld v 12 8) then ignoredWrite s off
    else
      let m : Word := if reg.val = 0 then 0xFFFFF000 else if reg.val = 1 then 0xFFFFFFFF else 0x1F01
      invalidate (wr s off (v &&& m)) 0x80000000))

end Sys2Proof.Machine
end

