-- ==== Sys2Proof/Machine/Host.lean ====
section
/-! DEFINITION. Rings, doorbells, descriptor fetch and the bus (15_host_rings.md, R301 to R330). -/

namespace Sys2Proof.Machine

/-! ### Buffer rings -/

/-- The DCC channel whose buffer ring is ring `n`: enabled in host mode, as in force (R63, R306). -/
def dccRing (s : State) (n : Nat) : Option Nat :=
  (List.find? (fun p => bit p.2.ctl 0 && bit p.2.ctl 9 && fld p.2.ctl 29 18 == n) s.dccs).map (fun p => p.1)

/-- The Ethernet lane whose host-frame ring is ring `n` (R245, R262). -/
def ethRing (s : State) (n : Nat) : Option Nat :=
  if n = 0 then none else (List.range 128).find? (fun l => fget s (Reg.laneEthCtl l) 27 16 == n)

/-- Descriptors fetched from buffer ring `n` and not yet assigned a frame (R68). -/
def ahead (s : State) (n : Nat) : Nat := (s.rng.descs.filter (fun d => d.ring == n && decide (d.st < 2))).length

/-! ### The checks of a fetched descriptor -/

/-- The opcodes of R314. -/
def opcodes : List Nat :=
  [0x00, 0x01, 0x02, 0x10, 0x11, 0x12, 0x18, 0x19, 0x1A, 0x1B, 0x20, 0x21, 0x22, 0x28, 0x29, 0x30, 0x31, 0x32, 0x33, 0x38,
    0x39, 0x40, 0x41, 0x48, 0x49, 0x4A, 0x4B, 0x50, 0x58, 0x59, 0x60, 0x61]

/-- The words 6 to 15 that an opcode's definition assigns, as masks of their assigned bits; words beyond the list are
reserved. `none`: the definition marks nothing reserved (R313 order 6). -/
def opMasks (d : Desc) : Option (List Word) :=
  let all : Word := 0xFFFFFFFF
  match d.op with
  | 0x00 => some []
  | 0x01 => some []
  | 0x02 => some [0xFFFF0FFF, all]
  | 0x10 => some []
  | 0x11 => some [all]
  | 0x12 => some []
  | 0x18 => some []
  | 0x19 => some [all, 0x3FFFFF, 1]
  | 0x1A => some [0xFFFF, 3, all, 0x1FFF]
  | 0x1B => some [0x80000003, all, 3, all]
  | 0x20 => some [all, 0x7FFF, 0x7FFFFFF, 0x7F, 0xFFFF, 0xFFFF, 0xFFFF]
  | 0x22 => some [0x37F]
  | 0x30 => some [0x8007FFFF, all, all, 0x3FF03FF]
  | 0x31 => some [0x7FFFF, 0xF0F]
  | 0x32 => some [0x7FFFF, 0x3FFFF]
  | 0x33 => some [0x8000003F, 0x3FF0FFF, 0xF7F, 0x7F7F7F7F, 0x7F7F7F7F, 0x7F7F7F7F, 0x7F7F, 0x7FFE]
  | 0x38 => some [0x8007FFFF, 0x1FF0003]
  | 0x39 => some [0x7FFFF, 0x3FFFF]
  | 0x40 => some [0x80000FFF, all, 0x3F0FFF, all, 0x7FFFFFFF, all, 0x3FFFFFF, 0x1FFFFF, 0x1FFFF]
  | 0x41 => some [0xFFF, 0x1FFF]
  | 0x48 => some [0x80003FFF, 0x7FFF, 0x7F07FF, all, 0xFF3FF7FF, 0xFFFFF]
  | 0x49 => some [0x3FFF, 0x7FFF]
  | 0x50 => some (match fld (d.w 6) 2 0 with
    | 0 => [0x107, all, all, all]
    | 1 => [0x107, all, all, all]
    | 2 => [0x107, all, all]
    | 3 => [0x107, all, all]
    | _ => [0x107])
  | 0x58 => some [0xF03, all]
  | 0x59 => some (if bit (d.w 6) 0 then [1, 7, all, all] else [1, all, all, all])
  | 0x60 => some [0xFF]
  | _ => none

/-- A bit that an opcode's definition marks reserved in words 6 to 15 is 1 (R313 order 6). -/
def reservedSet (d : Desc) : Bool := match opMasks d with
  | none => false
  | some l => (List.range 10).any (fun i => d.w (6 + i) &&& ~~~ (l.getD i 0) != 0)

/-- The reason for a reserved field: the opcode's own where its definition gives one (2), else 0xF5 (R313). -/
def reservedReason (op : Nat) : Nat :=
  if [0x02, 0x18, 0x19, 0x1A, 0x1B, 0x20, 0x30, 0x31, 0x32, 0x33, 0x38, 0x39, 0x40, 0x41, 0x48, 0x49, 0x50, 0x58].contains op
  then 2 else 0xF5

/-- The buffer-ring rule: buffer opcodes on their user's rings and no others there (R68, R313 order 4). -/
def ringMisuse (s : State) (d : Desc) : Bool :=
  if d.op = 0x29 then (dccRing s d.ring).isNone
  else if d.op = 0x4B then (ethRing s d.ring).isNone
  else (dccRing s d.ring).isSome || (ethRing s d.ring).isSome

/-- The first failing check of orders 1 to 6, as its reason (R313). -/
def fetchReason (s : State) (d : Desc) : Option Nat :=
  if !opcodes.contains d.op then some 0xF0
  else if fld (d.w 0) 31 19 ≠ 0 ∨ fld (d.w 2) 31 28 ≠ 0 then some 0xF1
  else if !isCplRing s (fld (d.w 2) 27 16) then some 0xF2
  else if ringMisuse s d then some 0xF3
  else if bit (d.w 0) 18 && !(([0x10, 0x11, 0x12, 0x18, 0x1A, 0x1B] : List Nat).contains d.op) then some (if d.op = 0x20 then 2 else 13)
  else if reservedSet d then some (reservedReason d.op)
  else none

/-! ### Fetching -/

/-- The hidden state of ring `n`. -/
def ringSt (s : State) (n : Nat) : RingSt := Tab.get s.rng.rings n {}
/-- The hidden state of ring `n` changed by `f`. -/
def editRing (s : State) (n : Nat) (f : RingSt → RingSt) : State :=
  { s with rng := { s.rng with rings := Tab.edit s.rng.rings n {} f } }

/-- Ring `n` is an enabled command ring whose disable does not wait (R308). -/
def cmdRing (s : State) (n : Nat) : Bool := ringEn s n && ringClass s n == 0 && !ringBusy s n

/-- The limit of descriptors in flight for ring `n` (R319). -/
def fetchLimit (n : Nat) : Nat := if n = 0 then 65536 else 65472

/-- Descriptors in flight (R319). -/
def inFlight (s : State) : Nat := s.rng.descs.length

/-- The device may fetch at all: Bus Master Enable is 1, no mode change stops fetching, and REPLAY is 0 (R23, R26, R305). -/
def mayFetch (s : State) : Bool := s.rng.bme && !s.rng.stopped && !replay s

/-- Ring `n` holds posted descriptors and may fetch, the in-flight limit apart (R310, R320). -/
def ringReady (s : State) (n : Nat) : Bool :=
  cmdRing s n && ringProd s n != ringCons s n &&
    !(((dccRing s n).isSome || (ethRing s n).isSome) && decide (16 ≤ ahead s n))

/-- Ring `n` is next to be served: no ready ring has a higher PRIO, or the same PRIO and was served longer ago (R320). -/
def ringTurn (s : State) (n : Nat) : Bool :=
  s.rng.rings.all (fun p =>
    p.1 == n || !ringReady s p.1 || decide (fetchLimit p.1 ≤ inFlight s) ||
      (decide (fget s (Reg.ringCfg p.1) 9 7 ≤ fget s (Reg.ringCfg n) 9 7) &&
        (fget s (Reg.ringCfg p.1) 9 7 != fget s (Reg.ringCfg n) 9 7 || decide ((ringSt s n).rotate ≤ p.2.rotate))))

/-- The consumer index of command ring `n` passes one entry (R310). -/
def passEntry (s : State) (n : Nat) : State :=
  let i := ringCons s n
  let s := wr s (Reg.ringCons n) (w32 ((i + 1) % ringSize s n))
  editRing s n (fun r => { r with fetched := r.fetched + 1, skip := setDel r.skip i })

/-- Fetching passes over the entries that were aborted before their fetch (R324). -/
def passSkipped (fuel : Nat) (s : State) (n : Nat) : State := match fuel with
  | 0 => s
  | k + 1 =>
    if ringProd s n != ringCons s n && (ringSt s n).skip.contains (ringCons s n) then passSkipped k (passEntry s n) n
    else s

/-- Fetching passes over them on every ring (R324). -/
def passAborted (s : State) : State := s.rng.rings.foldl (fun s p => passSkipped p.2.skip.length s p.1) s

/-- A descriptor joins those in flight (R319). -/
def addDesc (s : State) (d : Desc) : State :=
  { s with rng := { s.rng with descs := s.rng.descs ++ [d], next := s.rng.next + 1 } }

/-- A fetched descriptor is checked: a failure completes INVALID; otherwise it waits to be taken, and work that needs the
fabric wakes it (R313, R409). -/
def acceptDesc (s : State) (d : Desc) : State :=
  let s := addDesc s d
  match fetchReason s d with
  | some r =>
    let c := cplOf s d 3 (w32 r) (if d.op = 0x18 ∧ r = 2 ∧ !bit (d.w 0) 18 then 0xFFFFFFFF else 0)
    postCpl (setDesc s d.id 3) (if isCplRing s (fld (d.w 2) 27 16) then c else { c with ring := 1 })
  | none =>
    if s.pwr.st ≠ 2 ∧ !(([0, 1, 2, 0x50] : List Nat).contains d.op) then needDomain s 17 else s

/-- DESCRIPTOR_FETCH: the next entry of command ring `ring` holds `words` (R310, R313, R319, R320). -/
def execDescriptorFetch (ring : RingId) (words : List Word) (s : State) : Out :=
  let n : Nat := ring
  .next (
    if !mayFetch s then s
    else
      let s := passAborted s
      if !ringReady s n then s
      else if fetchLimit n ≤ inFlight s then raiseOnce s 0x680 2 0 2 (w32 (inFlight s))
      else if !ringTurn s n then s
      else
        let d : Desc := { id := s.rng.next, ring := n, idx := ringCons s n, words := words, mode := mode s }
        let s := askHost s (ringAddr s n d.idx) 64
        let s := editRing (passEntry s n) n (fun r => { r with rotate := s.rng.next })
        acceptDesc s d)

/-! ### Enabling and disabling -/

/-- The enabled rings of class `c`, of those ever enabled. -/
def enabledOf (s : State) (c : Nat) : List Nat :=
  (s.rng.rings.map (fun p => p.1)).filter (fun n => ringEn s n && ringClass s n == c)

/-- An EN = 1 write is ignored (R308). -/
def enableRefused (s : State) (n : Nat) : Bool :=
  ringBusy s n || match ringClass s n with
    | 0 => !isCplRing s 1
    | 1 => bget s (Reg.ringCfg n) 28 && !isEventRing s (fget s (Reg.ringCfg n) 27 16)
    | _ => decide (64 ≤ (enabledOf s 2).length) ||
        (enabledOf s 2).any (fun m => fget s (Reg.ringCfg m) 15 10 == fget s (Reg.ringCfg n) 15 10)

/-- RING_ENABLE: a write of EN = 1 to RING_CTL (R308). -/
def execRingEnable (ring : RingId) (s : State) : Out :=
  let n : Nat := ring
  .next (hostWrite s (Reg.ringCtl n) 1 (fun s =>
    if ringEn s n && !ringBusy s n then s
    else if enableRefused s n then ignoredWrite s (Reg.ringCtl n)
    else
      let s := wr (wr (wr s (Reg.ringCtl n) 1) (Reg.ringProd n) 0x10000) (Reg.ringCons n) 0
      let s := editRing s n (fun _ => {})
      let s := { s with evt := { s.evt with seq := Tab.drop s.evt.seq n, unann := Tab.drop s.evt.unann n } }
      if ringClass s n = 2 then flushEvents s else s))

/-- No descriptor holds up the end of a disable of ring `n` (R308). -/
def disableDone (s : State) (n : Nat) : Bool :=
  if ringClass s n = 0 then s.rng.descs.all (fun d => d.ring != n)
  else s.rng.descs.all (fun d => fld (d.w 2) 27 16 != n)

/-- The disable of ring `n` is complete: EN and BUSY read 0 (R308). -/
def endDisable (s : State) (n : Nat) : State := wr s (Reg.ringCtl n) 0

/-- Ring `n` is disabled as a write of EN = 0 does; records that were held for an event ring now go to ring 2 (R308, R351, R353). -/
def disableRing (s : State) (n : Nat) : State :=
  if !ringEn s n || ringBusy s n then s
  else if ringClass s n = 2 then
    flushEvents { endDisable s n with evt := { s.evt with unann := Tab.drop s.evt.unann n } }
  else if disableDone s n then endDisable s n
  else bset s (Reg.ringCtl n) 1 true

/-- RING_DISABLE: a write of EN = 0 to RING_CTL; rings 1 and 3 stay while a command ring is enabled (R308). -/
def execRingDisable (ring : RingId) (s : State) : Out :=
  let n : Nat := ring
  .next (hostWrite s (Reg.ringCtl n) 0 (fun s =>
    if (n = 1 ∨ n = 3) ∧ !(enabledOf s 0).isEmpty then ignoredWrite s (Reg.ringCtl n) else disableRing s n))

/-- RING_DISABLE_DONE: EN reads 0 once no descriptor holds the disable up (R308). -/
def execRingDisableDone (ring : RingId) (s : State) : Out :=
  .next (if ringBusy s ring && disableDone s ring then endDisable s ring else s)

/-- FETCH_ERROR: no record, the ring is disabled, FETCH_ERR and RING_FETCH_ERR report it (R328). -/
def execFetchError (ring : RingId) (s : State) : Out :=
  let n : Nat := ring
  .next (
    if mayFetch s && ringReady s n then
      let s := wr (disableRing s n) Reg.hifFaultRing (w32 n)
      raise (setFault s 0) 0x680 3 (w32 n)
    else s)

/-- RING_CFG_WRITE: BASE_LO, BASE_HI or CFG of a ring; RWL, refused while EN is 1, and checked (R6, R307, R438). -/
def execRingCfgWrite (ring : RingId) (reg : Fin 3) (v : Word) (s : State) : Out :=
  let n : Nat := ring
  let off := if reg.val = 0 then Reg.ringBaseLo n else if reg.val = 1 then Reg.ringBaseHi n else Reg.ringCfg n
  .next (hostWrite s off v (fun s =>
    if ringEn s n then ignoredWrite s off
    else if inService s then lockedWrite s off v
    else if reg.val = 2 ∧ (fld v 4 0 < 6 ∨ 16 < fld v 4 0 ∨ fld v 6 5 = 3 ∨ (n < 4 ∧ fld v 6 5 ≠ ringClass s n)) then
      ignoredWrite s off
    else
      let m : Word := if reg.val = 0 then 0xFFFFF000 else if reg.val = 1 then 0xFFFFFFFF else 0x1FFFFFFF
      wr s off (v &&& m)))

/-! ### Doorbells -/

/-- The kind under which an INDEX `i` for ring `n` is ignored (R325). -/
def indexKind (s : State) (n i : Nat) : Option Nat :=
  if !ringEn s n then some 3
  else if ringSize s n ≤ i then some 2
  else if ringClass s n ≠ 0 ∧ ringUsed s n < (i + ringSize s n - ringCons s n) % ringSize s n then some 2
  else none

/-- An INDEX that is not ignored acts: the value in force changes nothing; a command ring takes the producer index; any other ring frees the
records before the consumer index (R309 to R311). -/
def indexAct (s : State) (n i : Nat) : State :=
  if ringClass s n = 0 then fset s (Reg.ringProd n) 15 0 i
  else if i = ringCons s n then s
  else
    let s := wr s (Reg.ringCons n) (w32 i)
    if ringClass s n = 1 then flushCpl (bset s (Reg.ringCtl n) 2 false) else flushEvents s

/-- A doorbell of ring `n` with INDEX `i` acts, or is ignored (R309 to R311, R325). -/
def doorbell (s : State) (n i : Nat) : State := match indexKind s n i with
  | some k => ignored s k n (16 * n)
  | none => indexAct s n i

/-- A doorbell write: nothing in DORMANT; part of word 0 is ignored; while REPLAY is 1 or Bus Master Enable is 0 it is recorded (R26, R305,
R309). -/
def doorbellWrite (s : State) (n bytes : Nat) (w0 : Word) : State :=
  if hostDeaf s then s
  else if bytes < 4 then ignored s 4 n (16 * n)
  else if replay s || !s.rng.bme then editRing s n (fun r => { r with dbs := r.dbs ++ [fld w0 15 0] })
  else doorbell s n (fld w0 15 0)

/-- Recorded doorbells act once the device may act on them (R26, R305). -/
def actDoorbells (s : State) : State :=
  s.rng.rings.foldl (fun s p => p.2.dbs.foldl (fun s i => doorbell s p.1 i) (editRing s p.1 (fun r => { r with dbs := [] }))) s

/-- The kind under which a resume doorbell for kennel slot `i` is ignored (R325). -/
def resumeKind (s : State) (i : Nat) : Option Nat :=
  if !ringEn s 3 then some 3 else if (Tab.find? s.xlat.knl i).isNone then some 5 else none

/-- The kind, and the offset, under which one doorbell with several faults is counted: the first in the order 4, 3, 2, 5 (R325). -/
def firstKind (l : List (Nat × Nat)) : Option (Nat × Nat) :=
  ([4, 3, 2, 5] : List Nat).findSome? (fun k => l.find? (fun p => p.1 == k))

/-- A doorbell write of ring 3 acts, word 0 with its INDEX first, then word 1 with its kennel slot; `part` lists the words that it covers in part.
It is counted once, whatever is wrong with it (R309, R325, R338; log entry 146). -/
def ringThree (s : State) (io : HostIO) (i0 i1 : Option Nat) (part : List (Nat × Nat)) : State :=
  let k0 := i0.bind (indexKind s 3)
  let s := match i0 with
    | some i => if k0.isSome then s else indexAct s 3 i
    | none => s
  let k1 := i1.bind (resumeKind s)
  let s := match i1 with
    | some i => if k1.isSome then s else resumeSlot s io i
    | none => s
  match firstKind (part ++ (k0.map (fun k => (k, 0x30))).toList ++ (k1.map (fun k => (k, 0x34))).toList) with
  | some p => ignored s p.1 3 p.2
  | none => s

/-- RESUME_DOORBELL: a write to ring 3's doorbell slot that covers `bytes` bytes of word 1, and, where `w0` is given, as many bytes of word 0 as that
says; recorded while REPLAY is 1 or Bus Master Enable is 0, but for what is covered in part (R26, R305, R309, R325, R338). -/
def execResumeDoorbell (w0 : Option (Nat × Word)) (bytes : Nat) (w1 : Word) (io : HostIO) (s : State) : Out :=
  let i0 := (w0.filter (fun p => decide (4 ≤ p.1))).map (fun p => fld p.2 15 0)
  let i1 := if 4 ≤ bytes ∧ bit w1 31 then some (fld w1 7 0) else none
  let part := (if w0.any (fun p => decide (p.1 < 4)) then [(4, 0x30)] else []) ++ (if bytes < 4 then [(4, 0x34)] else [])
  .next (
    if hostDeaf s then s
    else if replay s || !s.rng.bme then
      let s := if i0.isNone ∧ i1.isNone then s
        else { s with rng := { s.rng with resumes := s.rng.resumes ++ [(i0, i1)] } }
      ringThree s io none none part
    else ringThree s io i0 i1 part)

/-- The recorded doorbell writes of ring 3 act (R26, R305). -/
def actResumes (s : State) (io : HostIO) : State :=
  s.rng.resumes.foldl (fun s p => ringThree s io p.1 p.2 []) { s with rng := { s.rng with resumes := [] } }

/-- DOORBELL_PRODUCER: a doorbell write to a command ring, of which `bytes` bytes of word 0 are covered (R309, R310). -/
def execDoorbellProducer (ring : RingId) (bytes : Nat) (w0 : Word) (s : State) : Out :=
  .next (if ringClass s ring = 0 then doorbellWrite s ring bytes w0 else s)

/-- DOORBELL_CONSUMER: a doorbell write to a completion or event ring (R309, R311). -/
def execDoorbellConsumer (ring : RingId) (bytes : Nat) (w0 : Word) (s : State) : Out :=
  .next (if ringClass s ring = 0 then s else doorbellWrite s ring bytes w0)

/-! ### NOP and FENCE -/

/-- NOP completes OK with both result words 0 (R315). -/
def execNop (d : Nat) (s : State) : Out :=
  .next (match takeDesc s d 0 with
    | some _ => completeOk s d 0 0
    | none => s)

/-- FENCE completes OK once every earlier descriptor of its ring has completed (R315, R321). -/
def execFence (d : Nat) (s : State) : Out :=
  .next (match takeDesc s d 1 with
    | some _ => completeOk s d 0 0
    | none => s)

/-! ### The bus -/

/-- The messages of unmasked vectors whose pending bit is set are sent, where messages may be sent (R301, R303, R305, R354). -/
def sendPending (s : State) : State :=
  let l := s.evt.pba.filter (fun v => !s.evt.vmask.contains v)
  if !msixOn s then s
  else l.foldl (fun s v => emit s (.msix v))
    { s with evt := { s.evt with pba := s.evt.pba.filter (fun v => s.evt.vmask.contains v) } }

/-- BUS_MASTER_ENABLE: the host has restored the configuration, with the function in D0; held records are written, recorded doorbells act, and
fetching resumes (R301, R305). -/
def execBusMasterEnable (cfg : PcieCfg) (io : HostIO) (s : State) : Out :=
  .next (
    if s.rng.linkUp && !s.rng.bme then
      let s := bset { s with rng := { s.rng with bme := true, cfg := { cfg with d3 := false } } } Reg.hifStatus 17 true
      let s := sendPending (flushEvents (flushCpl s))
      if replay s then s else actResumes (actDoorbells s) io
    else s)

/-- BUS_MASTER_DISABLE: the host clears the bit, or with `d3` puts the function in D3hot; the device issues no read, write or message, and
holds its records (R301, R305). -/
def execBusMasterDisable (d3 : Bool) (s : State) : Out :=
  .next (bset { s with rng := { s.rng with bme := false, cfg := { s.rng.cfg with d3 := d3 } } } Reg.hifStatus 17 false)

/-- The configuration space and the MSI-X table are reset and CFG_RESET is set; rings and registers are kept
(R305). -/
def hotReset (s : State) : State :=
  let s := bset { s with rng := { s.rng with bme := false, linkUp := false, cfg := {} } } Reg.hifStatus 17 false
  let s := { s with evt := { s.evt with vmask := List.range 65, pba := [], tab := [] } }
  setFault s 1

/-- PCIE_LINK_UP: the link is trained and the configuration space answers, with the PCIE domain powered (R301, R305). -/
def execPcieLinkUp (s : State) : Out :=
  .next (if s.pwr.st = 0 then s else { s with rng := { s.rng with linkUp := true } })

/-- MSIX_VECTOR_UNMASK: a vector is unmasked, and its pending message is sent; in DORMANT the host has no access (R18, R303). -/
def execMsixVectorUnmask (v : Fin 65) (s : State) : Out :=
  .next (
    if hostDeaf s then s
    else if regLocked s then hostWait s (0x3FF000C + 16 * v) 4 true [0, 0, 0, 0]
    else
      let s := { s with evt := { s.evt with vmask := setDel s.evt.vmask v } }
      sendPending s)

end Sys2Proof.Machine
end

