-- ==== Sys2Proof/Machine/Dcc.lean ====
section
/-! DEFINITION. The overhead processor: DCC channels, overhead serial ports, order wires (03_sdh_framing_overhead.md, R63 to
R68, R72). -/

namespace Sys2Proof.Machine

/-- Channel fields of an OSP frame at a RATE (R64). -/
def ospFields (rate : Nat) : Nat := if rate = 0 then 32 else if rate = 1 then 16 else 8
/-- Overhead triples of an OSP frame at a RATE (R64). -/
def ospTriples (rate : Nat) : Nat := if rate = 0 then 12 else if rate = 1 then 6 else 3

/-- The words of the other channels as written, with EN = 1. -/
def otherDccs (s : State) (c : Nat) : List Word :=
  ((List.range 256).filter (fun k => k != c && bget s (Reg.ohpDccCtl k) 0)).map (fun k => rd s (Reg.ohpDccCtl k))

/-- A channel word that takes another enabled channel's lane and kind, or, whether or not it enables the channel, its OSP field or
ring, or a field or ring that does not exist (R63). -/
def dccConflict (s : State) (c : Nat) (v : Word) : Bool :=
  let o := otherDccs s c
  (bit v 0 && o.any (fun w => fld w 8 1 == fld v 8 1)) ||
    (if bit v 9 then
      decide (fld v 29 18 < 4) || o.any (fun w => bit w 9 && fld w 29 18 == fld v 29 18)
    else
      decide (ospFields (fget s (Reg.ohpOspCtl (fld v 12 10)) 2 1) ≤ fld v 17 13) ||
        o.any (fun w => !bit w 9 && fld w 17 10 == fld v 17 10))

/-- DCC_CTL_WRITE: checked, and in force from the next frame boundary (R63). -/
def execDccCtlWrite (c : Fin 256) (v : Word) (s : State) : Out :=
  let off := Reg.ohpDccCtl c
  .next (domainWrite s 17 off v (fun s =>
    let old := rd s off
    if bit old 0 && ((old ^^^ v) &&& 0x7FFFFFFE != 0) then ignoredWrite s off
    else if dccConflict s c v then ignoredWrite s off
    else wr s off (v &&& 0x7FFFFFFF)))

/-- OSP_CTL_WRITE: RATE 3, or another RATE while EN is 1, is ignored; in force from the next frame boundary (R72). -/
def execOspCtlWrite (p : Fin 8) (v : Word) (s : State) : Out :=
  let off := Reg.ohpOspCtl p
  .next (domainWrite s 17 off v (fun s =>
    if fld v 2 1 = 3 ∨ (bget s off 0 ∧ fld v 2 1 ≠ fget s off 2 1) then ignoredWrite s off
    else wr s off (v &&& 7)))

/-- OSP_OW_WRITE: a triple enabled for a lane that another enabled triple names is ignored; in force from the next frame
boundary (R64, R72). -/
def execOspOwWrite (i : Fin 96) (v : Word) (s : State) : Out :=
  let off := Reg.ohpOspOw i
  .next (domainWrite s 17 off v (fun s =>
    if bit v 7 && (List.range 96).any (fun k =>
        k != i.val && bget s (Reg.ohpOspOw k) 7 && fget s (Reg.ohpOspOw k) 6 0 == fld v 6 0) then ignoredWrite s off
    else wr s off (v &&& 0xFF)))

/-- Channel `c`, as in force, carries bytes: it is enabled and its lane runs in MODE 0 to 3 (R63). -/
def dccCarries (s : State) (c : Nat) : Bool := bit (dcc s c).ctl 0 && sdhOn s (dccLane (dcc s c).ctl)

/-- The channel in force on field `f` of overhead serial port `p` (R63, R64). -/
def ospChannel (s : State) (p f : Nat) : Option Nat :=
  (List.find? (fun x => bit x.2.ctl 0 && !bit x.2.ctl 9 && fld x.2.ctl 12 10 == p && fld x.2.ctl 17 13 == f)
    s.dccs).map (fun x => x.1)

/-- Triple `k` of port `p` as in force (R64). -/
def ospTriple (s : State) (p k : Nat) : Word := Tab.get s.ohp.ow (12 * p + k) 0

/-- The nine bytes of channel field `f`: those of its channel's lane as last received in full; a field or byte that carries
nothing is a free value (R64, R65). -/
def fieldOut (s : State) (p f : Nat) : List Byte := match ospChannel s p f with
  | some c =>
    if dccCarries s c then
      let oh := (frm s (dccLane (dcc s c).ctl)).oh
      if bit (dcc s c).ctl 1 then (List.range 9).map (fun i => oh.getD (3 + i) 0)
      else (List.range 3).map (fun i => oh.getD i 0) ++ List.replicate 6 0xFF
    else (List.range 9).map (fun i => wordByte (Config.freeValue (s.glb.free + 9 * f + i)) 0)
  | none => (List.range 9).map (fun i => wordByte (Config.freeValue (s.glb.free + 9 * f + i)) 0)

/-- The three bytes of triple `k` (R64, R65). -/
def tripleOut (s : State) (p k : Nat) : List Byte :=
  let w := ospTriple s p k
  if bit w 7 then (List.range 3).map (fun i => (frm s (fld w 6 0)).oh.getD (12 + i) 0)
  else (List.range 3).map (fun i => wordByte (Config.freeValue (s.glb.free + 288 + 3 * k + i)) 0)

/-- Bytes `b` for the next transmitted line frame of lane `n`, from position `i` of D1 to D12, E1, F1, E2 (R65). -/
def putOverhead (s : State) (n i : Nat) (b : List Byte) : State :=
  editFrm s n (fun f =>
    let o := if f.ohTx.length = 15 then f.ohTx else List.replicate 15 0
    { f with ohTx := o.take i ++ b ++ o.drop (i + b.length) })

/-- The input bytes of channel field `f` go to the channel's lane (R64, R65). -/
def fieldIn (s : State) (p f : Nat) (di : List Byte) : State := match ospChannel s p f with
  | some c =>
    if dccCarries s c then
      let b := (di.drop (9 * f)).take 9
      let n := dccLane (dcc s c).ctl
      if bit (dcc s c).ctl 1 then putOverhead s n 3 b else putOverhead s n 0 (b.take 3)
    else s
  | none => s

/-- The input bytes of triple `k` go to its lane (R64, R65). -/
def tripleIn (s : State) (p fields k : Nat) (di : List Byte) : State :=
  let w := ospTriple s p k
  if bit w 7 then putOverhead s (fld w 6 0) 12 ((di.drop (9 * fields + 3 * k)).take 3) else s

/-- OSP_FRAME: one frame out and one frame in of port `p`; a disabled port is driven low and its input reads as zeros
(R64, R65). -/
def execOspFrame (p : Fin 8) (di : List Byte) (s : State) : Out :=
  let w := Tab.get s.ohp.osp p 0
  let n := ospFields (fld w 2 1)
  let t := ospTriples (fld w 2 1)
  let di := if bit w 0 then di ++ List.replicate (9 * n + 3 * t - di.length) 0 else List.replicate (9 * n + 3 * t) 0
  .next (
    let s' :=
      if bit w 0 then
        wire { s with glb := { s.glb with free := s.glb.free + 324 } } "osp" p
          ((List.range n).flatMap (fieldOut s p) ++ (List.range t).flatMap (tripleOut s p))
      else s
    let s' := (List.range n).foldl (fun s f => fieldIn s p f di) s'
    (List.range t).foldl (fun s k => tripleIn s p n k di) s')

/-! ### Frames of host-mode channels -/

/-- A received frame is discarded and counted in OHP_DCC_RX_BAD (R66). -/
def hdlcBad (v : Word) (f : HdlcRx) : Bool :=
  let n := f.bytes.length - fcsLen v
  let body := f.bytes.take n
  f.failed || f.abort || decide (f.bytes.length < 2 + fcsLen v) || decide (1600 < n) ||
    f.bytes.drop n != fcsOf (bit v 30) body

/-- A buffer opcode may be posted: fetched, not frozen, the leash held, the device active, and every earlier buffer of its
ring posted before it; with FENCE_BEFORE every earlier one has completed (R68, R321, R322). -/
def mayPost (s : State) (d : Desc) : Bool :=
  d.st == 0 && !d.frozen && s.mtx.held && !s.mtx.handover && activeNow s &&
    s.rng.descs.all (fun e => !(e.ring == d.ring && decide (e.id < d.id)) || (!d.fence && e.st != 0))

/-- DCC_RX_BUF: a fetched receive buffer waits for a frame (R68, R333). -/
def execDccRxBuf (d : Nat) (s : State) : Out :=
  .next (match desc? s d with
    | none => s
    | some x =>
      if x.op = 0x29 ∧ mayPost s x then
        if rangeBad s x then invalid s d 0xF4
        else match dccRing s x.ring with
          | none => s
          | some c =>
            editDcc (editDesc s d (fun x => { x with st := 1, bound := some (0x29, c) })) c
              (fun q => { q with rxb := q.rxb ++ [d] })
      else s)

/-- DCC_FRAME_RX: the oldest frame that the channel's stream has yielded is discarded as bad, dropped and counted, or written to the
next buffer; while no half holds the leash none is assigned (R66, R68, R314, R366; log entry 148). -/
def execDccFrameRx (c : Fin 256) (io : HostIO) (s : State) : Out :=
  let v := (dcc s c).ctl
  .next (match (dcc s c).rxDone with
    | [] => s
    | f :: r =>
      let s := editDcc s c (fun q => { q with rxDone := r })
      if hdlcBad v f then count s (Reg.ohpDccRxBad c) 1
      else
        let body := f.bytes.take (f.bytes.length - fcsLen v)
        match (dcc s c).rxb.filterMap (desc? s) with
        | [] => dropFrame s (some (0x29, c))
        | x :: _ =>
          if replay s || !s.mtx.held || !s.rng.bme || x.frozen || decide (x.len < body.length) then dropFrame s (some (0x29, c))
          else
            let s := editDcc (setDesc s x.id 2) c (fun q => { q with rxb := setDel q.rxb x.id })
            deliver s io x body (w32 body.length) (w32 c))

/-- Descriptor `id` of opcode `op`, which reads an input buffer, if it may be taken now; a READY context of it leaves the
kennel (R336 to R338). -/
def takeInput (s : State) (id op : Nat) : Option (State × Desc) := match takeDesc s id op with
  | none => none
  | some d => (unpark s id).map (fun s => (s, d))

/-- DCC_TX: a frame joins its channel's queue of eight (R67). -/
def execDccTx (d : Nat) (io : HostIO) (s : State) : Out :=
  .next (match takeInput s d 0x28 with
    | none => s
    | some (s', x) =>
      let c := fld (x.w 6) 7 0
      let v := (dcc s c).ctl
      if rangeBad s x then invalid s' d 0xF4
      else if !bit v 0 || !bit v 9 || !laneEn s (dccLane v) || x.len == 0 || decide (1600 < x.len) then invalidOpen s' d
      else if 8 ≤ (dcc s c).txq.length then s
      else withInput s' io x x.len (fun s b =>
        editDcc (editDesc s d (fun x => { x with st := 1, bound := some (0x28, c) })) c
          (fun q => { q with txq := q.txq ++ [(d, b)] })))

/-- The D bytes of channel `c` for the next transmitted line frame: its stream goes on by three or nine bytes; a frame whose opening
flag goes out has reached its descriptor's commit point, which none does while no half holds the leash (R66, R67, R314, R366). -/
def dccOpen (s : State) (c : Nat) : State :=
  if dccCarries s c && bit (dcc s c).ctl 9 then
    let q := dcc s c
    let n := if bit q.ctl 1 then 9 else 3
    let r :=
      if s.mtx.held || q.opened then q.txTake (8 * n)
      else
        let r := { q with txq := [] }.txTake (8 * n)
        (r.1, { r.2 with txq := q.txq })
    let s := match q.txq with
      | (d, _) :: _ => if r.2.opened && !q.opened then setDesc s d 2 else s
      | [] => s
    putOverhead (editDcc s c (fun _ => r.2)) (dccLane q.ctl) (if n = 9 then 3 else 0) (bitsBytes r.1)
  else s

/-- DCC_TX_SENT: the closing flag has been sent, and the descriptor completes OK with the bytes sent (R66, R67). -/
def execDccTxSent (c : Fin 256) (s : State) : Out :=
  .next (match (dcc s c).txq with
    | [] => s
    | (d, b) :: r =>
      if (dcc s c).opened && (dcc s c).txLeft == 0 then
        completeOk (editDcc s c (fun q => { q with txq := r, opened := false })) d
          (w32 (b.length + fcsLen (dcc s c).ctl)) 0
      else s)

end Sys2Proof.Machine
end

