-- ==== Sys2Proof/Machine/Path.lean ====
section
/-! DEFINITION. Pointers, TU multiframes, path overhead, mapping and demapping, path configuration
(04_pointers_mapping.md, R74 to R100). -/

namespace Sys2Proof.Machine

/-! ### Kinds of path -/

/-- The path at `a` has high-order overhead: a high-order path or a TU-3 (R83, R84). -/
def hoPoh (s : State) (a : Word) : Bool := saTier a == 0 || tuType? s a == some 3
/-- HO_TYPE of the container at a tier 0 address. -/
def hoTy (s : State) (a : Word) : Nat := (container s (saLane a) (saIdx a)).2
/-- Largest pointer value of the path at `a` (R77). -/
def ptrMax (s : State) (a : Word) : Nat :=
  if saTier a = 0 then 782
  else match tuType? s a with
    | some 0 => 139
    | some 1 => 103
    | some 2 => 427
    | _ => 764
/-- AU-4 in the container at a tier 0 address; 1 for every other path (R79). -/
def memberCount (s : State) (a : Word) : Nat :=
  if saTier a = 0 ∧ 2 ≤ hoTy s a then hoSpan (hoTy s a) / 3 else 1
/-- Bytes of one justification unit of the path at `a` (R80). -/
def unitBytes (s : State) (a : Word) : Nat :=
  if saTier a = 0 ∧ hoTy s a ≠ 1 then 3 * memberCount s a else 1
/-- Bytes of the container of the path at `a` in one period (R84, R91). -/
def contBytes (s : State) (a : Word) : Nat :=
  if saTier a = 0 then 783 * hoSpan (hoTy s a)
  else match tuType? s a with
    | some 0 => 140
    | some 1 => 104
    | some 2 => 428
    | _ => 765
/-- Blocks of the path at `a` in one second (R84). -/
def pathBlocks (s : State) (a : Word) : Nat := if hoPoh s a then 8000 else 2000
/-- The path at `a` exists on a lane enabled in MODE 0 to 3 (R78). -/
def pathOn (s : State) (a : Word) : Bool := isPath s a && sdhOn s (saLane a)
/-- SS of the pointers of lane `n`: 0b10 for SDH, 0b00 for SONET (R81). -/
def ssBits (s : State) (n : Nat) : Nat := if bit (frm s n).ctl 0 then 0 else 2
/-- The first `n` bytes of `l`, ones where there are fewer. -/
def fitBytes (n : Nat) (l : List Byte) : List Byte := l.take n ++ List.replicate (n - l.length) 0xFF
/-- The path at `a` is on and its lane receives: in any other state than UP it presents no signal (R35, R78). -/
def pathRx (s : State) (a : Word) : Bool := pathOn s a && laneState s (saLane a) == 4
/-- What the output at the place of the path at `a` sends on its lane, which a near-end loopback brings back (R45, R193). -/
def ownOut (s : State) (a : Word) : OutSt := Tab.get s.outs (setFld a 22 16 (txFrom s (saLane a))).toNat {}
/-- The bytes that reach the path at `a` when `balls` is what the balls receive: in near-end loopback `own`, which the lane has sent there, or
all ones under FORCE_MS_AIS, or the bits of its PRBS generator; nothing of the balls then counts (R45, R46, R61). -/
def pathTaken (s : State) (a : Word) (own balls : List Byte) : List Byte :=
  let n := saLane a
  if loopOf s n ≠ 1 then balls
  else if genOn s n then fitBytes balls.length (laneSt s n).serOut
  else if bit (frm s n).ctl 13 then List.replicate balls.length 0xFF
  else own
/-- The pointer bytes that the lane sends for member `m` of the container at `a` (R79, R81). -/
def ownHead (s : State) (a : Word) (m : Nat) : List Byte :=
  if m = 0 then (ownOut s a).head
  else if (ownOut s a).ones then [0xFF, 0xFF] else [BitVec.ofNat 8 (0x93 + 4 * ssBits s (saLane a)), 0xFF]
/-- The TUs inside the high-order path at `h` (R75). -/
def tusOf (s : State) (h : Word) : List Word :=
  (rangeFrom (saIdx h) (hoSpan (hoTy s h))).flatMap (fun i =>
    (List.range 8).flatMap (fun g => ((List.range 4).filter (fun t =>
      (tuUnder (structWord s (saLane h) i) g t).isSome)).map (fun t => loAddr (saLane h) i g t)))
/-- The interpreter of the high-order path at `h` is in NORM (R78, R79). -/
def hoNorm (s : State) (h : Word) : Bool := (path s h).ptr == 0 && !(path s h).concLop
/-- Path overhead of the path at `a` is read in this period (R83). -/
def pohRead (s : State) (a : Word) : Bool :=
  if saTier a = 0 then hoNorm s a
  else (path s a).ptr == 0 && hoNorm s (hoOf s a) && (path s (hoOf s a)).inMf

/-- Counter word `i` of the path's record counts `n` more while the counters run (R97, R98). -/
def pcount (s : State) (a : Word) (i n : Nat) : State :=
  editPath s a (fun p =>
    if p.cntRun then
      let c := if p.cnt.length = 15 then p.cnt else List.replicate 15 0
      { p with cnt := listPut c (i - 1) (c.getD (i - 1) 0 + w32 n) }
    else p)

/-! ### Pointer interpretation -/

/-- Classes of a received pointer (R77). -/
inductive PtrClass where
  | norm | inc | dec | ndf | new | ais | inv
  deriving DecidableEq, Repr

/-- Ten-bit value of a pointer (R77). -/
def ptrValue (b0 b1 : Byte) : Nat := b0.toNat % 4 * 256 + b1.toNat
/-- NDF of a pointer (R77). -/
def ptrNdf (b0 : Byte) : Nat := b0.toNat / 16
/-- Two NDFs agree in at least 3 of 4 bits (R77). -/
def ndfMatch (a b : Nat) : Bool := decide (popc 4 (Nat.xor a b) ≤ 1)
/-- I bits of the ten value bits, and D bits (R77; G.707 numbering). -/
def iBits : Nat := 0x2AA
/-- D bits of the ten value bits. -/
def dBits : Nat := 0x155

/-- The class of a received pointer against the active value; `since` counts the periods from the last change of that
value, this one included (R77). -/
def ptrClass (max : Nat) (active : Option Nat) (since : Nat) (b0 b1 : Byte) : PtrClass :=
  let v := ptrValue b0 b1
  let normal := ndfMatch (ptrNdf b0) 6
  if b0 = 0xFF ∧ b1 = 0xFF then .ais
  else if ndfMatch (ptrNdf b0) 9 then (if v ≤ max then .ndf else .inv)
  else if !normal then .inv
  else match active with
    | none => if v ≤ max then .new else .inv
    | some a =>
      let x := Nat.xor v a
      let i := decide (3 ≤ popc 10 (Nat.land x iBits))
      let d := decide (3 ≤ popc 10 (Nat.land x dBits))
      if v = a ∧ v ≤ max then .norm
      else if i && !d then (if 4 ≤ since then .inc else .inv)
      else if d && !i then (if 4 ≤ since then .dec else .inv)
      else if v ≤ max then .new else .inv

/-- The interpreter takes `v` as its active value. DESIGN CHOICE (log entry 124): the elastic store and the output position stay as they are; R80
does not say what a new value does to them. -/
def PathSt.take (p : PathSt) (v : Nat) : PathSt :=
  if p.active = some v then p else { p with active := some v, since := 0 }

/-- The interpreter enters LOP (1) or AIS (2). -/
def PathSt.fail (p : PathSt) (st : Nat) : PathSt :=
  { p with ptr := st, invRun := 0, ndfRun := 0, aisRun := 0, newRun := 0, bip := none, txRei := 0 }

/-- The interpreter enters NORM with value `v`, its store centred and its output position kept (DESIGN CHOICE, log entry 124). -/
def PathSt.enter (p : PathSt) (v : Nat) : PathSt :=
  { p.take v with ptr := 0, invRun := 0, ndfRun := 0, aisRun := 0, newRun := 0, fill := 0 }

/-- One received pointer of class `c` and value `v` (R78). -/
def ptrStep (p : PathSt) (c : PtrClass) (v max : Nat) : PathSt :=
  let run := if c = PtrClass.new ∨ c = PtrClass.norm then (if p.newRun ≠ 0 ∧ p.newVal = v then min 3 (p.newRun + 1) else 1) else 0
  let p := { p with
    since := min 4 (p.since + 1)
    newVal := v
    newRun := run
    invRun := if c = PtrClass.inv then min 8 (p.invRun + 1) else 0
    ndfRun := if c = PtrClass.ndf then min 8 (p.ndfRun + 1) else 0
    aisRun := if c = PtrClass.ais then min 3 (p.aisRun + 1) else 0 }
  match p.ptr with
  | 0 =>
    if p.aisRun = 3 then p.fail 2
    else if p.invRun = 8 ∨ p.ndfRun = 8 then p.fail 1
    else match c with
      | .ndf => p.take v
      | .new => if run = 3 then p.take v else p
      | .inc => p.take ((p.active.getD 0 + 1) % (max + 1))
      | .dec => p.take ((p.active.getD 0 + max) % (max + 1))
      | _ => p
  | 1 => if p.aisRun = 3 then p.fail 2 else if run = 3 then p.enter v else p
  | _ => if c = PtrClass.ndf ∨ run = 3 then p.enter v else if p.invRun = 8 then p.fail 1 else p

/-- The asynchronously mapped E1 or T1 of the TU at `a` is taken out of it: it is terminated or an endpoint (R91, R95). -/
def demapped (s : State) (a : Word) : Bool :=
  (tuType? s a == some 0 || tuType? s a == some 1) && !bit (pathCfg s a).w7 11 &&
    ((termOf s a).isSome || (ccOf s 1 a).isSome || (validItems s).any (Staged.takesTu a))

/-- The leak queue holds `q`; above 48 bits it leaks one bit every 125 µs until 16 or fewer remain (R95). -/
def PathSt.queueLeak (p : PathSt) (q : Int) : PathSt :=
  { p with leakQ := q, leakFast := if 48 < iabs q then true else if iabs q ≤ 16 then false else p.leakFast }

/-- Bytes of the TU at `t`, in 10^-8, that `u` bytes of its high-order path at `h` hold on average: rounded toward zero (R80; DEDUCED, log entry
104). -/
def tuShare (s : State) (h t : Word) (u : Nat) : Int :=
  (u * 10 ^ 8 * contBytes s t / (contBytes s h * (if hoPoh s t then 1 else 4)) : Nat)

/-- A justification accepted on the path at `a`: counted and taken by the elastic store; one of a high-order path moves the stores of
the TUs inside it by their share (R78, R80, R95, R97). -/
def justify (s : State) (a : Word) (pos : Bool) : State :=
  let s := pcount s a (if pos then 11 else 12) 1
  let n := unitBytes s a
  let move := fun (s : State) (b : Word) (u : Int) =>
    editPath s b (fun p => { p with fill := if pos then p.fill - u else p.fill + u })
  let s := move s a ((n * 10 ^ 8 : Nat) : Int)
  if saTier a = 0 then (tusOf s a).foldl (fun s t => move s t (tuShare s a t n)) s else s

/-- Every TU of the high-order path at `h` enters AIS (R82, R86). -/
def tusAis (s : State) (h : Word) : State :=
  (tusOf s h).foldl (fun s a => editPath s a (fun p => p.fail 2)) s

/-- The list with `n` for member `m`. -/
def putMember (l : List (Nat × Nat)) (m n : Nat) : List (Nat × Nat) := (m, n) :: l.filter (fun p => p.1 != m)
/-- The number listed for member `m`. -/
def getMember (l : List (Nat × Nat)) (m : Nat) : Nat := Tab.get l m 0

/-- Concatenation: a member's pointer of this frame; a member is in AIS from its third AIS_IND in a row on, until a pointer is no
AIS_IND (R79; DEDUCED, log entry 105). -/
def memberStep (p : PathSt) (m : Nat) (b0 b1 : Byte) : PathSt :=
  let ind := ptrNdf b0 == 9 && ptrValue b0 b1 == 1023
  let ais := b0 == 0xFF && b1 == 0xFF
  let run := if ais then min 3 (getMember p.concAis m + 1) else 0
  { p with
    concAis := putMember p.concAis m run
    concBad := putMember p.concBad m (if ind || run == 3 then 0 else min 8 (getMember p.concBad m + 1))
    concOk := putMember p.concOk m (if ind || ais then min 3 (getMember p.concOk m + 1) else 0) }

/-- The container is in LOP, or leaves it (R79). -/
def concState (p : PathSt) (n : Nat) : PathSt :=
  if n ≤ 1 then { p with concLop := false }
  else if p.ptr = 1 ∨ p.concBad.any (fun x => decide (8 ≤ x.2)) then { p with concLop := true, bip := none, txRei := 0 }
  else if (rangeFrom 1 (n - 1)).all (fun m => getMember p.concOk m == 3) then { p with concLop := false }
  else p

/-- The reported defects of the path at `a`, and for a high-order path of the TUs inside it, are read again, and protection
follows (R85, R86). -/
def followPath (s : State) (a : Word) : State :=
  let s := refreshPath s a
  let s := if saTier a = 0 then (tusOf s a).foldl refreshPath s else s
  refreshConds s

/-- One pointer of the path at `a`: that of the path itself (member 0) or a concatenation member's (R77 to R79, R86). -/
def pointerStep (s : State) (a : Word) (m : Nat) (b0 b1 : Byte) : State :=
  let p := path s a
  let max := ptrMax s a
  let n := memberCount s a
  let c := ptrClass max p.active (min 4 (p.since + 1)) b0 b1
  let was := p.has false 0 || p.has false 1
  let s := editPath s a (fun p =>
    concState (if m = 0 then ptrStep p c (ptrValue b0 b1) max else memberStep p m b0 b1) n)
  let s := if m = 0 ∧ p.ptr = 0 ∧ c = PtrClass.ndf then unverifyPath s a else s
  let s := if m = 0 ∧ p.ptr = 0 ∧ c = PtrClass.inc then justify s a true else s
  let s := if m = 0 ∧ p.ptr = 0 ∧ c = PtrClass.dec then justify s a false else s
  let p' := path s a
  let s := if saTier a = 0 && (p'.has false 0 || p'.has false 1) && !was then tusAis s a else s
  followPath s a

/-- POINTER_RX: one received pointer; a lane with AU-AIS downstream shows all ones, and the TUs of a path that is not in
NORM or in LOM have no pointer to read (R56, R57, R77 to R79, R82). -/
def execPointerRx (path : Word) (member : Nat) (b0 b1 : Byte) (s : State) : Out :=
  .next (
    let taken := pathTaken s path (ownHead s path member) [b0, b1]
    let b0 := taken.getD 0 0
    let b1 := taken.getD 1 0
    if !pathRx s path || decide (memberCount s path ≤ member) then s
    else if saTier path = 0 then
      if (frm s (saLane path)).auAis then pointerStep s path member 0xFF 0xFF else pointerStep s path member b0 b1
    else if hoNorm s (hoOf s path) && !(Sys2Proof.Machine.path s (hoOf s path)).lom then
      pointerStep s path member b0 b1
    else s)

/-! ### TU multiframe -/

/-- A period in which path overhead is not read: no parity is held for the next block, no REI goes back, and a trace message that it interrupts is
none, which leaves the run of messages as it is (R83, R87). -/
def PathSt.unread (p : PathSt) : PathSt := { p with bip := none, txRei := 0, trPart := [] }

/-- One received H4 value (R82). DESIGN CHOICE (log entry 125): a value follows or breaks the sequence against the last value received, and not
against the phase that is followed. -/
def h4Step (p : PathSt) (v : Nat) : PathSt :=
  let follows := v == (p.h4Last + 1) % 4
  let ok := if follows then min 8 (p.h4Ok + 1) else 0
  let bad := if follows then 0 else min 8 (p.h4Bad + 1)
  let inMf := if p.inMf then !(decide (2 ≤ bad)) else decide (2 ≤ ok)
  { p with
    h4Last := v, h4Ok := ok, h4Bad := bad, inMf := inMf
    mfPhase := if inMf && ok != 0 then v else (p.mfPhase + 1) % 4
    oomRun := if inMf then 0 else min 8 (p.oomRun + 1)
    mfRun := if inMf then min 8 (p.mfRun + 1) else 0 }

/-- LOM_CHANGE: the H4 byte of one frame of a high-order path with a structured index; LOM is declared after 8 frames of OOM
and clears after 8 in multiframe; in a frame outside NORM the phase goes on and nothing else moves (R82). DESIGN CHOICE (log entry 126): a LOM that stands when a PATH_CFG takes
away the last structured index of the path stays declared; H4 is no longer followed. -/
def execLomChange (path : Word) (h4 : Byte) (s : State) : Out :=
  .next (
    let h4 := (pathTaken s path [(ownOut s path).sent.getD (5 * (contBytes s path / 9)) 0] [h4]).getD 0 0
    if !pathRx s path || saTier path != 0 || (tusOf s path).isEmpty then s
    else if !hoNorm s path then
      editPath s path (fun p => { p with h4Last := (p.h4Last + 1) % 4, mfPhase := (p.mfPhase + 1) % 4 })
    else
      let was := (Sys2Proof.Machine.path s path).lom
      let s := editPath s path (fun p =>
        let p := h4Step p (h4.toNat % 4)
        { p with lom := if p.oomRun = 8 then true else if p.mfRun = 8 then false else p.lom })
      let s := if (Sys2Proof.Machine.path s path).inMf then s
        else (tusOf s path).foldl (fun s t => editPath s t PathSt.unread) s
      let now := (Sys2Proof.Machine.path s path).lom
      if now == was then s else followPath (if now then tusAis s path else s) path)

/-! ### Path overhead -/

/-- TRACE of a path configuration (R74). -/
def pathTrace (c : PathCfg) : Nat := fld c.w7 5 4

/-- UNEQ, PLM and TIM of the path at `a` as its accepted label and trace and its configuration give them; without MON no
overhead defect stands (R84). -/
def evalPath (s : State) (a : Word) : State :=
  let c := pathCfg s a
  editPath s a (fun p =>
    if bit c.w7 3 then
      { p with
        uneq := p.label == some 0
        plm := bit c.w7 7 && (match p.label with
          | some l => l != 0 && l != 1 && l != fld c.w8 15 8
          | none => false)
        tim := pathTrace c != 0 && (match p.trace with
          | some t => !traceEq (pathTrace c) t (c.trExp.take t.length)
          | none => false) }
    else { p with
      uneq := false, plm := false, tim := false, rdi := false, rfi := false, exc := false, deg := false
      excRun := 0, degRun := 0, rdiRun := 0, rfiRun := 0, bip := none, txRei := 0 })

/-- One received label: accepted after five identical ones (R83). -/
def labelStep (p : PathSt) (v : Nat) : PathSt :=
  let run := if p.lblRun ≠ 0 ∧ p.lblLast = v then min 5 (p.lblRun + 1) else 1
  { p with lblLast := v, lblRun := run, label := if run = 5 then some v else p.label }

/-- One complete trace message: three identical ones are accepted (R59, R83). -/
def traceMessage (p : PathSt) (m : Nat) (msg : List Byte) : PathSt :=
  if !traceValid m msg then { p with trPart := [], trRun := 0, trLast := [] }
  else
    let run := if p.trRun ≠ 0 ∧ p.trLast = msg then min 3 (p.trRun + 1) else 1
    { p with trPart := [], trLast := msg, trRun := run, trace := if run = 3 then some msg else p.trace }

/-- One received trace byte in form `m`, with the message boundaries of R59 (R83). -/
def traceStep (p : PathSt) (m : Nat) (b : Byte) : PathSt :=
  let r := traceByte m p.trPart b
  match r.2 with
  | some msg => traceMessage p m msg
  | none => { p with trPart := r.1 }

/-- A persistence count of 5 against a present state: the new state and count (R84). -/
def fiveRun (now rx : Bool) (run : Nat) : Bool × Nat :=
  if rx == now then (now, 0) else if run + 1 = 5 then (rx, 0) else (now, run + 1)

/-- BIP-2 of a container from its bytewise parity, in bits [7:6] (R83). -/
def bip2Of (x : Byte) : Nat := 2 * (popc 8 (Nat.land x.toNat 0xAA) % 2) + popc 8 (Nat.land x.toNat 0x55) % 2

/-- The violations of one block and the BIP kept for the next one (R83, R84). -/
def blockBip (p : PathSt) (ho : Bool) (data : List Byte) (rx : Byte) : Nat × Byte :=
  let x := xorAll data
  let now : Byte := if ho then x else BitVec.ofNat 8 (bip2Of x)
  let got : Byte := if ho then rx else BitVec.ofNat 8 (rx.toNat / 64)
  (match p.bip with
    | some b => ones (b ^^^ got)
    | none => 0, now)

/-- One block of the path at `a`: BIP, REI, label, trace, RDI and RFI (R83, R84, R87, R97). -/
def pohStep (s : State) (a : Word) (data : List Byte) : State :=
  let ho := hoPoh s a
  let m := pathTrace (pathCfg s a)
  let row := data.length / 9
  let q := data.length / 4
  let v5 := data.getD 0 0
  let g1 := data.getD (3 * row) 0
  let r := blockBip (path s a) ho data (if ho then data.getD row 0 else v5)
  let rei := if ho then (if g1.toNat / 16 ≤ 8 then g1.toNat / 16 else 0) else b2n (v5.getLsbD 5)
  let s := if r.1 = 0 then s else pcount (pcount s a 1 r.1) a 2 1
  let s := if rei = 0 then s else pcount (pcount s a 3 rei) a 4 1
  let s := editPath s a (fun p =>
    let p := labelStep p (if ho then (data.getD (2 * row) 0).toNat else v5.toNat / 2 % 8)
    let p := traceStep p m (if ho then data.getD 0 0 else data.getD q 0)
    let d := fiveRun p.rdi (if ho then g1.getLsbD 3 else v5.getLsbD 0) p.rdiRun
    let f := fiveRun p.rfi (!ho && v5.getLsbD 4) p.rfiRun
    { p with
      bip := some r.2, ebLast := r.1 != 0, ebs := ((r.1 != 0) :: p.ebs).take 3300, txRei := if ho then min 8 r.1 else b2n (r.1 != 0)
      rdi := d.1, rdiRun := d.2, rfi := f.1, rfiRun := f.2
      secNow := { p.secNow with eb := p.secNow.eb + b2n (r.1 != 0), feb := p.secNow.feb + b2n (rei != 0) } })
  followPath (evalPath s a) a

/-- A count of seconds against a present state: the new state and count (R84). -/
def secondRun (now above : Bool) (run need : Nat) : Bool × Nat :=
  if above == now then (now, 0) else if need ≤ run + 1 then (above, 0) else (now, run + 1)

/-- PATH_SECOND_EVAL: the errored blocks of the second that has ended against EXCTHR and DEGTHR (R84). -/
def execPathSecondEval (path : Word) (s : State) : Out :=
  let c := pathCfg s path
  .next (
    if pathOn s path && bit c.w7 3 && (Sys2Proof.Machine.path s path).due then
      let n := pathBlocks s path
      let s := editPath s path (fun p =>
        let eb := (p.secs.getLast?.getD {}).eb
        let e := secondRun p.exc (decide (fld c.w9 6 0 * n ≤ eb * 100)) p.excRun 2
        let d := secondRun p.deg (decide (fld c.w8 22 16 * n ≤ eb * 100)) p.degRun (fld c.w8 26 23)
        { p with due := false, exc := e.1, excRun := e.2, deg := d.1, degRun := d.2 })
      followPath s path
    else s)

/-! ### Marker channels -/

/-- CRC-8 of a marker, x^8 + x^2 + x + 1 (R88). -/
def markerCrc (m : Nat) : Nat := crcBytes 8 7 0 (natBe 2 m)

/-- Units of one marker group: four bytes, or eight nibbles (R88). -/
def groupLen (ho : Bool) : Nat := if ho then 4 else 8

/-- The bytes of a marker group: four bytes, or eight nibbles (R88). -/
def markerGroup (ho : Bool) (m : Nat) : List Byte :=
  if ho then [0x69] ++ natBe 2 m ++ natBe 1 (markerCrc m)
  else ([6, 9, m / 4096 % 16, m / 256 % 16, m / 16 % 16, m % 16, markerCrc m / 16, markerCrc m % 16]).map (BitVec.ofNat 8)

/-- The marker of the group under way, and which of its units this period has: groups begin at frames 0, 4, 8 and 12 of a superframe on
high-order paths, and with every even superframe on low-order paths (R88, R210). -/
def markerSlot (s : State) (ho : Bool) : Nat × Nat :=
  let f := s.glb.frame
  let sf := frameSfc s
  if ho then ((4 * sf + f / 4) % 65536, f % 4) else (sf / 2, sf % 2 * 4 + f / 4)

/-- The marker value of the group that begins now on a path; none where no group begins in this frame (R210). -/
def markerNow (s : State) (ho : Bool) : Option Nat :=
  if (markerSlot s ho).2 = 0 ∧ (ho ∨ s.glb.frame = 0) then some (markerSlot s ho).1 else none

/-- A container with the unit of this period in its marker channel, F2 or K4 [3:0], and with its parity byte, B3 or V5 [7:6], changed by
`fix`; what the marker changes in the parity sent with the next container (R88, R89). -/
def putMarker (s : State) (ho : Bool) (fix : Byte) (c : List Byte) : List Byte × Byte :=
  let m := markerSlot s ho
  let u := (markerGroup ho m.1).getD m.2 0
  let i := if ho then 4 * (c.length / 9) else 3 * (c.length / 4)
  let old := c.getD i 0
  let new := if ho then u else (old &&& 0xF0) ||| u
  let j := if ho then c.length / 9 else 0
  let d := listPut (listPut c i new) j (c.getD j 0 ^^^ fix)
  let x := xorAll c ^^^ xorAll d
  (d, if ho then x else BitVec.ofNat 8 (64 * bip2Of x))

/-- Byte `i` of the container of the path at `a` is payload: no path overhead and no fixed stuff, which columns 2 to N of a VC-4-Nc and 30
and 59 of a VC-3 in an AU-3 are (R132; log entry 99). -/
def isPayload (s : State) (a : Word) (i : Nat) : Bool :=
  if saTier a = 0 then
    let c := i % (contBytes s a / 9)
    if hoTy s a = 1 then c != 0 && c != 29 && c != 58 else decide (memberCount s a ≤ c)
  else if tuType? s a = some 3 then i % 85 != 0
  else i % (contBytes s a / 4) != 0

/-- The payload bytes of a container of the path at `a` (R132). -/
def payloadOf (s : State) (a : Word) (data : List Byte) : List Byte :=
  ((List.range data.length).filter (isPayload s a)).map (fun i => data.getD i 0)

/-- The source `src`, read at slot `r`, shows all ones: it has no content, lies on a protection lane that carries a working channel, or has a
consequent action downstream (R56, R86, R148, R193). -/
def sourceOnes (s : State) (src r : Word) : Bool :=
  !hasContent s src || mspTaken s src || (frm s (saLane r)).auAis || (path s r).downAis ||
    (saTier r == 1 && (path s (hoOf s r)).downAis)

/-- Content `b` of slot `a` enters its store: the pattern monitors set to the slot have it to check (R134). DESIGN CHOICE (log entry 131): they
have it unchanged where a section of it is unrecovered; R138 does not say what they receive there. -/
def feedMonitors (s : State) (a : Word) (b : List Byte) : State :=
  let l := s.fab.pmonOn.filter (fun m => rd s (Reg.fabPmonSlot m) == a)
  if l.isEmpty then s
  else { s with fab := { s.fab with
    pmonIn := l.foldl (fun t m => Tab.put t m (Tab.get t m [] ++ b)) s.fab.pmonIn } }

/-- The container of this period goes into the store of the path at `a`, with its marker where MARK_TX writes one; a path in LOP or
AIS is written as all ones, with no marker, and the store of a slot that shows all ones holds them (R80, R89, R125, R134). -/
def storeData (s : State) (a : Word) (data : List Byte) : State :=
  let p := path s a
  let r := if bit (pathCfg s a).w7 9 && p.ptr == 0 && !p.concLop then putMarker s (hoPoh s a) p.mkFix data else (data, 0)
  let shown := if p.ptr = 0 ∧ !p.concLop then r.1 else List.replicate data.length 0xFF
  let s := if s.fab.pmonOn.isEmpty then s
    else feedMonitors s a (payloadOf s a (if sourceOnes s a a then List.replicate data.length 0xFF else shown))
  editPath s a (fun p => { p with prev := p.data, data := shown, mkFix := r.2 })

/-- The marker of a window of units, newest first, if it is a valid group (R88, R90). -/
def markerOf (ho : Bool) (w : List Byte) : Option Nat :=
  let l := (w.reverse).map (fun b => b.toNat)
  if ho then
    if l.length = 4 ∧ l.getD 0 0 = 0x69 then
      let m := l.getD 1 0 * 256 + l.getD 2 0
      if l.getD 3 0 = markerCrc m then some m else none
    else none
  else
    let n := l.map (fun b => b % 16)
    if n.length = 8 ∧ n.getD 0 0 = 6 ∧ n.getD 1 0 = 9 then
      let m := n.getD 2 0 * 4096 + n.getD 3 0 * 256 + n.getD 4 0 * 16 + n.getD 5 0
      if n.getD 6 0 * 16 + n.getD 7 0 = markerCrc m then some m else none
    else none

/-- One unit of a marker channel: channel lock, and the marker delivered while locked (R90). -/
def markStep (p : PathSt) (ho : Bool) (u : Byte) : PathSt × Option Nat :=
  let len := groupLen ho
  let win := (u :: p.mkWin).take len
  let g := markerOf ho win
  let p := { p with mkWin := win }
  if p.mkLock then
    if 1 < p.mkPos then ({ p with mkPos := p.mkPos - 1 }, none)
    else match g with
      | some m => ({ p with mkPos := len, mkBad := 0 }, some m)
      | none =>
        if p.mkBad + 1 < 3 then ({ p with mkPos := len, mkBad := p.mkBad + 1 }, none)
        else ({ p with mkLock := false, mkBad := 0, mkPos := 0, mkHits := [] }, none)
  else
    let hits := (p.mkHits.map (fun n => n + 1)).filter (fun n => decide (n ≤ len))
    match g with
    | some _ =>
      if hits.contains len then ({ p with mkLock := true, mkPos := len, mkBad := 0, mkHits := [] }, none)
      else ({ p with mkHits := 0 :: hits }, none)
    | none => ({ p with mkHits := hits }, none)

/-- One unit of the marker channel of the path at `a`: a change of lock raises MARK_LOCK (R90, R100). -/
def markUnit (s : State) (a : Word) (u : Byte) : State × Option Nat :=
  let ho := hoPoh s a
  let was := (path s a).mkLock
  let r := markStep (path s a) ho (if pohRead s a then u else 0xFF)
  let s := editPath s a (fun _ => r.1)
  (if r.1.mkLock != was && monitored s a then pathEvent s a 0x5B r.1.mkLock else s, r.2)

/-- POH_RX: the received container of one period: it goes into the store, and the overhead of a monitored path is read where the period
shows it (R80, R83, R84, R89). -/
def execPohRx (path : Word) (data : List Byte) (s : State) : Out :=
  .next (
    let data := pathTaken s path (ownOut s path).sent data
    if pathRx s path && data.length == contBytes s path then
      let s := storeData s path data
      if !monitored s path then s
      else if pohRead s path then pohStep s path data
      else editPath s path (fun p => { p.unread with ebs := (false :: p.ebs).take 3300 })
    else s)

/-! ### Demapping -/

/-- At least two of three. -/
def two (a b c : Bool) : Bool := (a && b) || (a && c) || (b && c)

/-- The data bits of a received VC-12 or VC-11 multiframe, S1 and S2 where they are data (R91, R92). -/
def demapData (vc12 : Bool) (l : List Byte) : List Bool :=
  let q := if vc12 then 35 else 26
  let c := fun (k i : Nat) => (l.getD (k * q + 1) 0).getLsbD i
  let j1 := two (c 1 7) (c 2 7) (c 3 7)
  let j2 := two (c 1 6) (c 2 6) (c 3 6)
  let b := fun (k i n : Nat) => bytesBits ((l.drop (k * q + i)).take n)
  if vc12 then
    b 0 2 32 ++ b 1 2 32 ++ b 2 2 32 ++ (if j1 then [] else [c 3 0]) ++ (if j2 then (b 3 2 1).drop 1 else b 3 2 1) ++ b 3 3 31
  else
    b 0 2 24 ++ [c 1 1] ++ b 1 2 24 ++ [c 2 1] ++ b 2 2 24 ++ [c 3 2] ++ (if j1 then [] else [c 3 1]) ++
      (if j2 then [] else [c 3 0]) ++ b 3 2 24

/-- `n` bits made of a list: the newest of too many, and of too few the list over again. DESIGN CHOICE (log entry 95): R95 does not say
which data a re-centring drops or repeats. -/
def fitBits (n : Nat) (l : List Bool) : List Bool :=
  let d := l.drop (l.length - n)
  (List.range (n - d.length)).map (fun i => d.getD (i % max 1 d.length) true) ++ d

/-- A desynchronizer outside 32 to 480 bits is re-centred, its leak queue emptied, the slip counted and raised (R95). -/
def desyncBand (s : State) (a : Word) : State :=
  let p := path s a
  if 32 ≤ p.demapFill ∧ p.demapFill ≤ 480 then s
  else
    let s := editPath s a (fun p => { p with
      demapFill := 256, leakQ := 0, leakFast := false, dsq := fitBits 256 p.dsq })
    let s := pcount s a 15 1
    if monitored s a then pathEvent s a 0x5A false else s

/-- The desynchronizer's fill changes by `n` bits. -/
def desyncMove (s : State) (a : Word) (n : Int) : State :=
  desyncBand (editPath s a (fun p => { p with demapFill := ((p.demapFill : Int) + n).toNat })) a

/-- The place in `l`, newest first, of the container that begins in the period which ends when it leaves `c` units of `u` bytes later than it
came; `n` is the container's length, and `k` counts the places passed (R234). -/
def delayedAt (n u c : Nat) (l : List LineBlk) (k : Nat) : Nat × Nat := match l with
  | [] => (k, 0)
  | b :: r => if u * (b.pos + c) < (k + 1) * n then (k, b.pos + c - k * n / u) else delayedAt n u c r (k + 1)

/-- The multiframe that the termination or connection of the TU at `a` reads when `bytes` come: with the delay line of a guard on the slot,
that of as many whole multiframes ago as its compensation has reached (R225, R234; log entry 106). -/
def demapInput (s : State) (a : Word) (bytes : List Byte) : List Byte :=
  match List.find? (fun (p : Nat × Guard) => !bit (p.2.w 8) 0 && p.2.w 7 == a) s.sym.guards with
  | none => bytes
  | some g =>
    let i := (delayedAt (contBytes s a) 1 g.2.cIn g.2.line 0).1
    if i = 0 then bytes else ((g.2.line[i - 1]?).map LineBlk.data).getD (List.replicate bytes.length 0xFF)

/-- The slots whose terminations and connections the path received at `r` feeds: its own, unless the channel of its lane is read from protection,
and the slot on the working lane whose channel its lane carries (R193). -/
def demapOwners (s : State) (r : Word) : List Word :=
  (if mspResolve s r = r then [r] else []) ++ (match grpOfProt s (saLane r) with
    | some g => if workCh g.selCh then [setFld r 22 16 (g.work.getD (g.selCh - 1) 0)] else []
    | none => [])

/-- The desynchronizer of the demapped TU at `a` takes the multiframe `bytes` of the path received at `r`, and its output clock has read `read`
bits; in TU-AIS or TU-LOP, and on a protection lane that carries a working channel, it delivers ones at the nominal count (R92, R95, R96, R193). -/
def demapInto (s : State) (r a : Word) (bytes : List Byte) (read : Nat) : State :=
  let vc12 := tuType? s a == some 0
  let b := if (path s r).ptr = 0 && !mspTaken s a then demapData vc12 (demapInput s a bytes)
    else List.replicate (if vc12 then 1024 else 772) true
  let s := editPath s a (fun p =>
    let q := p.dsq ++ b
    let out := p.dsOut ++ fitBits read (q.take read)
    { p with dsq := q.drop read, dsOut := out.drop (out.length - 8192) })
  desyncMove s a ((b.length : Int) - (read : Int))

/-- DEMAP_MULTIFRAME: the received multiframe of a TU-12 or TU-11 that feeds a demapped one, and the bits that the smoothed output clock has
read since the last one, which go on to the PDH framer or the other endpoint (R92, R95, R96, R193). -/
def execDemapMultiframe (path : Word) (bytes : List Byte) (read : Nat) (s : State) : Out :=
  .next (
    let bytes := pathTaken s path (ownOut s path).sent bytes
    if pathRx s path && bytes.length == contBytes s path then
      ((demapOwners s path).filter (fun a => demapped s a && tuType? s a == tuType? s path)).foldl
        (fun s a => demapInto s path a bytes read) s
    else s)

/-- Frames from one leak bit to the next: 2^LEAK ms, or one frame while the queue drains fast (R95). -/
def leakFrames (s : State) (a : Word) : Nat :=
  if (path s a).leakFast then 1 else 8 * 2 ^ fld (pathCfg s a).w7 14 12

/-- LEAK_RELEASE: one queued leak bit is released, one every 2^LEAK ms or, while more than 48 had been queued, every 125 µs (R95). -/
def execLeakRelease (path : Word) (s : State) : Out :=
  .next (
    let q := (Sys2Proof.Machine.path s path).leakQ
    if demapped s path && q != 0 && decide (leakFrames s path ≤ (Sys2Proof.Machine.path s path).leakAge) then
      let d : Int := if 0 < q then 1 else -1
      desyncMove (editPath s path (fun p => { p.queueLeak (q - d) with leakAge := 0 })) path d
    else s)

/-- A frame passes for the leak queue of the path at `a` (R95). -/
def leakFrame (s : State) (a : Word) : State :=
  if (path s a).leakQ = 0 then s else editPath s a (fun p => { p with leakAge := min 1000 (p.leakAge + 1) })

/-- The mapper's decision for one multiframe from a buffer fill in 10^-9 bits: data bits carried less the nominal count
(R93). -/
def mapDecision (fill : Int) : Int := if 10 ^ 9 ≤ fill then 1 else if fill ≤ -(10 ^ 9) then -1 else 0

/-! ### Elastic stores and pointer generation -/

/-- A monitored path slips its store: counted and raised (R80, R97, R100). -/
def storeSlip (s : State) (a : Word) : State :=
  let s := pcount s a 15 1
  if monitored s a then pathEvent s a 0x59 false else s

/-- The slot of a copy of selector `k`: of the one in force, or, at merged timing, of the one that `f` names (R186, R207). -/
def selCopy (s : State) (f : Merge → Bool) (k : Nat) : Option Word :=
  (sel? s k).map (fun x => match Tab.find? s.mrg.merges k with
    | some m => x.copy (if m.st = 0 then x.prot else f m)
    | none => x.copy x.prot)

/-- The slot that selector `k` carries: the copy in force, or at merged timing the copy chosen for the block (R186, R207, R219). -/
def selCarries (s : State) (k : Nat) : Option Word := selCopy s Merge.choice k

/-- The slot at whose pace selector `k` is carried: at merged timing the reference copy (R208). -/
def selPace (s : State) (k : Nat) : Option Word := selCopy s Merge.ref k

/-- The source of output `o`: its entry's slot, or what `sel` gives for its selector (R145, R146). -/
def outBy (s : State) (sel : Nat → Option Word) (o : Word) : Option Word :=
  let e := entryOf s o
  if e.kind = 1 then some e.src
  else if e.kind = 2 then sel (selKey (min 2 (saTier o)) (fld e.src 16 0))
  else none

/-- The source in force of output `o`, steps 1 and 2 of R173 (R146, R219, R221). -/
def outSource (s : State) (o : Word) : Option Word := outBy s (selCarries s) o

/-- The slot that the output stage reads for output `o`, step 3 of R173 included (R173, R193). -/
def outRead (s : State) (o : Word) : Option Word := (outSource s o).map (mspResolve s)

/-- The slot at whose pace output `o` leaves (R173, R208). -/
def outPace (s : State) (o : Word) : Option Word := (outBy s (selPace s) o).map (mspResolve s)

/-- The outputs that leave at the pace of the path at `a`. -/
def outputsOf (s : State) (a : Word) : List Word := (usedOutputs s).filter (fun o => outPace s o == some a)

/-- The store of the path at `a` adjusts: the outputs that carry it count the justification generated, and a desynchronizer queues
its 8 bits (R80, R81, R95, R97). -/
def storeAdjust (s : State) (a : Word) (pos : Bool) : State :=
  let u : Int := (unitBytes s a * 10 ^ 8 : Nat)
  let max := ptrMax s a
  let s := editPath s a (fun p =>
    { p with
      fill := if pos then p.fill + u else p.fill - u, adjGap := 0, outNdf := false
      outPtr := if pos then (p.outPtr + 1) % (max + 1) else (p.outPtr + max) % (max + 1) })
  let s := ((demapOwners s a).filter (demapped s)).foldl (fun s b =>
    editPath s b (fun p => p.queueLeak (if pos then p.leakQ - 8 else p.leakQ + 8))) s
  (outputsOf s a).foldl (fun s o => pcount s o (if pos then 13 else 14) 1) s

/-- One pointer period of the elastic store of the path at `a`: the lane's clock offset moves the fill, ±8 units re-centre it
with a new pointer, and outside the centre band one adjustment is generated where the spacing admits it (R80, R81). -/
def storePeriod (s : State) (a : Word) : State :=
  let p := path s a
  if p.ptr ≠ 0 ∨ p.concLop ∨ !pathOn s a then s
  else
    let u : Int := (unitBytes s a * 10 ^ 8 : Nat)
    let max := ptrMax s a
    let f := p.fill + (contBytes s a : Int) * sgn 16 (fget s (Reg.laneFofs (saLane a)) 15 0)
    let s := editPath s a (fun p => { p with fill := f, outNdf := false, adjGap := min 3 (p.adjGap + 1) })
    if 8 * u ≤ f ∨ f ≤ -(8 * u) then
      storeSlip (editPath s a (fun p => { p with
        fill := 0, outNdf := true, adjGap := 0
        outPtr := if f < 0 then (p.outPtr + 8) % (max + 1) else (p.outPtr + max - 7) % (max + 1) })) a
    else if p.adjGap < 3 then s
    else if f < -u then storeAdjust s a true
    else if u < f then storeAdjust s a false
    else s

/-! ### PATH_CFG -/

/-- The 16 words of a descriptor. -/
abbrev Words := List Word

/-- STRUCT words 0 to 2 of a PATH_CFG (R74). -/
def cfgStructs (w : Words) : List Nat := [fld (w.getD 10 0) 15 0, fld (w.getD 11 0) 15 0, fld (w.getD 12 0) 15 0]

/-- A STRUCT word is one that an HO_TYPE admits in its place `k` (R75). -/
def structOk (ty k w : Nat) : Bool :=
  if (ty = 0 ∧ k < 3) ∨ (ty = 1 ∧ k = 0) then
    match w % 4 with
    | 0 => w == 0
    | 1 => ty == 0 && w == 1
    | 2 => (List.range 7).all (fun g => w / 2 ^ (2 * g + 2) % 4 != 3)
    | _ => false
  else w == 0

/-- PATH is no path of R9, R16 and the container in force, or does not suit HO_TYPE (R76 reason 1). -/
def cfgBadPath (s : State) (w : Words) : Bool :=
  let a := w.getD 6 0
  let ty := fld (w.getD 7 0) 2 0
  if saTier a = 0 then
    !hoOk s a || hoOf s a != a ||
      (decide (ty ≤ 4) && (saIdx a % hoSpan ty != 0 || decide (laneCap s (saLane a) < saIdx a + hoSpan ty)))
  else if saTier a = 1 then (tuType? s a).isNone
  else true

/-- A field is reserved, does not apply or is out of range (R76 reason 2). -/
def cfgBadField (s : State) (w : Words) (len : Nat) : Bool :=
  let a := w.getD 6 0
  let w7 := w.getD 7 0
  let w8 := w.getD 8 0
  let ty := fld w7 2 0
  let leak := fld w7 14 12
  let st := cfgStructs w
  (bit w7 9 && bit w7 10) || (len != 0 && len != 128) ||
  (bit w7 3 && (fld w8 22 16 == 0 || decide (100 < fld w8 22 16) || decide (fld w8 26 23 < 2) ||
    decide (10 < fld w8 26 23) || fld (w.getD 9 0) 6 0 == 0 || decide (100 < fld (w.getD 9 0) 6 0))) ||
  (if saTier a = 0 then
    decide (4 < ty) || bit w7 11 || leak != 0 || !(List.range 3).all (fun k => structOk ty k (st.getD k 0))
  else
    let tu := (tuType? s a).getD 3
    ty != 0 || st != [0, 0, 0] || decide (5 < leak) ||
      (decide (2 ≤ tu) && (bit w7 11 || leak != 0)) ||
      (tu != 3 && (fld w7 4 4 != 0 || decide (7 < fld w8 7 0) || decide (7 < fld w8 15 8))))

/-- The configuration of a PATH_CFG, with traces from its buffer or as they were (R74). -/
def cfgNew (old : PathCfg) (w : Words) (buf : List Byte) : PathCfg :=
  { w7 := w.getD 7 0, w8 := w.getD 8 0, w9 := w.getD 9 0, struct3 := cfgStructs w
    trTx := if buf.length = 128 then buf.take 64 else old.trTx
    trExp := if buf.length = 128 then buf.drop 64 else old.trExp }

/-- The indices that a tier 0 PATH_CFG affects: those of its container and of the container in force (R76). -/
def cfgSpan (s : State) (w : Words) : List Nat :=
  let a := w.getD 6 0
  rangeFrom (saIdx a) (max (hoSpan (hoTy s a)) (hoSpan (fld (w.getD 7 0) 2 0)))

/-- The indices among them whose path or structure changes (R76 reason 3). -/
def cfgChanged (s : State) (w : Words) : List Nat :=
  let a := w.getD 6 0
  let ty := fld (w.getD 7 0) 2 0
  let st := cfgStructs w
  if hoTy s a ≠ ty then cfgSpan s w
  else (cfgSpan s w).filter (fun i =>
    structWord s (saLane a) i != (if ty ≤ 1 then st.getD (i - saIdx a) 0 else 0))

/-- A slot inside the affected indices is used (R76 reason 3, R168); an MSP group and an enabled DCC channel use every index of their
lanes. -/
def cfgUsed (s : State) (w : Words) : Bool :=
  let l := saLane (w.getD 6 0)
  let span := cfgSpan s w
  let ch := cfgChanged s w
  let t := fun (a : Word) => onLane l a && (if saTier a = 0 then span.contains (saIdx a) else ch.contains (saIdx a))
  entryNames s t || selNames s t || guardNames s t || ownerNames s t || gatherNames s (Staged.names t) ||
    s.prot.grps.any (fun p => p.2.protLane == l || p.2.work.contains l) ||
    s.dccs.any (fun p => bit p.2.ctl 0 && fld p.2.ctl 8 2 == l)

/-- A PATH_CFG of the path at `a` would clear MON, or MARK_RX while markers align, under a merge, or either under a guard
(R204, R226). -/
def cfgHeld (s : State) (a old new : Word) : Bool :=
  let mon := bit old 3 && !bit new 3
  let mark := bit old 10 && !bit new 10
  s.mrg.merges.any (fun p => match sel? s p.1 with
    | some x => (x.working == a || x.protect == a) && (mon || (mark && !p.2.corr))
    | none => false) ||
  s.sym.guards.any (fun p =>
    (if bit (p.2.w 8) 0 then
      match sel? s (selKey (fld (p.2.w 8) 2 1) (fld (p.2.w 7) 16 0)) with
      | some x => x.working == a || x.protect == a
      | none => false
    else p.2.w 7 == a) && (mon || mark))

/-- The path configurations with the structure and settings of a PATH_CFG in force; the configuration of every path that
ceases to exist is dropped (R75, R76). -/
def putCfg (s : State) (w : Words) (buf : List Byte) : State :=
  let a := w.getD 6 0
  let l := saLane a
  let span := if saTier a = 0 then cfgSpan s w else []
  let ch := if saTier a = 0 then cfgChanged s w else []
  let gone := fun (k : Nat) =>
    let b := w32 k
    onLane l b && (if saTier b = 0 then span.contains (saIdx b) && b != a && !ch.isEmpty else ch.contains (saIdx b))
  let new := cfgNew (pathCfg s a) w buf
  { s with cfgs := Tab.put (s.cfgs.filter (fun p => !gone p.1)) a.toNat new }

/-- Structured indices (R129). -/
def structuredCount (s : State) : Nat :=
  ((s.cfgs.filter (fun p => saTier (w32 p.1) == 0)).map (fun p =>
    let a := w32 p.1
    ((rangeFrom (saIdx a) (if hoType p.2 = 0 then 3 else 1)).filter (fun i =>
      decide (i < laneCap s (saLane a)) && structured s (saLane a) i)).length)).sum

/-- The path configurations once every PATH_CFG that waits for its boundary is in force (R129). -/
def putWaiting (s : State) : State :=
  s.deferred.foldl (fun s x => match x.act with
    | .path w b => putCfg s w b
    | _ => s) s

/-- The reason for which a PATH_CFG is refused (R76, R129, R204, R226). -/
def cfgReason (s : State) (d : Desc) : Option Nat :=
  let w := d.words
  let a := w.getD 6 0
  if cfgBadPath s w then some 1
  else if cfgBadField s w d.len then some 2
  else if cfgHeld s a (pathCfg s a).w7 (w.getD 7 0) then some 3
  else if saTier a = 0 ∧ !(cfgChanged s w).isEmpty then
    if cfgUsed s w then some 3
    else if 12288 < structuredCount (putCfg (putWaiting s) w []) then some 4 else none
  else none

/-- The paths whose structure a PATH_CFG changes come into existence anew (R78, R90, R97). -/
def freshPaths (s : State) (w : Words) : State :=
  let a := w.getD 6 0
  let l := saLane a
  let ch := if saTier a = 0 then cfgChanged s w else []
  let retype := hoTy s a != fld (w.getD 7 0) 2 0
  let gone := fun (k : Nat) =>
    let b := w32 k
    onLane l b && ch.contains (saIdx b) && (saTier b == 1 || retype)
  let s := ((s.paths.filter (fun p => gone p.1)).map (fun p => w32 p.1)).foldl dropLock s
  { s with paths := s.paths.filter (fun p => !gone p.1) }

/-- The low-order entries of indices of lane `l`, each with the type of its TU (R144). -/
def lowEntries (s : State) (l : Nat) (idx : List Nat) : List (Word × Option Nat) :=
  ((idx.filter (fun i => decide (i < laneCap s l))).flatMap (fun i => (List.range 8).flatMap (fun g =>
    (List.range 4).map (fun t => (loAddr l i g t, tuUnder (structWord s l i) g t))))).filter (fun p => p.2.isSome)

/-- A PATH_CFG takes effect: configuration, map entries, paths that come into existence, counters and defects (R76, R78, R84,
R98, R144, R157). -/
def applyPathCfg (s : State) (w : Words) (buf : List Byte) : State :=
  let a := w.getD 6 0
  let was := monitored s a
  let change := saTier a == 0 && !(cfgChanged s w).isEmpty
  let s0 := s
  let s := if bit (w.getD 7 0) 10 then s else dropLock s a
  let s := putCfg (if saTier a = 0 then freshPaths s w else s) w buf
  let on := bit (w.getD 7 0) 3
  let s := editPath s a (fun p =>
    let p := if on && !was then { p with cnt := [], cntRun := false, secs := [], secNow := {}, uas := false, feUas := false }
      else if !on then { p with cntRun := false } else p
    if pathTrace (pathCfg s0 a) = pathTrace (pathCfg s a) then p
    else { p with trPart := [], trRun := 0, trLast := [], trace := none })
  let s := if bit (w.getD 7 0) 10 then s
    else editPath s a (fun p => { p with mkWin := [], mkHits := [], mkBad := 0, mkPos := 0 })
  let l := saLane a
  let s := if change then orphanCheck s0 (dropEntries s) else s
  let s := if change ∧ lowEntries s l (cfgChanged s0 w) ≠ lowEntries s0 l (cfgChanged s0 w) then mapChanged s else s
  followPath (evalPath s a) a

/-- PATH_CFG: checked, and in effect from the next frame boundary (tier 0) or TU multiframe boundary (tier 1), when it
completes OK (R74 to R76). -/
def execPathCfg (d : Nat) (io : HostIO) (s : State) : Out :=
  .next (match takeInput s d 0x20 with
    | none => s
    | some (s', x) =>
      if rangeBad s x then invalid s' d 0xF4
      else match cfgReason s x with
        | some r => invalid s' d r
        | none =>
          let go := fun (s : State) (b : List Byte) =>
            { setDesc s d 2 with deferred := s.deferred ++
                [{ tu := saTier (x.w 6) == 1, act := .path x.words b, d := d }] }
          if x.len = 0 then go s' [] else withInput s' io x 128 go)

/-! ### Seconds -/

/-- Threshold of a severely errored second of the path at `a` (R97). -/
def pathSesLimit (s : State) (a : Word) : Nat := if hoPoh s a then 2400 else 600
/-- Near-end SES of a path's second (R97). -/
def PathSec.ses (x : PathSec) (n : Nat) : Bool := decide (n ≤ x.eb) || x.defect
/-- Far-end SES of a path's second (R97). -/
def PathSec.feSes (x : PathSec) (n : Nat) : Bool := decide (n ≤ x.feb) || x.rdi

/-- A path counter goes up by one where `b` holds. -/
def pcountIf (s : State) (b : Bool) (a : Word) (i : Nat) : State := if b then pcount s a i 1 else s

/-- The oldest ended second of the path at `a` is classified once ten seconds have followed it (R97). -/
def classifyPath (s : State) (a : Word) : State :=
  let p := path s a
  let n := pathSesLimit s a
  match p.secs with
  | [] => s
  | x :: r =>
    if p.secs.length < 11 then s
    else
      let u := uasStep p.uas (p.secs.map (fun y => y.ses n))
      let fu := uasStep p.feUas (p.secs.map (fun y => y.feSes n))
      let s := editPath s a (fun p => { p with secs := r, uas := u, feUas := fu })
      let s := pcountIf s (!u && (decide (0 < x.eb) || x.defect)) a 5
      let s := pcountIf s (!u && x.ses n) a 6
      let s := pcountIf s u a 7
      let s := pcountIf s (!fu && (decide (0 < x.feb) || x.rdi)) a 8
      let s := pcountIf s (!fu && x.feSes n) a 9
      pcountIf s fu a 10

/-- The running second of the path at `a` ends at the 1PPS; counters of a path newly monitored begin (R97, R98). -/
def endPathSecond (s : State) (a : Word) : State :=
  let on := monitored s a
  notePath (editPath s a (fun p => { p with
    secs := if on then (p.secs ++ [p.secNow]).drop (p.secs.length - 10) else p.secs
    secNow := {}, due := on, cntRun := on
    cnt := if on && p.cnt.isEmpty then List.replicate 15 0 else p.cnt })) a

end Sys2Proof.Machine
end

