-- ==== Sys2Proof/Machine/Pdh.lean ====
section
/-! DEFINITION. Tributary ports and PDH framers (05_pdh_tributaries.md, R101 to R122). -/

namespace Sys2Proof.Machine

/-! ### Units -/

/-- The framer of a unit. -/
def pdh (s : State) : PdhUnit → PdhSt
  | .port p => Tab.get s.ports p {}
  | .term n => Tab.get s.termFr n {}
/-- The framer of a unit changed by `f`. -/
def editPdh (s : State) (u : PdhUnit) (f : PdhSt → PdhSt) : State := match u with
  | .port p => { s with ports := Tab.edit s.ports p {} f }
  | .term n => { s with termFr := Tab.edit s.termFr n {} f }
/-- Port `p` changed by `f`. -/
def editTrib (s : State) (p : Nat) (f : TribSt → TribSt) : State := { s with tribs := Tab.edit s.tribs p {} f }
/-- TRIB_STATUS.STATE: 0 OFF, 1 TRIM, 2 ACQ, 3 SEARCH, 4 UP (R119). -/
def portState (s : State) (p : Nat) : Nat := fget s (Reg.tribStatus p) 2 0
/-- TRIB_STATUS.STATE holds `st`. -/
def setPortState (s : State) (p st : Nat) : State := fset s (Reg.tribStatus p) 2 0 st

/-- Kind of framing under a framing word: 1 E1 basic, 2 E1 CRC-4, 3 E1 with interworking, 4 SF, 5 ESF, 0 unframed (R106). -/
def wordKind (w : Word) : Nat := match frmType w with
  | 0 => if frmFormat w ≤ 2 then 1 + frmFormat w else 0
  | 1 => if frmFormat w ≤ 1 then 4 + frmFormat w else 0
  | _ => 0
/-- Kind of framing of a unit; 6 is C37.94 (R101, R106). DESIGN CHOICE (log entry 91): a port whose TRIB_FRM.TYPE, 0 or 1, does not fit its MODE,
because a TRIB_CTL write has changed the MODE since, is framed as its MODE has it, with the nearest FORMAT of that mode. -/
def pdhKind (s : State) : PdhUnit → Nat
  | .port p => match tribMode (portCtl s p) with
    | 2 => 6
    | 3 => 0
    | m =>
      if 2 ≤ frmType (portFrm s p) then 0
      else if m = 0 then 1 + min 2 (frmFormat (portFrm s p)) else 4 + min 1 (frmFormat (portFrm s p))
  | .term n => match termRx? s n with
    | some t => wordKind t.framing
    | none => 0
/-- The framing word of a unit (R106). -/
def pdhWord (s : State) : PdhUnit → Word
  | .port p => portFrm s p
  | .term n => match termRx? s n with
    | some t => t.framing
    | none => 0
/-- The framer of a unit runs: a port in SEARCH or UP, a termination in force. -/
def pdhRuns (s : State) : PdhUnit → Bool
  | .port p => bit (portCtl s p) 0 && decide (3 ≤ portState s p)
  | .term n => (termRx? s n).isSome
/-- The seconds of a unit are counted: those of an enabled port in every state, and of a termination in force (R120). -/
def pdhCounted (s : State) : PdhUnit → Bool
  | .port p => bit (portCtl s p) 0
  | .term n => (termRx? s n).isSome
/-- A slip buffer lies behind the unit's framer: not behind byte-synchronous signals or MODE 3 (R117). -/
def hasSlip (s : State) (u : PdhUnit) : Bool := pdhKind s u != 0 && (match u with
  | .port _ => true
  | .term n => match termRx? s n with
    | some t => t.src == 2 || !bit (pathCfg s t.from_).w7 11
    | none => false)

/-- Counter `i` of the table of R120 counts `n` more for a unit: a port's register, or a word of the record, which leaves the
transmit slips out (R120, R121). -/
def pdhCount (s : State) (u : PdhUnit) (i n : Nat) : State := match u with
  | .port p => count s (Reg.tribCv p + 4 * i) n
  | .term _ =>
    if i = 8 ∨ i = 9 then s
    else
      let k := if i < 8 then i else i - 2
      editPdh s u (fun x =>
        let c := if x.cnt.length = 14 then x.cnt else List.replicate 14 0
        { x with cnt := listPut c k (c.getD k 0 + w32 n) })

/-- A unit raises an event: cause, new state and data word 1; a terminated signal's data word 1 holds its number (R122,
R265). -/
def pdhEvent (s : State) (u : PdhUnit) (cause : Nat) (st : Bool) (d1 : Word) : State := match u with
  | .port p => raise s (0x80 + p) (w32 (cause + 256 * p.val + 2 ^ 15 * b2n st)) d1
  | .term n => match termRx? s n with
    | none => s
    | some t =>
      let v := w32 (n.val + 2 ^ 17 * fld d1 17 17)
      if t.src = 2 then
        let w := saNum t.from_
        raise s (0x600 + w / 256) (w32 (cause + 0x60 + 256 * w + 2 ^ 22 * b2n st)) v
      else raise s (saLane t.from_) (w32 (cause + 0x60 + 256 * saLane t.from_ + 2 ^ 15 * b2n st)) v

/-! ### Defects -/

/-- Every PDH defect with its event cause (R122). -/
def pdhCauses : List (PdhDefect × Nat) :=
  [(.los, 1), (.ais, 2), (.lof, 3), (.lomf, 4), (.rai, 5), (.casLom, 6), (.deg, 7), (.nmis, 8)]

/-- A reported defect with upstream action stands (R112). -/
def pdhUpstream (d : PdhDefects) : Bool := d.sf
/-- A unit with framing kind `k` gives AIS downstream from the next frame boundary on; an unframed one has no OOF (R57, R112). -/
def pdhAis (k : Nat) (x : PdhSt) : Bool := (k != 0 && x.oof) || x.det.sf

/-- TRIB_STATUS of port `p` shows its framer (R119). -/
def showPort (s : State) (p : PortId) : State :=
  let x := pdh s (.port p)
  let on := bit (portCtl s p) 0
  let k := pdhKind s (.port p)
  let d := x.det
  let f := fun (w : Word) (q : Nat × Bool) => setBit w q.1 q.2
  let w := [(3, d.shows .los), (4, d.shows .ais), (5, on && k != 0 && x.oof), (6, d.shows .lof), (7, d.shows .lomf),
    (8, d.shows .rai), (9, d.shows .casLom), (10, d.shows .deg), (11, d.shows .nmis), (12, x.interwork),
    (14, d.sf), (15, d.sd)].foldl f (rd s (Reg.tribStatus p))
  wr s (Reg.tribStatus p) (setFld w 19 16 x.cands.length)

/-- The status of a unit is shown where it has a status register. -/
def showPdh (s : State) (u : PdhUnit) : State := match u with
  | .port p => showPort s p
  | .term _ => s

/-- What the running second has seen, from the conditions present now (R120). -/
def notePdh (s : State) (u : PdhUnit) : State :=
  editPdh s u (fun x => { x with secNow := { x.secNow with
    defect := x.secNow.defect || x.det.los || x.det.ais || x.det.lof || x.det.lomf || x.det.nmis
    rai := x.secNow.rai || x.det.shows .rai } })

/-- RAI is sent by a unit: as its framing word says, or for a reported defect with RAI_AUTO, and in C37.94 always (R106,
R112). -/
def raiSent (s : State) (u : PdhUnit) : Bool :=
  let w := pdhWord s u
  let up := pdhUpstream (pdh s u).det
  if pdhKind s u = 6 then up else bit w 6 || (bit w 5 && up)

/-- What is shown and given to protection follows a unit's state. -/
def followPdh (s : State) (u : PdhUnit) : State := refreshConds (notePdh (showPdh s u) u)

/-- Upstream RAI and downstream AIS begin and end at a frame boundary (R57, R112). -/
def raiBoundary (s : State) (u : PdhUnit) : State :=
  let r := raiSent s u
  let a := pdhAis (pdhKind s u) (pdh s u)
  if (pdh s u).txRai = r ∧ (pdh s u).downAis = a then s else editPdh s u (fun x => { x with txRai := r, downAis := a })

/-- The detectors of a unit become `b`: an event for each defect newly reported, and for each that was reported and is gone
(R110 to R112, R122). -/
def setPdhDet (s : State) (u : PdhUnit) (b : PdhDefects) : State :=
  let a := (pdh s u).det
  if a = b then s
  else
    let s := editPdh s u (fun x => { x with det := b })
    let d1 : Word := match u with
      | .port p => w32 (fget s (Reg.tribRxoh p) 11 8)
      | .term _ => 0
    let s := pdhCauses.foldl (fun s q =>
      let d1 := if q.2 = 8 then d1 else 0
      if b.shows q.1 && !a.shows q.1 then pdhEvent s u q.2 true d1
      else if a.shows q.1 && !b.has q.1 then pdhEvent s u q.2 false d1
      else s) s
    followPdh s u

/-- Frames in which RAI must stand against the present state (R110). -/
def raiNeed (k : Nat) : Nat := if k = 4 then 16 else if k = 5 then 4 else 3

/-- PDH_DEFECT_CHANGE is due: the persistence condition of R110 is met as far as the framer's own counts show it. -/
def pdhDue (s : State) (u : PdhUnit) (d : PdhDefect) (present : Bool) : Bool :=
  let x := pdh s u
  let k := pdhKind s u
  match d with
  | .los => (match u with
    | .port p => bit (portCtl s p) 0 && decide (tribMode (portCtl s p) ≤ 2)
    | .term _ => false)
  | .ais => pdhRuns s u && k != 0 && x.aisHist == [present, present]
  | .lof => pdhRuns s u && k != 0 && (x.oof == present)
  | .nmis => k == 6 && x.nRun == 8
  | .lomf => (k == 2 || k == 3) && (if present then decide (2 ≤ x.failMfa) else x.mfa || x.interwork)
  | .casLom => x.casRun == 2
  | .deg => x.crcSec == [present, present]
  | .rai => k != 0 && x.raiRun == raiNeed k

/-- PDH_DEFECT_CHANGE (R105, R110 to R112); LOS clearing in ACQ takes the port to SEARCH, or to UP where it is unframed
(R105). -/
def execPdhDefectChange (u : PdhUnit) (defect : PdhDefect) (present : Bool) (s : State) : Out :=
  .next (
    if (pdh s u).det.has defect != present && pdhDue s u defect present then
      let s := editPdh s u (fun x => match defect with
        | .rai => { x with raiRun := 0 }
        | .nmis => { x with nRun := 0 }
        | .casLom => { x with casRun := 0 }
        | _ => x)
      let s := match u with
        | .port p =>
          if defect = .los ∧ !present ∧ portState s p = 2 then setPortState s p (if pdhKind s u = 0 then 4 else 3) else s
        | .term _ => s
      setPdhDet s u ((pdh s u).det.put defect present)
    else s)

/-! ### Frame search -/

/-- A unit enters OOF: counted, the search resumes with the candidates left, and interworking ends (R107, R119). -/
def enterOof (s : State) (u : PdhUnit) (left : List PdhCand) (keepFirst : Bool) : State :=
  let was := (pdh s u).interwork
  let s := pdhCount s u 5 1
  let s := editPdh s u (fun x => { x with
    oof := true, cands := left, mfa := false, interwork := false, fasBad := 0, ftHist := [], crcHist := []
    firstConf := if keepFirst then x.firstConf else none })
  let s := match u with
    | .port p => setPortState s p 3
    | .term _ => s
  followPdh (if was then pdhEvent s u 9 false 0 else s) u

/-- The frames of a termination begin with the next bit that it is given (R107). -/
def alignFrames (s : State) (u : PdhUnit) : State := match u with
  | .port _ => s
  | .term n => match termRx? s n with
    | none => s
    | some t =>
      if t.src = 2 then match pw? s (saNum t.from_) with
        | none => s
        | some x => { s with cem := { s.cem with pws := Tab.put s.cem.pws (saNum t.from_) { x with out := [] } } }
      else editPath s t.from_ (fun p => { p with dsOut := [] })

/-- A unit takes an alignment: OOF ends and the slip buffer restarts at a fill of one frame (R107, R117). -/
def takeAlign (s : State) (u : PdhUnit) (pos : Nat) : State :=
  let s := editPdh (alignFrames s u) u (fun x => { x with
    oof := false, taken := pos, fasBad := 0, ftHist := [], rxBuf := [x.rxLast], rxFresh := true })
  let s := match u with
    | .port p => setPortState s p 4
    | .term _ => s
  followPdh s u

/-- Bit times from one check of a candidate to the next (R107 to R109). -/
def checkGap (k : Nat) : Nat := if k = 4 then 386 else if k = 5 then 772 else 256
/-- Checks that confirm a candidate (R107 to R109). -/
def checkNeed (k : Nat) : Nat := if k = 4 then 12 else if k = 5 then 6 else 3

/-- A confirmed standby has not reached MFA within 8 ms of its confirmation (R107). -/
def lateStandby (x : PdhSt) (t : Nat) (c : PdhCand) : Bool := c.conf && decide (c.confAt + 16384 < t) && (x.oof || c.pos != x.taken)

/-- Candidates whose check has passed without a sighting are dropped, and standbys whose 8 ms are over; a confirmed one that awaits its
multiframe stays (R107, R108). -/
def lateCands (k : Nat) (x : PdhSt) (t : Nat) : List PdhCand :=
  x.cands.filter (fun c => if c.conf && (k == 2 || k == 3) then !lateStandby x t c else decide (t ≤ c.next))

/-- Standbys that fail to reach MFA are confirmed candidates that fail (R107, R110). -/
def failsMfa (k : Nat) (x : PdhSt) (t : Nat) : Nat :=
  if k = 2 ∨ k = 3 then min 2 (x.failMfa + (x.cands.filter (lateStandby x t)).length) else x.failMfa

/-- A sighting at position `pos` and bit time `t`: a check passed, or a new candidate while fewer than eight are held (R107,
R108). -/
def sight (k : Nat) (l : List PdhCand) (pos t : Nat) : List PdhCand :=
  if l.any (fun c => c.pos == pos) then
    l.map (fun c =>
      if c.pos = pos ∧ c.next = t then
        let h := c.hits + 1
        { c with hits := h, next := t + checkGap k, conf := c.conf || decide (checkNeed k ≤ h)
                 confAt := if !c.conf && decide (checkNeed k ≤ h) then t else c.confAt }
      else c)
  else if l.length < 8 then l ++ [{ pos := pos, next := t + checkGap k }]
  else l

/-- A CRC-4 multiframe alignment signal at position `pos`: one more of its candidate, and, which the second component says, one that
lies a multiple of 2 ms after an earlier one, within 8 ms of the candidate's confirmation (R107). -/
def mfasSight (l : List PdhCand) (pos t : Nat) : List PdhCand × Bool :=
  let hit := l.any (fun c => c.pos == pos && c.conf && decide (t ≤ c.confAt + 16384) &&
    c.mfas.any (fun f => decide (f < t) && (t - f) % 4096 == 0))
  (l.map (fun c => if c.pos = pos ∧ c.conf then { c with mfas := t :: c.mfas } else c), hit)

/-- MFA is reached at position `pos`: every other candidate is dropped; from a standby the alignment moves, which counts as
one OOF entry and sends one frame of AIS, and the frames of a termination are cut anew (R107). -/
def reachMfa (s : State) (u : PdhUnit) (pos : Nat) : State :=
  let moved := (pdh s u).taken != pos
  let s := if moved then pdhCount s u 5 1 else s
  let s := editPdh s u (fun x => { x with
    mfa := true, cands := [], taken := pos, failMfa := 0, firstConf := none, crcHist := []
    rxBuf := if moved then [List.replicate 32 0xFF] else x.rxBuf
    rxFresh := x.rxFresh || moved })
  followPdh (if moved then alignFrames s u else s) u

/-- The first confirmed candidate of a search without multiframe, and a qualified T1 candidate, is taken and the others are
dropped; a T1 candidate that fails qualification is dropped; with CRC-4 the others stay as standby (R107 to R109). -/
def settle (s : State) (u : PdhUnit) (pos t : Nat) (qual : Option Bool) : State :=
  let k := pdhKind s u
  let x := pdh s u
  let here := x.cands.any (fun c => c.pos == pos && c.conf)
  if !here then followPdh s u
  else if k = 1 ∨ k = 6 then takeAlign (editPdh s u (fun x => { x with cands := [] })) u pos
  else if k = 4 ∨ k = 5 then
    match qual with
    | some true => takeAlign (editPdh s u (fun x => { x with cands := [], mfa := true })) u pos
    | some false => followPdh (editPdh s u (fun x => { x with cands := x.cands.filter (fun c => c.pos != pos) })) u
    | none => followPdh s u
  else
    let s := if x.oof then
        takeAlign (editPdh s u (fun x => { x with firstConf := if x.firstConf.isSome then x.firstConf else some t })) u pos
      else s
    if qual = some true then
      let r := mfasSight (pdh s u).cands pos t
      if r.2 then reachMfa s u pos else editPdh s u (fun x => { x with cands := r.1 })
    else s

/-- PDH_FRAME_PATTERN: a search's sighting of its pattern at bit position `pos` and bit time `t`; `qual` says whether the CRC-4
multiframe alignment signal, the six Fs bits or the CRC-6 of the confirmed candidate there has been checked, and is good (R107 to
R109). DESIGN CHOICE (log entry 127): new candidates are opened too while an alignment is taken and MFA is awaited; R107 speaks of a framer out of
frame. -/
def execPdhFramePattern (u : PdhUnit) (pos t : Nat) (qual : Option Bool) (s : State) : Out :=
  let k := pdhKind s u
  let x := pdh s u
  .next (
    if pdhRuns s u && k != 0 && (x.oof || ((k == 2 || k == 3) && !x.mfa && !x.interwork)) then
      let l := lateCands k x t
      let l := if qual.isSome && l.any (fun c => c.pos == pos && c.conf) then l else sight k l pos t
      settle (editPdh s u (fun x => { x with cands := l, failMfa := failsMfa k x t })) u pos t qual
    else s)

/-- MFA_TIMEOUT: no candidate has reached MFA within 8 ms; the taken candidate is dropped and OOF is entered (R107, R110). -/
def execMfaTimeout (u : PdhUnit) (s : State) : Out :=
  let k := pdhKind s u
  let x := pdh s u
  .next (
    if pdhRuns s u && (k == 2 || k == 3) && !x.oof && !x.mfa && !x.interwork then
      enterOof (editPdh s u (fun x => { x with failMfa := min 2 (x.failMfa + 1) })) u
        (x.cands.filter (fun c => c.pos != x.taken)) true
    else s)

/-- INTERWORK_TIMEOUT: after 400 ms without MFA the basic alignment is kept (R107). -/
def execInterworkTimeout (u : PdhUnit) (s : State) : Out :=
  let x := pdh s u
  .next (
    if pdhRuns s u && pdhKind s u == 3 && !x.oof && !x.mfa && !x.interwork && x.firstConf.isSome then
      let s := editPdh s u (fun x => { x with interwork := true, cands := [], firstConf := none, failMfa := 0 })
      followPdh (pdhEvent s u 9 true 0) u
    else s)

/-! ### A received frame -/

/-- The frame word of a frame is checked, and in error (R107 to R109): FAS in even E1 frames, Ft in odd SF frames, FPS in every
fourth ESF frame, the C37.94 header. -/
def wordError (k : Nat) (f : PdhRx) : Option Bool :=
  if 1 ≤ k ∧ k ≤ 3 then (if f.frame % 2 = 0 then some ((f.bytes.getD 0 0).toNat % 128 != 0x1B) else none)
  else if k = 4 then (if f.frame % 2 = 1 then some (f.fbit != (f.frame % 4 == 1)) else none)
  else if k = 5 then (if f.frame % 4 = 0 then some (f.fbit != [12, 20, 24].contains f.frame) else none)
  else some (!f.header)

/-- A checked frame word: counted if in error, and OOF after three FAS or four headers in a row, or two of four Ft or FPS bits
(R107 to R109). -/
def wordStep (s : State) (u : PdhUnit) (k : Nat) (bad : Bool) : State :=
  let s := if bad then pdhCount s u 2 1 else s
  let x := pdh s u
  if k = 4 ∨ k = 5 then
    let h := (bad :: x.ftHist).take 4
    if 2 ≤ (h.filter (fun b => b)).length then enterOof s u [] false else editPdh s u (fun x => { x with ftHist := h })
  else
    let n := if bad then x.fasBad + 1 else 0
    if n = (if k = 6 then 4 else 3) then enterOof s u [] false else editPdh s u (fun x => { x with fasBad := n })

/-- The framer uses CRC blocks now (R107, R110, R120). -/
def usesCrc (s : State) (u : PdhUnit) : Bool :=
  let k := pdhKind s u
  ((k == 2 || k == 3) && (pdh s u).mfa) || k == 5

/-- The block check of a frame: a CRC block that ends with it, or the frame itself; 915 errored of the last 1,000 sub-multiframes
end MFA (R107, R120). -/
def blockStep (s : State) (u : PdhUnit) (f : PdhRx) (word : Option Bool) : State :=
  let k := pdhKind s u
  if usesCrc s u then
    match f.crc with
    | none => s
    | some bad =>
      let s := if bad then pdhCount s u 3 1 else s
      let s := editPdh s u (fun x => { x with
        crcHist := (bad :: x.crcHist).take 1000
        txE := if k ≤ 3 ∧ bit (pdhWord s u) 7 then x.txE + b2n bad else 0
        secNow := { x.secNow with eb := x.secNow.eb + b2n bad, blocks := x.secNow.blocks + 1 } })
      if k ≤ 3 ∧ 915 ≤ ((pdh s u).crcHist.filter (fun b => b)).length then enterOof s u [] false else s
  else
    editPdh s u (fun x => { x with secNow := { x.secNow with
      eb := x.secNow.eb + b2n (word == some true), blocks := x.secNow.blocks + 1 } })

/-- RAI as a frame shows it: NFAS bit 3, bit 2 of every timeslot, a data-link group, or the yellow bit; `none` where the frame
does not show it (R110). -/
def raiSeen (k : Nat) (f : PdhRx) : Option Bool :=
  if 1 ≤ k ∧ k ≤ 3 then (if f.frame % 2 = 1 then some ((f.bytes.getD 0 0).getLsbD 5) else none)
  else if k = 4 then some (f.bytes.all (fun b => !b.getLsbD 6))
  else if k = 5 then f.dl
  else some f.yellow

/-- A run against a present state: grows while the observation contradicts it, up to `need` (R110). -/
def againstRun (now : Bool) (seen : Option Bool) (run need : Nat) : Nat := match seen with
  | none => run
  | some b => if b == now then 0 else min need (run + 1)

/-- E bits received as 0 in a frame: bit 1 of NFAS frames 13 and 15 in MFA (R113, R120). -/
def eZeros (s : State) (u : PdhUnit) (f : PdhRx) : Nat :=
  if (pdhKind s u = 2 ∨ pdhKind s u = 3) ∧ (pdh s u).mfa ∧ (f.frame = 13 ∨ f.frame = 15) ∧
      !(f.bytes.getD 0 0).getLsbD 7 then 1 else 0

/-- Overhead of a frame: RAI, E bits, received N, TS16 and Sa bits (R110, R113, R119, R120). -/
def overheadStep (s : State) (u : PdhUnit) (f : PdhRx) : State :=
  let k := pdhKind s u
  let e := eZeros s u f
  let s := if e = 0 then s else pdhCount s u 4 e
  let own : Nat := match u with
    | .port p => tribN (portCtl s p)
    | .term _ => 0
  let cas := if bit (pdhWord s u) 4 && decide (k ≤ 3) then f.cas.map (fun b => !b) else none
  let sa : Option Nat := if 1 ≤ k ∧ k ≤ 3 ∧ f.frame % 2 = 1 then some ((f.bytes.getD 0 0).toNat % 32) else none
  let s := editPdh s u (fun x =>
    let run := match sa with
      | none => x.saRun
      | some v => if x.saRun ≠ 0 ∧ x.saLast = v then min 3 (x.saRun + 1) else 1
    { x with
      raiRun := againstRun x.det.rai (raiSeen k f) x.raiRun (raiNeed k)
      nRun := if k = 6 then againstRun x.det.nmis (some (f.n.toNat != own)) x.nRun 8 else 0
      casRun := againstRun x.det.casLom cas x.casRun 2
      nRx := if k = 6 then f.n.toNat else x.nRx
      saLast := sa.getD x.saLast
      saRun := run
      sa := if run = 3 then sa.getD x.sa else x.sa
      secNow := { x.secNow with fe := x.secNow.fe + e } })
  match u with
  | .port p => fset (fset s (Reg.tribRxoh p) 4 0 (pdh s u).sa) (Reg.tribRxoh p) 11 8 (pdh s u).nRx
  | .term _ => s

/-- A controlled slip: counted, and raised once per second and direction (R117, R122). -/
def slip (s : State) (u : PdhUnit) (tx neg : Bool) : State :=
  let s := pdhCount s u (6 + 2 * b2n tx + b2n neg) 1
  let d1 := w32 (2 ^ 16 * b2n tx + 2 ^ 17 * b2n neg)
  match u with
  | .port p => raiseOnce s (0x80 + p) 0x0A (2 * p.val + b2n tx) (w32 (0x0A + 256 * p.val)) d1
  | .term n => match termRx? s n with
    | none => s
    | some t =>
      let src := if t.src = 2 then 0x600 + saNum t.from_ / 256 else saLane t.from_
      if s.evt.once.contains (src * 256 + 0x6A, n.val) then s
      else pdhEvent { s with evt := { s.evt with once := (src * 256 + 0x6A, n.val) :: s.evt.once } } u 0x0A false d1

/-- A frame is written into the receive slip buffer; while two unread frames are present the older is deleted. In the frame in which
alignment is taken no slip is made, and the buffer holds the frame beside the two (R117). -/
def slipWrite (s : State) (u : PdhUnit) (b : List Byte) : State :=
  if !hasSlip s u then editPdh s u (fun x => { x with rxLast := b })
  else
    let x := pdh s u
    if x.rxBuf.length < 2 ∨ x.rxFresh then editPdh s u (fun x => { x with rxBuf := x.rxBuf ++ [b] })
    else slip (editPdh s u (fun x => { x with rxBuf := x.rxBuf.drop 1 ++ [b] })) u false true

/-! ### Transmitted frames -/

/-- The CRC of a block goes on over `n` bits of a number, the most significant first: x^4 + x + 1 or x^6 + x + 1 (R106, R107; G.704). -/
def crcOn (w : Nat) (c : Nat) (l : List Bool) : Nat := l.foldl (fun c b => crcBit w 3 c b) c

/-- TS0 of transmitted E1 frame `i` of a multiframe: FAS with its C bit, or NFAS with the multiframe alignment signal or E bit, RAI and
the Sa bits; without CRC-4 bit 1 is 1 (R106, R107, R112; G.704). -/
def txTs0 (k i : Nat) (x : PdhSt) (w : Word) : Byte :=
  let first : Bool :=
    if k = 1 then true
    else if i % 2 = 0 then x.txCrc / 2 ^ (3 - i / 2 % 4) % 2 == 1
    else if i = 13 ∨ i = 15 then !x.interwork && x.txE == 0
    else i == 5 || i == 9 || i == 11
  BitVec.ofNat 8 (128 * b2n first +
    (if i % 2 = 0 then 0x1B else 64 + 32 * b2n x.txRai + fld w 12 8))

/-- F bit of transmitted T1 frame `i`, counted from 0 over a superframe or over four extended superframes: Ft and Fs, or FPS, CRC-6 and the data link, which carries RAI as 0xFF00 and else
flags (R106, R108, R112; G.704; DESIGN CHOICE of the idle data link, log entry 94). -/
def txFbit (k i : Nat) (x : PdhSt) : Bool :=
  let n := i % 24 + 1
  if k = 4 then (if n % 2 = 1 then n % 4 == 1 else n == 6 || n == 8 || n == 10)
  else if n % 4 = 0 then n == 12 || n == 20 || n == 24
  else if n % 4 = 2 then x.txCrc / 2 ^ (5 - n / 4) % 2 == 1
  else if x.txRai then decide (i / 2 % 16 < 8)
  else decide (1 ≤ i / 2 % 8) && decide (i / 2 % 8 ≤ 6)

/-- The next transmitted frame of a unit from its timeslots `b`, and the unit after it (R101, R106, R112, R113). -/
def nextTx (s : State) (u : PdhUnit) (b : List Byte) : PdhRx × PdhSt :=
  let k := pdhKind s u
  let x := pdh s u
  let w := pdhWord s u
  let i := x.txFrame
  if 1 ≤ k ∧ k ≤ 3 then
    let t := txTs0 k i x w
    let body := (b ++ List.replicate (32 - b.length) 0xFF).take 32 |>.drop 1
    let bare : Byte := if i % 2 = 0 ∧ k ≠ 1 then t &&& 0x7F else t
    let acc := crcOn 4 (if i % 8 = 0 then 0 else x.txAcc) (bytesBits (bare :: body))
    ({ bytes := t :: body, frame := i, crc := if k ≠ 1 ∧ i % 8 = 7 then some false else none },
      { x with txLast := b, txFrame := (i + 1) % 16, txAcc := acc, txCrc := if i % 8 = 7 then acc else x.txCrc
               txE := if i = 13 ∨ i = 15 then x.txE - 1 else x.txE })
  else if k = 4 ∨ k = 5 then
    let n := if k = 4 then 12 else 96
    let j := i % 24
    let f := txFbit k i x
    let body := (b ++ List.replicate (24 - b.length) 0xFF).take 24
    let body := if k = 4 ∧ x.txRai then body.map (fun v => v &&& 0xBF) else body
    let acc := crcOn 6 (if j = 0 then 0 else x.txAcc) (true :: bytesBits body)
    ({ bytes := body, frame := j + 1, fbit := f, crc := if k = 5 ∧ j = 23 then some false else none },
      { x with txLast := b, txFrame := (i + 1) % n, txAcc := acc, txCrc := if j = 23 then acc else x.txCrc })
  else if k = 6 then
    let n := match u with
      | .port p => tribN (portCtl s p)
      | .term _ => 0
    ({ bytes := (b.take n ++ List.replicate 12 0xFF).take 12, header := true, n := BitVec.ofNat 4 n, yellow := x.txRai },
      { x with txLast := b })
  else
    let t1 := match u with
      | .port p => tribMode (portCtl s p) == 1
      | .term _ => false
    (if t1 then { bytes := b.drop 1, fbit := (b.headD 1).getLsbD 0 } else { bytes := b }, { x with txLast := b })

/-- The frame that all ones on the line are, in place of `f` (R105, R119). -/
def onesFrame (f : PdhRx) : PdhRx :=
  { f with bytes := List.replicate f.bytes.length 0xFF, fbit := true, header := false, crc := f.crc.map (fun _ => true)
           n := 15, yellow := true }

/-- The bytes of a frame on the line of a port in mode `m`: a T1 frame's F bit before its timeslots, a C37.94 frame's N and yellow bit before its
channels, whose optional fields are ones (R113). -/
def lineBytes (m k : Nat) (f : PdhRx) : List Byte :=
  if m = 1 then BitVec.ofNat 8 (b2n f.fbit) :: f.bytes
  else if k = 6 then [BitVec.ofNat 8 f.n.toNat, BitVec.ofNat 8 (b2n f.yellow), 0xFF] ++ f.bytes
  else f.bytes

/-- The kind of signal on a port's line: HDB3 or AMI, B8ZS or AMI, C37.94, synchronous serial (R101, R119). -/
def lineKind (ctl : Word) : String := match tribMode ctl with
  | 0 => if bit ctl 5 then "e1-ami" else "e1-hdb3"
  | 1 => if bit ctl 5 then "t1-ami" else "t1-b8zs"
  | 2 => "c37.94"
  | _ => "serial"

/-- The transmitter of port `p` is on: the port is enabled, and the termination that the last trim took leaves the transmitter on (R102,
R119). -/
def portSends (s : State) (p : Nat) : Bool :=
  let c := portCtl s p
  bit c 0 && !(decide (tribMode c ≤ 1) && (Tab.get s.tribs p {}).term == 3)

/-- Timeslots that a port sends: in part 7 of a SELFTEST, whose pattern the spec does not name, free values (R399). -/
def testBytes (s : State) (b : List Byte) : List Byte :=
  if testPart s = some 7 then (List.range b.length).map (fun i => (Config.freeValue (s.glb.free + i)).setWidth 8) else b

/-- The free values that a port has sent have been used. -/
def testNext (s : State) (b : List Byte) : State :=
  if testPart s = some 7 then { s with glb := { s.glb with free := s.glb.free + b.length } } else s

/-- One frame of timeslots `own`, or of a SELFTEST's pattern, leaves port `p`: its framed signal, all ones in TRIM and under TX_AIS, and in MODE 3 the N timeslots
with 8N clock pulses and frame sync at the first bit; in far-end loopback the frame is discarded. A T1 line carries the build-out
with it (R101, R102, R105, R113, R114, R119). -/
def portTransmit (s : State) (p : PortId) (own : List Byte) : State :=
  let c := portCtl s p
  let b := testBytes s own
  let s := testNext s own
  let r := nextTx s (.port p) b
  let k := pdhKind s (.port p)
  let sent := lineBytes (tribMode c) k r.1
  let ones := portState s p == 1 || bit c 12
  let line :=
    if tribMode c = 3 then natBe 2 (8 * tribN c) ++ (if ones then List.replicate (tribN c) 0xFF else b.take (tribN c))
    else if ones then List.replicate sent.length 0xFF else sent
  let s := editPdh s (.port p) (fun _ => { r.2 with txOut := if ones then onesFrame r.1 else r.1 })
  if !portSends s p || fld c 10 9 == 2 then s
  else wire s (lineKind c) p (if tribMode c = 1 then BitVec.ofNat 8 (fld c 8 6) :: line else line)

/-- A loop-timed port transmits one frame at its received clock; with none unread it repeats one (R116, R117). -/
def slipTxRead (s : State) (u : PdhUnit) : State := match u with
  | .port p =>
    if bit (portCtl s p) 11 && hasSlip s u then
      match (pdh s u).txBuf with
      | b :: r => portTransmit (editPdh s u (fun x => { x with txBuf := r })) p b
      | [] => slip (portTransmit s p (pdh s u).txLast) u true false
    else s
  | .term _ => s

/-- The DS0 tier gives port `p` its frame: into the transmit slip buffer of a loop-timed port, where the older of two unread frames is
deleted, else to the line. In TRIM and ACQ a loop-timed port has no received clock yet and sends directly (R105, R114, R116, R117). DESIGN CHOICE
(log entry 129): the transmit slip buffer starts empty, so that its first reads count positive slips; R117 gives it no fill to start at. -/
def portFrame (s : State) (p : PortId) (b : List Byte) : State :=
  let u := PdhUnit.port p
  if bit (portCtl s p) 11 && hasSlip s u && decide (3 ≤ portState s p) then
    if (pdh s u).txBuf.length < 2 then editPdh s u (fun x => { x with txBuf := x.txBuf ++ [b] })
    else slip (editPdh s u (fun x => { x with txBuf := x.txBuf.drop 1 ++ [b] })) u true true
  else portTransmit s p b

/-! ### Frames received -/

/-- Bits of one frame of a unit with framing kind `k` (R91, R94). -/
def pdhBits (k : Nat) : Nat := if k = 4 ∨ k = 5 then 193 else 256

/-- The frame `f` with the F bit and timeslots that the bits `b` hold. -/
def frameOfBits (f : PdhRx) (k : Nat) (b : List Bool) : PdhRx :=
  if k = 4 ∨ k = 5 then { f with fbit := b.headD true, bytes := bitsBytes (b.drop 1) } else { f with bytes := bitsBytes b }

/-- The frame of a byte-synchronous E1 or T1 in subframe `i` of its container (R94). -/
def frameOfSub (f : PdhRx) (vc12 : Bool) (i : Nat) (c : List Byte) : PdhRx :=
  if vc12 then { f with bytes := (c.drop (35 * i + 2)).take 32 }
  else { f with fbit := (c.getD (26 * i + 1) 0).getLsbD 1, bytes := (c.drop (26 * i + 2)).take 24 }

/-- The frame that a unit receives next, framed as `f` says, and its bits taken: a port has it from its line; a termination from the
desynchronizer, from the container of a byte-synchronous TU or the delay line of its guard, or from its pseudowire's playout; none while a whole frame is not there, or while part 7 of a
SELFTEST has the ports (R94, R96, R152, R193, R225, R399). -/
def takeFrame (s : State) (u : PdhUnit) (f : PdhRx) : Option (State × PdhRx) := match u with
  | .port _ => if testPart s = some 7 then none else some (s, f)
  | .term n => match termRx? s n with
    | none => none
    | some t =>
      let k := pdhKind s u
      let n := pdhBits k
      let a := t.from_
      if t.src = 2 then match pw? s (saNum a) with
        | none => none
        | some x =>
          if x.out.length < n then none
          else some ({ s with cem := { s.cem with pws := Tab.put s.cem.pws (saNum a) { x with out := x.out.drop n } } },
            frameOfBits f k (x.out.take n))
      else
        let p := path s a
        if bit (pathCfg s a).w7 11 then
          let r := path s (mspResolve s a)
          if r.data.length ≠ contBytes s a then none
          else some (s, if r.ptr = 0 && !mspTaken s a then
              frameOfSub f (tuType? s a == some 0) (s.glb.frame % 4) (demapInput s a r.data)
            else frameOfBits f k (List.replicate n true))
        else if p.dsOut.length < n then none
        else some (editPath s a (fun p => { p with dsOut := p.dsOut.drop n }), frameOfBits f k (p.dsOut.take n))

/-- What the port of a unit receives where the line shows `f`: in LOOP 1 the frame transmitted last (R105). -/
def portReceives (s : State) (u : PdhUnit) (f : PdhRx) : PdhRx := match u with
  | .port p => if fld (portCtl s p) 10 9 = 1 then (pdh s u).txOut else f
  | .term _ => f

/-- A far-end loopback sends the received frame back (R105). -/
def portReturns (s : State) (u : PdhUnit) (f : PdhRx) : State := match u with
  | .port p => if fld (portCtl s p) 10 9 = 2 ∧ portSends s p then wire s (lineKind (portCtl s p)) p (lineBytes (tribMode (portCtl s p)) (pdhKind s u) f) else s
  | .term _ => s

/-- Framing bits that the marver checks in a frame beside those of `wordError`: NFAS bit 2 in odd E1 frames, Fs in even SF frames
(R218). -/
def sideError (k : Nat) (f : PdhRx) : Bool :=
  if 1 ≤ k ∧ k ≤ 3 then f.frame % 2 == 1 && !(f.bytes.getD 0 0).getLsbD 6
  else k == 4 && f.frame % 2 == 0 && (f.fbit != (f.frame == 6 || f.frame == 8 || f.frame == 10))

/-- Frames of one CRC block (R107, R108). -/
def crcFrames (k : Nat) : Nat := if k = 5 then 24 else 8

/-- The checks of the last frames after one more: an errored CRC block fails every frame in it (R218). -/
def failStep (k : Nat) (l : List Bool) (bad crc : Bool) : List Bool :=
  let l := (bad :: l).take 3300
  if crc then List.replicate (min l.length (crcFrames k)) true ++ l.drop (crcFrames k) else l

/-- What a signal without a framer delivers: N timeslots in MODE 3, whose others read 0xFF, or a clear-channel signal as it is (R101,
R114, R115). -/
def plainFrame (s : State) (u : PdhUnit) (b : List Byte) : List Byte := match u with
  | .port p => if tribMode (portCtl s p) = 3 then (b.take (tribN (portCtl s p)) ++ List.replicate 32 0xFF).take 32 else b
  | .term _ => b

/-- The bits of one frame of a clear-channel port that a connection takes on (R115, R153). -/
def clearBits (s : State) (u : PdhUnit) (f : PdhRx) : List Bool := match u with
  | .port p =>
    if (ccOf s 2 (w32 p)).isNone then []
    else if tribMode (portCtl s p) = 1 then f.fbit :: bytesBits f.bytes else bytesBits f.bytes
  | .term _ => []

/-- Frames of one AIS window: 512 bits of E1 and C37.94, 3,088 bits of T1 (R110). -/
def aisFrames (k : Nat) : Nat := if k = 4 ∨ k = 5 then 16 else 2

/-- The zeros of a received frame are counted for AIS, window after window (R110). -/
def aisStep (k : Nat) (x : PdhSt) (f : PdhRx) : PdhSt :=
  let bits := if k = 4 ∨ k = 5 then f.fbit :: bytesBits f.bytes else bytesBits f.bytes
  let n := x.aisZeros.2 + (bits.filter (fun b => !b)).length
  if x.aisZeros.1 + 1 < aisFrames k then { x with aisZeros := (x.aisZeros.1 + 1, n) }
  else { x with aisZeros := (0, 0), aisHist := (decide (n < 3) :: x.aisHist).take 2 }

/-- What a unit of kind `k` does with the frame `f` that it receives: loopbacks, line counters, the check of the frame word, blocks,
overhead, and the slip buffer (R101, R105, R107 to R110, R113 to R115, R117 to R120). -/
def pdhReceive (s : State) (u : PdhUnit) (k : Nat) (f : PdhRx) : State :=
  let s := portReturns s u f
  let f := portReceives s u f
  let s := if f.cv = 0 then s else pdhCount s u 0 f.cv
  let s := if f.exz = 0 then s else pdhCount s u 1 f.exz
  let s := slipTxRead s u
  let s := if k = 0 then s else editPdh s u (fun x => aisStep k x f)
  if k = 0 then editPdh s u (fun x => { x with
    rxLast := plainFrame s u f.bytes, ccOut := x.ccOut ++ clearBits s u f })
  else if (pdh s u).oof then s
  else
    let w := wordError k f
    let s := overheadStep s u f
    let s := blockStep s u f w
    let s := match w with
      | some bad => if (pdh s u).oof then s else wordStep s u k bad
      | none => s
    let s := if (pdh s u).oof then s else slipWrite s u f.bytes
    let l := failStep k (pdh s u).fails (w == some true || sideError k f) (f.crc == some true && usesCrc s u)
    followPdh (editPdh s u (fun x => { x with ebLast := l.headD false, fails := l })) u

/-- PDH_FRAME_RX: one frame of a unit that runs; the bits of a termination are those its mapping delivers (R94, R96, R101, R107). -/
def execPdhFrameRx (u : PdhUnit) (f : PdhRx) (s : State) : Out :=
  .next (match (if pdhRuns s u then takeFrame s u f else none) with
    | some (t, g) => pdhReceive t u (pdhKind s u) g
    | none => s)

/-- The DS0 tier reads one frame of a unit at a frame boundary; with no unread frame the last one is read again, which counts
as a positive slip unless OOF is present or alignment has just been taken (R117). -/
def slipRead (s : State) (u : PdhUnit) : State :=
  if !hasSlip s u || !pdhRuns s u then s
  else
    let x := pdh s u
    let s := match x.rxBuf with
      | b :: r => editPdh s u (fun x => { x with rxBuf := r, rxLast := b })
      | [] => if x.oof || x.rxFresh then s else slip s u false false
    editPdh s u (fun x => { x with rxFresh := false })

/-! ### Ports -/

/-- Framer state of a unit that starts: counters and seconds go on (R105, R106). -/
def freshPdh (x : PdhSt) : PdhSt :=
  { cnt := x.cnt, secNow := x.secNow, secs := x.secs, uas := x.uas, feUas := x.feUas }

/-- The defects of a unit that a framing word `w` of kind `k` can have; the others end with it (R110). -/
def defectsUnder (k : Nat) (w : Word) (d : PdhDefects) : PdhDefects :=
  { los := d.los, ais := k != 0 && d.ais, lof := k != 0 && d.lof, nmis := k == 6 && d.nmis
    lomf := (k == 2 || k == 3) && d.lomf, casLom := decide (1 ≤ k) && decide (k ≤ 3) && bit w 4 && d.casLom
    deg := (k == 2 || k == 3 || k == 5) && d.deg, rai := k != 0 && d.rai }

/-- Interworking, if it stands, ends with its event (R107, R122). -/
def endInterwork (s : State) (u : PdhUnit) : State :=
  if (pdh s u).interwork then pdhEvent (editPdh s u (fun x => { x with interwork := false })) u 9 false 0 else s

/-- The frame search of a unit starts again: OOF is entered, and its defects stand until they meet their exit conditions, those apart that the new
framing does not have (R106, R110, R122). DESIGN CHOICE (log entry 128): this entry of OOF is not counted, and no exit condition is asked of a
defect that the new framing does not have. -/
def restartSearch (s : State) (u : PdhUnit) : State :=
  let s := endInterwork s u
  let s := editPdh s u (fun x => { freshPdh x with det := x.det, aisHist := x.aisHist, aisZeros := x.aisZeros, rxLast := x.rxLast })
  let s := setPdhDet s u (defectsUnder (pdhKind s u) (pdhWord s u) (pdh s u).det)
  let s := match u with
    | .port p => if portState s p = 4 ∨ portState s p = 3 then setPortState s p (if pdhKind s u = 0 then 4 else 3) else s
    | .term _ => s
  followPdh s u

/-- Port `p` starts: TRIM in MODES 0 and 1 with LOS present, SEARCH in MODE 2, UP in MODE 3 (R105, R115). -/
def portStart (s : State) (p : PortId) : State :=
  let m := tribMode (portCtl s p)
  let s := editPdh s (.port p) freshPdh
  let s := wr (wr s (Reg.tribLiu p) 0) (Reg.tribRxoh p) 0
  let s := editTrib s p (fun t => { t with term := fld t.ctl 4 3 })
  let s := setPortState s p (if m ≤ 1 then 1 else if m = 2 then 3 else 4)
  let s := if m ≤ 1 then setPdhDet s (.port p) { los := true } else s
  followPdh s (.port p)

/-- Port `p` stops: transmitter idle, nothing reported (R119). -/
def portStop (s : State) (p : PortId) : State :=
  let s := setPdhDet (endInterwork s (.port p)) (.port p) {}
  let s := editPdh s (.port p) freshPdh
  let s := editTrib s p (fun t => { t with lossHigh := false })
  wr (wr (wr s (Reg.tribStatus p) 0) (Reg.tribLiu p) 0) (Reg.tribRxoh p) 0

/-- A TRIB_CTL word that no state admits (R101, R102, R105, R116). -/
def tribBad (v : Word) : Bool :=
  let t := fld v 4 3
  let lbo := fld v 8 6
  let n := tribN v
  fld v 10 9 == 3 || (match tribMode v with
    | 0 => t == 2 || lbo != 0 || n != 0
    | 1 => t == 0 || t == 1 || decide (5 ≤ lbo) || n != 0
    | 2 => t != 0 || lbo != 0 || n == 0 || decide (12 < n)
    | _ => t != 0 || lbo != 0 || n == 0 || decide (32 < n) || bit v 11)

/-- Fields of TRIB_CTL that take effect at the next frame boundary: CODE, TX_TIMING, TX_AIS and N (R119). -/
def tribLate : Word := 0xFD820

/-- The live guard of R103 refuses a change. -/
def portGuarded (s : State) (p : Nat) (force : Bool) : Bool := guarded s && !force && portLive s p

/-- A staged edit of an open gather names a slot of port `p` that these words would free (R168). -/
def gatherBlocksPort (s : State) (p : Nat) (ctl frm : Word) : Bool :=
  let was := posSlots s (tribAddr p 0)
  let now := if bit ctl 0 then portSlots ctl frm else none
  gatherNames s (Staged.names (fun a => onPort p a && decide (saSlot a < was.getD 0) && !decide (saSlot a < now.getD 0)))

/-- Port `p` would take one more DS0 position than the device holds, validated gathers and waiting changes counted (R129, R167). -/
def portExceeds (s : State) (p : Nat) (ctl frm : Word) : Bool :=
  !portTakes s p && bit ctl 0 && (portSlots ctl frm).isSome && decide (65536 ≤ ds0Ahead s (validItems s))

/-- FORCED_OP for a forced change of TRIB_CTL on a live port; for a change that R122 gives no value, data word 1 is a free
value (R103, R122). DESIGN CHOICE (log entry 92): a write that changes fields of several classes raises one event for each class, in the
order of data word 1. -/
def portForced (s : State) (p : Nat) (old v : Word) : State :=
  let x := old ^^^ v
  if !portLive s p || !bit v 13 then s
  else
    let ev := fun (s : State) (d1 : Word) => raise s (0x80 + p) (w32 (0x0D + 256 * p)) d1
    let s := if x &&& 0x600 = 0 then s else ev s 0
    let s := if x &&& 0xFC83E = 0 then s else ev s 1
    let s := if x &&& 0x1000 = 0 then s else ev s 2
    if x &&& 0x1C1 ≠ 0 ∧ x &&& 0xFDE3E = 0 then ev (freeNext s) (freeNow s) else s

/-- The words of port `p` in force become `ctl` and `frm`: the port starts, restarts or stops, positions are taken or freed,
and orphans are found (R105, R119, R128, R144, R148, R159). -/
def putPort (s : State) (p : PortId) (ctl frm : Word) : State :=
  let old := portCtl s p
  let oldF := portFrm s p
  let s0 := s
  let restart := tribMode old != tribMode ctl
  let s := if bit old 0 && (!bit ctl 0 || restart) then idleMark (portStop s p) 16 else s
  let s := editTrib s p (fun t => { t with ctl := ctl, frm := frm })
  let s := if bit ctl 0 && (!bit old 0 || restart) then portStart s p
    else if bit ctl 0 && fld oldF 3 0 != fld frm 3 0 then restartSearch s (.port p)
    else if bit ctl 0 then followPdh s (.port p) else s
  orphanCheck s0 (dropEntries s)

/-- TRIB_CTL_WRITE (R101 to R103, R105, R116, R119, R129, R168). -/
def execTribCtlWrite (p : PortId) (v : Word) (s : State) : Out :=
  let off := Reg.tribCtl p
  .next (domainWrite s 16 off v (fun s =>
    let old := rd s off
    let v := v &&& 0xFFFFF
    let change := (old ^^^ v) &&& 0xFDFFF != 0
    let now := (portCtl s p &&& tribLate) ||| (v &&& ~~~ tribLate)
    if tribBad v || (change && portGuarded s p (bit v 13)) || gatherBlocksPort s p v (portFrm s p) ||
        portExceeds s p v (portFrm s p) || portExceeds s p v (rd s (Reg.tribFrm p)) then ignoredWrite s off
    else
      let s := portForced s p old v
      putPort (wr s off v) p (if bit old 0 && tribMode old == tribMode v then now else v) (portFrm s p)))

/-- A TRIB_FRM word that the port's mode does not admit, or with a reserved value (R106). -/
def frmBad (ctl v : Word) : Bool :=
  let ty := frmType v
  match tribMode ctl with
  | 0 => ty == 3 || ty == 1 || (ty == 0 && frmFormat v == 3) || (ty == 2 && frmFormat v != 0)
  | 1 => ty == 3 || ty == 0 || (ty == 1 && decide (2 ≤ frmFormat v)) || (ty == 2 && frmFormat v != 0)
  | _ => v != 0

/-- TRIB_FRM_WRITE: checked, and in force from the next frame boundary (R103, R106). -/
def execTribFrmWrite (p : PortId) (v : Word) (s : State) : Out :=
  let off := Reg.tribFrm p
  .next (domainWrite s 16 off v (fun s =>
    let old := rd s off
    let ctl := rd s (Reg.tribCtl p)
    let v := v &&& 0x1FFF
    if frmBad ctl v || (old != v && portGuarded s p (bit ctl 13)) || gatherBlocksPort s p ctl v ||
        portExceeds s p ctl v then ignoredWrite s off
    else
      let s := if old ≠ v ∧ portLive s p ∧ bit ctl 13 then raise s (0x80 + p) (w32 (0x0D + 256 * p.val)) 1 else s
      wr s off v))

/-- The written words of port `p` are in force from a frame boundary on (R106, R119). -/
def portBoundary (s : State) (p : PortId) : State :=
  let ctl := rd s (Reg.tribCtl p)
  let frm := rd s (Reg.tribFrm p)
  if portCtl s p = ctl ∧ portFrm s p = frm then s else putPort s p ctl frm

/-- TRIB_TRIM_DONE: the termination is trimmed and the port enters ACQ (R105). -/
def execTribTrimDone (p : PortId) (trim : BitVec 5) (s : State) : Out :=
  .next (
    if portState s p = 1 then setPortState (fset s (Reg.tribLiu p) 15 11 trim.toNat) p 2 else s)

/-- TRIB_LIU_ADJUST: the equalizer acquires, trim and equalizer move by one code within their ranges, and the cable-loss
estimate is refreshed; a trim takes TERM as it stands (R105, R119; DEDUCED, log entry 136). -/
def execTribLiuAdjust (p : PortId) (what : LiuAdjust) (s : State) : Out :=
  let off := Reg.tribLiu p
  .next (
    if tribMode (portCtl s p) ≤ 1 ∧ 2 ≤ portState s p then
      match what with
      | .acquired eq => if portState s p = 2 then fset s off 10 6 eq.toNat else s
      | .trim up =>
        let t := sgn 5 (fget s off 15 11)
        let s := editTrib s p (fun t => { t with term := fld t.ctl 4 3 })
        fset s off 15 11 (unsgn 5 (iclamp (-16) 15 (if up then t + 1 else t - 1)))
      | .equalizer up =>
        let e := fget s off 10 6
        fset s off 10 6 (if up then min 31 (e + 1) else e - 1)
      | .loss est => fset s off 5 0 est.toNat
    else s)

/-- LOSS_HIGH: the estimate has stayed above 6.0 dB, or below 5.5 dB, for 1 s (R105, R122). -/
def execLossHigh (p : PortId) (high : Bool) (s : State) : Out :=
  let est := fget s (Reg.tribLiu p) 5 0
  .next (
    if bit (portCtl s p) 0 && decide (tribMode (portCtl s p) ≤ 1) && (Tab.get s.tribs p {}).lossHigh != high &&
        (if high then decide (60 < est) else decide (est < 55)) then
      pdhEvent (editTrib s p (fun t => { t with lossHigh := high })) (.port p) 0x0B high (w32 est)
    else s)

/-- TRIB_TX_FAULT_CHANGE: the transmit driver detects an open or shorted pair, or its clearing (R105, R122). -/
def execTribTxFaultChange (p : PortId) (fault : Bool) (s : State) : Out :=
  .next (
    if bit (portCtl s p) 0 && decide (tribMode (portCtl s p) ≤ 1) && bget s (Reg.tribLiu p) 16 != fault then
      pdhEvent (bset s (Reg.tribLiu p) 16 fault) (.port p) 0x0C fault 0
    else s)

/-! ### Seconds -/

/-- The errored blocks that make a second severe: 30 % of its blocks, the nominal number of them where none has been received
(R120). -/
def pdhSesLimit (s : State) (u : PdhUnit) : Nat :=
  let b := (pdh s u).secNow.blocks
  if b ≠ 0 then (3 * b + 9) / 10 else if pdhKind s u = 5 then 100 else if usesCrc s u then 300 else 2400
/-- Near-end SES of a unit's second (R120). -/
def PdhSec.ses (x : PdhSec) : Bool := decide (x.lim ≤ x.eb) || x.defect
/-- Far-end SES of a unit's second (R120). -/
def PdhSec.feSes (x : PdhSec) : Bool := decide (300 ≤ x.fe) || x.rai

/-- A counter of a unit goes up by one where `b` holds. -/
def pdhCountIf (s : State) (b : Bool) (u : PdhUnit) (i : Nat) : State := if b then pdhCount s u i 1 else s

/-- The oldest ended second of a unit is classified once ten seconds have followed it (R70, R120). -/
def classifyPdh (s : State) (u : PdhUnit) : State :=
  let x := pdh s u
  match x.secs with
  | [] => s
  | a :: r =>
    if x.secs.length < 11 then s
    else
      let un := uasStep x.uas (x.secs.map PdhSec.ses)
      let fu := uasStep x.feUas (x.secs.map PdhSec.feSes)
      let s := editPdh s u (fun x => { x with secs := r, uas := un, feUas := fu })
      let s := pdhCountIf s (!un && (decide (0 < a.eb) || a.defect)) u 10
      let s := pdhCountIf s (!un && a.ses) u 11
      let s := pdhCountIf s un u 12
      let s := pdhCountIf s (!fu && (decide (0 < a.fe) || a.rai)) u 13
      let s := pdhCountIf s (!fu && a.feSes) u 14
      pdhCountIf s fu u 15

/-- The running second of a unit ends at the 1PPS; its errored CRC blocks are held against 1 % for DEG (R110, R120). -/
def endPdhSecond (s : State) (u : PdhUnit) : State :=
  let esf := pdhKind s u == 5
  let crc := usesCrc s u
  let lim := pdhSesLimit s u
  notePdh (editPdh s u (fun x => { x with
    secs := (x.secs ++ [{ x.secNow with lim := lim }]).drop (x.secs.length - 10)
    secNow := {}
    crcSec := ((crc && (if esf then decide (333 ≤ 100 * x.secNow.eb) else decide (10 ≤ x.secNow.eb))) :: x.crcSec).take 2
    })) u

/-- PM_SECOND_CLASSIFY: the oldest ended second of a lane, path or PDH signal is classified 10 s after it ended (R70, R97,
R120). -/
def execPmSecondClassify (unit : PmUnit) (s : State) : Out :=
  .next (match unit with
    | .lane n => classifyLane s n
    | .path a => classifyPath s a
    | .pdh u => classifyPdh s u)

end Sys2Proof.Machine
end

