-- ==== Sys2Proof/Machine/Fabric.lean ====
section
/-! DEFINITION. The slot fabric: storage, parity and replay, pattern monitors, latency (06_slot_fabric.md, R123 to R143,
R461). -/

namespace Sys2Proof.Machine

/-- The fabric's hidden state changed by `f`. -/
def editFab (s : State) (f : FabSt → FabSt) : State := { s with fab := f s.fab }

/-! ### Storage -/

/-- The stored contents that a source occupies: the indices of a container named whole, the index of a TU, a DS0 position
(R125). -/
def contentOf (s : State) (a : Word) : List (Nat × Word) := match saTier a with
  | 0 =>
    let c := container s (saLane a) (saIdx a)
    (rangeFrom c.1 (hoSpan c.2)).map (fun i => (0, hoAddr (saLane a) i))
  | 1 => [(1, hoAddr (saLane a) (saIdx a))]
  | 2 => [(2, ds0Addr (saNum a) 0)]
  | 3 => [(2, tribAddr (saPort a) 0)]
  | 5 => [(2, pwAddr (saNum a) 0)]
  | _ => []

/-- The slots that live entries, selectors, merges and guarded connections name as sources (R125). -/
def sourcesNamed (s : State) : List Word :=
  (s.map.entries.filter (fun p => p.2.kind == 1)).map (fun p => p.2.src) ++
    s.prot.sels.flatMap (fun p => [p.2.working, p.2.protect]) ++
    (s.sym.guards.filter (fun p => !bit (p.2.w 8) 0)).map (fun p => p.2.w 7)

/-- The slots that edit records name as sources (R150). -/
def recSources (l : List EditRec) : List Word := (l.filter (fun r => fld r.w2 1 0 == 1)).map (fun r => r.src)

/-- The slots that a staged item names as sources. -/
def Staged.sources : Staged → List Word
  | .edits l => recSources l
  | _ => []

/-- The slots that changes waiting for a boundary, and gathers that have passed validation, will name (R126, R167). -/
def sourcesComing (s : State) : List Word :=
  s.deferred.flatMap (fun d => match d.act with
    | .edits l => recSources l
    | .sel w => if bit (w.getD 0 0) 31 then [] else [w.getD 1 0, w.getD 2 0]
    | .guard w => if bit (w.getD 0 0) 31 || bit (w.getD 2 0) 0 then [] else [w.getD 1 0]
    | _ => []) ++
  (s.gth.slots.filter (fun p => p.2.st == 3 || p.2.valid)).flatMap (fun p => p.2.items.flatMap Staged.sources)

/-- The contents that these sources occupy, each once (R125). -/
def contents (s : State) (l : List Word) : List (Nat × Word) := (l.flatMap (contentOf s)).eraseDups

/-- Dual-use indices among these sources (R125, R128). -/
def dualUse (s : State) (l : List Word) : Nat :=
  let c := contents s l
  (c.filter (fun p => p.1 == 0 && c.contains (1, p.2))).length

/-- Dual-use indices in force, those of validated gathers included (R142). -/
def dualNow (s : State) : Nat := dualUse s (sourcesNamed s ++ sourcesComing s)

/-- Locations of a content in both frame buffers (R125, R461). -/
def contentSize (kind : Nat) : Nat := if kind = 2 then 2 else 14

/-- Pair `p` is powered (R126). -/
def pairOn (s : State) (p : Nat) : Bool := bget s Reg.fabBankOn p

/-- The first location of the lowest free block in pair `p`. Storage is given out in blocks of 14 locations, one index in both frame buffers or
28 DS0 positions: 32 × 877 blocks hold the largest demand of R127 however the contents come and go (DESIGN CHOICE, log entry 100). -/
def freeLoc (s : State) (p : Nat) : Option Nat :=
  let used := (s.fab.alloc.filter (fun a => a.pair == p)).map (fun a => a.loc / 14)
  ((List.range 877).find? (fun b => !used.contains b)).map (fun b => 14 * b)

/-- A quarter of a DS0 location that holds none, in the lowest pair that has one: pair, location and quarter (R461). -/
def freeQuarter (s : State) : Option (Nat × Nat × Nat) :=
  let l := s.fab.alloc.filter (fun a => a.kind == 2)
  ((List.range 32).filterMap (fun p =>
    ((l.filter (fun a => a.pair == p)).filterMap (fun a =>
      ((List.range 4).find? (fun q => l.all (fun b => !(b.pair == p && b.loc == a.loc && b.quarter == q)))).map
        (fun q => (p, a.loc, q)))).head?)).head?

/-- A free place for a DS0 location in a block that holds others already, in the lowest pair that has one (R461). -/
def freeDs0 (s : State) : Option (Nat × Nat × Nat) :=
  let l := s.fab.alloc.filter (fun a => a.kind == 2)
  ((List.range 32).filterMap (fun p =>
    let m := l.filter (fun a => a.pair == p)
    (m.filterMap (fun a =>
      (((List.range 7).map (fun j => a.loc / 14 * 14 + 2 * j)).find? (fun b => m.all (fun c => c.loc != b))).map
        (fun b => (p, b, 0)))).head?)).head?

/-- The lowest pair, of the powered ones or else the next to be powered, with a free block (R126). -/
def freeBlock (s : State) : Option (Nat × Nat × Nat) :=
  let try_ := fun (on : Bool) =>
    ((List.range 32).filterMap (fun p => if pairOn s p == on then (freeLoc s p).map (fun b => (p, b, 0)) else none)).head?
  (try_ true).or (try_ false)

/-- Where a content of `kind` goes: pair, first location and quarter (R126, R461). -/
def placeFor (s : State) (kind : Nat) : Option (Nat × Nat × Nat) :=
  if kind = 2 then ((freeQuarter s).or (freeDs0 s)).or (freeBlock s) else freeBlock s

/-- A content takes storage, unless it has it: the lowest pair with room, powered where it was not (R126). -/
def takeStorage (s : State) (c : Nat × Word) : State :=
  if s.fab.alloc.any (fun a => a.kind == c.1 && a.addr == c.2) then s
  else match placeFor s c.1 with
    | none => s
    | some (p, b, q) =>
      bset (editFab s (fun f => { f with
        alloc := f.alloc ++ [{ kind := c.1, addr := c.2, pair := p, loc := b, quarter := q }] })) Reg.fabBankOn p true

/-- Storage is taken for these sources (R126). -/
def takeSources (s : State) (l : List Word) : State := (contents s l).foldl takeStorage s

/-- The contents that serve as sources or will (R125, R126). -/
def needed (s : State) : List (Nat × Word) := contents s (sourcesNamed s ++ sourcesComing s)

/-- Storage of slots that have stopped serving as sources is freed: before the changes of a frame boundary take effect, so at the first
boundary after the one at which a slot stopped (R126). -/
def freeStorage (s : State) : State :=
  let need := needed s
  editFab s (fun f => { f with alloc := f.alloc.filter (fun a => need.contains (a.kind, a.addr)) })

/-- Storage is taken for every slot that serves as a source and has none (R126). -/
def syncStorage (s : State) : State := (needed s).foldl takeStorage s

/-- Pair `p` holds content. -/
def pairUsed (s : State) (p : Nat) : Bool := s.fab.alloc.any (fun a => a.pair == p)

/-- A frame passes for the pairs that are powered and hold no content (R126). -/
def pairsFrame (s : State) : State :=
  editFab s (fun f => { f with pairIdle := (List.range 32).filterMap (fun p =>
    if pairOn s p && !pairUsed s p then some (p, min 8000 (Tab.get f.pairIdle p 0 + 1)) else none) })

/-- FAB_POOL.WORDS: locations allocated in both frame buffers (R142). -/
def poolWords (s : State) : Nat :=
  ((s.fab.alloc.map (fun a => (a.pair, a.loc, contentSize a.kind))).eraseDups.map (fun x => x.2.2)).sum

/-- PAIR_GATE_OFF: a pair that has held no content for 1 s is gated off (R126). -/
def execPairGateOff (pair : Fin 32) (s : State) : Out :=
  .next (
    if pairUsed s pair || decide (Tab.get s.fab.pairIdle pair 0 < 8000) then s else bset s Reg.fabBankOn pair false)

/-! ### Parity and replay -/

/-- The TU whose byte is content byte `b` of index `i` of lane `l`, and how far into the TU's frame it lies: row-major order of 87 columns,
after the path overhead and fixed-stuff columns of G.707 (R461). -/
def tuPos (s : State) (l i b : Nat) : Option (Word × Nat) :=
  let col := b % 87
  let row := b / 87
  let w := structWord s l i
  let au3 := (container s l i).2 == 1
  if w % 4 = 0 then none
  else if w % 4 = 1 then (if 1 ≤ col then some (loAddr l i 7 0, 86 * row + col - 1) else none)
  else
    let c : Option Nat :=
      if au3 then (if col = 0 ∨ col = 29 ∨ col = 58 then none else some (col - 1 - b2n (decide (29 < col)) - b2n (decide (58 < col))))
      else if col < 3 then none else some (col - 3)
    c.map (fun c =>
      let g := c % 7
      let q := c / 7
      match w / 2 ^ (2 * g + 2) % 4 with
      | 0 => (loAddr l i g (q % 3), 4 * row + q / 3)
      | 1 => (loAddr l i g (q % 4), 3 * row + q / 4)
      | _ => (loAddr l i g 0, 12 * row + q))

/-- The byte of a container's frame that content byte `b` of index `i` is, its AU-4s interleaved byte by byte (R123, R461). -/
def containerPos (first span i b : Nat) : Nat :=
  if span = 1 then b else span / 3 * (3 * b + (i - first) % 3) + (i - first) / 3

/-- The place of index `i` of lane `l` in its container: first index and span. -/
def placeOf (s : State) (l i : Nat) : Nat × Nat := ((container s l i).1, hoSpan (container s l i).2)

/-- The source slots that read content byte `b` of a stored content, each with the byte of its own frame that it is there (R140, R461). -/
def byteHit (s : State) (a : Alloc) (b : Nat) : Option (Word × Nat) :=
  let l := saLane a.addr
  let i := saIdx a.addr
  match a.kind with
  | 0 => some (hoOf s a.addr, containerPos (placeOf s l i).1 (placeOf s l i).2 i b)
  | 1 => tuPos s l i b
  | _ => some (a.addr + w32 b, 0)

/-- The source slots that read parity section `k` of location `loc` of pair `pair`, each with a byte of its frame that the section holds
(R461). -/
def sectionHits (s : State) (pair loc k : Nat) : List (Word × Nat) :=
  (s.fab.alloc.filter (fun a => a.pair == pair && decide (a.loc ≤ loc) && decide (loc < a.loc + contentSize a.kind))).flatMap
    (fun a =>
      if a.kind = 2 then
        (if k / 8 = a.quarter then (rangeFrom (4 * (k % 8)) 4).filterMap (byteHit s a) else [])
      else
        let first := 128 * ((loc - a.loc) % 7) + 4 * k
        ((rangeFrom first 4).filter (fun b => decide (b < 783))).filterMap (byteHit s a))

/-- The marks `l` with slot `a` marked from byte `n` on, or from the byte that it is marked from already. -/
def addMark (l : List (Word × Nat)) (p : Word × Nat) : List (Word × Nat) :=
  match l.find? (fun q => q.1 == p.1) with
  | some q => if p.2 < q.2 then p :: l.erase q else l
  | none => p :: l

/-- The source slots hit by the unrecovered sections of a word, each with its first affected byte (R140). -/
def unrecSlots (s : State) (pair loc : Nat) (mask : Word) : List (Word × Nat) :=
  ((bitList 32 mask.toNat).flatMap (sectionHits s pair loc)).foldl addMark []

/-- The containers hit by an unrecovered word are marked for the frame that is being built (R140, R141). -/
def markUnrec (s : State) (slots : List (Word × Nat)) : State :=
  editFab s (fun f => { f with marked := slots.foldl addMark f.marked })

/-- Output `o` names a selector at merged timing, whose delay lines hold what could not be recovered (R207, R219). -/
def mergedOut (s : State) (o : Word) : Bool :=
  let e := entryOf s o
  e.kind == 2 && (match Tab.find? s.mrg.merges (selKey (min 2 (saTier o)) (fld e.src 16 0)) with
    | some m => m.st != 0
    | none => false)

/-- The first byte of the frame that ends that the output stage could not recover for output `o`: that of the slot it has read (R140, R141). -/
def ffFrom (s : State) (o : Word) : Option Nat :=
  if mergedOut s o then none
  else match outRead s o with
    | some a => (s.fab.marked.find? (fun p => p.1 == a)).map (fun p => p.2)
    | none => none

/-- The outputs that carry 0xFF in the frame that ends, each from a byte of its content on (R140). -/
def ffOutputs (s : State) : List (Word × Nat) :=
  if s.fab.marked.isEmpty then [] else (usedOutputs s).filterMap (fun o => (ffFrom s o).map (fun n => (o, n)))

/-- Data word 0 of a pair event: cause, pair, the bank whose read failed first, location (R143). -/
def pairWord (cause pair bank loc : Nat) : Word := w32 (cause + 256 * pair + 2 ^ 13 * bank + 2 ^ 16 * loc)

/-- A recovered word (R139, R141, R143). -/
def recovered (s : State) (pair loc : Nat) (mask : Word) : State :=
  let s := count s Reg.fabParRecov 1
  let n := Tab.get s.fab.pairRecov pair 0 + 1
  let s := editFab s (fun f => { f with pairRecov := Tab.put f.pairRecov pair n })
  let s := raiseOnce s (0x200 + pair) 1 0 (pairWord 1 pair 0 loc) mask
  if 16 < n then raiseOnce s (0x200 + pair) 3 0 (pairWord 3 pair 0 loc) (w32 n) else s

/-- A lease of a bank of pair `pair` is revoked (R141). -/
def revokePair (s : State) (pair : Nat) : State :=
  match Tab.find? s.bgl.leases 2 with
  | some l =>
    if l.unit % 32 = pair then { s with bgl := { s.bgl with leases := Tab.put s.bgl.leases 2 { l with revoked := true } } } else s
  | none => s

/-- An unrecovered word, which ends a lease of its pair (R140, R141, R143). -/
def unrecovered (s : State) (pair bank loc : Nat) (mask : Word) : State :=
  let s := revokePair (count s Reg.fabParUnrec 1) pair
  markUnrec (raise s (0x200 + pair) (pairWord 2 pair bank loc) mask) (unrecSlots s pair loc mask)

/-! ### Words of slot memory -/

/-- The STS-1 index whose byte stands in payload column `j` (from 0) of a frame at STM-`m` (R16, R123). -/
def auIndex (m j : Nat) : Nat := 3 * (j % m) + j / m % 3

/-- Byte and bit numbers of a frame that R123 names: lane `k`'s byte in fabric word `w` sits in this row and column of an STM-64 frame, both
from 1. -/
def fabricPos (w : Nat) : Nat × Nat := (w / 17280 + 1, w % 17280 + 1)

/-- The STS-1 index and content byte that lane `n` carries in fabric word `w`; none in the section and line overhead columns, on a lane that
is disabled or runs an Ethernet mode, and for an index above the lane's capacity (R16, R123). -/
def fabByte (s : State) (n w : Nat) : Option (Nat × Nat) :=
  let p := fabricPos w
  let c := p.2 - 577
  let i := auIndex 64 c
  if p.2 ≤ 576 ∨ 155520 ≤ w ∨ !sdhOn s n ∨ laneCap s n ≤ i then none else some (i, (p.1 - 1) * 87 + c / 192)


/-- The two bytes of a pointer (R77, R81). -/
def ptrBytes (ndf : Bool) (ss v : Nat) : List Byte := natBe 2 ((if ndf then 9 else 6) * 4096 + ss * 1024 + v)

/-- Byte `q` from pointer value 0 on of the frame or TU multiframe in which the latest container of the path at `a` begins (R80). -/
def placedAt (s : State) (a : Word) (q : Nat) : Byte :=
  let p := path s a
  let off := unitBytes s a * p.outPtr
  if off ≤ q then p.data.getD (q - off) 0xFF else p.prev.getD (contBytes s a - off + q) 0xFF

/-- Byte `pos` of the frame of a high-order path, of which rows 4 to 9 follow the pointer (R80, R123; G.707 layout, log entry 101). -/
def placedByte (s : State) (a : Word) (pos : Nat) : Byte :=
  let n := contBytes s a
  placedAt s a ((pos + 2 * (n / 3)) % n)

/-- Byte `k` of the TU at `a` in this frame, its pointer bytes included (R80, R461; G.707 layout, log entry 101). -/
def placedTu (s : State) (a : Word) (k : Nat) : Byte :=
  let n := contBytes s a
  let f := s.glb.frame % 4
  let v := ptrBytes (path s a).outNdf (ssBits s (saLane a)) (path s a).outPtr
  if tuType? s a = some 3 then
    if k % 86 = 0 then v.getD (k / 86) 0 else placedAt s a ((k / 86 * 85 + k % 86 - 1 + 595) % n)
  else if k = 0 then (if f < 2 then v.getD f 0 else 0)
  else placedAt s a (((f + 3) % 4 * (n / 4) + k - 1) % n)

/-- Slot `k` of a CESoPSN pseudowire's frame in play; with CAS slot 16 is its signalling, and a slot that it does not carry is 0xFF (R250, R254,
R255, R258). -/
def Pw.slotByte (x : Pw) (k : Nat) : Byte :=
  let n := popc 32 x.w9.toNat
  if bit x.w7 2 ∧ k = 16 then x.play16.getD x.playPos 0xFF
  else if bit x.w9 k then x.play.getD (x.playPos * n + popc k x.w9.toNat) 0xFF else 0xFF

/-- The byte that the DS0 tier reads for slot `a`: 0xFF where the source has no content or its unit gives AIS (R112, R117, R148). -/
def ds0Source (s : State) (a : Word) : Byte :=
  if !hasContent s a then 0xFF
  else match saTier a with
    | 2 => let x := Tab.get s.termFr (saNum a) {}
           if x.downAis then 0xFF else x.rxLast.getD (saSlot a) 0xFF
    | 3 => let x := Tab.get s.ports (saPort a) {}
           if x.downAis then 0xFF else x.rxLast.getD (saSlot a) 0xFF
    | 5 => ((pw? s (saNum a)).map (fun p => p.slotByte (saSlot a))).getD 0xFF
    | _ => 0xFF

/-- Byte `b` of a stored content: that which its source receives, or all ones where it shows them (R125, R461). -/
def storedByte (s : State) (a : Alloc) (b : Nat) : Byte :=
  let l := saLane a.addr
  let i := saIdx a.addr
  match a.kind with
    | 0 =>
      if sourceOnes s (hoOf s a.addr) (hoOf s a.addr) then 0xFF
      else placedByte s (hoOf s a.addr) (containerPos (placeOf s l i).1 (placeOf s l i).2 i b)
    | 1 => match tuPos s l i b with
      | some t => if sourceOnes s t.1 t.1 then 0xFF else placedTu s t.1 t.2
      | none => 0
    | _ => ds0Source s (a.addr + w32 b)

/-- The 128 bytes of a location as the input stage forms them; bytes that no content uses are 0 (R124, R461). -/
def wordAt (s : State) (pair loc : Nat) : List Byte :=
  let l := s.fab.alloc.filter (fun a => a.pair == pair && decide (a.loc ≤ loc) && decide (loc < a.loc + contentSize a.kind))
  (List.range 128).map (fun k => match l.find? (fun a => decide (a.kind < 2) || a.quarter == k / 32) with
    | some a =>
      if a.kind = 2 then storedByte s a (k % 32)
      else
        let b := 128 * ((loc - a.loc) % 7) + k
        if b < 783 then storedByte s a b else 0
    | none => 0)

/-- The parity bits of a word: bit `k` makes the exclusive OR over parity section `k` and itself 0 (R138). -/
def parityOf (w : List Byte) : Word :=
  w32 (((List.range 32).map (fun k =>
    2 ^ k * (popc 8 (xorAll ((w.drop (4 * k)).take 4)).toNat % 2))).sum)

/-- What bank `bank` holds at a location; one that nothing has written holds zeros (R124). -/
def bankWord (s : State) (bank loc : Nat) : BankWord :=
  Tab.get s.fab.banks (12288 * bank + loc) { data := List.replicate 128 0 }

/-- A word with one bit upset in each section of `mask`. -/
def upset (w : List Byte) (mask : Word) : List Byte :=
  (List.range 32).foldl (fun w k => if bit mask k then listPut w (4 * k) (w.getD (4 * k) 0 ^^^ 1) else w) w

/-- The sections that fail in a read of a location from a bank whose cells are upset in the sections `mask` (R138). -/
def failing (s : State) (bank loc : Nat) (mask : Word) : Word :=
  let w := bankWord s bank loc
  parityOf (upset w.data mask) ^^^ w.par

/-- A word is read from pair `p` whose cells may be upset: its parity is checked, it is rebuilt section by section, and it is counted once a
frame; with a bank of the pair on lease, and until its contents are written again, the other one serves alone (R127, R138 to R141). -/
def readWord (s : State) (p l : Nat) (upPrim upRepl : Word) : State :=
  let leaseP := bget s Reg.fabBankLease p || Tab.get s.fab.tailP p 0 != 0
  let leaseR := bget s Reg.fabBankLeaseR p || Tab.get s.fab.tailR p 0 != 0
  let prim := failing s p l upPrim
  let repl := failing s (p + 32) l upRepl
  let first := if leaseP then repl else prim
  let bad := if leaseP then repl else if leaseR then prim else prim &&& repl
  if first = 0 ∨ s.fab.counted.contains (p, l) then s
  else
    let s := editFab s (fun f => { f with counted := (p, l) :: f.counted })
    if bad = 0 then recovered s p l prim else unrecovered s p (b2n leaseP) l bad

/-- FABRIC_WORD_READ: the output stage reads a word (R138 to R141). -/
def execFabricWordRead (r : WordRead) (s : State) : Out := .next (readWord s r.pair r.loc r.prim r.repl)

/-- PARITY_INJECT_ARM: a FAB_PAR_INJ write; refused in SERVICE and RECOVERY; ARM arms the injection, which replaces one still
pending (R142). -/
def execParityInjectArm (v : Word) (s : State) : Out :=
  .next (domainWrite s 17 Reg.fabParInj v (fun s =>
    if guarded s then ignoredWrite s Reg.fabParInj
    else if bit v 31 then editFab s (fun f => { f with inj := some v }) else s))

/-- The locations that the frame with buffer `buf` has written, each with its pair (R124, R461). -/
def frameLocs (s : State) (buf : Nat) : List (Nat × Nat) :=
  (s.fab.alloc.flatMap (fun a =>
    if a.kind = 2 then [(a.pair, a.loc + buf)] else (List.range 7).map (fun j => (a.pair, a.loc + 7 * buf + j)))).eraseDups

/-- A lease keeps bank `b` from being written (R127). -/
def bankLeased (s : State) (b : Nat) : Bool :=
  bget s (if b < 32 then Reg.fabBankLease else Reg.fabBankLeaseR) (b % 32)

/-- The parity bits, by bank, location and section, that the armed injection inverts in a frame's writes: at the next write of allocated content
to its bank, which a lease of the bank holds off. Of the locations written in a frame, the lowest is the first (R127, R142; DESIGN CHOICE, log
entry 102). -/
def injections (s : State) (buf : Nat) : List (Nat × Nat × Nat) := match s.fab.inj with
  | none => []
  | some v =>
    let bank := fld v 5 0
    match ((frameLocs s buf).filter (fun p => p.1 == bank % 32)).map (fun p => p.2) with
    | [] => []
    | x :: r =>
      if bankLeased s bank then []
      else (if bit v 11 then [bank % 32, bank % 32 + 32] else [bank]).map (fun b => (b, r.foldl min x, fld v 10 6))

/-- The location lies in a content's storage. -/
def locUsed (s : State) (pair loc : Nat) : Bool :=
  s.fab.alloc.any (fun a => a.pair == pair && decide (a.loc ≤ loc) && decide (loc < a.loc + contentSize a.kind))

/-- The content of the frame that ends is written, with its parity, to both banks of its pairs, in the frame buffer of that frame; each word is
kept for two frames. The armed injection inverts parity bits, and the tails of leases end (R124, R127, R138, R142). -/
def storeFrame (s : State) : State :=
  let buf := (s.glb.frame + 1) % 2
  let inj := injections s buf
  let put := fun (t : Tab BankWord) (p : Nat × Nat) =>
    let w := wordAt s p.1 p.2
    [p.1, p.1 + 32].foldl (fun t b =>
      if bankLeased s b then t
      else
        let mine := inj.filter (fun i => i.1 == b && i.2.1 == p.2)
        Tab.put t (12288 * b + p.2) { data := w, par := mine.foldl (fun v i => v ^^^ w32 (2 ^ i.2.2)) (parityOf w) }) t
  editFab s (fun f => { f with
    banks := (frameLocs s buf).foldl put (f.banks.filter (fun p => locUsed s (p.1 / 12288 % 32) (p.1 % 12288)))
    inj := if inj.isEmpty then f.inj else none
    tailP := (f.tailP.map (fun p => (p.1, p.2 - 1))).filter (fun p => p.2 != 0)
    tailR := (f.tailR.map (fun p => (p.1, p.2 - 1))).filter (fun p => p.2 != 0) })

/-- The pattern monitors that run on stored slots read their words of the frame that ends, and check every read (R134, R138). -/
def monitorReads (s : State) : State :=
  let buf := (s.glb.frame + 1) % 2
  let c := (s.fab.pmonOn.map (fun m => rd s (Reg.fabPmonSlot m))).flatMap (contentOf s)
  ((s.fab.alloc.filter (fun a => c.contains (a.kind, a.addr))).flatMap (fun a =>
    if a.kind = 2 then [(a.pair, a.loc + buf)] else (List.range 7).map (fun j => (a.pair, a.loc + 7 * buf + j)))).foldl
      (fun s p => readWord s p.1 p.2 0 0) s

/-! ### Pattern monitors -/

/-- A pattern is valid for a slot's tier (R131, R142). -/
def pmonPattern (tier pat : Nat) : Bool := if tier ≤ 1 then pat != 0 else pat == 0 || pat == 1

/-- The monitor's registers would be left with EN = 1 on a slot or pattern that is not valid (R142). -/
def pmonBad (s : State) (ctl slot : Word) : Bool :=
  bit ctl 0 && (!saValid s slot || saTier slot == 4 || !pmonPattern (saTier slot) (fld ctl 2 1))

/-- PMON_LOCK of monitor `m`, with its new state and its error count at the change (R143). -/
def pmonEvent (s : State) (m : Nat) (lock : Bool) (errs : Word) : State :=
  raise s 0x220 (w32 (0x10 + 2 ^ 15 * b2n lock + 2 ^ 16 * m)) errs

/-- Monitor `m` starts to look for its pattern again: a lock that it holds is lost, which raises PMON_LOCK (R134, R142, R143). -/
def pmonRestart (s : State) (m : Nat) : State :=
  let c := Reg.fabPmonCtl m
  let was := bget s c 3
  let s := editFab (bset s c 3 false) (fun f => { f with pmonSt := Tab.drop f.pmonSt m, pmonIn := Tab.drop f.pmonIn m })
  if was then pmonEvent s m false (rd s (Reg.fabPmonErr m)) else s

/-- PMON_CTL_WRITE: FAB_PMON_CTL_m, or FAB_PMON_SLOT_m; a change of pattern or slot, or a stopped monitor, loses lock
(R134, R142). -/
def execPmonCtlWrite (m : Fin 8) (slotReg : Bool) (v : Word) (s : State) : Out :=
  let c := Reg.fabPmonCtl m
  let l := Reg.fabPmonSlot m
  .next (domainWrite s 17 (if slotReg then l else c) v (fun s =>
    let ctl := rd s c
    if slotReg then
      if pmonBad s ctl v then ignoredWrite s l
      else if rd s l = v then s else pmonRestart (wr s l v) m
    else if pmonBad s v (rd s l) then ignoredWrite s c
    else
      let s := wr s c (setBit (v &&& 7) 3 (bit ctl 3))
      if bit v 0 && fld v 2 1 == fld ctl 2 1 then s else pmonRestart s m))

/-- The PRBS of FAB_PMON_CTL.PATTERN, as `prbsTaps` numbers it (R131, R142). -/
def pmonPrbs (pat : Nat) : Nat := match pat with
  | 0 => 7
  | n => n + 1

/-- PMON_LOCK_CHANGE: an enabled monitor goes through the content that has entered its slot's store since the last such command: it gains and
loses lock, each change with its event, and counts bits and errors while it is locked (R134, R143). -/
def execPmonLockChange (m : Fin 8) (s : State) : Out :=
  let c := Reg.fabPmonCtl m
  .next (
    if !bget s c 0 then s
    else
      let r := checkBits (pmonPrbs (fget s c 2 1)) 0 (Tab.get s.fab.pmonSt m {}) (bget s c 3)
        (bytesBits (Tab.get s.fab.pmonIn m []))
      let was := rd s (Reg.fabPmonErr m)
      let t := Tab.get s.fab.pmonFrac m 0 + r.bits
      let s := count (count s (Reg.fabPmonErr m) (r.errs % 2 ^ 32)) (Reg.fabPmonBits m) (t / 1024 % 2 ^ 32)
      let s := editFab (bset s c 3 r.lock) (fun f => { f with
        pmonFrac := Tab.put f.pmonFrac m (t % 1024), pmonSt := Tab.put f.pmonSt m r.x, pmonIn := Tab.drop f.pmonIn m })
      r.flips.reverse.foldl (fun s q => pmonEvent s m q.1 (was + w32 q.2)) s)

/-- What FAB_IDLE and the monitors' enables say is in force from a frame boundary on (R142). -/
def fabControls (s : State) : State :=
  editFab s (fun f => { f with
    idle := rd s Reg.fabIdle, pmonOn := (List.range 8).filter (fun m => bget s (Reg.fabPmonCtl m) 0) })

/-! ### Latency -/

/-- The output whose latency an output reports: the first index of its container (R136). -/
def latOut (s : State) (o : Word) : Word := if saTier o = 0 then hoOf s o else o

/-- The live source, not a test source, whose latency output `o` has: at merged timing the reference copy (R136, R137, R208). -/
def latSource (s : State) (o : Word) : Option Word := match outPace s o with
  | some a => if saTier a != 4 && hasContent s a then some a else none
  | none => none

/-- LATENCY_MEASURE: the latency of an output with a live source is measured, in ns with a resolution of 2 (R136). -/
def execLatencyMeasure (out : Word) (ns : Nat) (s : State) : Out :=
  .next (
    if hasEntry s out then
      match latSource s (latOut s out) with
      | some a => editFab s (fun f => { f with
          lat := Tab.put f.lat (latOut s out).toNat (ns / 2 * 2 % 2 ^ 29)
          latSrc := Tab.put f.latSrc (latOut s out).toNat a })
      | none => s
    else s)

/-- The latency word of output `o` (R137). -/
def latWord (s : State) (o : Word) : Word :=
  let k := (latOut s o).toNat
  if hasEntry s o && latSource s (latOut s o) == Tab.find? s.fab.latSrc k then
    match Tab.find? s.fab.lat k with
    | some v => w32 (v + 2 ^ 29)
    | none => 0
  else 0

/-- Latencies whose output has changed its source are no longer valid (R137). -/
def dropLatencies (s : State) : State :=
  let keep := fun (k : Nat) => latSource s (w32 k) == Tab.find? s.fab.latSrc k
  editFab s (fun f => { f with
    lat := f.lat.filter (fun p => keep p.1), latSrc := f.latSrc.filter (fun p => keep p.1) })

/-! ### Generators -/

/-- The PRBS that a pattern number names, as `prbsTaps` numbers it (R131). -/
def genPrbs (n : Nat) : Option Nat := match n with
  | 0x10 => some 7
  | 0x11 => some 2
  | 0x12 => some 3
  | 0x13 => some 4
  | _ => none

/-- The pattern number of the test source that output `o` carries (R131). -/
def patternOf (s : State) (o : Word) : Option Nat := match outSource s o with
  | some a => if saTier a = 4 then some (fld a 15 0) else none
  | none => none

/-- Output `o` names a PRBS pattern (R131, R132). -/
def prbsOf (s : State) (o : Word) : Bool := ((patternOf s o).bind genPrbs).isSome

/-- Every output that names a PRBS pattern has its own generator, seeded with all ones at the first frame of the entry; an entry that names another
pattern has a new one (R132). -/
def runGenerators (s : State) : State :=
  { s with seeds := ((usedOutputs s).filter (prbsOf s)).foldl (fun t o =>
      let pat := (patternOf s o).getD 0
      let new : Seed := { out := o.toNat, pat := pat }
      Tab.put t o.toNat (match Tab.find? s.seeds o.toNat with
        | some g => if g.pat = pat then { g with live := g.live + 1 } else new
        | none => new)) [] }

/-- The next `n` bytes of pattern `pat` for output `o`, and the generator gone on (R131, R132). -/
def genBytes (s : State) (o : Word) (pat n : Nat) : List Byte × State := match genPrbs pat with
  | some g =>
    let x := Tab.get s.seeds o.toNat { out := o.toNat }
    let r := patBytes g 0 n x.gen
    (r.1, { s with seeds := Tab.put s.seeds o.toNat { x with gen := r.2 } })
  | none => (List.replicate n (if 0x100 ≤ pat then BitVec.ofNat 8 pat else 0), s)

/-- The fabric's own work at a frame boundary: per-frame marks end, storage, latencies and generators follow the live map, and
what is stored is written and the monitors read it (R123, R126, R132, R134, R137 to R142). -/
def fabricFrame (s : State) : State :=
  let s := editFab s (fun f => { f with counted := [], marked := [] })
  monitorReads (storeFrame (pairsFrame (runGenerators (dropLatencies (syncStorage s)))))

end Sys2Proof.Machine
end

