-- ==== Sys2Proof/Machine/Map.lean ====
section
/-! DEFINITION. The connection map: validation of edits, terminations and clear-channel connections, direct changes, and the
map's records (07_connection_map.md, R144 to R159). -/

namespace Sys2Proof.Machine

/-! ### Which edits are valid -/

/-- The DS0-level output or source tiers (R128). -/
def ds0Tier (a : Word) : Bool := saTier a == 2 || saTier a == 3 || saTier a == 5

/-- Reason 3 of R155 for a KIND 1 source `src` of output `out`: it is invalid, not in use, of another tier, not the first
index of its container, or a pattern that the tier has not (R131, R147). -/
def badSource (s : State) (out src : Word) : Bool :=
  if saTier src = 4 then !(fld src 28 16 == 0 && patternOk (fld src 15 0) (mapTier out == 2))
  else mapTier out != mapTier src || !(decide (saTier src ≤ 3) || saTier src == 5) || !runSource s src

/-- Reason 4 of R155: HO_TYPE or TU type differs, or the output is not the first index of its container (R147). -/
def mismatch (s : State) (out src : Word) (kind : Nat) : Bool :=
  (saTier out == 0 && hoOf s out != out) ||
  (kind == 1 && saTier src != 4 && (match saTier out with
    | 0 => hoTy s out != hoTy s src
    | 1 => tuType? s out != tuType? s src
    | _ => false))

/-- The lowest-numbered reason of R155, 6 and 8 apart, for which one edit fails in the map of `s`. -/
def editReason (s : State) (r : EditRec) : Option Nat :=
  let k := r.kind
  if !hasEntry s r.out then some 1
  else if k = 3 ∨ (k = 0 ∧ r.src ≠ 0) ∨ (k = 2 ∧ fld r.src 31 17 ≠ 0) then some 2
  else if k = 1 ∧ badSource s r.out r.src then some 3
  else if mismatch s r.out r.src k then some 4
  else if (entryOf s r.out).kind = 3 ∨ onSpareLane s r.out ∨ (k = 1 ∧ onSpareLane s r.src) then some 5
  else if k = 2 ∧ (sel? s (selKey (mapTier r.out) (fld r.src 16 0))).isNone then some 7
  else none

/-- The record itself is malformed: a reserved bit, COUNT, or STEP with KIND 0 or a pattern (R150, R151, R155 reason 2). -/
def recBad (r : EditRec) : Bool :=
  fld r.w2 31 2 != 0 || fld r.w3 31 18 != 0 || r.kind == 3 || r.count == 0 || decide (65536 < r.count) ||
    (r.step && (r.kind == 0 || (r.kind == 1 && saTier r.src == 4)))

/-- The run would leave its tier value, or the selectors of its tier (R151). -/
def runLeaves (s : State) (r : EditRec) : Bool :=
  decide ((expandRec s r).length < r.count) ||
    (r.step && r.kind == 2 && decide (selCount (mapTier r.out) < fld r.src 16 0 + r.count))

/-- The lower of two reasons. -/
def lower (a b : Option Nat) : Option Nat := match a, b with
  | some x, some y => some (min x y)
  | some x, none => some x
  | none, b => b

/-- The reason for which a record fails as a whole, whatever its outputs show (R155 reasons 1 and 2). -/
def recReason (s : State) (r : EditRec) : Option Nat :=
  if recBad r || runLeaves s r then
    lower (editReason s (oneEdit r.out r.src r.kind)) (some 2)
  else none

/-! ### Terminations -/

/-- The words of a TERM_CFG or CC_CFG from word 6 on (R152, R153). -/
abbrev CfgWords := List Word

/-- NUMBER (R152). -/
def termNum (w : CfgWords) : Nat := fld (w.getD 0 0) 15 0
/-- SRC (R152). -/
def termSrc (w : CfgWords) : Nat := fld (w.getD 1 0) 1 0
/-- FROM (R152). -/
def termFrom (w : CfgWords) : Word := w.getD 2 0
/-- FRAMING (R152). -/
def termWord (w : CfgWords) : Word := w.getD 3 0

/-- A framing word sets a reserved value or bit (R106). -/
def framingBad (f : Word) : Bool :=
  fld f 31 13 != 0 || frmType f == 3 || (frmType f == 0 && frmFormat f == 3) || (frmType f == 1 && decide (2 ≤ frmFormat f))

/-- Slot `a` is a slot of terminated number `n`. -/
def onNumber (n : Nat) (a : Word) : Bool := saTier a == 2 && saNum a == n

/-- The TU at `a` holds KIND 1 or 2 as an output, or a termination or connection has it (R152, R155 reason 5). -/
def tuTaken (s : State) (a : Word) : Bool :=
  (Tab.find? s.map.entries a.toNat).isSome || (termOf s a).isSome || (ccOf s 1 a).isSome || onSpareLane s a

/-- E1 or T1 rate of a TU: 0 TU-12, 1 TU-11 (R152). -/
def tuRate (s : State) (a : Word) : Option Nat := match tuType? s a with
  | some 0 => some 0
  | some 1 => some 1
  | _ => none

/-- E1 or T1 rate of a SAToP pseudowire: TYPE 0 E1, 1 T1 (R247). -/
def pwRate (s : State) (n : Nat) : Option Nat := match pw? s n with
  | some p => if p.type ≤ 1 then some p.type else none
  | none => none

/-- Reason 3 of R155 for FROM: no TU, or no slot 0 of a configured pseudowire. -/
def fromBad (s : State) (w : CfgWords) : Bool :=
  let a := termFrom w
  if termSrc w = 1 then (tuType? s a).isNone
  else saTier a != 5 || saSlot a != 0 || !saValid s a || (pw? s (saNum a)).isNone

/-- The rate of FROM (R152). -/
def fromRate (s : State) (w : CfgWords) : Option Nat :=
  if termSrc w = 1 then tuRate s (termFrom w) else pwRate s (saNum (termFrom w))

/-- FROM, or the number, is already in use (R155 reason 5). -/
def termTaken (s : State) (w : CfgWords) : Bool :=
  (term? s (termNum w)).isSome ||
    (if termSrc w = 1 then tuTaken s (termFrom w)
     else (termOf s (termFrom w)).isSome || (ccOf s 3 (w32 (saNum (termFrom w)))).isSome)

/-- The lowest-numbered reason of R155, 8 apart, for which a TERM_CFG that makes a termination fails in the map of `s`. -/
def termReason (s : State) (w : CfgWords) : Option Nat :=
  if framingBad (termWord w) ∨ termSrc w = 3 then some 2
  else if fromBad s w then some 3
  else if fromRate s w ≠ some (frmType (termWord w)) then some 4
  else if termTaken s w then some 5
  else none

/-- The slots of number `n` are named by an entry, a selector, a merge or a guarded connection (R154). -/
def numberUsed (s : State) (n : Nat) : Bool :=
  (entryNames s (onNumber n)) || selNames s (onNumber n) || guardNames s (onNumber n)

/-- The reason for which a TERM_CFG that releases a number fails; `named` says that an entry or a staged edit names its slots
(R154, R155). -/
def releaseReason (s : State) (w : CfgWords) (named : Bool) : Option Nat :=
  if (term? s (termNum w)).isNone then some 1
  else if termFrom w ≠ 0 then some 2
  else if named then some 5
  else none

/-! ### Clear-channel connections -/

/-- Kind of an endpoint word (R153). -/
def ccKind (w : CfgWords) (b : Bool) : Nat := fld (w.getD (if b then 2 else 0) 0) 1 0
/-- Identifier of an endpoint (R153). -/
def ccId (w : CfgWords) (b : Bool) : Word := w.getD (if b then 3 else 1) 0
/-- RELEASE (R153). -/
def ccRel (w : CfgWords) : Bool := bit (w.getD 0 0) 31

/-- Reason 1 of R155: the endpoint is no TU, no port or no configured pseudowire. -/
def endpointBad (s : State) (k : Nat) (id : Word) : Bool := match k with
  | 1 => (tuType? s id).isNone
  | 2 => decide (64 ≤ id.toNat)
  | 3 => decide (16384 ≤ id.toNat) || (pw? s id.toNat).isNone
  | _ => false

/-- Rate of an endpoint that a connection may have: a TU-12 or TU-11 with MAPPING 0, a port in MODE 0 or 1 with TYPE 2, a SAToP
pseudowire (R153). -/
def endpointRate (s : State) (k : Nat) (id : Word) : Option Nat := match k with
  | 1 => if bit (pathCfg s id).w7 11 then none else tuRate s id
  | 2 =>
    let m := tribMode (portCtl s (fld id 5 0))
    if m ≤ 1 ∧ frmType (portFrm s (fld id 5 0)) = 2 then some m else none
  | 3 => pwRate s id.toNat
  | _ => none

/-- The endpoint is already in use (R152, R153, R155 reason 5). -/
def endpointTaken (s : State) (k : Nat) (id : Word) : Bool := match k with
  | 1 => tuTaken s id
  | 3 => (ccOf s 3 id).isSome || (termOf s (pwAddr id.toNat 0)).isSome
  | k => (ccOf s k id).isSome

/-- The lowest-numbered reason of R155 for which a CC_CFG that makes a connection fails in the map of `s`. -/
def ccReason (s : State) (w : CfgWords) : Option Nat :=
  let ka := ccKind w false
  let kb := ccKind w true
  if endpointBad s ka (ccId w false) || endpointBad s kb (ccId w true) then some 1
  else if ka = kb ∨ endpointRate s ka (ccId w false) = none ∨
      endpointRate s ka (ccId w false) ≠ endpointRate s kb (ccId w true) then some 4
  else if endpointTaken s ka (ccId w false) || endpointTaken s kb (ccId w true) then some 5
  else none

/-- The connection whose endpoint A is named (R153). -/
def ccNamed (s : State) (w : CfgWords) : Option CC :=
  s.map.ccs.find? (fun c => c.aKind == ccKind w false && c.aId == ccId w false)

/-- Slot `a` is a TU endpoint of a connection. -/
def onEndpoint (c : CC) (a : Word) : Bool := (c.aKind == 1 && c.aId == a) || (c.bKind == 1 && c.bId == a)

/-- The reason for which a CC_CFG that releases a connection fails (R154, R155). -/
def ccReleaseReason (s : State) (w : CfgWords) (named : CC → Bool) : Option Nat :=
  match ccNamed s w with
  | none => some 1
  | some c =>
    if ccKind w true ≠ 0 ∨ ccId w true ≠ 0 then some 2
    else if selNames s (onEndpoint c) || guardNames s (onEndpoint c) || named c then some 5
    else none

/-! ### The map after a change -/

/-- One edit is in the map (R145). -/
def putEdit (s : State) (r : EditRec) : State :=
  let l := if r.kind = 0 then Tab.drop s.map.entries r.out.toNat
    else Tab.put s.map.entries r.out.toNat { src := r.src, kind := r.kind }
  { s with map := { s.map with entries := l } }

/-- A TERM_CFG is in the map (R152, R154). -/
def putTerm (s : State) (w : CfgWords) : State :=
  let n := termNum w
  if termSrc w = 0 then
    dropEntries { s with map := { s.map with terms := Tab.drop s.map.terms n }, termFr := Tab.drop s.termFr n }
  else { s with map := { s.map with
    terms := Tab.put s.map.terms n { src := termSrc w, from_ := termFrom w, framing := termWord w } } }

/-- A CC_CFG is in the map (R153, R154). -/
def putCC (s : State) (w : CfgWords) : State :=
  let l := if ccRel w then s.map.ccs.filter (fun c => !(c.aKind == ccKind w false && c.aId == ccId w false))
    else s.map.ccs ++ [{ aKind := ccKind w false, aId := ccId w false, bKind := ccKind w true, bId := ccId w true }]
  { s with map := { s.map with ccs := l } }

/-- The item is a release. -/
def Staged.releases : Staged → Bool
  | .edits _ => false
  | .term w => termSrc w == 0
  | .cc w => ccRel w

/-- A structural item is in the map; edits leave it (R166). -/
def putStruct (s : State) : Staged → State
  | .edits _ => s
  | .term w => putTerm s w
  | .cc w => putCC s w

/-- The edits of an item, its runs expanded, are in the map. -/
def putEdits (s : State) : Staged → State
  | .edits l => l.foldl putEdit s
  | _ => s

/-- The map after a gather's items, their runs expanded: releases, then terminations and connections, then edits (R166,
R170). -/
def putItems (s : State) (l : List Staged) : State :=
  let s := (l.filter (fun i => i.releases)).foldl putStruct s
  let s := (l.filter (fun i => !i.releases)).foldl putStruct s
  l.foldl putEdits s

/-- Superframes from now to SFC value `v` (R3). -/
def sfcAhead (s : State) (v : Nat) : Nat := (v + 65536 - s.glb.sfc % 65536) % 65536

/-- The gathers that are SCHEDULED, and with `held` those as well whose validation has ended and whose commit record is still to be held, in the
order in which they take effect (R166, R170). -/
def validGathers (s : State) (held : Bool) : List (Nat × GSlot) :=
  sortBy (fun a b => decide (sfcAhead s a.2.sfc < sfcAhead s b.2.sfc) ||
      (a.2.sfc == b.2.sfc && decide (a.2.order ≤ b.2.order)))
    (s.gth.slots.filter (fun p => p.2.st == 3 || (held && p.2.valid)))

/-- The map with every scheduled gather applied (R155, R166). -/
def withScheduled (s : State) : State := (validGathers s false).foldl (fun t p => putItems t p.2.items) s

/-- The map with every gather applied whose validation has ended: from then on its DS0 positions and its sources count (R129, R167). -/
def withReserved (s : State) : State := (validGathers s true).foldl (fun t p => putItems t p.2.items) s

/-- The limits of R129 hold in the map of `s`, with every change that waits for a boundary. -/
def limitsOk (s : State) : Bool :=
  decide (ds0Ahead s [] ≤ 65536) && decide (dualUse s (sourcesNamed s ++ sourcesComing s) ≤ 1024)

/-! ### Direct edits -/

/-- The edit records in an input buffer (R150). -/
def recordsOf (l : List Word) : List EditRec :=
  (List.range (l.length / 4)).map (fun i =>
    { out := l.getD (4 * i) 0, src := l.getD (4 * i + 1) 0, w2 := l.getD (4 * i + 2) 0, w3 := l.getD (4 * i + 3) 0 })

/-- LENGTH of a MAP_EDIT is no multiple of 16 between 16 and 1,048,576 (R155, R163 reason 2). -/
def editLenBad (n : Nat) : Bool := n % 16 != 0 || decide (n < 16) || decide (1048576 < n)

/-- Outputs that a list of records covers. -/
def editCount (l : List EditRec) : Nat := (l.map EditRec.count).sum

/-- The lowest reason of one record of a direct MAP_EDIT; `seen` are the outputs of the records before it (R155). -/
def directReason (s : State) (seen : List Word) (r : EditRec) : Option Nat :=
  let l := expandRec s r
  let one := l.foldl (fun b e => lower b (editReason s e)) (recReason s r)
  let outs := l.map EditRec.out
  lower one (if outs.any seen.contains || outs.eraseDups.length < outs.length then some 6 else none)

/-- The first failing record of a direct MAP_EDIT, from record `i` on: reason and index (R155). -/
def firstBad (s : State) (seen : List Word) (i : Nat) (l : List EditRec) : Option (Nat × Nat) := match l with
  | [] => none
  | r :: rest => match directReason s seen r with
    | some x => some (x, i)
    | none => firstBad s (seen ++ (expandRec s r).map EditRec.out) (i + 1) rest

/-- Validation of a direct MAP_EDIT that carries `l`, taken in operating mode `m`: reason and result word 1; a failing record's reason, which is
below 8, goes before reasons 8 and 9 of the descriptor (R155). -/
def directBad (s : State) (m : Nat) (l : List EditRec) : Option (Nat × Nat) :=
  if 65536 < editCount l then some (2, 0xFFFFFFFF)
  else match firstBad s [] 0 l with
    | some x => some x
    | none =>
      if !limitsOk ((l.flatMap (expandRec s)).foldl putEdit (withReserved s)) then some (8, 0xFFFFFFFF)
      else if m = 2 then some (9, 0xFFFFFFFF) else none

/-- A validated direct change waits for its boundary, with storage for its sources (R126, R154, R156). -/
def defer (s : State) (d : Nat) (tu : Bool) (act : DefAct) : State :=
  let s := { setDesc s d 2 with deferred := s.deferred ++ [{ tu := tu, act := act, d := d }] }
  takeSources s (match act with
    | .edits l => recSources l
    | .sel w => if bit (w.getD 0 0) 31 then [] else [w.getD 1 0, w.getD 2 0]
    | .guard w => if bit (w.getD 0 0) 31 || bit (w.getD 2 0) 0 then [] else [w.getD 1 0]
    | _ => [])

/-- The end of a direct MAP_EDIT's validation (R155, R156). -/
def endDirect (s : State) (d : Desc) (l : List EditRec) : State := match directBad s d.mode l with
  | some (r, i) => complete s d.id 3 (w32 r) (w32 i)
  | none => defer s d.id false (.edits (l.flatMap (expandRec s)))

/-- A direct change takes effect: MAP_GEN, DIRECT_CHANGE and its completion (R156, R158, R159). -/
def directDone (s : State) (d : Nat) (r0 : State → Word) : State :=
  let s := mapChanged s
  let s := raise s 0x221 2 (rd s Reg.mapGen)
  completeOk s d (r0 s) 0

/-- SFC and frame as result word 0 of a MAP_EDIT and as a record give them (R156, R157). -/
def frameWord (s : State) : Word := w32 (frameSfc s + 65536 * s.glb.frame)

/-- A direct MAP_EDIT takes effect; its low-order outputs carry TU-AIS until the next multiframe boundary (R156). -/
def applyEdits (s : State) (l : List EditRec) (d : Nat) : State :=
  let s := l.foldl putEdit s
  let lo := (l.filter (fun r => saTier r.out == 1)).map (fun r => r.out.toNat)
  let s := { s with map := { s.map with tuAis := (s.map.tuAis ++ lo).eraseDups } }
  directDone s d frameWord

/-- DS0 positions taken, as FAB_STATUS.DS0_POS (R154). -/
def ds0Word (s : State) : Word := w32 (ds0Positions s)

/-- A direct TERM_CFG takes effect (R154). -/
def applyTerm (s : State) (w : CfgWords) (d : Nat) : State := directDone (putTerm s w) d ds0Word

/-- A direct CC_CFG takes effect (R154). -/
def applyCC (s : State) (w : CfgWords) (d : Nat) : State := directDone (putCC s w) d ds0Word

/-! ### TERM_CFG and CC_CFG outside a gather -/

/-- Words 6 to 15 of a descriptor. -/
def cfgWords (d : Desc) : CfgWords := d.words.drop 6

/-- IN_GATHER (R312). -/
def Desc.inGather (d : Desc) : Bool := bit (d.w 0) 18

/-- A descriptor with opcode `op` that may be taken now and carries IN_GATHER as `st` says. -/
def takeMap (s : State) (id op : Nat) (st : Bool) : Option Desc := match takeDesc s id op with
  | some d => if d.inGather == st then some d else none
  | none => none

/-- Reason 8 or 9 of a direct TERM_CFG or CC_CFG that passes the others (R155). -/
def lateReason (s : State) (d : Desc) (i : Staged) : Option Nat :=
  if !limitsOk (putStruct (withReserved s) i) then some 8 else if d.mode = 2 then some 9 else none

/-- A direct TERM_CFG or CC_CFG completes INVALID, or waits for its TU multiframe boundary (R154, R155). -/
def direct (s : State) (d : Desc) (i : Staged) (reason : Option Nat) (act : DefAct) : State :=
  match reason.or (lateReason s d i) with
  | some r => invalid s d.id r
  | none => defer s d.id true act

/-- TERM_CFG outside a gather, SRC 1, 2 or 3 (R152, R154, R155). -/
def execTermCfg (d : Nat) (s : State) : Out :=
  .next (match takeMap s d 0x1A false with
    | none => s
    | some x =>
      let w := cfgWords x
      if termSrc w = 0 then s else direct s x (.term w) (termReason s w) (.term w))

/-- TERM_CFG outside a gather with SRC 0: the number's DS0 position is freed (R154, R168). -/
def execTermRelease (d : Nat) (s : State) : Out :=
  .next (match takeMap s d 0x1A false with
    | none => s
    | some x =>
      let w := cfgWords x
      let n := termNum w
      if termSrc w ≠ 0 then s
      else direct s x (.term w)
        (releaseReason s w (numberUsed s n || gatherNames s (Staged.names (onNumber n)))) (.term w))

/-- CC_CFG outside a gather with RELEASE 0 (R153 to R155). -/
def execCcCfg (d : Nat) (s : State) : Out :=
  .next (match takeMap s d 0x1B false with
    | none => s
    | some x =>
      let w := cfgWords x
      if ccRel w then s else direct s x (.cc w) (ccReason s w) (.cc w))

/-- A staged item names a port or a pseudowire endpoint of a connection (R168). -/
def Staged.namesEnd (c : CC) : Staged → Bool
  | .cc w => (ccKind w false == c.aKind && ccId w false == c.aId) || (ccKind w true == c.bKind && ccId w true == c.bId) ||
      (ccKind w false == c.bKind && ccId w false == c.bId) || (ccKind w true == c.aKind && ccId w true == c.aId)
  | _ => false

/-- CC_CFG outside a gather with RELEASE 1: the connection ends (R154, R168). -/
def execCcRelease (d : Nat) (s : State) : Out :=
  .next (match takeMap s d 0x1B false with
    | none => s
    | some x =>
      let w := cfgWords x
      if !ccRel w then s
      else direct s x (.cc w)
        (ccReleaseReason s w (fun c => gatherNames s (fun i => Staged.names (onEndpoint c) i || Staged.namesEnd c i)))
        (.cc w))

/-! ### What the map shows -/

/-- The source in force of output `a`: the copy in force, SOURCE of KIND 1, 0 otherwise (R157). -/
def inForce (s : State) (a : Word) : Word := (outSource s a).getD 0

/-- A bridge to a staged source is in progress on output `a` (R157, R172). -/
def bridging (s : State) (a : Word) : Bool :=
  s.gth.slots.any (fun p => p.2.bridged && p.2.items.any (fun i => match i with
    | .edits l => l.any (fun r => r.out == a && r.kind != 0 &&
        !((entryOf s a).kind == r.kind && (entryOf s a).src == r.src))
    | _ => false))

/-- Word 1 of an entry (R145). -/
def entryWord (e : EntryView) : Word := w32 (e.kind + 4 * e.owner)

/-- The MAP_READ record of output `a` (R157). -/
def mapRecord (s : State) (a : Word) : List Word :=
  let e := entryOf s a
  [a, e.src, entryWord e, latWord s a, w32 (b2n (orphaned s a) + 2 * b2n (bridging s a)), inForce s a, frameWord s, 0]

/-- Entries of KIND 1 or 2 in a map tier (R158). -/
def mapUsed (s : State) (tier : Nat) : Nat := (s.map.entries.filter (fun p => mapTier (w32 p.1) == tier)).length

/-- The MAP_PEEK registers are refreshed (R158). -/
def mapPeek (s : State) : State :=
  let a := rd s Reg.mapPeekSlot
  let e := entryOf s a
  let v : Word × Word × Word :=
    if hasEntry s a then (e.src, w32 (fld (entryWord e) 3 0 + 16 * b2n (orphaned s a)), inForce s a) else (0, 0x80000000, 0)
  wr (wr (wr s Reg.mapPeekW0 v.1) Reg.mapPeekW1 v.2.1) Reg.mapPeekInforce v.2.2

/-- The reason for which a MAP_READ is refused (R157). -/
def mapReadReason (s : State) (d : Desc) : Option Nat :=
  if !hasEntry s (d.w 6) then some 1
  else if fld (d.w 7) 21 0 = 0 ∨ 2097152 < fld (d.w 7) 21 0 then some 2 else none

end Sys2Proof.Machine
end

