-- ==== Sys2Proof/Machine/Gather.lean ====
section
/-! DEFINITION. Gathers: staging, validation, commit, bridge-and-roll and the journal (08_gathers_commit.md, R160 to R180). -/

namespace Sys2Proof.Machine

/-! ### Slots -/

/-- Gather slot `i` (R160). -/
def gslot (s : State) (i : Nat) : GSlot := Tab.get s.gth.slots i {}
/-- The gather engine changed by `f`. -/
def editGth (s : State) (f : GthSt → GthSt) : State := { s with gth := f s.gth }
/-- Gather slot `i` holds `g`. -/
def setGslot (s : State) (i : Nat) (g : GSlot) : State := editGth s (fun t => { t with slots := Tab.store t.slots i {} g })

/-- The slot that holds GATHER_ID `gid` in a state from `lo` to `hi` (R163). -/
def gatherIn (s : State) (gid lo hi : Nat) : Option Nat :=
  (List.find? (fun p => p.2.gid == gid && decide (lo ≤ p.2.st) && decide (p.2.st ≤ hi)) s.gth.slots).map (fun p => p.1)

/-- The FREE slot with the lowest number (R160). -/
def gatherFree (s : State) : Option Nat := (List.range 16).find? (fun i => (gslot s i).st == 0)

/-- Edits of a staged item (R161). -/
def Staged.size : Staged → Nat
  | .edits l => editCount l
  | _ => 1

/-- Edits that a gather holds (R161). -/
def GSlot.edits (g : GSlot) : Nat := (g.items.map Staged.size).sum

/-- Edits that all slots hold (R161). -/
def stagedAll (s : State) : Nat := (s.gth.slots.map (fun p => p.2.edits)).sum

/-- A slot raises an event (R180). -/
def gthEvent (s : State) (i gid cause : Nat) (d1 : Word) : State :=
  raise s (0x300 + i) (w32 (cause + 256 * i + 65536 * gid)) d1

/-- A slot leaves the engine's queue and its running validation. -/
def dequeue (s : State) (i : Nat) : State :=
  editGth s (fun t => { t with queue := setDel t.queue i, run := if t.run = some i then none else t.run })

/-! ### The journal -/

/-- Records that the journal holds (R174). -/
def jrnSize : Nat := 16777216

/-- The 16 words of a journal record (R175). -/
def jrnWords (s : State) (type i : Nat) (g : GSlot) (w4 w6 w7 w8 w9 : Word) : List Word :=
  let l := [w32 (type + 256 * i + 65536 * g.gid), rd s Reg.gthJrnHead, epochNow s, nsNow s, w4, w32 g.edits, w6, w7, w8, w9,
    0, 0, 0, 0, 0]
  l ++ [crc32 (wordsBytes l)]

/-- JRN_WRAP, where the log overwrites its oldest record, and not within an hour of the last (R180, R460). -/
def jrnWrap (s : State) : State :=
  let old := match s.gth.wrapEv with
    | some t => decide (t + 3600 * 500000000 ≤ s.tod.ticks)
    | none => true
  if s.gth.jrn.length == jrnSize && old then
    raise (editGth s (fun t => { t with wrapEv := some s.tod.ticks })) 0x310 0x11 (rd s Reg.gthJrnHead)
  else s

/-- A record is written to the log (R174, R175); `held` says that its mirror copy is complete. -/
def journal (s : State) (words : List Word) (held : Bool) : State :=
  let k := (rd s Reg.gthJrnHead).toNat
  let s := wr s Reg.gthJrnHead (rd s Reg.gthJrnHead + 1)
  let s := mainWritten (jrnWrap s) k
  let s := if held then mirrorWritten s k else s
  editGth s (fun t => { t with jrn := ({ words := words, mirror := held } :: t.jrn).take jrnSize })

/-- Number of the record at place `k` of the log, newest first (R175). -/
def recordNumber (s : State) (k : Nat) : Nat := (rd s Reg.gthJrnHead).toNat + 2 ^ 32 - 1 - k

/-- A commit record of slot `i` that is not held (R174). -/
def unheld (i : Nat) (r : JRec) : Bool :=
  !r.mirror && fld (r.words.getD 0 0) 7 0 == 2 && fld (r.words.getD 0 0) 11 8 == i

/-- Place in the log of the commit record that slot `i` has begun and that is not held: the newest that matches (R174). -/
def ownRecord (s : State) (i : Nat) : Option Nat :=
  if (gslot s i).st = 2 ∧ (gslot s i).begun then s.gth.jrn.findIdx? (unheld i) else none

/-- A begun commit record that will not be held leaves the log, its sequence number with it; where a later record follows it, its place
stays empty (R177). -/
def dropUnheld (s : State) (i : Nat) : State := match ownRecord s i with
  | some 0 => wr (editGth s (fun t => { t with jrn := t.jrn.drop 1 })) Reg.gthJrnHead (rd s Reg.gthJrnHead - 1)
  | some k => editGth s (fun t => { t with jrn := listPut t.jrn k { words := [], main := false, mirror := false } })
  | none => s

/-- The commit record of slot `i` is held (R174). -/
def holdRecord (s : State) (i : Nat) : State := match ownRecord s i with
  | some k =>
    let s := mirrorWritten s (recordNumber s k)
    editGth s (fun t => { t with jrn := listPut t.jrn k { (t.jrn.getD k {}) with mirror := true, badA := false, badB := false } })
  | none => s

/-- A gather is discarded: its slot is FREE and its storage goes with the next frame boundary (R126, R160). -/
def freeSlot (s : State) (i : Nat) : State := dequeue (setGslot (dropUnheld s i) i {}) i

/-- A VALIDATING gather returns to OPEN with its edits (R177, R178). -/
def reopen (s : State) (i : Nat) : State :=
  let g := gslot s i
  dequeue (setGslot (dropUnheld s i) i { st := 1, gid := g.gid, items := g.items }) i

/-- A warm reset discards the gather in slot `i`: TYPE 5 record and DISCARDED (R178). -/
def discardGather (s : State) (i : Nat) : State :=
  let g := gslot s i
  let s := freeSlot s i
  let s := journal s (jrnWords s 5 i g 0 0 0 0 0) true
  gthEvent s i g.gid 4 (w32 g.edits)

/-! ### Descriptors -/

/-- A descriptor fails with reason 10: counted as an ignored sequence of kind 6 (R163, R325). -/
def fail10 (s : State) (d : Desc) : State := invalid (ignored s 6 d.ring d.idx) d.id 10

/-- The reason for which a GATHER_OPEN fails, 10 apart (R163). -/
def openReason (s : State) (d : Desc) : Option Nat :=
  if (gatherFree s).isNone then some 11
  else if s.hbm.placed.getD 2 0 = 0 then some 14
  else if d.gather = 0 then some 15 else none

/-- GATHER_OPEN (R160, R162, R163). -/
def execGatherOpen (d : Nat) (s : State) : Out :=
  .next (match takeDesc s d 0x10 with
    | none => s
    | some x =>
      if x.gather ≠ 0 ∧ (gatherIn s x.gather 1 3).isSome then fail10 s x
      else match openReason s x, gatherFree s with
        | some r, _ => invalid s d r
        | none, some i => completeOk (setGslot s i { st := 1, gid := x.gather }) d (w32 i) 0
        | none, none => s)

/-- What a staging descriptor put together joins its gather, whole or not at all (R161 to R165). -/
def stage (s : State) (d : Desc) (i : Staged) : State := match gatherIn s d.gather 1 1 with
  | none => fail10 s d
  | some k =>
    let g := gslot s k
    if d.gather = 0 then fail10 s d
    else if 65536 < g.edits + i.size ∨ 262144 < stagedAll s + i.size then invalid s d.id 12
    else
      let s := setGslot s k { g with items := g.items ++ [i] }
      completeOk s d.id (w32 (gslot s k).edits) (w32 (stagedAll s))

/-- TERM_CFG with IN_GATHER = 1 (R152, R161, R162). -/
def execTermCfgStage (d : Nat) (s : State) : Out :=
  .next (match takeMap s d 0x1A true with
    | none => s
    | some x => stage s x (.term (cfgWords x)))

/-- CC_CFG with IN_GATHER = 1 (R153, R161, R162). -/
def execCcCfgStage (d : Nat) (s : State) : Out :=
  .next (match takeMap s d 0x1B true with
    | none => s
    | some x => stage s x (.cc (cfgWords x)))

/-- GATHER_COMMIT: the engine takes it and its gather is VALIDATING (R160, R162, R163, R167). -/
def execGatherCommit (d : Nat) (s : State) : Out :=
  .next (match takeDesc s d 0x11 with
    | none => s
    | some x => match (if x.gather = 0 then none else gatherIn s x.gather 1 1) with
      | none => fail10 s x
      | some i =>
        let s := setGslot s i { gslot s i with st := 2, commit := some d, tag := (x.w 1).toNat, named := x.w 6 }
        editGth (editDesc s d (fun e => { e with st := 1, bound := some (0x11, i) })) (fun t =>
          { t with queue := t.queue ++ [i] }))

/-- GATHER_ABORT (R162, R163, R177). -/
def execGatherAbort (d : Nat) (s : State) : Out :=
  .next (match takeDesc s d 0x12 with
    | none => s
    | some x => match (if x.gather = 0 then none else gatherIn s x.gather 1 3) with
      | none => fail10 s x
      | some i =>
        let g := gslot s i
        if g.st = 3 then complete s d 2 0 0
        else
          let s := freeSlot s i
          let s := match g.commit with
            | some c => complete s c 1 0 0
            | none => s
          let s := journal s (jrnWords s 4 i g 0 0 0 (x.w 1) 0) true
          completeOk (gthEvent s i g.gid 5 (w32 g.edits)) d (w32 g.edits) 0)

/-! ### Validation -/

/-- GATHER_VALIDATION_START: validations run one at a time, in the order in which the commits were taken (R167). -/
def execGatherValidationStart (slot : Fin 16) (s : State) : Out :=
  .next (
    if s.gth.run.isNone ∧ s.gth.queue.head? = some slot.val then
      editGth s (fun t => { t with queue := t.queue.drop 1, run := some slot.val })
    else s)

/-- The items of a gather with the index of the first edit of each (R166). -/
def indexed (i : Nat) (l : List Staged) : List (Nat × Staged) := match l with
  | [] => []
  | x :: r => (i, x) :: indexed (i + x.size) r

/-- The records of a gather with the index of the first edit of each. -/
def indexedRecs (i : Nat) (l : List EditRec) : List (Nat × EditRec) := match l with
  | [] => []
  | r :: rest => (i, r) :: indexedRecs (i + r.count) rest

/-- The first failing edit so far: the lower index, then the lower reason (R166). -/
def firstFail (a b : Option (Nat × Nat)) : Option (Nat × Nat) := match a, b with
  | some x, some y => if y.1 < x.1 ∨ (y.1 = x.1 ∧ y.2 < x.2) then some y else some x
  | none, b => b
  | a, none => a

/-- A TERM_CFG or CC_CFG of the gather takes a TU whose output another edit of the gather names (R152). -/
def takesNamed (outs : List Word) : Staged → Bool
  | .edits _ => false
  | .term w => termSrc w == 1 && outs.contains (termFrom w)
  | .cc w => (ccKind w false == 1 && outs.contains (ccId w false)) || (ccKind w true == 1 && outs.contains (ccId w true))

/-- The reason for which a structural item that is no release fails against `b` (R152, R153, R155). -/
def structReason (b : State) (outs : List Word) (i : Staged) : Option Nat :=
  lower (match i with
    | .edits _ => none
    | .term w => termReason b w
    | .cc w => ccReason b w) (if takesNamed outs i then some 5 else none)

/-- The terminations and connections that a gather makes, one after the other: the map with them, and the first failure. -/
def checkStructs (outs : List Word) (l : List (Nat × Staged)) (b : State) (f : Option (Nat × Nat)) :
    State × Option (Nat × Nat) := match l with
  | [] => (b, f)
  | (i, x) :: r => match structReason b outs x with
    | some n => checkStructs outs r b (firstFail f (some (i, n)))
    | none => checkStructs outs r (putStruct b x) f

/-- A staged item of another gather than slot `i` names what `t` says (R168). -/
def othersName (s : State) (i : Nat) (t : Staged → Bool) : Bool :=
  gatherNames (setGslot s i {}) t

/-- The reason for which a release of the gather in slot `i` fails: `b` is the basis before it, `e` the map once the whole
gather has been applied (R154, R166, R168). -/
def gatherRelease (s : State) (i : Nat) (b e : State) (x : Staged) : Option Nat := match x with
  | .edits _ => none
  | .term w => releaseReason b w (numberUsed e (termNum w) || othersName s i (Staged.names (onNumber (termNum w))))
  | .cc w => ccReleaseReason b w (fun c =>
      entryNames e (onEndpoint c) ||
        othersName s i (fun y => Staged.names (onEndpoint c) y || Staged.namesEnd c y))

/-- The edits of a gather checked one by one against the basis `b`: `seen` are the outputs named so far (R166). -/
def checkEdits (b : State) (seen : List Word) (l : List (Nat × EditRec)) (f : Option (Nat × Nat)) : Option (Nat × Nat) :=
  match l with
  | [] => f
  | (i, r) :: rest =>
    let es := expandRec b r
    let outs := es.map EditRec.out
    let own := (es.zip (List.range es.length)).foldl (fun f p =>
      let dup := seen.contains p.1.out || (outs.take p.2).contains p.1.out
      match lower (editReason b p.1) (if dup then some 6 else none) with
      | some n => firstFail f (some (i + p.2, n))
      | none => f) ((recReason b r).map (fun n => (i, n)))
    checkEdits b (seen ++ outs) rest (firstFail f own)

/-- The records among indexed items, each with the index of its first edit. -/
def gatherRecs (l : List (Nat × Staged)) : List (Nat × EditRec) := l.flatMap (fun p => match p.2 with
  | .edits r => indexedRecs p.1 r
  | _ => [])

/-- Validation of the gather in slot `i` against the validation basis: its failure, and its items with runs expanded (R166). -/
def checkGather (s : State) (i : Nat) : Option (Nat × Nat) × List Staged :=
  let g := gslot s i
  let l := indexed 0 g.items
  let b0 := withScheduled s
  let rel := l.filter (fun p => p.2.releases)
  let b1 := rel.foldl (fun b p => putStruct b p.2) b0
  let mk := l.filter (fun p => !p.2.releases)
  let outs := (gatherRecs l).flatMap (fun p => (expandRec b1 p.2).map EditRec.out)
  let c := checkStructs outs mk b1 none
  let b := c.1
  let items := g.items.map (expandItem b)
  let e := putItems b0 items
  let f := checkEdits b [] (gatherRecs l) c.2
  let f := rel.foldl (fun f p => match gatherRelease s i b0 e p.2 with
    | some n => firstFail f (some (p.1, n))
    | none => f) f
  if fld g.named 31 17 ≠ 0 then (some (0xFFFFFFFF, 2), items)
  else match f with
    | some x => (some x, items)
    | none => (if limitsOk (putItems (withReserved s) items) then none else some (0xFFFFFFFF, 8), items)

/-- A rejected gather: discarded, TYPE 1 record, GATHER_REJECTED and REJECTED (R166, R175, R180). -/
def reject (s : State) (i : Nat) (x : Nat × Nat) : State :=
  let g := gslot s i
  let s := freeSlot s i
  let s := journal s (jrnWords s 1 i g 0 (w32 x.2) (w32 x.1) (w32 g.tag) 0) true
  let s := gthEvent s i g.gid 3 (w32 (x.2 + 256 * (x.1 % 2 ^ 24)))
  match g.commit with
  | some d => complete s d 6 (w32 x.2) (w32 x.1)
  | none => s

/-- The commit superframe and MOVED that a word 6 gives now (R3, R169). -/
def commitFrame (s : State) (i : Nat) (w : Word) : Nat × Bool :=
  let d := if bit w 16 then 2 else sfcAhead s (fld w 15 0)
  let last := (s.gth.slots.filter (fun p => p.2.st == 3 && p.1 != i)).foldl (fun m p => max m (sfcAhead s p.2.sfc)) 0
  let e := max d (max 2 last)
  ((s.glb.sfc + e) % 65536, e != d)

/-- The commit record of slot `i` begins, which fixes its commit superframe (R169, R174). -/
def beginRecord (s : State) (i : Nat) : State :=
  let g := gslot s i
  let c := commitFrame s i g.named
  let g := { g with begun := true, sfc := c.1, moved := c.2 }
  let s := setGslot s i g
  journal s (jrnWords s 2 i g (w32 (c.1 + 65536 * b2n c.2)) 0 0 (w32 g.tag) 0) false

/-- GATHER_VALIDATION_END: rejection, or allocation and, while a half holds the leash, the beginning of the commit record
(R166, R167, R169). -/
def execGatherValidationEnd (slot : Fin 16) (s : State) : Out :=
  let i : Nat := slot
  .next (
    if s.gth.run ≠ some i ∨ (gslot s i).st ≠ 2 ∨ (gslot s i).valid then s
    else
      let c := checkGather s i
      match c.1 with
      | some x => reject s i x
      | none =>
        let g := gslot s i
        let f := commitFrame s i g.named
        let s := setGslot s i { g with valid := true, items := c.2, order := s.gth.orderNext, sfc := f.1, moved := f.2 }
        let s := editGth s (fun t => { t with run := none, orderNext := t.orderNext + 1 })
        let s := takeSources s (c.2.flatMap Staged.sources)
        if s.mtx.held then beginRecord s i else s)

/-- COMMIT_RECORD_HELD: the gather is SCHEDULED and its GATHER_COMMIT completes OK; a record whose copies all read
uncorrectable is not held, and MIRROR_LOST is raised (R162, R174, R180, R391). -/
def execCommitRecordHeld (slot : Fin 16) (uncorr : Bool) (s : State) : Out :=
  let i : Nat := slot
  .next (
    if (gslot s i).st ≠ 2 ∨ !(gslot s i).valid ∨ !s.mtx.held ∨ replay s then s
    else
      let s := if (gslot s i).begun then s else beginRecord s i
      if uncorr then
        raise s 0x785 0x20 (match ownRecord s i with
          | some k => (s.gth.jrn.getD k {}).words.getD 1 0
          | none => 0)
      else
        let s := holdRecord s i
        let g := gslot s i
        let s := setGslot s i { g with st := 3, commit := none }
        let w := w32 (g.sfc + 65536 * b2n g.moved)
        let s := match g.commit with
          | some d => completeOk (setDesc s d 2) d w (w32 g.edits)
          | none => s
        gthEvent s i g.gid 1 w)

/-! ### Bridge-and-roll -/

/-- The outputs of validated gathers are bridged from the frame boundary after their validation (R172). -/
def startBridges (s : State) : State :=
  editGth s (fun t => { t with slots := t.slots.map (fun p =>
    if p.2.st = 3 ∨ p.2.valid then (p.1, { p.2 with bridged := true }) else p) })

/-- BRIDGE_READY: the bridges of a validated gather are aligned (R172). -/
def execBridgeReady (slot : Fin 16) (s : State) : Out :=
  .next (if (gslot s slot).bridged then setGslot s slot { gslot s slot with ready := true } else s)

/-- The gathers whose commit frame is the frame that has begun, in the order of R170. -/
def gathersDue (s : State) : List Nat :=
  if s.glb.frame ≠ 0 then []
  else ((validGathers s false).filter (fun p => p.2.sfc == frameSfc s)).map (fun p => p.1)

/-! ### Registers -/

/-- GTH_USE (R179). -/
def gthUse (s : State) : Word := w32 ((s.gth.slots.filter (fun p => p.2.st != 0)).length + 32 * stagedAll s)
/-- GTH_NEXT (R179). -/
def gthNext (s : State) : Word := match (validGathers s false).head? with
  | some p => w32 (p.2.sfc + 65536)
  | none => 0
/-- GTH_SLOT_ID, EDITS and SFC of a slot (R179). -/
def gthSlotWord (s : State) (i k : Nat) : Word :=
  let g := gslot s i
  match k with
  | 0 => w32 (g.gid + 65536 * g.st)
  | 1 => w32 g.edits
  | 2 => if g.st = 3 then w32 (g.sfc + 65536 * b2n g.moved) else 0
  | _ => 0

end Sys2Proof.Machine
end

