-- ==== Sys2Proof/Machine/Prot.lean ====
section
/-! DEFINITION. Protection switching: selectors, MSP groups, commands, K1 and K2, far-end violations (09_protection.md, R181
to R202). -/

namespace Sys2Proof.Machine

/-! ### Times -/

/-- Frames of a WTR field in s (R184, R187). -/
def wtrFrames (sec : Nat) : Nat := 8000 * sec

/-- SFC and frame of the frame after the one in force, as result word 1 of a SEL_CMD gives them (R189). -/
def nextFrame (s : State) : Word :=
  let f := s.glb.frame + 1
  if f < 16 then w32 (frameSfc s + 65536 * f) else w32 ((frameSfc s + 1) % 65536)

/-- SFC and frame of the next TU multiframe boundary (R171, R188). -/
def nextMultiframe (s : State) : Word :=
  let f := (s.glb.frame / 4 + 1) * 4
  if f < 16 then w32 (frameSfc s + 65536 * f) else w32 ((frameSfc s + 1) % 65536)

/-! ### Selectors: requests and selection -/

/-- REVERT (R184). -/
def Sel.revert (x : Sel) : Bool := bit x.par 1
/-- A copy's SF has passed hold-off (R183). -/
def Hold.isSf (h : Hold) : Bool := h.sf && h.pass
/-- A copy's SD, which stands without SF only, has passed hold-off (R181, R183). -/
def Hold.isSd (h : Hold) : Bool := h.sd && !h.sf && h.pass

/-- Rank of a selector command (R186, R189). -/
def selCmdRank (c : Nat) : Nat := match c with
  | 1 => 11
  | 2 => 9
  | 3 => 9
  | 4 => 6
  | 5 => 6
  | 6 => 4
  | _ => 0

/-- Rank of the highest condition of a selector that has passed hold-off; 0 without one (R186). -/
def Sel.condRank (x : Sel) : Nat :=
  if x.p.isSf then 10 else if x.w.isSf then 8 else if x.w.isSd || x.p.isSd then 7 else 0

/-- The copy that a request of rank `r` selects (R186). -/
def Sel.selects (x : Sel) (r : Nat) : Bool := match r with
  | 9 => x.cmd == 2
  | 8 => true
  | 7 => if x.w.isSd && x.p.isSd then x.want else x.w.isSd
  | 6 => x.cmd == 4
  | 5 => true
  | 4 => x.want
  | 3 => true
  | 2 => x.want && !x.revert
  | _ => false

/-- A decision of a selector: its request in force and the copy it wants, with the command it drops (0: none) (R186, R187,
R189). -/
def decideSel (x : Sel) : Sel × Nat :=
  let cond := x.condRank
  let drop := decide (4 ≤ x.cmd) && decide (selCmdRank x.cmd < max cond (if x.wtr.isSome && x.cmd == 6 then 5 else 0))
  let gone := if drop then x.cmd else 0
  let x := if drop then { x with cmd := 0, exer := none } else x
  let top := max cond (selCmdRank x.cmd)
  let fell := x.want && (x.req == 7 || x.req == 8) && decide (top < 7)
  let wtr : Option Nat :=
    if 5 < top then none
    else if fell && x.revert then some 0
    else x.wtr
  let r := if wtr.isSome then max top 5 else top
  let dnr := x.want && !x.revert && decide (r < 3)
  let hold := x.want && !x.revert && decide (r = 4) && (x.dnr || fell)
  let r := if dnr then 3 else if r = 0 then 2 else r
  ({ x with req := r, wtr := wtr, dnr := dnr || hold, want := x.selects r }, gone)

/-- Selector `k` decides; a command that a higher request pre-empts raises CMD_DROPPED (R188, R189, R202). -/
def decide' (s : State) (k : Nat) : State := match sel? s k with
  | none => s
  | some x =>
    let r := decideSel x
    let s := setSel s k r.1
    if r.2 = 0 then s else selEvent s k 3 0 r.2

/-- The switching period of selector `k` is the TU multiframe: it is of the low-order tier, and no merge of a VC-3 in a TU-3, whose block is
a frame (R188, R220). -/
def selTu (s : State) (k : Nat) (x : Sel) : Bool :=
  keyTier k == 1 && !((Tab.find? s.mrg.merges k).isSome && tuType? s x.working == some 3)

/-- The selectors of the switching period `tu` whose decided copy differs from the one carried. -/
def selsChanging (s : State) (tu : Bool) : List Nat :=
  (s.prot.sels.filter (fun p => selTu s p.1 p.2 == tu && p.2.want != p.2.prot)).map (fun p => p.1)

/-- The decided copies of the switching period `tu` are carried from this boundary: switches count and, tier by tier, SWITCHED or
SWITCHED_BULK is raised (R188, R199, R202, R220). -/
def applySelections (s : State) (tu : Bool) : State :=
  let l := selsChanging s tu
  let s := l.foldl (fun s k => match sel? s k with
    | some x => setSel s k { x with prot := x.want, switches := x.switches + 1 }
    | none => s) s
  let peer := fun (j k : Nat) => selSource j == selSource k && keyTier j == keyTier k
  let many := fun (k : Nat) => (l.filter (fun j => peer j k)).length
  l.foldl (fun s k =>
    if 16 < many k then
      if (l.find? (fun j => peer j k)) = some k then selEvent s k 2 0 (min 32767 (many k)) else s
    else match sel? s k with
      | some x => selEvent s k 1 (2 ^ 10 * b2n x.prot + 2 ^ 11 * x.req) 0
      | none => s) s

/-! ### Groups: requests -/

/-- ARCH: 1:N (R191). -/
def Grp.oneN (g : Grp) : Bool := bit g.w7 0
/-- BIDIR (R191). -/
def Grp.bidir (g : Grp) : Bool := bit g.w7 1
/-- REVERT (R191). -/
def Grp.revert (g : Grp) : Bool := bit g.w7 2
/-- EXTRA (R191). -/
def Grp.extra (g : Grp) : Bool := bit g.w7 3

/-- A request of a group: rank and channel (R194). -/
abbrev Req := Nat × Nat

/-- Of two requests, the first prevails over the second: a higher rank, or the same rank and a lower channel (R194). -/
def prevails (a b : Req) : Bool := decide (b.1 < a.1) || (a.1 == b.1 && decide (a.2 < b.2))

/-- K1 [7:4] of a rank (R194). -/
def reqCode (rank : Nat) : Nat := match rank with
  | 12 => 0b1111
  | 11 => 0b1101
  | 10 => 0b1110
  | 9 => 0b1101
  | 8 => 0b1100
  | 7 => 0b1011
  | 6 => 0b1010
  | 5 => 0b1000
  | 4 => 0b0110
  | 3 => 0b0100
  | 2 => 0b0010
  | 1 => 0b0001
  | _ => 0b0000

/-- K1 of a request. -/
def reqK1 (r : Req) : Nat := reqCode r.1 * 16 + r.2 % 16

/-- The request that a K1 byte makes; none where its code does not appear in R194. -/
def k1Req (k1 : Nat) : Option Req :=
  let c := k1 % 16
  match k1 / 16 with
  | 0b1111 => some (12, c)
  | 0b1110 => some (10, c)
  | 0b1101 => some (if c = 0 then 11 else 9, c)
  | 0b1100 => some (8, c)
  | 0b1011 => some (7, c)
  | 0b1010 => some (6, c)
  | 0b1000 => some (5, c)
  | 0b0110 => some (4, c)
  | 0b0100 => some (3, c)
  | 0b0010 => some (2, c)
  | 0b0001 => some (1, c)
  | 0b0000 => some (0, c)
  | _ => none

/-- Rank of a group command (R189, R194). -/
def grpCmdRank (c : Nat) : Nat := match c with
  | 1 => 12
  | 2 => 10
  | 4 => 5
  | 6 => 3
  | _ => 0

/-- The requests that the conditions of a group make, after hold-off (R194). -/
def Grp.conds (g : Grp) : List Req :=
  (List.range (g.n + 1)).filterMap (fun c =>
    let h := g.lanes.getD c {}
    let hi := !g.oneN || bit g.hipri c
    if h.isSf then some (if c = 0 then (11, 0) else (if hi then 9 else 8, c))
    else if h.isSd then some (if c = 0 then (7, 0) else (if hi then 7 else 6, c))
    else none)

/-- The prevailing one of some requests. -/
def topReq (l : List Req) (r : Req) : Req := l.foldl (fun a b => if prevails b a then b else a) r

/-- PSBF is reported on the protection lane (R54, R196). -/
def grpPsbf (s : State) (g : Grp) : Bool := reported (frm s g.protLane).det .psbf

/-- The remote request in use: that of the last valid accepted K1, NR under PSBF (R195, R196). -/
def grpRemote (s : State) (g : Grp) : Req :=
  if grpPsbf s g then (0, 0) else (k1Req g.k1Used).getD (0, 0)

/-- The group acts as 1+1 unidirectional: configured so, or under FOP_ARCH or FOP_MODE (R196). -/
def Grp.uni (g : Grp) : Bool := !g.bidir || (!g.oneN && (g.fop.getD 2 false || g.fop.getD 3 false))

/-- The request in force: unidirectional the local request, bidirectional the higher of the local and the remote one (R195
step 1). -/
def inForceReq (g : Grp) (loc rem : Req) : Req :=
  if g.uni then loc else if 2 ≤ rem.1 && prevails rem loc then rem else loc

/-- The local request has not changed: the channel that NR names is none of its own (R194, R196). -/
def sameReq (a b : Req) : Bool := a == b || (a.1 == 0 && b.1 == 0)

/-- A decision of a group about its local request, with the command it drops (0: none): commands, conditions, and WTR and Do not revert
as the request in force falls (R187, R189, R194, R195). -/
def decideGrp (s : State) (g : Grp) : Grp × Nat :=
  let cond := topReq g.conds (0, 0)
  let cmd : Req := (grpCmdRank g.cmd, g.cmdCh)
  let rem := grpRemote s g
  let outranked := prevails cond cmd || (!g.uni && decide (2 ≤ rem.1) && prevails rem cmd) ||
    (g.wtr.isSome && decide (grpCmdRank g.cmd < 4))
  let drop := (g.cmd == 4 || g.cmd == 6) && outranked
  let gone := if drop then g.cmd else 0
  let g := if drop then { g with cmd := 0, cmdCh := 0, exer := none } else g
  let top := if g.cmd = 0 then cond else topReq [(grpCmdRank g.cmd, g.cmdCh)] cond
  let now := inForceReq g top rem
  let onProt := workCh g.selCh
  let fell := onProt && decide (6 ≤ g.req) && decide (g.req ≤ 9) && g.reqCh == g.selCh && decide (now.1 < 6)
  let wtr : Option (Nat × Nat) :=
    if 4 < now.1 then none else if fell && g.revert then some (0, g.selCh) else g.wtr
  let top := match wtr with
    | some w => topReq [(4, w.2)] top
    | none => top
  let dnr := !g.oneN && !g.revert && onProt && (g.dnr || fell || decide (4 ≤ g.req)) && decide (now.1 ≤ 3)
  let top := if dnr && decide (top.1 = 0) then (1, 1) else top
  let top := if top.1 = 0 then (0, if g.bridgeCh = 15 then 15 else 0) else top
  ({ g with local_ := top, wtr := wtr, dnr := dnr, flaps := if sameReq top g.local_ then g.flaps else [] }, gone)

/-- Group `i` decides; a command that a higher request pre-empts raises CMD_DROPPED (R188, R189, R201). -/
def decideGroup (s : State) (i : Nat) : State := match grp? s i with
  | none => s
  | some g =>
    let r := decideGrp s g
    let s := setGrp s i r.1
    if r.2 = 0 then s else grpEvent s i 8 false (w32 r.2)

/-! ### Groups: K bytes, bridge and selector -/

/-- K2 [7:4] of the pair in use (R195, R196). -/
def Grp.k2Ch (g : Grp) : Nat := g.k2Used / 16

/-- The channel bridged in 1:N: what step 3 of R195 gives; 15 for extra traffic. -/
def bridgeOf (g : Grp) (force loc rem : Req) : Nat :=
  let c := if g.bidir then force.2 else if loc.1 = 12 ∨ loc.1 = 11 then 0 else rem.2
  if 1 ≤ c ∧ c ≤ g.n then c else if g.extra then 15 else 0

/-- The channel read from protection that step 5 of R195 gives; an exercise changes nothing (R190). -/
def selectOf (g : Grp) (force loc : Req) : Nat :=
  if !g.oneN && g.uni then
    if loc.1 = 3 then g.selCh else if loc.2 = 1 then 1 else 0
  else if force.1 = 3 then g.selCh
  else if 1 ≤ force.2 ∧ force.2 ≤ g.n ∧ g.k2Ch = force.2 then force.2 else 0

/-- The channel read from protection, with extra traffic as 15 while nothing else is (R200). -/
def withExtra (g : Grp) (c bridge : Nat) : Nat := if c = 0 ∧ g.extra ∧ bridge = 15 then 15 else c

/-- Bridge and selector of a group in the next frame: steps 3 and 5 of R195 within the limits of R196. The channel in use under FOP_FLAP
is the one read from protection, else the one bridged, and channel 1 of a 1+1 group (log entry 97). -/
def bridgeSelect (g : Grp) (force rem : Req) : Nat × Nat :=
  let loc := g.local_
  let b := if g.oneN then bridgeOf g force loc rem else force.2
  let c := selectOf g force loc
  let keep := if workCh g.selCh then g.selCh else 0
  let used := if keep ≠ 0 then keep else if !g.oneN then 1 else if workCh g.bridgeCh then g.bridgeCh else 0
  let flap := g.fop.getD 5 false
  let arch := g.fop.getD 2 false
  let mode := g.fop.getD 3 false
  let stop := (arch && g.oneN) || (mode && (g.oneN || !g.bidir))
  if stop then
    if 11 ≤ loc.1 then (if g.oneN then (if g.extra then 15 else 0) else b, 0) else (g.bridgeCh, keep)
  else if flap then
    if 11 ≤ loc.1 then (b, 0) else if loc.1 = 9 ∧ loc.2 = used then (b, c) else (g.bridgeCh, keep)
  else if arch || mode then (b, if 9 ≤ loc.1 then c else keep)
  else (b, c)

/-- K1 transmitted: the local request, or Reverse request where the remote one prevails (R195 step 2); under FOP_FLAP and
FOP_NORESP the local request (R196). -/
def k1Of (g : Grp) (rem : Req) : Nat :=
  if !g.uni && decide (2 ≤ rem.1) && prevails rem g.local_ && !g.fop.getD 5 false && !g.fop.getD 4 false then
    reqK1 (2, rem.2)
  else reqK1 g.local_

/-- K2 transmitted (R195 step 4). -/
def k2Of (g : Grp) (bridge : Nat) : Nat :=
  bridge % 16 * 16 + (if g.oneN then 8 else 0) + (if g.bidir then 5 else 4)

/-- PROT_GRP_STATUS [15:0] (R200). -/
def grpLow (g : Grp) : Nat := g.selCh + 16 * g.bridgeCh + 256 * reqCode g.req + 4096 * (g.reqCh % 16)

/-- The transmitted K1 channel differs from the accepted K2 channel (R196). -/
def unanswered (g : Grp) : Bool := g.k1Tx % 16 != g.k2Ch

/-- A far-end condition of a group changes: its bit and its event (R196, R201). -/
def setFop (s : State) (i n : Nat) (b : Bool) (d1 : Word) : State := match grp? s i with
  | none => s
  | some g =>
    if g.fop.getD n false = b then s
    else grpEvent (setGrp s i { g with fop := listPut g.fop n b }) i (2 + n) b d1

/-- K1_RAW and K2_RAW of a group's protection lane, as FOP events give them (R201). -/
def rawK (s : State) (g : Grp) : Word := w32 (fget s (Reg.laneK12 g.protLane) 31 16)

/-- Data word 1 of FOP_NORESP: K1_TX and the accepted K2 (R201). -/
def norespWord (g : Grp) : Word := w32 (g.k1Tx + 256 * (g.kAcc.map (fun p => p.2)).getD 0)

/-- The selector of a group moves to or from a working channel between `g` and `g'` (R195, R200). -/
def grpMoved (g g' : Grp) : Bool :=
  (if workCh g'.selCh then g'.selCh else 0) != (if workCh g.selCh then g.selCh else 0)

/-- The group `g` a frame on: its request in force, its bridge and selector, its K bytes and its persistence counts (R195, R196, R201). -/
def grpNext (s : State) (g : Grp) : Grp :=
  let rem := grpRemote s g
  let force := inForceReq g g.local_ rem
  let bs := bridgeSelect g force rem
  let k1 := k1Of g rem
  let k2 := g.kAcc.map (fun p => p.2)
  let arch := k2.map (fun v => (v / 8 % 2 == 1) != g.oneN)
  let mode := k2.bind (fun v => if v % 8 = 4 then some g.bidir else if v % 8 = 5 then some !g.bidir else none)
  let against := fun (x : Option Bool) (n run : Nat) =>
    if x = some (!g.fop.getD n false) then min 400 (run + 1) else 0
  let y := { g with req := force.1, reqCh := force.2, selCh := withExtra g bs.2 bs.1, bridgeCh := bs.1, k1Tx := k1, k2Tx := k2Of g bs.1 }
  let byRem := force != g.local_
  let remote := grpMoved g y && sameReq g.local_ g.locWas && (byRem || g.byRem)
  { y with
    locWas := g.local_, byRem := byRem
    archRun := against arch 2 g.archRun
    modeRun := against mode 3 g.modeRun
    noresp := if k1 = g.k1Tx then min 400 (g.noresp + 1) else 0
    flaps := ((if remote then [0] else []) ++ g.flaps.map (· + 1)).filter (fun n => decide (n ≤ 8000))
    kStable := min 8000 (g.kStable + 1)
    exer := g.exer.map (fun e => (e.1, e.2 + 1)) }

/-- Each frame, group `i` sets its request in force, its K bytes, its bridge and its selector (R195, R196, R200, R201). -/
def groupFrame (s : State) (i : Nat) : State :=
  let s := decideGroup s i
  match grp? s i with
  | none => s
  | some g =>
    let g' := grpNext s g
    let t := setGrp s i g'
    let t := if grpMoved g g' then count (unverifyMoved s t) (Reg.protGrpSwitches i) 1 else t
    let t := if g'.selCh != g.selCh || g'.bridgeCh != g.bridgeCh then grpEvent t i 1 false (w32 (grpLow g')) else t
    if g'.fop.getD 4 false && !unanswered g' then setFop t i 4 false (norespWord g') else t

/-- Every configured group acts (R195). -/
def groupsFrame (s : State) : State := (s.prot.grps.map (fun p => p.1)).foldl groupFrame s

/-- The hold-off and wait-to-restore timers of every selector and group, and the exercises of selectors, count a frame (R183, R187,
R190). -/
def countTimers (s : State) : State :=
  let hold := fun (h : Hold) => { h with run := h.run.map (· + 1) }
  let sel := fun (x : Sel) => { x with
    w := hold x.w, p := hold x.p, wtr := x.wtr.map (· + 1), exerRun := if x.exer.isSome then x.exerRun + 1 else 0 }
  let grp := fun (g : Grp) => { g with lanes := g.lanes.map hold, wtr := g.wtr.map (fun w => (w.1 + 1, w.2)) }
  { s with prot := { s.prot with
    sels := s.prot.sels.map (fun p => (p.1, sel p.2)), grps := s.prot.grps.map (fun p => (p.1, grp p.2)) } }

/-- K1 and K2 sent on lane `n` in this frame: a group's on its protection lane, its mode code on its working lanes, 0 elsewhere;
MS-AIS and MS-RDI take precedence (R61, R195). -/
def txK (s : State) (n : Nat) (ais rdi : Bool) : Nat × Nat :=
  let k : Nat × Nat := match grpOfProt s n with
    | some g => (g.k1Tx, g.k2Tx)
    | none => match grpOfWork s n with
      | some (g, _) => (0, if g.bidir then 5 else 4)
      | none => (0, 0)
  if ais then (0xFF, 0xFF) else if rdi then (k.1, k.2 / 8 * 8 + 6) else k

/-! ### Timers and decisions -/

/-- A hold-off that has run its time makes its condition a request (R183). -/
def Hold.expire (h : Hold) (len : Nat) : Hold := match h.run with
  | some n => if len ≤ n ∧ (h.sf || h.sd) then { h with run := none, pass := true } else h
  | none => h

/-- HOLDOFF_EXPIRY: of a selector's copy (0 working, 1 protection) or of a group's channel (R183). -/
def execHoldoffExpiry (t : ProtTarget) (copy : Nat) (s : State) : Out :=
  .next (match t with
    | .sel k => match sel? s k with
      | some x =>
        let n := holdFrames (fld x.par 9 3)
        setSel s k (if copy = 0 then { x with w := x.w.expire n } else if copy = 1 then { x with p := x.p.expire n } else x)
      | none => s
    | .grp i => match grp? s i with
      | some g => setGrp s i { g with lanes := listPut g.lanes copy ((g.lanes.getD copy {}).expire (holdFrames (fld g.w7 11 5))) }
      | none => s)

/-- PROTECTION_DECISION (R186, R188, R194). -/
def execProtectionDecision (t : ProtTarget) (s : State) : Out :=
  .next (match t with
    | .sel k => decide' s k
    | .grp i => decideGroup s i)

/-- WTR_EXPIRY: the timer has run its time; a WTR of 0 expires at the next frame boundary (R187). -/
def execWtrExpiry (t : ProtTarget) (s : State) : Out :=
  .next (match t with
    | .sel k => match sel? s k with
      | some x => match x.wtr with
        | some n => if max 1 (wtrFrames (fld x.par 25 16)) ≤ n then setSel s k { x with wtr := none } else s
        | none => s
      | none => s
    | .grp i => match grp? s i with
      | some g => match g.wtr with
        | some w => if max 1 (wtrFrames (fld g.w7 25 16)) ≤ w.1 then setGrp s i { g with wtr := none } else s
        | none => s
      | none => s)

/-! ### SEL_CFG -/

/-- Key of the selector that word 6 names (R184, R189, R199). -/
def wordKey (w : Word) : Nat := selKey (fld w 18 17) (fld w 16 0)

/-- The selector that word 6 names is outside its tier's range (R185, R199). -/
def keyBad (w : Word) : Bool := fld w 18 17 == 3 || decide (selCount (fld w 18 17) ≤ fld w 16 0)

/-- A slot is a source that an output of map tier `t` could name by KIND 1, tier 4 apart (R184). -/
def copyOk (s : State) (t : Nat) (a : Word) : Bool :=
  (decide (saTier a ≤ 3) || saTier a == 5) && mapTier a == t && runSource s a && !onSpareLane s a

/-- The copies are of one type and differ (R184). -/
def copiesMatch (s : State) (a b : Word) : Bool :=
  a != b && (match saTier a with
    | 0 => hoTy s a == hoTy s b
    | 1 => tuType? s a == tuType? s b
    | _ => true)

/-- A guarded connection names selector `k` (R225). -/
def guardNamesSel (s : State) (k : Nat) : Bool :=
  s.sym.guards.any (fun p => bit (p.2.w 8) 0 && selKey (fld (p.2.w 8) 2 1) (fld (p.2.w 7) 16 0) == k)

/-- A live entry, a staged edit, a merge or a guarded connection names selector `k` (R185). -/
def selNamed (s : State) (k : Nat) : Bool :=
  s.map.entries.any (fun p => p.2.kind == 2 && selKey (mapTier (w32 p.1)) (fld p.2.src 16 0) == k) ||
    gatherNames s (Staged.namesSel (keyTier k) (keyNum k)) || (Tab.find? s.mrg.merges k).isSome || guardNamesSel s k ||
    s.deferred.any (fun x => match x.act with
      | .merge w => wordKey (w.getD 0 0) == k
      | .guard w => bit (w.getD 2 0) 0 && selKey (fld (w.getD 2 0) 2 1) (fld (w.getD 1 0) 16 0) == k
      | _ => false)

/-- The reason for which a SEL_CFG fails (R185). -/
def selReason (s : State) (d : Desc) : Option Nat :=
  let w := d.w 6
  let k := wordKey w
  let a := d.w 7
  let b := d.w 8
  if keyBad w then some 1
  else if bit w 31 then
    if d.w 7 ≠ 0 ∨ d.w 8 ≠ 0 ∨ d.w 9 ≠ 0 then some 2
    else if (sel? s k).isNone ∨ selNamed s k then some 5 else none
  else if 100 < fld (d.w 9) 9 3 ∨ 720 < fld (d.w 9) 25 16 then some 2
  else if !copyOk s (keyTier k) a ∨ !copyOk s (keyTier k) b ∨
      1024 < dualUse s (sourcesNamed s ++ sourcesComing s ++ [a, b]) then some 3
  else if !copiesMatch s a b then some 4
  else match sel? s k with
    | some x => if x.working ≠ a ∨ x.protect ≠ b then some 5 else none
    | none => none

/-- A SEL_CFG takes effect: a new selector selects working with request NR (R184, R185). -/
def applySel (s : State) (w : List Word) (d : Nat) : State :=
  let k := wordKey (w.getD 0 0)
  let s := if bit (w.getD 0 0) 31 then { s with prot := { s.prot with sels := Tab.drop s.prot.sels k } }
    else match sel? s k with
      | some x => setSel s k { x with par := w.getD 3 0 }
      | none => refreshSel (setSel s k { working := w.getD 1 0, protect := w.getD 2 0, par := w.getD 3 0 }) k
  completeOk s d 0 0

/-- A SEL_CFG is checked and waits for the next frame boundary (R185). -/
def selCfg (d : Nat) (remove : Bool) (s : State) : State := match takeDesc s d 0x30 with
  | none => s
  | some x =>
    if bit (x.w 6) 31 != remove then s
    else match selReason s x with
      | some r => invalid s d r
      | none => defer s d false (.sel (cfgWords x))

/-- SEL_CFG that creates a selector or changes its parameters (R184, R185). -/
def execSelCfg (d : Nat) (s : State) : Out := .next (selCfg d false s)

/-- SEL_CFG with REMOVE (R184, R185). -/
def execSelRemove (d : Nat) (s : State) : Out := .next (selCfg d true s)

/-! ### SEL_CMD -/

/-- The reason for which a SEL_CMD fails (R189). -/
def cmdReason (s : State) (d : Desc) : Option Nat :=
  let w := d.w 6
  let c := fld (d.w 7) 3 0
  let ch := fld (d.w 7) 11 8
  if fld w 18 17 = 3 then
    match grp? s (fld w 5 0) with
    | none => some 1
    | some g =>
      if fld w 16 6 ≠ 0 ∨ 7 ≤ c ∨ c = 3 ∨ c = 5 then some 2
      else if (c = 1 ∧ ch ≠ 0) ∨ ((c = 2 ∨ c = 4) ∧ g.n < ch) ∨ (c = 6 ∧ (ch = 0 ∨ g.n < ch)) then some 3 else none
  else if keyBad w ∨ (sel? s (wordKey w)).isNone then some 1
  else if 7 ≤ c ∨ ch ≠ 0 then some 2 else none

/-- A SEL_CMD completes with its outcome and the frame from which what it changed is in force (R189). -/
def cmdDone (s : State) (d outcome : Nat) (frame : Word) : State := completeOk s d (w32 outcome) frame

/-- No selection changes, as result word 1 says it (R189). -/
def noFrame : Word := 0xFFFFFFFF

/-- The command is not applicable to a selector (R189). -/
def selNotApplicable (s : State) (k : Nat) (x : Sel) (c : Nat) : Bool :=
  ((c == 3 || c == 5) && x.revert) || (c == 0 && x.cmd == 0) || (c == 6 && (Tab.find? s.mrg.merges k).isSome)

/-- The command is refused by a selector: a stored command ranks at or above it, or a higher request is in force against MS,
MS_W or EXER (R189). -/
def selRefuses (x : Sel) (c : Nat) : Bool :=
  (x.cmd != 0 && decide (selCmdRank c ≤ selCmdRank x.cmd)) ||
    (decide (4 ≤ c) && decide (selCmdRank c < max x.condRank (if x.wtr.isSome then 5 else 0)))

/-- A command of a selector, decided at once (R189, R190). -/
def selCommand (s : State) (d k c : Nat) : State := match sel? s k with
  | none => invalid s d 1
  | some x =>
    if selNotApplicable s k x c then cmdDone s d 3 noFrame
    else if c ≠ 0 ∧ selRefuses x c then cmdDone s d 2 noFrame
    else
      let x' := { x with cmd := c, exerRun := 0, exer := if c = 6 then some (!(x.p.sf || x.p.sd)) else none }
      let s := decide' (setSel (setDesc s d 2) k x') k
      let y := (sel? s k).getD x'
      let out := if c = 0 ∨ (y.cmd = c ∧ y.req = selCmdRank c) then 0 else 1
      let fr := if y.want = y.prot then noFrame else if selTu s k y then nextMultiframe s else nextFrame s
      cmdDone s d out fr

/-- The command is not applicable to a group (R189). -/
def grpNotApplicable (g : Grp) (c ch : Nat) : Bool :=
  ((c == 2 || c == 4) && ch == 0 && g.revert) || (c == 0 && g.cmd == 0)

/-- The command is refused by a group (R189). -/
def grpRefuses (s : State) (g : Grp) (c ch : Nat) : Bool :=
  let r : Req := (grpCmdRank c, ch)
  let rem := grpRemote s g
  (g.cmd != 0 && decide (grpCmdRank c ≤ grpCmdRank g.cmd)) ||
    ((c == 4 || c == 6) && (prevails (topReq g.conds (0, 0)) r ||
      (!g.uni && decide (2 ≤ rem.1) && prevails rem r) || (g.wtr.isSome && decide (grpCmdRank c < 4))))

/-- A command of a group, decided at once; K1 changes from the next frame (R189, R190, R195). -/
def grpCommand (s : State) (d i c ch : Nat) : State := match grp? s i with
  | none => invalid s d 1
  | some g =>
    if grpNotApplicable g c ch then cmdDone s d 3 noFrame
    else if c ≠ 0 ∧ grpRefuses s g c ch then cmdDone s d 2 noFrame
    else
      let g' := { g with cmd := c, cmdCh := if c = 0 then 0 else ch, exer := if c = 6 then some (ch, 0) else none }
      let s := decideGroup (setGrp (setDesc s d 2) i g') i
      let y := (grp? s i).getD g'
      let rem := grpRemote s y
      let f := inForceReq y y.local_ rem
      let out := if c = 0 ∨ f = (grpCmdRank c, ch) then 0 else 1
      cmdDone s d out (if k1Of y rem = g.k1Tx then noFrame else nextFrame s)

/-- A SEL_CMD with CMD `c`; a reserved CMD is refused whichever row it comes as (R189). -/
def selCmd (c d : Nat) (s : State) : State := match takeDesc s d 0x31 with
  | none => s
  | some x =>
    let cmd := fld (x.w 7) 3 0
    if cmd < 7 ∧ cmd ≠ c then s
    else match cmdReason s x with
      | some r => invalid s d r
      | none =>
        if fld (x.w 6) 18 17 = 3 then grpCommand s d (fld (x.w 6) 5 0) cmd (fld (x.w 7) 11 8)
        else selCommand s d (wordKey (x.w 6)) cmd

/-- SEL_CMD CLEAR (R189). -/
def execSelCmdClear (d : Nat) (s : State) : Out := .next (selCmd 0 d s)
/-- SEL_CMD LOCKOUT (R189). -/
def execSelCmdLockout (d : Nat) (s : State) : Out := .next (selCmd 1 d s)
/-- SEL_CMD FS (R189). -/
def execSelCmdFs (d : Nat) (s : State) : Out := .next (selCmd 2 d s)
/-- SEL_CMD FS_W (R189). -/
def execSelCmdFsW (d : Nat) (s : State) : Out := .next (selCmd 3 d s)
/-- SEL_CMD MS (R189). -/
def execSelCmdMs (d : Nat) (s : State) : Out := .next (selCmd 4 d s)
/-- SEL_CMD MS_W (R189). -/
def execSelCmdMsW (d : Nat) (s : State) : Out := .next (selCmd 5 d s)
/-- SEL_CMD EXER (R189, R190). -/
def execSelCmdExer (d : Nat) (s : State) : Out := .next (selCmd 6 d s)

/-- SEL_EXER_END: a selector's exercise ends after 1 s with its result (R190, R202). -/
def execSelExerEnd (key : Nat) (s : State) : Out :=
  .next (match sel? s key with
    | none => s
    | some x => match x.exer with
      | none => s
      | some ok => if x.exerRun < 8000 then s else
        let s := setSel s key { x with cmd := 0, exer := none }
        decide' (selEvent s key 4 0 (b2n ok)) key)

/-- The far end answers an exercise of channel `c`: in K2 and, if bidirectional, in a reverse request (R190). -/
def answered (g : Grp) (c : Nat) : Bool := g.k2Ch == c && (!g.bidir || g.k1Used == reqK1 (2, c))

/-- APS_EXER_END: a group's exercise passes when the far end answers, and fails after 50 ms (R190, R201). -/
def execApsExerEnd (g : Fin 64) (s : State) : Out :=
  .next (match grp? s g with
    | none => s
    | some x => match x.exer with
      | none => s
      | some (c, n) =>
        if !answered x c && decide (n < 400) then s
        else
          let s := setGrp s g { x with cmd := 0, cmdCh := 0, exer := none }
          decideGroup (grpEvent s g 9 false (w32 (b2n (answered x c) + 256 * c))) g)

/-! ### APS_CFG -/

/-- The working lanes that words 9 to 12 name for channels 1 to `n` (R191). -/
def apsWork (w : List Word) (n : Nat) : List Nat :=
  (List.range n).map (fun c => fld (w.getD (3 + c / 4) 0) (8 * (c % 4) + 6) (8 * (c % 4)))

/-- WORK fields beyond N that are not 0 (R191). -/
def apsSpare (w : List Word) (n : Nat) : Bool :=
  (rangeFrom n (16 - n)).any (fun c => fld (w.getD (3 + c / 4) 0) (8 * (c % 4) + 6) (8 * (c % 4)) != 0)

/-- N of an APS_CFG (R191). -/
def apsN (w : List Word) : Nat := fld (w.getD 2 0) 11 8
/-- PROT_LANE of an APS_CFG (R191). -/
def apsProt (w : List Word) : Nat := fld (w.getD 2 0) 6 0
/-- The lanes that an APS_CFG names (R191). -/
def apsLanes (w : List Word) : List Nat := apsProt w :: apsWork w (apsN w)

/-- The fields of word 7 that a group holds: WTR 0x3FF stands for 300 s (R191). -/
def apsW7 (w : Word) : Word := if fld w 25 16 = 0x3FF then setFld w 25 16 300 else w

/-- Reason 1 of R192. -/
def apsLaneBad (s : State) (w : List Word) : Bool :=
  let l := apsLanes w
  let p := apsProt w
  l.any (fun n => decide (4 ≤ laneMode s n) || laneMode s n != laneMode s p || bit (frmCtl s n) 0 != bit (frmCtl s p) 0)

/-- Reason 2 of R192. -/
def apsFieldBad (w : List Word) : Bool :=
  let w7 := w.getD 1 0
  let n := apsN w
  let oneN := bit w7 0
  n == 0 || decide (14 < n) || decide (100 < fld w7 11 5) || (decide (720 < fld w7 25 16) && fld w7 25 16 != 0x3FF) ||
    (!oneN && (n != 1 || bit w7 3)) || (oneN && !bit w7 2) || apsSpare w n

/-- Reason 3 of R192: a lane named twice, or of another group. -/
def apsTwice (s : State) (w : List Word) : Bool :=
  let l := apsLanes w
  l.eraseDups.length != l.length ||
    s.prot.grps.any (fun p => p.1 != fld (w.getD 0 0) 5 0 && (l.contains p.2.protLane || p.2.work.any l.contains))

/-- Reason 4 of R192: a slot of the protection lane is in use. An index that only follows the first of an unstructured container
(R146 OWNER 0) is not. -/
def apsUsed (s : State) (w : List Word) : Bool :=
  let n := apsProt w
  !bit (w.getD 1 0) 3 &&
    (entryNames s (onLane n) || selNames s (onLane n) || guardNames s (onLane n) || ownerNames s (onLane n) ||
      gatherNames s (Staged.names (onLane n)) ||
      (List.range (laneCap s n)).any (fun i =>
        (entryOf s (hoAddr n i)).kind == 3 && (entryOf s (hoAddr n i)).owner != 0))

/-- A change to a configured group of more than HOLDOFF, WTR, SD_EN and, for 1+1, REVERT (R192 reason 5). -/
def apsOther (g : Grp) (w : List Word) : Bool :=
  let m : Word := if g.oneN then 0xD ||| 2 ||| 4 else 0xB
  (g.w7 ^^^ w.getD 1 0) &&& m != 0 || g.w8 != w.getD 2 0 || g.work != apsWork w (apsN w) || g.hipri != w.getD 7 0

/-- The reason for which an APS_CFG fails (R192). -/
def apsReason (s : State) (d : Desc) : Option Nat :=
  let w := cfgWords d
  let i := fld (d.w 6) 5 0
  if bit (d.w 6) 31 then
    if (rangeFrom 7 7).any (fun k => d.w k != 0) then some 2
    else if (grp? s i).isNone then some 5 else none
  else if apsLaneBad s w then some 1
  else if apsFieldBad w then some 2
  else if apsTwice s w then some 3
  else match grp? s i with
    | some g => if apsOther g w then some 5 else none
    | none => if apsUsed s w then some 4 else none

/-- A group is removed: every channel is on its own lane again, which counts and raises SWITCHED where it changes a selection or a bridge
(R192, R200, R201; log entry 98). -/
def dropGrp (s : State) (i : Nat) : State := match grp? s i with
  | none => s
  | some g =>
    let t := { s with prot := { s.prot with grps := Tab.drop s.prot.grps i } }
    let t := if workCh g.selCh then count (unverifyMoved s t) (Reg.protGrpSwitches i) 1 else t
    if g.selCh ≠ 0 ∨ g.bridgeCh ≠ 0 then grpEvent t i 1 false 0 else t

/-- An APS_CFG takes effect: a new group starts with NR and every channel on its own lane; a removed one returns every channel to
its own lane (R192). -/
def applyAps (s : State) (w : List Word) (d : Nat) : State :=
  let i := fld (w.getD 0 0) 5 0
  let w7 := apsW7 (w.getD 1 0)
  let s := if bit (w.getD 0 0) 31 then dropGrp s i
    else match grp? s i with
      | some g => setGrp s i { g with w7 := w7 }
      | none =>
        let g : Grp := { w7 := w7, w8 := w.getD 2 0, work := apsWork w (apsN w), hipri := w.getD 7 0 }
        let e := if g.extra then 15 else 0
        let g := { g with
          lanes := List.replicate (g.n + 1) {}, bridgeCh := e, selCh := e, local_ := (0, e), reqCh := e
          k1Tx := reqK1 (0, e), k2Tx := k2Of g e }
        refreshGrp (setGrp s i g) i
  completeOk s d 0 0

/-- An APS_CFG is checked and waits for the next frame boundary (R192). -/
def apsCfg (d : Nat) (remove : Bool) (s : State) : State := match takeDesc s d 0x33 with
  | none => s
  | some x =>
    if bit (x.w 6) 31 != remove then s
    else match apsReason s x with
      | some r => invalid s d r
      | none => defer s d false (.aps (cfgWords x))

/-- APS_CFG that creates a group or changes its parameters (R191, R192). -/
def execApsCfg (d : Nat) (s : State) : Out := .next (apsCfg d false s)

/-- APS_CFG with REMOVE (R191, R192). -/
def execApsRemove (d : Nat) (s : State) : Out := .next (apsCfg d true s)

/-! ### Far-end violations -/

/-- The K1 part of a pair is valid for a group (R196). -/
def k1Valid (g : Grp) (k1 : Nat) : Bool :=
  (k1Req k1).isSome && (decide (k1 % 16 ≤ g.n) || (k1 % 16 == 15 && g.extra))

/-- The K2 channel of a pair is valid for a group (R196). -/
def k2Valid (g : Grp) (k2 : Nat) : Bool := decide (k2 / 16 ≤ g.n) || k2 / 16 == 15

/-- APS_K_ACCEPT: the pair accepted on the protection lane is checked and, where valid, becomes the remote request and the K2
channel in use (R61, R195, R196). -/
def execApsKAccept (g : Fin 64) (s : State) : Out :=
  .next (match grp? s g with
    | none => s
    | some x =>
      if (frm s x.protLane).kRun ≠ 3 then s
      else
        let k1 := fget s (Reg.laneK12 x.protLane) 7 0
        let k2 := fget s (Reg.laneK12 x.protLane) 15 8
        let ok1 := k1Valid x k1
        let code := decide (6 ≤ k2 % 8)
        let ok2 := k2Valid x k2
        let raw := rawK s x
        let x' := { x with
          k1Used := if ok1 then k1 else x.k1Used
          k2Used := if ok2 && !code then k2 else x.k2Used
          kAcc := some (k1, k2)
          kStable := if x.kAcc = some (k1, k2) then x.kStable else 0 }
        let all := ok1 && ok2
        let s := setGrp s g x'
        let s := setFop s g 0 (if ok1 then x.fop.getD 0 false && !all else true) raw
        setFop s g 1 (if code then x.fop.getD 1 false else if ok2 then x.fop.getD 1 false && !all else true) raw)

/-- FOP_ARCH: declared after 50 ms of K2 [3] against ARCH, cleared after 50 ms of agreement (R196). -/
def execFopArch (g : Fin 64) (s : State) : Out :=
  .next (match grp? s g with
    | none => s
    | some x => if x.archRun < 400 then s
      else setFop (setGrp s g { x with archRun := 0 }) g 2 (!x.fop.getD 2 false) (rawK s x))

/-- FOP_MODE: declared after 50 ms of K2 [2:0] against BIDIR, cleared after 50 ms of agreement (R196). -/
def execFopMode (g : Fin 64) (s : State) : Out :=
  .next (match grp? s g with
    | none => s
    | some x => if x.modeRun < 400 then s
      else setFop (setGrp s g { x with modeRun := 0 }) g 3 (!x.fop.getD 3 false) (rawK s x))

/-- FOP_NORESP: 50 ms after the transmitted K1 last changed, its channel is still not answered (R196). -/
def execFopNoresp (g : Fin 64) (s : State) : Out :=
  .next (match grp? s g with
    | none => s
    | some x => if x.noresp < 400 ∨ !unanswered x then s
      else setFop s g 4 true (norespWord x))

/-- FOP_FLAP: a fifth selection change by the remote request within 1 s (R196). -/
def execFopFlap (g : Fin 64) (s : State) : Out :=
  .next (match grp? s g with
    | none => s
    | some x => if x.flaps.length < 5 then s else setFop s g 5 true (w32 x.flaps.length))

/-- FOP_FLAP_CLEAR: the accepted pair has been unchanged for 1 s (R196). -/
def execFopFlapClear (g : Fin 64) (s : State) : Out :=
  .next (match grp? s g with
    | none => s
    | some x => if x.kStable < 8000 then s else setFop s g 5 false (w32 x.flaps.length))

/-! ### Status -/

/-- The selector state word of R199. -/
def selStateWord (s : State) (k : Nat) : Word := match sel? s k with
  | none => 0x80000000
  | some x => w32 (b2n x.prot + 2 * x.req + 2 ^ 5 * b2n x.w.sf + 2 ^ 6 * b2n x.w.sd + 2 ^ 7 * b2n x.p.sf + 2 ^ 8 * b2n x.p.sd +
      2 ^ 9 * b2n (x.w.run.isSome || x.p.run.isSome) + 2 ^ 10 * b2n x.wtr.isSome + 2 ^ 11 * x.cmd +
      2 ^ 14 * b2n (Tab.find? s.mrg.merges k).isSome + 2 ^ 15 * fld x.par 0 0 + 2 ^ 16 * b2n x.revert)

/-- Remaining ms, rounded up, of a timer that has run `n` of `len` frames. -/
def remainMs (n len : Nat) : Nat := (len - n + 7) / 8

/-- The timer that expires first among hold-offs and a wait-to-restore, given as frames left: hold-off on a tie (R199). -/
def timerWord (holds : List Nat) (wtr : Option Nat) : Word :=
  let h := holds.foldl (fun m n => match m with
    | some x => some (min x n)
    | none => some n) none
  match h, wtr with
  | some a, some b => if a ≤ b then w32 (remainMs 0 a) else w32 (remainMs 0 b + 2 ^ 20)
  | some a, none => w32 (remainMs 0 a)
  | none, some b => w32 (remainMs 0 b + 2 ^ 20)
  | none, none => 0

/-- The timer word of a selector (R199). -/
def selTimer (s : State) (k : Nat) : Word := match sel? s k with
  | none => 0
  | some x =>
    let n := holdFrames (fld x.par 9 3)
    timerWord ([x.w.run, x.p.run].filterMap (fun r => r.map (fun v => n - v)))
      (x.wtr.map (fun v => wtrFrames (fld x.par 25 16) - v))

/-- PROT_GRP_STATUS of a group (R200). -/
def grpStatus (s : State) (i : Nat) : Word := match grp? s i with
  | none => 0
  | some g => w32 (grpLow g + (List.range 6).foldl (fun a n => a + 2 ^ (16 + n) * b2n (g.fop.getD n false)) 0 +
      2 ^ 22 * g.cmd + 2 ^ 25)

/-- PROT_GRP_K of a group; the transmitted bytes read 0xFF while the protection lane forces MS-AIS (R61, R200). -/
def grpK (s : State) (i : Nat) : Word := match grp? s i with
  | none => 0
  | some g =>
    let c := (frm s g.protLane).ctl
    let k := txK s g.protLane (bit c 13) ((frm s g.protLane).txRdi || bit c 14)
    w32 (k.1 + 256 * k.2 + 65536 * g.k1Used + 2 ^ 24 * g.k2Used)

/-- PROT_GRP_TIMER of a group (R200). -/
def grpTimer (s : State) (i : Nat) : Word := match grp? s i with
  | none => 0
  | some g =>
    let n := holdFrames (fld g.w7 11 5)
    timerWord (g.lanes.filterMap (fun h => h.run.map (fun v => n - v)))
      (g.wtr.map (fun v => wtrFrames (fld g.w7 25 16) - v.1))

/-- The PROT_PEEK registers are refreshed (R200). -/
def protPeek (s : State) : State :=
  let k := wordKey (rd s Reg.protPeekSel)
  wr (wr s Reg.protPeekState (selStateWord s k)) Reg.protPeekTimer (selTimer s k)

/-- The SEL_STATUS record of a selector (R199). -/
def selRecord (s : State) (k : Nat) : List Word :=
  [w32 (keyNum k + 2 ^ 17 * keyTier k), selStateWord s k, ((sel? s k).map (fun x => x.switches)).getD 0, selTimer s k]

/-- The reason for which a SEL_STATUS or MERGE_STATUS is refused (R199, R222). -/
def selStatusReason (d : Desc) : Option Nat :=
  if keyBad (d.w 6) then some 1
  else if fld (d.w 7) 17 0 = 0 ∨ 131072 < fld (d.w 7) 17 0 then some 2 else none

end Sys2Proof.Machine
end

