-- ==== Sys2Proof/Machine/Merge.lean ====
section
/-! DEFINITION. Errorless merge: configuration, alignment by markers and by correlation, changes of delay, and the choice in
each block (10_errorless_merge.md, R203 to R224). -/

namespace Sys2Proof.Machine

/-! ### Rates, delay lines and windows -/

/-- The merge of selector `k`, if it is in merge mode. -/
def merge? (s : State) (k : Nat) : Option Merge := Tab.find? s.mrg.merges k

/-- Charged rate of a copy in kb/s (R205). -/
def chargedRate (s : State) (a : Word) : Nat :=
  if 2 ≤ saTier a then 64 else contBytes s a * (if hoPoh s a then 64 else 16)

/-- 4,096-byte pages of a delay line of `ms` at `rate` kb/s (R205, R226). -/
def linePages (rate ms : Nat) : Nat := (rate * ms + 32767) / 32768

/-- Framing of a DS0 copy as a framing word has it; none for a copy without one of its own (R205). -/
def ds0Kind (s : State) (a : Word) : Nat := match saTier a with
  | 2 => pdhKind s (.term (Fin.ofNat 65536 (saNum a)))
  | 3 => pdhKind s (.port (Fin.ofNat 64 (saPort a)))
  | _ => 0

/-- Decision delay of a copy in ns (R205). -/
def decisionDelay (s : State) (a : Word) : Nat :=
  if 2 ≤ saTier a then
    (if ds0Kind s a = 2 ∨ ds0Kind s a = 3 then 1005000 else if ds0Kind s a = 5 then 3005000 else 130000)
  else if hoPoh s a then 130000 else 505000

/-- The block of a copy is a TU multiframe: VC-2, VC-12 and VC-11 (R205). -/
def blockTu (s : State) (a : Word) : Bool := saTier a == 1 && !hoPoh s a

/-- Two offsets in ns agree within the tracking window of a copy (R205). -/
def inWindow (s : State) (a : Word) (x y : Int) : Bool :=
  if 2 ≤ saTier a then decide (iabs (x - y) ≤ 125000)
  else
    let bytes := if saTier a = 0 ∧ hoTy s a ≠ 1 then 3 else 1
    decide (iabs (x - y) * contBytes s a ≤ bytes * (if hoPoh s a then 125000 else 500000))

/-- ns of one correlation window of a copy (R213). -/
def corrNs (a : Word) : Nat := if 2 ≤ saTier a then 32000000 else 2000000

/-- The merges once every MERGE_CFG that waits for its boundary has taken effect: each with its charged rate, and those still to be made with the
pages that they will hold. -/
def mergesComing (s : State) : Tab Nat × Nat :=
  s.deferred.foldl (fun r x => match x.act with
    | .merge w =>
      let k := wordKey (w.getD 0 0)
      if bit (w.getD 0 0) 31 then (Tab.drop r.1 k, r.2)
      else if (Tab.find? r.1 k).isSome then r
      else match sel? s k with
        | some y =>
          let rate := chargedRate s y.working
          (Tab.put r.1 k rate, r.2 + linePages rate (fld (w.getD 1 0) 24 16))
        | none => r
    | _ => r) (s.mrg.merges.map (fun p => (p.1, p.2.rate)), 0)

/-- The guards once every GUARD_CFG that waits has taken effect, and the pages that those still to be made will hold. -/
def guardsComing (s : State) : List Nat × Nat :=
  s.deferred.foldl (fun r x => match x.act with
    | .guard w =>
      let g := fld (w.getD 0 0) 11 0
      if bit (w.getD 0 0) 31 then (r.1.erase g, r.2)
      else if r.1.contains g then r
      else (g :: r.1, r.2 + linePages (chargedRate s (w.getD 3 0)) (fld (w.getD 2 0) 21 16))
    | _ => r) (s.sym.guards.map (fun p => p.1), 0)

/-- Pages of DELAY that merge delay lines hold (R223). -/
def mergePages (s : State) : Nat := (s.mrg.merges.map (fun p => p.2.pages)).sum + s.mrg.freeing
/-- Pages of DELAY that guard delay lines hold (R239). -/
def guardPages (s : State) : Nat := (s.sym.guards.map (fun p => p.2.pages)).sum + s.sym.freeing
/-- Free pages of DELAY (R15, R387, R388). -/
def delayFree (s : State) : Nat :=
  s.hbm.placed.getD 0 0 * 262144 - (mergePages s + guardPages s + (mergesComing s).2 + (guardsComing s).2)

/-- Total charged rate of the merges in force, in kb/s (R205, R223). -/
def mergeRate (s : State) : Nat := (s.mrg.merges.map (fun p => p.2.rate)).sum

/-! ### States and events -/

/-- Event source of a merge (R224). -/
def mergeSource (k : Nat) : Nat :=
  0x500 + keyNum k / (if keyTier k = 0 then 96 else if keyTier k = 1 then 1024 else 128)

/-- Data word 0 of a merge event (R224). -/
def mergeWord (k cause : Nat) : Word := w32 (cause + 256 * keyTier k + 1024 * keyNum k)

/-- A copy is pinned: LOCKOUT, FS or FS_W is in force (R219). -/
def pinned (s : State) (k : Nat) : Bool := match sel? s k with
  | some y => y.req == 11 || y.req == 9
  | none => false

/-- MRG_PEEK_STATE of selector `k` (R223). -/
def mergeState (s : State) (k : Nat) : Word := match merge? s k with
  | none => 0x80000000
  | some x => w32 (x.st + 4 * x.cause + 64 * b2n (x.ref && x.st != 0) + 128 * b2n x.verW + 256 * b2n x.verP +
      512 * b2n x.choice + 1024 * b2n (pinned s k) + 2048 * b2n x.corr + 4096 * b2n x.stepHold)

/-- MRG_PEEK_DIFF of selector `k`: the held offset in units of 8 ns (R223). -/
def mergeDiff (s : State) (k : Nat) : Word := match merge? s k with
  | none => 0
  | some x => if x.st = 0 then 0 else w32 ((x.held / 8).toNat + 2 ^ 26)

/-- The merge of selector `k` is `x`; a change of STATE or CAUSE raises STATE (R224). -/
def setMerge (s : State) (k : Nat) (x : Merge) : State :=
  let old := merge? s k
  let s := { s with mrg := { s.mrg with merges := Tab.put s.mrg.merges k x } }
  match old with
  | some o =>
    if o.st = x.st ∧ o.cause = x.cause then s else raise s (mergeSource k) (mergeWord k 1) (mergeState s k &&& 0x1FFF)
  | none => s

/-- A step of the output timing by `n` ns, later if positive (R209, R222, R224). -/
def timingStep (s : State) (k : Nat) (n : Int) : State := match merge? s k with
  | none => s
  | some x => raise (setMerge s k { x with steps := x.steps + 1, lastStep := n }) (mergeSource k) (mergeWord k 2) (i32 n)

/-- The held offset as the protection copy's arrival after the working copy's (R208). -/
def Merge.signed (x : Merge) : Int := if x.ref then x.held else -x.held

/-- A copy is verified (R216). -/
def Merge.ver (x : Merge) (c : Bool) : Bool := if c then x.verP else x.verW

/-- A copy is verified again after two confirmations, the stored copy once its clean history covers the offset, and no copy while an offset is
pending for it (R216, R217). -/
def Merge.verify (x : Merge) : Merge :=
  if x.st = 0 then x
  else
    let covers := fun (c : Bool) => x.pend.map (fun p => p.1) != some c && (c == x.ref || decide (x.held ≤ x.hist))
    { x with
      verW := x.verW || (decide (2 ≤ x.confW) && covers false)
      verP := x.verP || (decide (2 ≤ x.confP) && covers true) }

/-- Both copies confirm the held offset `n` more times (R216). -/
def Merge.confirm (x : Merge) (n : Nat) : Merge :=
  ({ x with confW := min 2 (x.confW + n), confP := min 2 (x.confP + n) } : Merge).verify

/-- A pair outside the tracking window breaks the confirmations of a copy that is not verified (R216). -/
def Merge.unconfirm (x : Merge) : Merge :=
  { x with confW := if x.verW then x.confW else 0, confP := if x.verP then x.confP else 0 }

/-! ### Changes of differential delay -/

/-- Cause of HOLD when copy `c` arrives `n` ns later than before (R217). -/
def Merge.holdCause (x : Merge) (c : Bool) (n : Int) : Nat :=
  let lim : Int := (x.maxMs * 1000000 : Nat) - (if x.cause = 2 then 125000 else 0)
  if c != x.ref then
    if n ≤ x.held then (if lim < x.held - n then 2 else 0) else if n - x.held ≤ lim then 3 else 2
  else if 0 < n then (if x.held + n ≤ lim then 4 else 2)
  else if -n ≤ x.held then 5
  else if -n - x.held ≤ lim then 3 else 2

/-- Copy `c` has confirmed that it arrives `n` ns later than the held offset says: HOLD, that copy not usable. The delay line of a stored
copy that was pending already goes on (R217). -/
def enterHold (s : State) (k : Nat) (c : Bool) (n : Int) : State := match merge? s k with
  | none => s
  | some x =>
    let y := { x with st := 2, cause := x.holdCause c n, pend := some (c, n), bad := 0, hist2 := 0 }
    let y := if c then { y with verP := false, confP := 0 } else { y with verW := false, confW := 0 }
    setMerge s k (if c != x.ref ∧ x.pend.map (fun p => p.1) ≠ some c then { y with hist := 0 } else y)

/-- The pending offset is taken where R217 and the history admit it: the merge with it, and the step, 0 for none. -/
def Merge.take (x : Merge) : Option (Merge × Int) := match x.pend with
  | none => none
  | some (c, n) =>
    let done := fun (y : Merge) => ({ y with st := 1, cause := 0, pend := none, bad := 0, track := 0 } : Merge)
    let up := fun (y : Merge) => (if c then { y with confP := 2 } else { y with confW := 2 } : Merge).verify
    if x.cause = 0 then
      if x.held - n ≤ x.hist then some (up (done { x with held := x.held - n }), 0) else none
    else if x.stepHold then none
    else if x.cause = 3 then
      let new : Int := if c != x.ref then n - x.held else -n - x.held
      if new ≤ x.hist2 then
        some (up (done { x with ref := !x.ref, held := new, hist := x.hist2 }), if c != x.ref then new else -x.held)
      else none
    else if x.cause = 4 then
      if x.held + n ≤ x.hist then some (up (done { x with held := x.held + n }), n) else none
    else if x.cause = 5 then some (up (done { x with held := x.held + n }), n)
    else none

/-! ### Alignment -/

/-- The output timing is set on leaving ACQUIRING at offset `o`: the copy that came first, or that the phase has stored, is the stored copy
(R207 to R209, R211, R213, R216). -/
def enterAligned (s : State) (k : Nat) (y : Sel) (x : Merge) (o : Int) : State :=
  let ref := if x.corr then !x.phaseP else decide (0 ≤ o)
  let x := { x with
    st := 1, cause := 0, ref := ref, held := (iabs o : Nat), verW := true, verP := true, confW := 2, confP := 2
    cand := none, delta := none, bad := 0, track := 0, pend := none, choice := y.prot }
  let step : Int := (decisionDelay s y.working : Nat) + (if y.prot = ref then 0 else (iabs o : Nat))
  timingStep (setMerge s k x) k step

/-- MERGE_ALIGN_REACHED: the delay line of a merge covers its confirmed offset, or its pending one, at a block boundary (R207 to
R209, R211, R217). -/
def execMergeAlignReached (key : Nat) (s : State) : Out :=
  .next (match merge? s key, sel? s key with
    | some x, some y =>
      if x.st = 0 then
        match x.delta with
        | some o => if iabs o ≤ x.hist then enterAligned s key y x o else s
        | none => s
      else if x.st = 2 then
        match x.take with
        | some (x, n) => let s := setMerge s key x; if n = 0 then s else timingStep s key n
        | none => s
      else s
    | _, _ => s)

/-- How far marker `b` deviates from the pace of marker `a` on one copy, `p` ns and `m` values being the group's period and
modulus (R212, R227). -/
def markerDrift (p m : Nat) (a : Option (Nat × Nat)) (b : Nat × Nat) : Nat := match a with
  | none => 0
  | some a =>
    let d := sgn 16 ((b.1 + m - a.1 % m) % m * (65536 / m)) / ((65536 / m : Nat) : Int)
    iabs ((b.2 : Int) - (a.2 : Int) - d * (p : Int))

/-- A pair of markers of value `m`, `tw` on the working and `tp` on the protection copy: acquisition, tracking, or a change of
delay (R211, R212, R216, R217). -/
def markerPair (s : State) (k : Nat) (y : Sel) (x : Merge) (m tw tp : Nat) : State :=
  let o : Int := (tp : Int) - (tw : Int)
  let a := y.working
  if x.st = 0 then
    if x.maxMs * 1000000 - 125000 < iabs o then setMerge s k { x with cause := 2 }
    else match x.cand with
      | none => setMerge s k { x with cand := some o, hist := 0, cause := 0 }
      | some c =>
        if inWindow s a c o then
          setMerge s k { x with cand := some o, delta := some o, cause := 0, okW := some (m, tw), okP := some (m, tp) }
        else setMerge s k { x with
          cand := some o, delta := none, cause := 7, hist := if decide (0 ≤ o) = decide (0 ≤ c) then x.hist else 0 }
  else
    let h := x.signed
    let later := fun (c : Bool) => if c then o - h else h - o
    if inWindow s a h o then
      let x := { x with track := o - h, bad := 0, okW := some (m, tw), okP := some (m, tp), pend := none, st := 1, cause := 0 }
      setMerge s k (x.confirm 1)
    else if (match x.pend with
        | some (c, n) => inWindow s a n (later c)
        | none => false) then setMerge s k { x with bad := 0 }
    else if x.bad = 0 then setMerge s k { x.unconfirm with bad := 1 }
    else
      let x := x.unconfirm
      let p := if hoPoh s a then 500000 else 4000000
      let q := if hoPoh s a then 65536 else 32768
      let c := decide (markerDrift p q x.okW (m, tw) ≤ markerDrift p q x.okP (m, tp))
      enterHold s k c (later c)

/-- The marker channels of both copies are locked (R90, R211). -/
def mergeLocked (s : State) (y : Sel) : Bool :=
  (path s (mspResolve s y.working)).mkLock && (path s (mspResolve s y.protect)).mkLock

/-- ns for which the markers of a merge are kept: MAX_DELAY in acquisition; outside it at least 1 s, so that pairs show an offset above
MAX_DELAY (R211, R217; DESIGN CHOICE, log entry 103). -/
def Merge.keep (x : Merge) : Nat := if x.st = 0 then x.maxMs * 1000000 else 1000000000

/-- A marker delivered on copy `c` of the merge of selector `k` is recorded and paired; acquisition pairs only while both channels are locked, and
a value that has then found no partner is dropped with cause OVER_RANGE (R211). -/
def mergeMarker (s : State) (k : Nat) (c : Bool) (m t : Nat) : State := match merge? s k, sel? s k with
  | some x, some y =>
    if x.corr then s
    else
      let young := fun (r : Nat × Nat) => decide (t ≤ r.2 + x.keep)
      let lost := !(x.recW.all young && x.recP.all young) && x.st == 0 && mergeLocked s y
      let x := if lost then { x with cause := 2 } else x
      let s := if lost then setMerge s k x else s
      let x := { x with recW := x.recW.filter young, recP := x.recP.filter young }
      let own := if c then x.recP else x.recW
      let other := if c then x.recW else x.recP
      match (if x.st = 0 && !mergeLocked s y then none else other.find? (fun r => r.1 == m)) with
      | some r =>
        let rest := other.filter (fun q => q.1 != m)
        markerPair s k y (if c then { x with recW := rest } else { x with recP := rest }) m
          (if c then r.2 else t) (if c then t else r.2)
      | none =>
        let l := (m, t) :: own
        setMerge s k (if c then { x with recP := l } else { x with recW := l })
  | _, _ => s

/-- A marker delivered on the path at `a` reaches every merge one of whose copies reads it (R90, R173, R211). -/
def mergeMarkers (s : State) (a : Word) (m t : Nat) : State :=
  (s.mrg.merges.map (fun p => p.1)).foldl (fun s k => match sel? s k with
    | some y =>
      let s := if mspResolve s y.working == a then mergeMarker s k false m t else s
      if mspResolve s y.protect == a then mergeMarker s k true m t else s
    | none => s) s

/-- Blocks of one window of copy `a`: 16 frames of a container, 256 frames of a slot (R213). -/
def winBlocks (s : State) (a : Word) : Nat := if 2 ≤ saTier a then 256 else if blockTu s a then 4 else 16

/-- The bytes of a delay line's blocks, given newest first: oldest first, all ones where its source showed them. -/
def lineBytes' (l : List LineBlk) : List Byte :=
  l.reverse.flatMap (fun b => if b.ones then List.replicate b.data.length 0xFF else b.data)

/-- The compared bytes of the window of copy `a` that ends with the newest block of `l`, each with its place: payload of its containers, or the
slot's bytes (R213). -/
def winBytes (s : State) (a : Word) (l : List LineBlk) : List (Nat × Byte) :=
  let w := lineBytes' (l.take (winBlocks s a))
  ((List.range w.length).filter (fun i => decide (2 ≤ saTier a) || isPayload s a (i % contBytes s a))).map (fun i => (i, w.getD i 0))

/-- A window is flat: all its compared bytes hold one value (R214). -/
def winFlat (l : List (Nat × Byte)) : Bool := match l with
  | [] => true
  | b :: r => r.all (fun c => c.2 == b.2)

/-- A window matches at `k` bytes into the other copy's line: at most 1 in 1,000 compared bytes differ (R213). -/
def winMatch (w : List (Nat × Byte)) (line : List Byte) (k : Nat) : Bool :=
  decide (1000 * (w.filter (fun p => line.getD (k + p.1) 0 != p.2)).length ≤ w.length)

/-- ns of `k` bytes of a copy's container stream, or of `k` frames of a DS0 copy (R208). -/
def bytesNs (s : State) (a : Word) (k : Nat) : Nat :=
  if 2 ≤ saTier a then k * 125000 else k * (if hoPoh s a then 125000 else 500000) / contBytes s a

/-- Bytes of a copy's container stream, or frames of a DS0 copy, that arrive in `n` ns. -/
def nsBytes (s : State) (a : Word) (n : Nat) : Nat :=
  if 2 ≤ saTier a then n / 125000 else n * contBytes s a / (if hoPoh s a then 125000 else 500000)

/-- Bytes of its frame or multiframe that come before the newest container of a delay line (R208). -/
def lineHead (s : State) (a : Word) (l : List LineBlk) : Int := (unitBytes s a * (l.headD {}).pos : Nat)

/-- The offsets in ns, up to `reach`, by which the other copy is ahead where the newest window `own` of one copy matches its line: the same bytes
arrived that much earlier there (R208, R213). -/
def winOffsets (s : State) (a : Word) (own other : List LineBlk) (reach : Nat) : List Nat :=
  let w := winBytes s a own
  let line := lineBytes' other
  let len := (lineBytes' (own.take (winBlocks s a))).length
  let shift := lineHead s a own - lineHead s a other
  ((List.range (nsBytes s a reach + 1)).filter (fun (d : Nat) =>
    let k : Int := (d : Int) - shift
    decide (0 ≤ k ∧ k + len ≤ line.length) && winMatch w line (line.length - len - k.toNat))).map (bytesNs s a)

/-- The delay line of copy `c` (R208). -/
def Merge.line (x : Merge) (c : Bool) : List LineBlk := if c then x.lineP else x.lineW

/-- A window during acquisition, of the copy that the phase does not store: candidates, confirmation, and the end of a phase, which is compared with
the history written since the phase began. A flat window is no candidate; identical idle content shows AMBIGUOUS all the same (R213, R214).
DEDUCED (log entry 137): a phase ends after MAX_DELAY and two windows, with a candidate that is not confirmed as without one. -/
def windowAcquire (s : State) (k : Nat) (y : Sel) (x : Merge) : State :=
  let a := y.working
  let n := x.phaseWin + 1
  let len := (x.maxMs * 1000000 + corrNs a - 1) / corrNs a + 2
  let next := fun (x : Merge) =>
    if x.delta.isNone ∧ len ≤ n then { x with phaseP := !x.phaseP, phaseWin := 0, cand := none, hist := 0 } else { x with phaseWin := n }
  let reach := min (x.maxMs * 1000000) (x.hist - corrNs a)
  let offs : List Int := (winOffsets s a (x.line (!x.phaseP)) (x.line x.phaseP) reach).map (fun o => if x.phaseP then -(o : Int) else (o : Int))
  match offs with
  | [] => setMerge s k (next x)
  | [o] =>
    if winFlat (winBytes s a (x.line (!x.phaseP))) then setMerge s k (next x)
    else match x.cand with
      | some c =>
        if inWindow s a c o then setMerge s k { x with cand := some o, delta := some o, cause := 0, phaseWin := n }
        else setMerge s k (next { x with cand := some o, cause := 0 })
      | none => setMerge s k (next { x with cand := some o, cause := 0 })
  | _ => setMerge s k (next { x with cause := 6 })

/-- The offsets, as ns by which the protection copy arrives after the working copy, at which the newest windows match: of the reference copy in the
stored copy's line, and of the stored copy in the reference copy's, which it then has overtaken (R215, R217). -/
def trackOffsets (s : State) (y : Sel) (x : Merge) : List Int :=
  let a := y.working
  let reach := x.maxMs * 1000000 + corrNs a
  let sign := fun (o : Int) => if x.ref then o else -o
  (winOffsets s a (x.line x.ref) (x.line (!x.ref)) reach).map (fun o => sign (o : Int)) ++
    ((winOffsets s a (x.line (!x.ref)) (x.line x.ref) reach).filter (· != 0)).map (fun o => sign (-(o : Int)))

/-- A window of the reference copy outside acquisition: a match at the held offset, or else at a neighbouring one, which is followed; a change of
delay is ascribed to the copy that last had SF or an accepted NDF_ENABLE and otherwise to the stored copy (R215 to R217). -/
def windowTrack (s : State) (k : Nat) (y : Sel) (x : Merge) : State :=
  let a := y.working
  let h := x.signed
  let offs := trackOffsets s y x
  let here := fun (o : Int) => decide (iabs (o - h) * 2 < max 1 (bytesNs s a 1))
  if winFlat (winBytes s a (x.line x.ref)) then setMerge s k { x with flat := true }
  else match (offs.find? here).or (offs.find? (inWindow s a h)) with
    | some o =>
      let x := { x with track := if here o then 0 else o - h, bad := 0, flat := x.flat && !here o, pend := none, st := 1, cause := 0 }
      setMerge s k (x.confirm 2)
    | none =>
      let c := x.lastHit.getD (!x.ref)
      match offs, x.pend with
      | [o], some (p, n) =>
        if inWindow s a n (if p then o - h else h - o) then setMerge s k { x with bad := 0 }
        else if x.bad = 0 then setMerge s k { x with bad := 1 }
        else enterHold s k c (if c then o - h else h - o)
      | [o], none =>
        if x.bad = 0 then setMerge s k { x with bad := 1 } else enterHold s k c (if c then o - h else h - o)
      | _, _ =>
        if x.bad = 0 then setMerge s k { x with bad := 1 }
        else setMerge s k ({ x with st := 2, cause := if 2 ≤ offs.length then 6 else x.cause }.unverify c)

/-- MERGE_WINDOW_END: the running comparison window of a merge by correlation ends, once its blocks have come; it is of the copy that is not stored
in acquisition and of the reference copy after it (R213 to R217). -/
def execMergeWindowEnd (key : Nat) (s : State) : Out :=
  .next (match merge? s key, sel? s key with
    | some x, some y =>
      if !x.corr || decide (x.winRun < winBlocks s y.working) then s
      else
        let x := { x with winRun := 0 }
        if x.st = 0 then windowAcquire s key y x else windowTrack s key y x
    | _, _ => s)

/-! ### Delay lines -/


/-- The container of source `src` in the period that ends, with its position (R80, R208). -/
def sourceBlock (s : State) (src : Word) : LineBlk :=
  let r := mspResolve s src
  let p := path s r
  { pace := r, pos := p.outPtr, ndf := p.outNdf, ones := sourceOnes s src r, data := fitBytes (contBytes s r) p.data }

/-- The containers of source `src` in the period that ends and in the one before. -/
def sourceBlocks (s : State) (src : Word) : List LineBlk :=
  let b := sourceBlock s src
  [b, { b with data := fitBytes (contBytes s b.pace) (path s b.pace).prev }]

/-- The block of a merge's copy at `a` in the period that ends: its container, or the byte of its slot (R205). -/
def copyBlock (s : State) (a : Word) : LineBlk :=
  if 2 ≤ saTier a then { pace := a, ones := false, data := [ds0Source s a] } else sourceBlock s a

/-- ns of one block of a copy (R205). -/
def blockNs (s : State) (a : Word) : Nat := if blockTu s a then 500000 else 125000

/-- Containers by which the copy at `b` is ahead of that at `a`, before which it arrives by `n` ns: that distance less that of their
positions, to the nearest container (R208). -/
def aheadBy (s : State) (a b : Word) (n : Nat) : Nat :=
  let c : Nat := contBytes s a
  let d : Int := ((n * c / blockNs s a + unitBytes s b * (path s b).outPtr : Nat) : Int) - ((unitBytes s a * (path s a).outPtr : Nat) : Int)
  ((2 * d + (c : Int)) / ((2 * c : Nat) : Int)).toNat

/-- Blocks between the receipt of a block of copy `c` and the moment it leaves: the decision delay that its check takes, and for the
stored copy the held offset (R205, R208, R218). -/
def blocksBack (s : State) (y : Sel) (x : Merge) (c : Bool) : Nat :=
  let a := y.working
  let held := if c = x.ref then 0 else x.held.toNat
  if 2 ≤ saTier a then (decisionDelay s a + held) / 125000
  else decisionDelay s a / blockNs s a +
    (if c = x.ref then 0 else aheadBy s (mspResolve s (y.copy x.ref)) (mspResolve s (y.copy c)) held)

/-- The bytes `l`, which begin `off` bytes into a frame or multiframe, with ones in the ranges `r` of it (R140). -/
def onesIn (l : List Byte) (off : Int) (r : List (Nat × Nat)) : List Byte :=
  (List.range l.length).map (fun (i : Nat) =>
    if r.any (fun p => decide ((p.1 : Int) ≤ off + i ∧ off + i < p.2)) then 0xFF else l.getD i 0)

/-- A block of the copy at `a` joins its delay line, which holds `n`: what could not be recovered of its frame or multiframe is ones in it and in
the container before it, and marks it (R140, R205, R208, R218). -/
def holdBlock (s : State) (a : Word) (n : Nat) (lost : List (Nat × Nat)) (l : List LineBlk) : List LineBlk :=
  let b := copyBlock s a
  if lost.isEmpty then (b :: l).take n
  else
    let up : Int := if 2 ≤ saTier a then 0 else (unitBytes s b.pace * b.pos : Nat)
    ({ b with bad := true, data := onesIn b.data up lost } ::
      l.mapIdx (fun i q => if i = 0 then { q with data := onesIn q.data (up - (q.data.length : Int)) lost } else q)).take n

/-- A block ends for the delay line of a merge: that of each copy is held for MAX_DELAY and the decision delay, and for two comparison windows
(R205, R208, R213). -/
def holdBlocks (s : State) (y : Sel) (x : Merge) : Merge :=
  let a := y.working
  let n := (x.maxMs * 1000000 + decisionDelay s a) / blockNs s a + 3 + (if x.corr then 2 * winBlocks s a else 0)
  { x with
    lineW := holdBlock s a n x.lostW x.lineW, lineP := holdBlock s y.protect n x.lostP x.lineP, lostW := [], lostP := []
    winRun := min (winBlocks s a) (x.winRun + 1) }

/-- What selector `k` gives at merged timing, newest first: the chosen copy's block and the one before it, at the pace of the reference copy;
none outside merged timing (R207, R208, R219). -/
def mergedBlocks (s : State) (k : Nat) : Option (List LineBlk) := match merge? s k, sel? s k with
  | some x, some y =>
    if x.st = 0 then none
    else
      let r := mspResolve s (y.copy x.ref)
      let p := path s r
      some (((x.line x.choice).drop (blocksBack s y x x.choice)).take 2 |>.map (fun b =>
        { b with pace := r, pos := p.outPtr, ndf := p.outNdf }))
  | _, _ => none

/-- What selector `k` gives, newest first (R173, R186, R207). -/
def selBlocks (s : State) (k : Nat) : List LineBlk := match mergedBlocks s k with
  | some l => l
  | none => match selCarries s k with
    | some a => sourceBlocks s a
    | none => []

/-- TX (R225). -/
def Guard.tx (x : Guard) : Word := x.w 9

/-- A period ends for the delay line of a guard: what its slot or selector gives is held for C_MAX (R225, R226). -/
def guardHold (s : State) (x : Guard) : Guard :=
  let l := if bit (x.w 8) 0 then selBlocks s (selKey (fld (x.w 8) 2 1) (fld (x.w 7) 16 0)) else sourceBlocks s (x.w 7)
  { x with
    stepped := x.stepped - 1
    line := (l.take 1 ++ x.line).take (fld (x.w 8) 21 16 * 1000000 / (if hoPoh s x.tx then 125000 else 500000) + 3) }

/-- The delay lines of the guards on paths whose period is a frame, or a TU multiframe where `tu` says so, pass a period (R234). -/
def guardsHold (s : State) (tu : Bool) : State :=
  { s with sym := { s.sym with guards := s.sym.guards.map (fun p => (p.1, if hoPoh s p.2.tx == tu then p.2 else guardHold s p.2)) } }

/-- The guard on the slot or the selector that output `o` names, whose delay line it reads, with its number (R225). -/
def outGuard (s : State) (o : Word) : Option (Nat × Guard) :=
  let e := entryOf s o
  List.find? (fun (p : Nat × Guard) =>
    if bit (p.2.w 8) 0 then
      e.kind == 2 && selKey (fld (p.2.w 8) 2 1) (fld (p.2.w 7) 16 0) == selKey (min 2 (saTier o)) (fld e.src 16 0)
    else e.kind == 1 && e.src == p.2.w 7) s.sym.guards

/-- What output `o` of a container reads from its source: the container that begins in the period which ends, at its position, and the
container before it; the delay line of a guard moves both (R173, R208, R225, R234). -/
def outBlocks (s : State) (o : Word) : Option (LineBlk × List Byte) :=
  let e := entryOf s o
  let now := if e.kind = 1 then sourceBlocks s e.src
    else if e.kind = 2 then selBlocks s (selKey (min 2 (saTier o)) (fld e.src 16 0)) else []
  let read := fun (l : List LineBlk) (c : Nat) =>
    let i := delayedAt (contBytes s o) (unitBytes s o) c l 0
    (l[i.1]?).map (fun b => ({ b with pos := i.2 }, (l.getD (i.1 + 1) {}).data))
  match outGuard s o with
  | some g => ((read g.2.line g.2.cIn).map (fun b => ({ b.1 with ndf := b.1.ndf || g.2.stepped == 1 }, b.2))).or (now.head?.map (fun b => ({ b with ones := true }, [])))
  | none => read now 0

/-- The byte of DS0-level output `o` whose source is `a`: at merged timing that of the chosen copy's line (R208, R219). -/
def outByte (s : State) (o a : Word) : Byte :=
  let e := entryOf s o
  match (if e.kind = 2 then mergedBlocks s (selKey (min 2 (saTier o)) (fld e.src 16 0)) else none) with
  | some l => ((l.headD {}).data).headD 0xFF
  | none => ds0Source s a

/-! ### The choice in each block -/

/-- Errors that the checks of a copy's own content show for the block read `n` blocks ago, which the slip buffer had held as well: BIP, which the next container brings, framing
bits and CRC blocks, or a packet played as missing or with L = 1 (R218). -/
def copyErrored (s : State) (a : Word) (n : Nat) : Bool := match saTier a with
  | 0 => (path s a).ebs.getD (n - 1) false
  | 1 => (path s a).ebs.getD (n - 1) false
  | 2 => let x := Tab.get s.termFr (saNum a) {}
         x.fails.getD (n + x.rxBuf.length) false
  | 3 => let x := Tab.get s.ports (saPort a) {}
         x.fails.getD (n + x.rxBuf.length) false
  | 5 => match pw? s (saNum a) with
    | some p => p.fails.getD n (!p.playOk)
    | none => true
  | _ => false

/-- A copy is usable in a block (R218). -/
def Merge.usable (x : Merge) (c : Bool) : Bool := x.ver c && !(match x.pend with
  | some (p, _) => p == c
  | none => false)

/-- SF is present on a copy, whether or not hold-off has ended (R218). -/
def Sel.sfOn (y : Sel) (c : Bool) : Bool := if c then y.p.sf else y.w.sf

/-- A copy passes the block that ends; with rail 4 lost every block of the stored copy fails (R218, R390, R420). -/
def copyPasses (s : State) (y : Sel) (x : Merge) (c : Bool) : Bool :=
  let n := blocksBack s y x c
  x.usable c && !y.sfOn c && !copyErrored s (mspResolve s (y.copy c)) n && !((x.line c).getD n {}).bad &&
    !(if c then x.badP else x.badW) && (s.hbm.rail4 || c == x.ref || x.held == 0)

/-- The copy chosen for a block (R215, R219). -/
def chooseCopy (s : State) (k : Nat) (y : Sel) (x : Merge) : Bool :=
  let pref := y.prot
  let ok := copyPasses s y x
  if pinned s k then pref
  else if x.flat && ok x.ref then x.ref
  else if ok pref then pref
  else if ok (!pref) then !pref
  else if x.usable pref && !y.sfOn pref then pref
  else if x.usable (!pref) && !y.sfOn (!pref) then !pref
  else pref

/-- MERGE_BLOCK_CHOICE: a block of the merge of selector `k` ends, and the tracked movement of the held offset is taken (R212, R219,
R222, R224). -/
def mergeBlock (s : State) (k : Nat) : State := match merge? s k, sel? s k with
  | some x, some y =>
    let x := holdBlocks s y x
    if x.st = 0 then setMerge s k { x with choice := y.prot, badW := false, badP := false }
    else
      let c := chooseCopy s k y x
      let none' := !copyPasses s y x false && !copyPasses s y x true
      let held : Int := if x.ref then x.held + x.track else x.held - x.track
      let x := { x with
        choice := c, badW := false, badP := false, held := if held < 0 then 0 else held, track := 0
        alt := if c = y.prot then x.alt else x.alt + 1
        both := if none' then x.both + 1 else x.both }
      let s := setMerge s k x
      if none' then raiseOnce s (mergeSource k) 3 k (mergeWord k 3) x.both else s
  | _, _ => s

/-- One frame of the merge of selector `k`: SF, marks of unrecovered blocks, the delay line's history, marker locks and verification
(R211, R216, R218). -/
def mergeFrame (s : State) (k : Nat) : State := match merge? s k, sel? s k with
  | some x, some y =>
    let x := if y.w.sf then x.hit false else x
    let x := if y.p.sf then x.hit true else x
    let lost : Bool → List (Nat × Nat) := fun c =>
      let a := mspResolve s (y.copy c)
      let n := if 2 ≤ saTier a then 1 else if blockTu s a then contBytes s a / 4 else contBytes s a
      let at' := if blockTu s a then s.glb.frame % 4 * n else 0
      (s.fab.marked.filter (fun p => p.1 == a)).map (fun p => if 2 ≤ saTier a then (0, 1) else (at' + p.2, at' + n))
    let stored := match (if x.corr then none else x.cand) with
      | some o => if x.st = 0 then decide (o < 0) else !x.ref
      | none => if x.st = 0 then x.phaseP else !x.ref
    let most := x.maxMs * 1000000 + (if x.corr then 2 * corrNs y.working else 0)
    let grow := fun (n : Nat) (c : Bool) => if y.sfOn c then 0 else min most (n + 125000)
    let x : Merge := { x with
      lostW := x.lostW ++ lost false, lostP := x.lostP ++ lost true
      hist := if x.st = 0 ∧ x.cand.isNone ∧ !x.corr then 0 else grow x.hist stored
      hist2 := if x.cause = 3 ∧ !x.stepHold then grow x.hist2 x.ref else 0 }
    let x := if x.st ≠ 0 ∨ x.corr then x
      else if !mergeLocked s y then { x with cause := 1, cand := none, delta := none }
      else if x.cause = 1 then { x with cause := 0 } else x
    setMerge s k x.verify
  | _, _ => s

/-- Every merge at a fabric frame boundary; those whose block is a frame choose (R219). -/
def mergesFrame (s : State) : State :=
  let s := { s with mrg := { s.mrg with freeing := 0 } }
  (s.mrg.merges.map (fun p => p.1)).foldl (fun s k =>
    let s := mergeFrame s k
    match sel? s k with
    | some y => if blockTu s y.working then s else mergeBlock s k
    | none => s) s

/-- Every merge whose block is a TU multiframe chooses at its boundary (R219). -/
def mergesMultiframe (s : State) : State :=
  (s.mrg.merges.map (fun p => p.1)).foldl (fun s k => match sel? s k with
    | some y => if blockTu s y.working then mergeBlock s k else s
    | none => s) s

/-! ### MERGE_CFG -/

/-- The slot of a copy lies in a path with MON = 0, or with MARK_RX = 0 while markers align (R204 reason 3). -/
def mergePathBad (s : State) (a : Word) (corr : Bool) : Bool :=
  decide (saTier a ≤ 1) && (!bit (pathCfg s a).w7 3 || (!corr && !bit (pathCfg s a).w7 10))

/-- The reason for which a MERGE_CFG fails, with result word 1 (R204). -/
def mergeReason (s : State) (d : Desc) : Option (Nat × Nat) :=
  let w := d.w 6
  let v := d.w 7
  let k := wordKey w
  if keyBad w then some (1, 0)
  else match sel? s k with
    | none => some (1, 0)
    | some y =>
      if bit w 31 then
        if v ≠ 0 then some (2, 0) else if (merge? s k).isNone then some (5, 0) else none
      else if fld v 24 16 = 0 ∨ 400 < fld v 24 16 ∨ (!bit v 0 ∧ keyTier k = 2) then some (2, 0)
      else if mergePathBad s y.working (bit v 0) ∨ mergePathBad s y.protect (bit v 0) then some (3, 0)
      else match merge? s k with
        | some x => if x.corr ≠ bit v 0 ∨ x.maxMs ≠ fld v 24 16 then some (5, 0) else none
        | none =>
          let need := linePages (chargedRate s y.working) (fld v 24 16)
          if 640000000 < ((mergesComing s).1.map (fun p => p.2)).sum + chargedRate s y.working then some (4, 0)
          else if delayFree s < need then some (6, (need - delayFree s) * 4096)
          else none

/-- The step of the output timing at a move to OFF: back to the selected copy's own timing (R206, R209). -/
def offStep (s : State) (y : Sel) (x : Merge) : Int :=
  -((decisionDelay s y.working : Nat) : Int) - (if y.prot = x.ref then 0 else x.held) + (match x.pend with
    | some (c, n) => if c = y.prot then n else 0
    | none => 0)

/-- A MERGE_CFG takes effect: merge mode begins in ACQUIRING with its delay line, STEP_MODE changes, or merge mode ends and its line
is freed at the next frame boundary (R204 to R207, R209). -/
def applyMerge (s : State) (w : List Word) (d : Nat) : State :=
  let k := wordKey (w.getD 0 0)
  let v := w.getD 1 0
  match sel? s k, merge? s k with
  | some y, none =>
    if bit (w.getD 0 0) 31 then completeOk s d 0 0
    else
      let rate := chargedRate s y.working
      let pages := linePages rate (fld v 24 16)
      let x : Merge := {
        corr := bit v 0, stepHold := bit v 1, maxMs := fld v 24 16, pages := pages, rate := rate, choice := y.prot }
      completeOk (mergeFrame (setMerge s k x) k) d (w32 (pages * 4096)) 0
  | some y, some x =>
    if bit (w.getD 0 0) 31 then
      let s := if x.st = 0 then s else raise s (mergeSource k) (mergeWord k 2) (i32 (offStep s y x))
      let s := { s with mrg := { s.mrg with merges := Tab.drop s.mrg.merges k, freeing := s.mrg.freeing + x.pages } }
      completeOk s d (w32 (x.pages * 4096)) 0
    else completeOk (setMerge s k { x with stepHold := bit v 1 }) d 0 0
  | none, _ => completeOk s d 0 0

/-- A MERGE_CFG is checked and waits for the boundary of its selector's switching period (R188, R206). -/
def mergeCfg (d : Nat) (off : Bool) (s : State) : State := match takeDesc s d 0x38 with
  | none => s
  | some x =>
    if bit (x.w 6) 31 != off then s
    else match mergeReason s x with
      | some (r, n) => complete s d 3 (w32 r) (w32 n)
      | none =>
        let k := wordKey (x.w 6)
        defer s d (keyTier k == 1) (.merge (cfgWords x))

/-- MERGE_CFG with OFF = 0 (R203, R204). -/
def execMergeCfg (d : Nat) (s : State) : Out := .next (mergeCfg d false s)

/-- MERGE_CFG with OFF = 1 (R203, R204, R206). -/
def execMergeOff (d : Nat) (s : State) : Out := .next (mergeCfg d true s)

/-! ### Status -/

/-- The MRG_PEEK registers are refreshed (R223). -/
def mrgPeek (s : State) : State :=
  let k := wordKey (rd s Reg.mrgPeekSel)
  let n := fun (f : Merge → Word) => ((merge? s k).map f).getD 0
  wr (wr (wr (wr s Reg.mrgPeekState (mergeState s k)) Reg.mrgPeekDiff (mergeDiff s k)) Reg.mrgPeekAlt (n Merge.alt))
    Reg.mrgPeekBoth (n Merge.both)

/-- The MRG_PEEK registers are refreshed at the block boundaries of their selector, a TU multiframe boundary where `tu` says so (R223). -/
def mrgPeekAt (s : State) (tu : Bool) : State :=
  match sel? s (wordKey (rd s Reg.mrgPeekSel)) with
  | some y => if blockTu s y.working == tu then mrgPeek s else s
  | none => if tu then s else mrgPeek s

/-- The MERGE_STATUS record of a selector in merge mode (R222). -/
def mergeRecord (s : State) (k : Nat) : List Word := match merge? s k with
  | none => []
  | some x => [w32 (keyNum k + 2 ^ 17 * keyTier k), mergeState s k, mergeDiff s k, x.alt, x.both, x.steps, i32 x.lastStep, 0]

end Sys2Proof.Machine
end

