-- ==== Sys2Proof/Machine/Guard.lean ====
section
/-! DEFINITION. The symmetry guard: guarded connections, marker stamps, Leiv probes, steps and compensation
(11_delay_symmetry.md, R225 to R240), and the reception of marker channel units (R90). -/

namespace Sys2Proof.Machine

/-! ### Guards -/

/-- Guard `g`, if configured. -/
def guard? (s : State) (g : Nat) : Option Guard := Tab.find? s.sym.guards g
/-- Guard `g` is `x`. -/
def setGuard (s : State) (g : Nat) (x : Guard) : State := { s with sym := { s.sym with guards := Tab.put s.sym.guards g x } }
/-- COMP (R225). -/
def Guard.comp (x : Guard) : Nat := fld (x.w 8) 4 3
/-- LINK (R225). -/
def Guard.link (x : Guard) : Nat := fld (x.w 10) 15 0
/-- PARTNER (R225). -/
def Guard.partner (x : Guard) : Word := x.w 11
/-- STEP_THR in ns (R225). -/
def Guard.stepThr (x : Guard) : Nat := fld (x.w 12) 25 16 * 1000
/-- ASYM_THR in ns (R225). -/
def Guard.asymThr (x : Guard) : Nat := fld (x.w 12) 15 0 * 1000
/-- C_MAX in ns (R225). -/
def Guard.cMax (x : Guard) : Nat := fld (x.w 8) 21 16 * 1000000
/-- BIAS in ns (R225). -/
def Guard.bias (x : Guard) : Int := sgn 21 (fld (x.w 13) 20 0)
/-- The guard uses probe lane `l` (R225). -/
def Guard.onLane (x : Guard) (l : Nat) : Bool :=
  fld (x.w 10) 22 16 == l || (bit (x.w 10) 23 && fld (x.w 10) 30 24 == l)
/-- Lane `l` is the guard's second probe lane (R225). -/
def Guard.second (x : Guard) (l : Nat) : Bool := fld (x.w 10) 22 16 != l

/-- The slot that guard `x` receives: RX, or that at whose pace its selector is carried, as the output stage reads it (R208, R225). -/
def guardRx (s : State) (x : Guard) : Option Word :=
  if bit (x.w 8) 0 then (selPace s (selKey (fld (x.w 8) 2 1) (fld (x.w 7) 16 0))).map (mspResolve s)
  else some (mspResolve s (x.w 7))

/-- The guard's time counter is locked to a time source (R230, R293). -/
def todLocked (s : State) : Bool := bget s Reg.todStatus 3

/-- Guard `x` measures with common time (R230). -/
def guardCommon (s : State) (x : Guard) : Bool := todLocked s && x.pCommon && !bit (x.w 8) 6

/-- ns of `n` units of the guard's delay line: one byte of the container, three for an AU-4 (R234). -/
def unitsNs (s : State) (x : Guard) (n : Nat) : Nat :=
  let a := x.tx
  n * unitBytes s a * (if hoPoh s a then 125000 else 500000) / contBytes s a

/-- The number of units nearest to `t` ns (R234). -/
def nsUnits (s : State) (x : Guard) (t : Nat) : Nat :=
  let a := x.tx
  let p := unitBytes s a * (if hoPoh s a then 125000 else 500000)
  (2 * t * contBytes s a + p) / (2 * p)

/-- c_in in ns (R230). -/
def guardC (s : State) (x : Guard) : Nat := unitsNs s x x.cIn

/-- Group period in ns and number of marker values of the guard's path (R227). -/
def groupNs (s : State) (x : Guard) : Nat × Nat := if hoPoh s x.tx then (500000, 65536) else (4000000, 32768)

/-- Data word 0 of a guard event (R240). -/
def guardWord (g cause : Nat) (st b21 : Bool) : Word :=
  w32 (cause + 256 * g + 2 ^ 20 * b2n st + 2 ^ 21 * b2n b21)

/-- Guard `g` raises an event (R240). -/
def guardEvent (s : State) (g cause : Nat) (st b21 : Bool) (d1 : Word) : State :=
  raise s (0x580 + g / 32) (guardWord g cause st b21) d1

/-- The channel asymmetry in ns (R231). -/
def chanAsym (s : State) (x : Guard) : Int := x.a - (guardC s x : Nat) + x.cOut

/-- max(0, a) in ns (R234). -/
def Guard.pos (x : Guard) : Nat := x.a.toNat

/-- The round trip in ns, once both directions have been measured; what two unrelated counters add cancels (R230). -/
def Guard.round (x : Guard) : Option Nat := match x.dIn, x.dOut with
  | some i, some o => some (unsgn 32 (i + o))
  | _, _ => none

/-- Guard `x` drives GUARD_PULSE: from the announcement of a step until HOLD after it (R236). -/
def Guard.pulse (x : Guard) : Bool :=
  bit (x.w 8) 5 && (x.ann.isSome || (match x.holdRun with
    | some n => decide (n < 8 * fld (x.w 14) 16 9)
    | none => false))

/-- SYM_PEEK_STATE of guard `g` (R239). -/
def guardState (s : State) (g : Nat) : Word := match guard? s g with
  | none => 0x80000000
  | some x =>
    let st := if x.stale then 4 else if x.dIn.isNone || x.dOut.isNone then 0 else if x.ann.isSome then 2
      else if x.slew.isSome then 3 else 1
    w32 (st + 8 * b2n (guardCommon s x) + 16 * b2n x.asym + 32 * b2n x.cap + 64 * b2n x.pulse +
      128 * (match x.ann with
        | some p => if x.stale then 0 else p.2
        | none => 0))

/-- SYM_PEEK_IN or SYM_PEEK_OUT of a delay (R239). -/
def delayWord (d : Option Int) : Word := match d with
  | some n => w32 ((iclamp 0 250000000 (n / 8)).toNat + 2 ^ 28)
  | none => 0

/-- SYM_PEEK_COMP of guard `g` (R239). -/
def guardComp (s : State) (g : Nat) : Word := match guard? s g with
  | some x => w32 (guardC s x / 8)
  | none => 0

/-- SYM_PEEK_ASYM of guard `g` (R239). -/
def guardAsym (s : State) (g : Nat) : Word := match guard? s g with
  | some x => w32 (unsgn 28 (chanAsym s x / 8))
  | none => 0

/-- GUARD_PULSE is driven, before SYM_CTL.PULSE_POL (R236). -/
def guardPulse (s : State) : Bool :=
  !s.pwr.dormant && s.sym.guards.any (fun p => p.2.pulse)

/-- The level of the GUARD_PULSE pin; low in DORMANT (R236). -/
def guardPulsePin (s : State) : Bool := !s.pwr.dormant && (guardPulse s != bget s Reg.symCtl 0)

/-! ### Records to send -/

/-- A STEP (kind 3) or COMP (kind 4) record is queued with the next event number of its LINK, for two messages on each of its probe
lanes (R229). -/
def Guard.queue (x : Guard) (kind : Nat) (v : Int) : Guard :=
  { x with
    outbox := x.outbox ++ [(kind, x.evOut, v, 2, if bit (x.w 10) 23 then 2 else 0)], evOut := (x.evOut + 1) % 65536 }

/-- A COMP record with the compensation in force is queued (R235). -/
def queueComp (s : State) (x : Guard) : Guard :=
  let c : Int := (guardC s x : Nat)
  { x.queue 4 c with lastComp := c }

/-- A slew that runs ends, with its COMP record (R235). -/
def endSlew (s : State) (x : Guard) : Guard := if x.slew.isSome then queueComp s { x with slew := none } else x

/-! ### Asymmetry and targets -/

/-- ASYM rises above its threshold and falls by GUARD_ASYM_CLEAR alone; CAP follows the target (R233, R234). -/
def guardAlarms (s : State) (g : Nat) : State := match guard? s g with
  | none => s
  | some x =>
    let above := decide (x.asymThr < iabs (chanAsym s x))
    let cap := decide (x.cMax < x.pos)
    let low := decide (10 * iabs (chanAsym s x) < 9 * x.asymThr)
    let s := setGuard s g { x with asym := x.asym || above, cap := cap, asymRun := if low then x.asymRun else 0 }
    let s := if above && !x.asym then guardEvent s g 3 true false (guardAsym s g) else s
    if cap != x.cap then guardEvent s g 4 cap false (w32 (x.pos / 8)) else s

/-- A step to `t` units is announced for LEAD superframes ahead (R235). -/
def announceStep (s : State) (g : Nat) (x : Guard) (t : Nat) : State :=
  let sfc := (frameSfc s + fld (x.w 14) 8 0) % 65536
  let s := setGuard s g { endSlew s x with ann := some (t, sfc) }
  guardEvent s g 6 false x.ann.isSome (w32 sfc)

/-- c_in begins to follow its target as COMP sets; a stale guard moves nothing (R234, R235). -/
def followTarget (s : State) (g : Nat) : State := match guard? s g with
  | none => s
  | some x =>
    let t := nsUnits s x (min x.cMax x.pos)
    let far := decide (100000 < iabs ((unitsNs s x t : Int) - (guardC s x : Int)))
    if x.stale ∨ !x.aSet ∨ x.comp = 0 then s
    else if x.comp = 2 ∨ (x.comp = 3 ∧ !far) then
      setGuard s g (if t = x.cIn then { endSlew s x with ann := none } else { x with ann := none, slew := some t })
    else match x.ann with
      | some p => if p.1 = t then s else announceStep s g x t
      | none => if t = x.cIn then setGuard s g (endSlew s x) else announceStep s g x t

/-- Alarms and the target are evaluated again (R233 to R235). -/
def settleGuard (s : State) (g : Nat) : State := followTarget (guardAlarms s g) g

/-- The path asymmetry after a measurement: with common time d_out − d_in + BIAS, without it 0 once both directions have first been
measured; held while stale (R231, R233). -/
def measureGuard (s : State) (x : Guard) : Guard := match x.dIn, x.dOut with
  | some i, some o =>
    if x.stale ∨ x.newIn ∨ x.newOut then x
    else if guardCommon s x then { x with a := o - i + x.bias, aSet := true }
    else if x.aSet then x else { x with a := 0, aSet := true }
  | _, _ => x

/-- RTT_STEP with the new round trip, where a declared step has changed that of `old` (R233). -/
def rttStep (s : State) (g : Nat) (old x : Guard) : State := match x.round with
  | some r => if old.round = some r then s else guardEvent s g 2 false false (w32 (r / 8))
  | none => s

/-! ### Stamps -/

/-- Signed difference of two 16-bit marker values of a path with `m` of them. -/
def markerDiff (m a b : Nat) : Int :=
  let d := (a + m - b % m) % m
  if 2 * d < m then (d : Int) else (d : Int) - (m : Int)

/-- The delay between a TX stamp and an RX stamp, times being NS values (R227, R230). -/
def stampDelay (s : State) (x : Guard) (tx rx : Nat × Nat) : Int :=
  let g := groupNs s x
  sgn 32 (unsgn 32 ((rx.2 : Int) - (tx.2 : Int) - markerDiff g.2 rx.1 tx.1 * (g.1 : Int)))

/-- A stamp that gives a delay below 0 or above 2 s is ignored (R237). -/
def delayBad (d : Int) : Bool := decide (d < 0) || decide (2000000000 < d)

/-- A step of `n` ns in the in direction is declared (R231 to R233). -/
def declareStep (s : State) (g : Nat) (x : Guard) (d n : Int) : State :=
  let y := { x with dIn := some d, steps := x.steps + 1 }
  let y := if x.stale then { y with localPend := x.localPend + n }
    else if guardCommon s x then measureGuard s y else { y with a := x.a - n }
  let y := y.queue 3 n
  let s := guardEvent (setGuard s g y) g 1 false false (i32 n)
  settleGuard (rttStep s g x y) g

/-- One more marker channel unit crosses the balls, and with it J1 or V5, which lies a fixed number of bytes before it: modulo its period of `p` ns it
keeps the offset of the first unit since the offset last changed, within 8 µs, or begins a new run (R232). -/
def Guard.arrive (x : Guard) (p t : Nat) : Guard :=
  if x.rxRun ≠ 0 ∧ (t + 2 ^ 32 - x.rxRef + 8000) % 2 ^ 32 % p ≤ 16000 then { x with rxRun := min 8 (x.rxRun + 1) } else { x with rxRef := t, rxRun := 1 }

/-- A valid group with marker `m`, whose first byte crossed the balls at `t`, arrives on RX of guard `g` (R227, R230 to R232). -/
def guardStamp (s : State) (g : Nat) (x : Guard) (m t : Nat) (steady : Bool) : State :=
  let x := { x with rxLast := some (m, t % 2 ^ 32) }
  match x.pTx with
  | none => setGuard s g x
  | some tx =>
    let d := stampDelay s x tx (m, t % 2 ^ 32)
    if delayBad d then count (setGuard s g x) Reg.symProbeBad 1
    else match x.dIn with
      | none => settleGuard (setGuard s g (measureGuard s { x with dIn := some d, newIn := false })) g
      | some old =>
        if x.newIn || decide (iabs (d - old) ≤ x.stepThr) then settleGuard (setGuard s g (measureGuard s { x with dIn := some d, newIn := false })) g
        else if steady then declareStep s g x d (d - old)
        else setGuard s g x

/-- One marker channel unit on RX of guard `g`: read at every position, whether or not the channel is locked (R227). -/
def guardUnit (s : State) (g : Nat) (a : Word) (u : Byte) (t : Nat) : State := match guard? s g with
  | none => s
  | some x =>
    let n := groupLen (hoPoh s a)
    let p := if hoPoh s a then 125000 else 500000
    let x := { x.arrive p t with rxUnits := (u :: x.rxUnits).take n, rxTimes := (t :: x.rxTimes).take n }
    match markerOf (hoPoh s a) x.rxUnits with
    | none => setGuard s g x
    | some m => guardStamp s g x m (x.rxTimes.getD (n - 1) t) (decide (n ≤ x.rxRun))

/-- Guards whose RX is the path at `a`. -/
def guardsAt (s : State) (a : Word) : List Nat :=
  (s.sym.guards.filter (fun p => guardRx s p.2 == some a)).map (fun p => p.1)

/-- MARKER_GROUP_RX: one unit of the marker channel of the path at `path` crosses the ingress balls now. Channel lock, the marver's records and the
guards' stamps, which are the time counter's (R90, R211, R227, R296). DESIGN CHOICE (log entry 139): the marver takes arrival times from the timebase
itself, in ns, so that a SET or STEP of the counter moves no merge. -/
def execMarkerGroupRx (path : Word) (unit : Byte) (s : State) : Out :=
  .next (
    if !pathOn s path || !bit (pathCfg s path).w7 10 then s
    else
      let r := markUnit s path unit
      let s := match r.2 with
        | some m => mergeMarkers r.1 path m (2 * s.tod.ticks)
        | none => r.1
      if pohRead s path then (guardsAt s path).foldl (fun s g => guardUnit s g path unit (nsNow s).toNat) s else s)

/-! ### Leiv probes received -/

/-- A message counts as bad (R237). -/
def probeBad (s : State) : State := count s Reg.symProbeBad 1

/-- A number of `n` bytes of a message from byte `i` on, most significant byte first (R228). -/
def msgNat (m : List Byte) (i n : Nat) : Nat := beNat ((m.drop i).take n)

/-- A stamp with marker `m` replaces the stamp `old`: with two probe lanes the newer of the two is used (R229). -/
def stampNewer (s : State) (x : Guard) (m : Nat) (old : Option (Nat × Nat)) : Bool :=
  !bit (x.w 10) 23 || (match old with
    | some p => decide (0 ≤ markerDiff (groupNs s x).2 m p.1)
    | none => true)

/-- A TX stamp of the partner (R229, R230, R237). -/
def rxTxStamp (s : State) (g : Nat) (x : Guard) (m t : Nat) : State :=
  let y := { x with pTx := some (m, t) }
  if !stampNewer s x m x.pTx then s
  else match x.rxLast with
    | none => setGuard s g y
    | some rx =>
      let d := stampDelay s x (m, t) rx
      let stray := match x.dIn with
        | some old => !x.newIn && decide (x.stepThr < iabs (d - old))
        | none => false
      if delayBad d || stray then probeBad s else setGuard s g (measureGuard s { y with dIn := some d, newIn := false })

/-- An RX stamp of the partner (R229, R230, R237). -/
def rxRxStamp (s : State) (g : Nat) (x : Guard) (m t : Nat) : State :=
  if !stampNewer s x m x.pRx then s
  else match x.txLast with
    | none => s
    | some tx =>
      let d := stampDelay s x tx (m, t)
      let stray := match x.dOut with
        | some old => !x.newOut && decide (x.stepThr < iabs (d - old))
        | none => false
      if delayBad d || stray then probeBad s
      else setGuard s g (measureGuard s { x with pRx := some (m, t), dOut := some d, newOut := false })

/-- A STEP record of the partner: its in direction, which is the out direction here, has stepped by `n` ns (R231, R233, R240). -/
def rxStepRec (s : State) (g : Nat) (x : Guard) (n : Int) : State :=
  let y := { x with dOut := x.dOut.map (· + n) }
  let y := if guardCommon s x then measureGuard s y else if x.aSet then { y with a := x.a + n } else y
  rttStep (guardEvent (setGuard s g y) g 1 false true (i32 n)) g x y

/-- A record of a message from `node` on lane `l` (R228, R237). -/
def rxRecord (s : State) (l : Nat) (node : Word) (r : List Byte) : State :=
  let kind := msgNat r 2 1
  let link := msgNat r 0 2
  let num := msgNat r 4 2
  let v := msgNat r 8 4
  if kind = 0 then (if (r.drop 3).take 5 = List.replicate 5 0 then s else probeBad s)
  else if 5 ≤ kind ∨ msgNat r 3 1 ≠ 0 ∨ msgNat r 6 2 ≠ 0 then probeBad s
  else match List.find? (fun p => p.2.onLane l && p.2.partner == node && p.2.link == link) s.sym.guards with
    | none => probeBad s
    | some (g, x) =>
      if kind = 1 then settleGuard (rxTxStamp s g x num v) g
      else if kind = 2 then settleGuard (rxRxStamp s g x num v) g
      else if x.evIn = some num then s
      else
        let x := { x with evIn := some num }
        settleGuard (if kind = 3 then rxStepRec s g x (sgn 32 v) else setGuard s g { x with cOut := sgn 32 v }) g

/-- A valid message of the partner of guard `g`: PARTNER_LOST clears, declared local steps that waited are applied, and a change of
COMMON moves the measurement to the other mode (R231, R233, R237). -/
def heardPartner (s : State) (g : Nat) (common : Bool) : State := match guard? s g with
  | none => s
  | some x =>
    let y := if x.stale then { x with stale := false, evIn := none, a := x.a - x.localPend, localPend := 0 } else x
    let y := { y with silent := 0, pCommon := common }
    let y := if guardCommon s y != guardCommon s x then { y with newIn := true, newOut := true } else y
    let s := setGuard s g y
    let s := if x.stale then guardEvent s g 5 false false x.partner else s
    let s := if common != x.pCommon then guardEvent s g 8 false false (w32 (b2n common)) else s
    if x.stale then settleGuard s g else s

/-- What is wrong with a message: 0 sync, 1 CRC, 2 version (R228, R237). -/
def probeFault (m : List Byte) : Option Nat :=
  if msgNat m 0 2 ≠ 0xA53C then some 0
  else if msgNat m 60 4 ≠ (crc32 (m.take 60)).toNat then some 1
  else if (m.getD 2 0).toNat / 16 % 8 ≠ 1 then some 2 else none

/-- A Leiv probe message that lane `l` has received is checked, and its records are taken (R228 to R237). -/
def probeTake (s : State) (l : Nat) (msg : List Byte) : State :=
    match probeFault msg with
      | some r => raiseOnce (probeBad s) l 0x70 l (w32 (0x70 + 256 * l)) (w32 r)
      | none =>
        let node := w32 (msgNat msg 4 4)
        let mine := s.sym.guards.filter (fun p => p.2.onLane l)
        let from_ := (mine.filter (fun p => p.2.partner == node)).map (fun p => p.1)
        if from_.isEmpty then
          mine.foldl (fun s p => raiseOnce s (0x580 + p.1 / 32) 9 p.1 (guardWord p.1 9 false false) node) (probeBad s)
        else
          let common := (msg.getD 2 0).getLsbD 7
          let s := from_.foldl (fun s g => heardPartner s g common) s
          let s := if (msg.getD 2 0).toNat % 16 ≠ 0 ∨ (msg.drop 8).take 4 ≠ List.replicate 4 0 then probeBad s else s
          (List.range 4).foldl (fun s i => rxRecord s l node ((msg.drop (12 + 12 * i)).take 12)) s

/-- LEIV_PROBE_RX: the oldest Leiv probe message found in the received frames of lane `lane` is checked and taken (R69, R228 to R237). -/
def execLeivProbeRx (lane : LaneId) (s : State) : Out :=
  .next (match (frm s lane).probeDue with
    | [] => s
    | m :: r =>
      let s := editFrm s lane (fun f => { f with probeDue := r })
      if sdhOn s lane && (frm s lane).probeOn then probeTake s lane m else s)

/-! ### Leiv probes sent -/

/-- A record of a message (R228). -/
def probeRecord (link kind num : Nat) (v : Nat) : List Byte :=
  natBe 2 link ++ natBe 1 kind ++ [0] ++ natBe 2 num ++ [0, 0] ++ natBe 4 v

/-- The STEP and COMP records that guard `x` has to send `k` more times on lane `l` (R229). -/
def Guard.due (x : Guard) (l k : Nat) : List (Nat × Nat × Int × Nat × Nat) :=
  x.outbox.filter (fun r => (if x.second l then r.2.2.2.2 else r.2.2.2.1) == k)

/-- The records with these event numbers have been sent once more on lane `l` (R229). -/
def Guard.sent (x : Guard) (l : Nat) (ev : List Nat) : Guard :=
  let out := x.outbox.map (fun r =>
    if ev.contains r.2.1 then
      (if x.second l then (r.1, r.2.1, r.2.2.1, r.2.2.2.1, r.2.2.2.2 - 1) else (r.1, r.2.1, r.2.2.1, r.2.2.2.1 - 1, r.2.2.2.2))
    else r)
  { x with outbox := out.filter (fun r => r.2.2.2.1 != 0 || r.2.2.2.2 != 0) }

/-- The STEP and COMP records that these guards have to send `k` more times on lane `l`, at most `n`, guard after guard: each with its guard (R229). -/
def pickRecords (s : State) (l k n : Nat) (gs : List Nat) : List (Nat × Nat × Nat × Int × Nat × Nat) :=
  (gs.flatMap (fun g => match guard? s g with
    | some x => (x.due l k).map (fun r => (g, r))
    | none => [])).take n

/-- STEP and COMP records for a message of lane `l`: those that its last message has sent for the first time, so that each is in two consecutive
messages, and then new ones (R229). -/
def takeRecords (s : State) (l : Nat) (gs : List Nat) : State × List (List Byte) :=
  let again := pickRecords s l 1 4 gs
  let picked := again ++ pickRecords s l 2 (4 - again.length) gs
  (gs.foldl (fun s g => match guard? s g with
      | some x => setGuard s g (x.sent l ((picked.filter (fun p => p.1 == g)).map (fun p => p.2.2.1)))
      | none => s) s,
    picked.map (fun p => probeRecord (((guard? s p.1).map Guard.link).getD 0) p.2.1 p.2.2.1 (unsgn 32 p.2.2.2.1)))

/-- The TX and RX stamp records of guard `x`; empty records in place of stamps not yet taken (R229). -/
def stampRecords (x : Guard) : List (List Byte) :=
  let rec1 := fun (kind : Nat) (p : Option (Nat × Nat)) => match p with
    | some p => probeRecord x.link kind p.1 p.2
    | none => probeRecord 0 0 0 0
  [rec1 1 x.txLast, rec1 2 x.rxLast]

/-- The message that lane `l` sends in the superframe that begins, four bytes a frame (R69, R228, R229). -/
def probeMessage (s : State) (l : Nat) : State :=
  let gs := (s.sym.guards.filter (fun p => p.2.onLane l)).map (fun p => p.1)
  let t := takeRecords s l gs
  let s := t.1
  let room := (4 - t.2.length) / 2
  let start := Tab.get s.sym.rot l 0
  let turn := ((gs.filter (fun g => decide (start ≤ g))) ++ (gs.filter (fun g => decide (g < start)))).take room
  let stamps := turn.flatMap (fun g => match guard? s g with
    | some x => stampRecords x
    | none => [])
  let recs := ((t.2 ++ stamps) ++ List.replicate 4 (probeRecord 0 0 0 0)).take 4
  let seq := Tab.get s.sym.seq l 0
  let head := natBe 2 0xA53C ++ natBe 1 (128 * b2n (todLocked s && bget s Reg.symCtl 1) + 16) ++ natBe 1 seq ++
    natBe 4 (rd s Reg.symNodeId).toNat ++ [0, 0, 0, 0]
  let body := head ++ recs.flatMap (fun r => r)
  let s := { s with sym := { s.sym with
    seq := Tab.put s.sym.seq l ((seq + 1) % 256)
    rot := match turn.getLast? with
      | some g => Tab.put s.sym.rot l (g + 1)
      | none => s.sym.rot } }
  editFrm s l (fun f => { f with probeTx := body ++ natBe 4 (crc32 body).toNat })

/-- At a superframe boundary PROBE_EN takes effect, and every lane with it on begins its probe message (R69, R228). -/
def probesSuperframe (s : State) : State :=
  (List.range 128).foldl (fun s l =>
    let on := laneEn s l && decide (laneMode s l ≤ 3) && bit (frmCtl s l) 12
    let s := if (frm s l).probeOn = on then s
      else editFrm s l (fun f => { f with probeOn := on, probeRx := [], probeAt := false, probeDue := [] })
    if on then probeMessage s l else s) s

/-! ### Latency -/

/-- The latency words of the outputs fed through guard `g` move with its compensation, by `d` ns (R136, R235). -/
def shiftLatency (s : State) (g : Nat) (d : Int) : State :=
  let l := ((usedOutputs s).filter (fun o => (outGuard s o).map (fun p => p.1) == some g)).map (fun o => (latOut s o).toNat)
  editFab s (fun f => { f with
    lat := f.lat.map (fun p => if l.contains p.1 then (p.1, unsgn 29 ((p.2 : Int) + d)) else p) })

/-! ### Timers -/

/-- GUARD_ASYM_CLEAR: the channel asymmetry has stayed below 0.9 of ASYM_THR for 100 ms (R233). -/
def execGuardAsymClear (g : Fin 4096) (s : State) : Out :=
  .next (match guard? s g with
    | some x =>
      if x.asym && decide (800 ≤ x.asymRun) then guardEvent (setGuard s g { x with asym := false }) g 3 false false (guardAsym s g)
      else s
    | none => s)

/-- PARTNER_LOST: no valid message of the partner for 100 ms (R233). -/
def execPartnerLost (g : Fin 4096) (s : State) : Out :=
  .next (match guard? s g with
    | some x =>
      if !x.stale && decide (800 ≤ x.silent) then guardEvent (setGuard s g { x with stale := true }) g 5 true false x.partner
      else s
    | none => s)

/-- c_in of guard `g` becomes `n` units as one step: COMP_STEP, a COMP record, and the hold of GUARD_PULSE (R235, R236). -/
def stepComp (s : State) (g n : Nat) : State := match guard? s g with
  | none => s
  | some x =>
    let old : Int := (guardC s x : Nat)
    let y := { x with cIn := n, ann := none, slew := none, holdRun := some 0, stepped := 2 }
    let new : Int := (guardC s y : Nat)
    let y := queueComp s y
    let s := shiftLatency (setGuard s g y) g (new - old)
    guardAlarms (if new = old then s else guardEvent s g 7 false false (i32 (new - old))) g

/-- GUARD_COMP_STEP_DUE: frame 0 of the announced superframe (R235). -/
def execGuardCompStepDue (g : Fin 4096) (s : State) : Out :=
  .next (match guard? s g with
    | some x => match x.ann with
      | some (n, sfc) => if s.glb.frame = 0 ∧ frameSfc s = sfc then followTarget (stepComp s g n) g else s
      | none => s
    | none => s)

/-- Frames from one unit of a slew to the next, at SLEW tenths of a µs per 100 ms at most (R235). -/
def slewFrames (s : State) (x : Guard) : Nat :=
  let a := x.tx
  let den := contBytes s a * 100 * max 1 (fld (x.w 8) 11 7)
  (800 * unitBytes s a * (if hoPoh s a then 125000 else 500000) + den - 1) / den

/-- GUARD_SLEW_UNIT: a slew moves by one unit, at SLEW per 100 ms at most and three pointer periods after the last adjustment of its path; each
unit leaves as a pointer justification (R80, R81, R235). -/
def execGuardSlewUnit (g : Fin 4096) (s : State) : Out :=
  .next (match guard? s g with
    | some x => match x.slew with
      | some t =>
        let rx := guardRx s x
        if x.stale ∨ x.slewGap < slewFrames s x ∨ rx.any (fun a => decide ((path s a).adjGap < 3)) ∨ t = x.cIn then s
        else
          let up := decide (x.cIn < t)
          let y := { x with cIn := if up then x.cIn + 1 else x.cIn - 1, slewGap := 0 }
          let y := if y.cIn = t then { y with slew := none } else y
          let far := decide (10000 ≤ iabs ((guardC s y : Int) - x.lastComp))
          let y := if far || y.slew.isNone then queueComp s y else y
          let s := setGuard s g y
          let s := match rx with
            | some a => editPath s a (fun p => { p with adjGap := 0 })
            | none => s
          let s := ((usedOutputs s).filter (fun o => (outGuard s o).map (fun p => p.1) == some g.val)).foldl
            (fun s o => pcount s o (if up then 13 else 14) 1) s
          guardAlarms (shiftLatency s g ((guardC s y : Int) - (guardC s x : Int))) g
      | none => s
    | none => s)

/-- GUARD_PULSE_HOLD_END: HOLD ms have passed since the guard's last step (R236). -/
def execGuardPulseHoldEnd (g : Fin 4096) (s : State) : Out :=
  .next (match guard? s g with
    | some x => match x.holdRun with
      | some n => if 8 * fld (x.w 14) 16 9 ≤ n then setGuard s g { x with holdRun := none } else s
      | none => s
    | none => s)

/-- The guards' timers count a frame, and freed pages return (R226, R233, R235, R236). -/
def guardsFrame (s : State) : State :=
  let step := fun (x : Guard) =>
    let low := decide (10 * iabs (chanAsym s x) < 9 * x.asymThr)
    { x with
      asymRun := if low then min 800 (x.asymRun + 1) else 0
      silent := min 800 (x.silent + 1)
      slewGap := min 1000000 (x.slewGap + 1)
      holdRun := x.holdRun.map (· + 1) }
  { s with sym := { s.sym with freeing := 0, guards := s.sym.guards.map (fun p => (p.1, step p.2)) } }

/-! ### GUARD_CFG -/

/-- The slots that RX of a GUARD_CFG names: its slot, or the copies of its selector (R225). -/
def guardSlots (s : State) (w : List Word) : List Word :=
  if bit (w.getD 2 0) 0 then
    match sel? s (selKey (fld (w.getD 2 0) 2 1) (fld (w.getD 1 0) 16 0)) with
    | some x => [x.working, x.protect]
    | none => []
  else [w.getD 1 0]

/-- Reason 1 of R226. -/
def guardBad1 (s : State) (w : List Word) : Bool :=
  let ok := fun (a : Word) => decide (saTier a ≤ 1) && isPath s a
  !ok (w.getD 3 0) || (if bit (w.getD 2 0) 0 then
      fld (w.getD 2 0) 2 1 ≤ 1 && (sel? s (selKey (fld (w.getD 2 0) 2 1) (fld (w.getD 1 0) 16 0))).isNone
    else !ok (w.getD 1 0))

/-- Reason 2 of R226, reserved bits apart. -/
def guardBad2 (w : List Word) : Bool :=
  let w8 := w.getD 2 0
  let w10 := w.getD 4 0
  let bias := sgn 21 (fld (w.getD 7 0) 20 0)
  (bit w8 0 && (decide (2 ≤ fld w8 2 1) || fld (w.getD 1 0) 31 17 != 0)) ||
    fld w8 11 7 == 0 || decide (20 < fld w8 11 7) || fld w8 21 16 == 0 || decide (50 < fld w8 21 16) ||
    fld (w.getD 6 0) 15 0 == 0 || decide (10000 < fld (w.getD 6 0) 15 0) ||
    fld (w.getD 6 0) 25 16 == 0 || decide (1000 < fld (w.getD 6 0) 25 16) || decide (1000000 < iabs bias) ||
    decide (fld (w.getD 8 0) 8 0 < 2) || decide (500 < fld (w.getD 8 0) 8 0) ||
    (bit w10 23 && fld w10 22 16 == fld w10 30 24)

/-- The two paths are of one type (R226). -/
def sameType (s : State) (a b : Word) : Bool :=
  saTier a == saTier b && (if saTier a = 0 then hoTy s a == hoTy s b else tuType? s a == tuType? s b)

/-- Reason 3 of R226. -/
def guardBad3 (s : State) (w : List Word) : Bool :=
  let tx := w.getD 3 0
  let rx := guardSlots s w
  let w10 := w.getD 4 0
  let lanes := fld w10 22 16 :: (if bit w10 23 then [fld w10 30 24] else [])
  rx.any (fun a => !bit (pathCfg s a).w7 3 || !bit (pathCfg s a).w7 10 || !sameType s a tx || onSpareLane s a) ||
    onSpareLane s tx || lanes.any (fun l => !bit (frmCtl s l) 12 || decide (4 ≤ laneMode s l)) ||
    (!bit (w.getD 2 0) 0 && decide (1024 < dualUse s (sourcesNamed s ++ sourcesComing s ++ rx)))

/-- The guards once every GUARD_CFG that waits for its boundary has taken effect. -/
def guardsAhead (s : State) : Tab Guard :=
  s.deferred.foldl (fun t x => match x.act with
    | .guard w =>
      let g := fld (w.getD 0 0) 11 0
      if bit (w.getD 0 0) 31 then Tab.drop t g else Tab.put t g { words := (w.drop 1).take 8 }
    | _ => t) s.sym.guards

/-- A change of RX, RX_KIND, TX, LINK or C_MAX on a configured guard (R226 reason 4). -/
def guardChanged (x : Guard) (w : List Word) : Bool :=
  x.w 7 != w.getD 1 0 || (x.w 8 ^^^ w.getD 2 0) &&& 0x3F0007 != 0 || x.w 9 != w.getD 3 0 ||
    x.link != fld (w.getD 4 0) 15 0

/-- Another guard has the same LINK and PARTNER, the same RX or the same TX (R226 reason 4). -/
def guardClash (s : State) (w : List Word) : Bool :=
  (guardsAhead s).any (fun p => p.1 != fld (w.getD 0 0) 11 0 &&
    ((p.2.link == fld (w.getD 4 0) 15 0 && p.2.partner == w.getD 5 0) ||
      (p.2.w 7 == w.getD 1 0 && bit (p.2.w 8) 0 == bit (w.getD 2 0) 0 &&
        (!bit (p.2.w 8) 0 || fld (p.2.w 8) 2 1 == fld (w.getD 2 0) 2 1)) ||
      p.2.tx == w.getD 3 0))

/-- The reason for which a GUARD_CFG fails, with result word 1 (R226). -/
def guardReason (s : State) (w : List Word) : Option (Nat × Nat) :=
  let g := fld (w.getD 0 0) 11 0
  if bit (w.getD 0 0) 31 then
    if (w.drop 1).any (fun v => v != 0) then some (2, 0)
    else if (Tab.find? (guardsAhead s) g).isNone then some (4, 0) else none
  else if guardBad1 s w then some (1, 0)
  else if guardBad2 w then some (2, 0)
  else if guardBad3 s w then some (3, 0)
  else if guardClash s w then some (4, 0)
  else match Tab.find? (guardsAhead s) g with
    | some x => if guardChanged x w then some (4, 0) else none
    | none =>
      let need := linePages (chargedRate s (w.getD 3 0)) (fld (w.getD 2 0) 21 16)
      if delayFree s < need then some (6, (need - delayFree s) * 4096) else none

/-- A GUARD_CFG takes effect; a removal takes compensation away as a step and frees the line at the next frame boundary; COMP OFF takes
it away likewise (R226, R235). -/
def applyGuard (s : State) (w : List Word) (d : Nat) : State :=
  let g := fld (w.getD 0 0) 11 0
  let words := (w.drop 1).take 8
  match guard? s g with
  | some x =>
    if bit (w.getD 0 0) 31 then
      let c := guardC s x
      let s := if c = 0 then s else guardEvent (shiftLatency s g (-(c : Int))) g 7 false false (i32 (-(c : Int)))
      let s := { s with sym := { s.sym with
        guards := Tab.drop s.sym.guards g, freeing := s.sym.freeing + x.pages } }
      completeOk s d (w32 (x.pages * 4096)) 0
    else
      let off := fld (w.getD 2 0) 4 3 == 0
      let y := { x with words := words }
      let y := if off then { (if x.cIn = 0 then endSlew s y else y) with ann := none, slew := none } else y
      let s := setGuard s g y
      let s := if off && x.cIn != 0 then stepComp s g 0 else s
      completeOk (settleGuard s g) d (w32 (x.pages * 4096)) 0
  | none =>
    if bit (w.getD 0 0) 31 then completeOk s d 0 0
    else
      let pages := linePages (chargedRate s (w.getD 3 0)) (fld (w.getD 2 0) 21 16)
      completeOk (setGuard s g { words := words, pages := pages }) d (w32 (pages * 4096)) 0

/-- A GUARD_CFG is checked and waits for the next frame boundary (R226). -/
def guardCfg (d : Nat) (remove : Bool) (s : State) : State := match takeDesc s d 0x40 with
  | none => s
  | some x =>
    if bit (x.w 6) 31 != remove then s
    else match guardReason s (cfgWords x) with
      | some (r, n) => complete s d 3 (w32 r) (w32 n)
      | none => defer s d false (.guard (cfgWords x))

/-- GUARD_CFG that creates a guard or changes its fields (R225, R226). -/
def execGuardCfg (d : Nat) (s : State) : Out := .next (guardCfg d false s)

/-- GUARD_CFG with REMOVE (R225, R226). -/
def execGuardRemove (d : Nat) (s : State) : Out := .next (guardCfg d true s)

/-! ### Status -/

/-- The GUARD_STATUS record of a guard (R238). -/
def guardRecord (s : State) (g : Nat) : List Word := match guard? s g with
  | none => []
  | some x => [w32 g, guardState s g, delayWord x.dIn, delayWord x.dOut, guardComp s g, guardAsym s g, x.steps, 0]

/-- The SYM_PEEK registers are refreshed (R239). -/
def symPeek (s : State) : State :=
  let g := fget s Reg.symPeekSel 11 0
  let s' := wr (wr s Reg.symPeekState (guardState s g)) Reg.symPeekIn (delayWord ((guard? s g).bind (fun x => x.dIn)))
  let s' := wr s' Reg.symPeekOut (delayWord ((guard? s g).bind (fun x => x.dOut)))
  wr (wr s' Reg.symPeekComp (guardComp s g)) Reg.symPeekAsym (guardAsym s g)

end Sys2Proof.Machine
end

