-- ==== Sys2Proof/Machine/Eth.lean ====
section
/-! DEFINITION. Ethernet lanes: link, stamps, host frames (12_circuit_emulation.md, R241 to R246, R262, R264), and the frame
headers that pseudowires share with them. -/

namespace Sys2Proof.Machine

/-! ### Lanes -/

/-- Link up (R242, R262). -/
def linkUp (s : State) (n : Nat) : Bool := ethLane s n && laneState s n == 4 && bget s (Reg.laneEthStatus n) 5
/-- The lane's MAC address as six bytes, in the order of transmission (R262). -/
def laneMac (s : State) (n : Nat) : List Byte :=
  natBe 2 (fget s (Reg.laneEthMacHi n) 15 0) ++ natBe 4 (rd s (Reg.laneEthMacLo n)).toNat

/-- The stamp of a frame whose SFD crosses the MAC/PCS boundary of lane `n` now, in the form that LAT_APPLY selects: `d` in 1/16 ns is added to it
(R243, R244). -/
def stampForm (s : State) (n : Nat) (d : Int) : Nat × Nat :=
  let v : Int := ((stampNow s).1 * 65536 + (stampNow s).2 : Nat) + (if bget s (Reg.laneEthCtl n) 14 then d * 4096 else 0)
  let u := unsgn 48 v
  (u / 65536, u % 65536)

/-- The oldest queued frame of a lane begins to leave where the lane is link up and no pseudowire packet is due; its descriptor has then reached
its commit point, which none does while no half holds the leash (R242, R246, R314, R366). -/
def ethStart (s : State) (n : Nat) : State := match (eth s n).txq with
  | [] => s
  | (d, _) :: _ =>
    if linkUp s n && s.mtx.held && !(eth s n).sending && (eth s n).held.isEmpty then
      editEth (setDesc s d 2) n (fun e => { e with sending := true }) else s

/-- What the reconciliation sublayer of lane `n` sends between frames: the remote fault sequence while it detects local fault, else idle, which
it sends while it receives remote fault too (R242; IEEE 802.3 Clause 46). -/
def rsSends (s : State) (n : Nat) : List Byte := if bget s (Reg.laneEthStatus n) 3 then [0x9C, 0, 0, 2] else [7, 7, 7, 7]

/-- A change of what the reconciliation sublayer sends, `old` before it, leaves lane `n` where its transmitter carries the MAC's signal
(R45, R46, R48, R242). -/
def rsFollow (old : List Byte) (s : State) (n : Nat) : State :=
  if rsSends s n ≠ old ∧ ballsOpen s n ∧ !macGen s n then wire s "rs" n (rsSends s n) else s

/-- ETH_LINK_CHANGE: what the PCS of a lane reports, and on a quad the deskew of the lane that carries the SFD in 1/16 ns, refreshed
at an alignment lock (R242, R243, R264). -/
def execEthLinkChange (lane : LaneId) (block align hiBer localF remoteF : Bool) (deskew : Nat) (s : State) : Out :=
  let n : Nat := lane
  .next (
    if !ethLane s n then s
    else
      let quad := decide (6 ≤ laneMode s n)
      let al := align && quad
      let rise := al && !bget s (Reg.laneEthStatus n) 1
      let old := laneLat s n
      let rs := rsSends s n
      let s := if rise then editEth s n (fun e => { e with deskew := min 2880 deskew }) else s
      let s := if laneLat s n = old then s else laneEvent s n 0x37 (laneLat s n)
      let s := ethBit s n 0 0x31 block
      let s := ethBit s n 1 0x35 al
      let s := ethBit s n 2 0x32 hiBer
      let s := ethBit s n 3 0x33 localF
      let s := ethBit s n 4 0x34 remoteF
      ethStart (rsFollow rs (followLink s n) n) n)

/-- ETH_CTL_WRITE: LANE_ETH_CTL of a lane; an MTU out of range, or a host-frame ring below 4 or used by another user, is ignored
(R262). -/
def execEthCtlWrite (lane : LaneId) (v : Word) (s : State) : Out :=
  let n : Nat := lane
  let off := Reg.laneEthCtl n
  .next (domainWrite s (n / 8) off v (fun s =>
    let r := fld v 27 16
    let other := (List.range 128).any (fun l => l != n && fget s (Reg.laneEthCtl l) 27 16 == r) || (dccRing s r).isSome
    if quadMember s n then s
    else if fld v 13 0 < 64 ∨ 9216 < fld v 13 0 ∨ (r ≠ 0 ∧ (r < 4 ∨ other)) then ignoredWrite s off
    else wr s off (v &&& 0x0FFFFFFF)))

/-- Pseudowire `n` is `x`. -/
def setPw (s : State) (n : Nat) (x : Pw) : State := { s with cem := { s.cem with pws := Tab.put s.cem.pws n x } }
/-- Count `i` of a pseudowire goes up by one (R261). -/
def Pw.tally (x : Pw) (i : Nat) : Pw :=
  let c := if x.cnt.length = 12 then x.cnt else List.replicate 12 0
  { x with cnt := listPut c i (c.getD i 0 + 1) }

/-! ### Headers -/

/-- A 16-bit number of a frame, most significant byte first. -/
def frame16 (f : List Byte) (i : Nat) : Nat := beNat ((f.drop i).take 2)

/-- Zero, one or two VLAN tags after the addresses: where the EtherType lies (R245, R248, R252). -/
def typeAt (f : List Byte) : Nat :=
  let tag := fun (i : Nat) => frame16 f i == 0x8100 || frame16 f i == 0x88A8
  if tag 12 then (if tag 16 then 20 else 16) else 12

/-- The frame is IPv4 without options, or IPv6 without extension headers, with UDP: where the UDP header lies (R245, R248). -/
def udpAt (f : List Byte) : Option Nat :=
  let t := typeAt f
  let h := (f.getD (t + 2) 0).toNat
  if frame16 f t = 0x0800 ∧ h / 16 = 4 ∧ (f.getD (t + 11) 0).toNat = 17 then some (t + 2 + 4 * (h % 16))
  else if frame16 f t = 0x86DD ∧ h / 16 = 6 ∧ (f.getD (t + 8) 0).toNat = 17 then some (t + 42)
  else none

/-- The PTP message of a frame: where it begins (R245). -/
def ptpAt (f : List Byte) : Option Nat :=
  if frame16 f (typeAt f) = 0x88F7 then some (typeAt f + 2)
  else match udpAt f with
    | some u => if frame16 f (u + 2) = 319 ∨ frame16 f (u + 2) = 320 then some (u + 8) else none
    | none => none

/-- A PTP event message: messageType 0 to 3 (R245). -/
def ptpEvent (f : List Byte) : Bool := match ptpAt f with
  | some i => decide ((f.getD i 0).toNat % 16 ≤ 3)
  | none => false

/-- The ones' complement sum of bytes taken as 16-bit numbers. -/
def onesSum (l : List Byte) : Nat :=
  let s := ((List.range ((l.length + 1) / 2)).map (fun i => (l.getD (2 * i) 0).toNat * 256 + (l.getD (2 * i + 1) 0).toNat)).sum
  let f := fun (n : Nat) => n / 65536 + n % 65536
  f (f (f s))

/-- `b` replaces the bytes of `f` from byte `i` on. -/
def putBytes (f : List Byte) (i : Nat) (b : List Byte) : List Byte := f.take i ++ b ++ f.drop (i + b.length)

/-- The UDP checksum of an IPv6 frame whose IPv6 header lies at `h` (R246, R248). -/
def udp6Sum (f : List Byte) (h : Nat) : Nat :=
  let u := (f.drop (h + 40)).take (frame16 f (h + 4))
  let c := 65535 - onesSum ((f.drop (h + 8)).take 32 ++ natBe 4 u.length ++ natBe 4 17 ++ u)
  if c = 0 then 65535 else c

/-- The UDP checksum of a frame after a change: 0 for IPv4, computed for IPv6 (R246, R248). -/
def fixUdp (f : List Byte) : List Byte := match udpAt f with
  | none => f
  | some u =>
    let z := putBytes f (u + 6) [0, 0]
    if frame16 f (typeAt f) = 0x0800 then z else putBytes z (u + 6) (natBe 2 (udp6Sum z (typeAt f + 2)))

/-- The FCS of a frame in the order it is sent (R241). -/
def ethFcs (l : List Byte) : List Byte := wordBytes (crc32 l)

/-! ### Host frames received -/

/-- A frame is a host frame, if no pseudowire claims it (R245). -/
def hostFrame (s : State) (n : Nat) (f : List Byte) : Bool :=
  (ptpAt f).isSome || (bget s (Reg.laneEthCtl n) 15 && (f.take 6 == laneMac s n || (f.getD 0 0).getLsbD 0))

/-- A host frame is written to the next buffer of its lane, without its FCS, or dropped and counted, as it is while no half holds the leash
(R68, R245, R314, R366; log entry 148). -/
def hostDeliver (s : State) (n : Nat) (f : List Byte) (io : HostIO) : State :=
  match (eth s n).rxb.filterMap (desc? s) with
  | [] => dropFrame s (some (0x4B, n))
  | x :: _ =>
    if replay s || !s.mtx.held || !s.rng.bme || x.frozen || decide (x.len < f.length) then dropFrame s (some (0x4B, n))
    else
      let t := stampForm s n (-(((laneLat s n).toNat % 65536 : Nat) : Int))
      let s := editEth (setDesc s x.id 2) n (fun q => { q with rxb := setDel q.rxb x.id })
      deliver s io x f
        (w32 (f.length + 2 ^ 14 * b2n (ptpEvent f) + 2 ^ 15 * b2n (bget s (Reg.laneEthCtl n) 14) + 65536 * t.2)) (w32 t.1)

/-- ETH_RX_BUF: a fetched receive buffer waits for a frame (R68, R245). -/
def execEthRxBuf (d : Nat) (s : State) : Out :=
  .next (match desc? s d with
    | none => s
    | some x =>
      if x.op = 0x4B ∧ mayPost s x then
        if rangeBad s x then invalid s d 0xF4
        else match ethRing s x.ring with
          | none => s
          | some c =>
            editEth (editDesc s d (fun x => { x with st := 1, bound := some (0x4B, c) })) c
              (fun q => { q with rxb := q.rxb ++ [d] })
      else s)

/-! ### Host frames sent -/

/-- ETH_TX: a frame joins its lane's queue, and begins to leave once it is the oldest and the lane is link up (R242, R246). -/
def execEthTx (d : Nat) (io : HostIO) (s : State) : Out :=
  .next (match takeInput s d 0x4A with
    | none => s
    | some (s', x) =>
      let n := fld (x.w 6) 6 0
      if rangeBad s x then invalid s' d 0xF4
      else if !ethLane s n || decide (x.len < 60) || decide (fget s (Reg.laneEthCtl n) 13 0 < x.len + 4) ||
          (bit (x.w 6) 8 && decide (x.len < fld (x.w 7) 15 0 + 8)) then invalidOpen s' d
      else withInput s' io x x.len (fun s b =>
        ethStart (editEth (editDesc s d (fun x => { x with st := 1, bound := some (0x4A, n) })) n
          (fun q => { q with txq := q.txq ++ [(d, b)] })) n))

/-- A one-step correction: (egress stamp − T_REF) is added to the correctionField at `i`, in 2^-16 ns (R246). -/
def correct (f : List Byte) (i : Nat) (ns frac : Nat) (ref : Word) : List Byte :=
  let d : Int := sgn 32 (unsgn 32 ((ns : Int) - (ref.toNat : Int))) * 65536 + (frac : Int)
  fixUdp (putBytes f i (natBe 8 (unsgn 64 ((beNat ((f.drop i).take 8) : Int) + d))))

/-- The seven bytes of the preamble and the SFD, before a frame (R241; IEEE 802.3 Clause 4). -/
def ethPreamble : List Byte := List.replicate 7 0x55 ++ [0xD5]

/-- The frame `f`, its FCS apart, leaves the MAC of lane `n`. It reaches the balls unless a PRBS generator, a far-end loopback or the
squelched transmitter stands in its way, and in near-end loopback it comes back to the receive path (R45, R46, R48, R241). -/
def ethSend (s : State) (n : Nat) (f : List Byte) : State :=
  let f := f ++ ethFcs f
  let loop := macLoop s n == 1 && !macGen s n
  let s := editEth s n (fun e => { e with looped := if loop then e.looped ++ [f] else [] })
  count (if ballsOpen s n && !macGen s n then wire s "eth" n (ethPreamble ++ f) else s) (Reg.laneEthTxOk n) 1

/-- A pseudowire packet, due on lane `n`, is sent and counted as sent, or where the lane is not link up dropped and counted as not sent
(R242, R251, R261). -/
def pwSend (s : State) (n : Nat) (p : Nat × List Byte) : State :=
  if !linkUp s n then count s (Reg.laneEthTxDrop n) 1
  else ethSend (match pw? s p.1 with
    | some x => setPw s p.1 (x.tally 0)
    | none => s) n p.2

/-- A pseudowire packet falls due on lane `n`: it waits for a host frame that is being sent to end (R246). -/
def pwDue (s : State) (n : Nat) (p : Nat × List Byte) : State :=
  if linkUp s n && (eth s n).sending then editEth s n (fun e => { e with held := e.held ++ [p] }) else pwSend s n p

/-- The host frame on lane `n` has ended: the packets that waited for it leave first (R246). -/
def heldLeave (s : State) (n : Nat) : State :=
  (eth s n).held.foldl (fun s p => pwSend s n p) (editEth s n (fun e => { e with held := [] }))

/-- Result word 0 of an ETH_TX whose frame has left: the stamp's fraction in [31:16] and, in [15] as R245 has it, the form in force
(R244, R246; log entry 141). -/
def ethTxWord (s : State) (n frac : Nat) : Word := w32 (65536 * frac + 2 ^ 15 * b2n (bget s (Reg.laneEthCtl n) 14))

/-- ETH_TX_SENT: the oldest frame of the lane has left; its SFD crosses the MAC/PCS boundary now (R241, R243, R244,
R246). -/
def execEthTxSent (lane : LaneId) (s : State) : Out :=
  let n : Nat := lane
  .next (match (eth s n).txq with
    | [] => s
    | (d, f) :: r =>
      let s := ethStart s n
      if !(eth s n).sending then s
      else
        let t := stampForm s n (((laneLat s n).toNat / 65536 : Nat) : Int)
        let f := match desc? s d with
          | some x => if bit (x.w 6) 8 then correct f (fld (x.w 7) 15 0) t.1 t.2 (x.w 8) else f
          | none => f
        let s := editEth s n (fun e => { e with txq := r, sending := false })
        let s := heldLeave (ethSend s n f) n
        ethStart (completeOk s d (ethTxWord s n t.2) (w32 t.1)) n)

end Sys2Proof.Machine
end

