-- ==== Sys2Proof/Machine/Cem.lean ====
section
/-! DEFINITION. Circuit emulation: pseudowires, their packets and their jitter buffers (12_circuit_emulation.md, R247 to R261,
R263, R265), and the reception of Ethernet frames (R241, R245, R252). -/

namespace Sys2Proof.Machine

/-! ### Pseudowires -/

/-- CESoPSN (R247). -/
def Pw.ces (x : Pw) : Bool := decide (2 ≤ x.type)
/-- CAS (R247). -/
def Pw.cas (x : Pw) : Bool := bit x.w7 2
/-- ENCAP (R247). -/
def Pw.encap (x : Pw) : Nat := fld x.w7 4 3
/-- RTP (R247). -/
def Pw.rtp (x : Pw) : Bool := bit x.w7 5
/-- LANE (R247). -/
def Pw.lane (x : Pw) : Nat := fld x.w7 12 6
/-- Slots carried (R247). -/
def Pw.slotCount (x : Pw) : Nat := popc 32 x.w9.toNat
/-- FRAMES (R247). -/
def Pw.frames (x : Pw) : Nat := fld x.w8 22 16
/-- Payload bytes of a packet, the signalling substructure apart (R247). -/
def Pw.payload (x : Pw) : Nat := if x.ces then x.frames * x.slotCount else fld x.w8 10 0
/-- DEPTH (R247). -/
def Pw.depth (x : Pw) : Nat := fld x.w10 10 0
/-- Packets that cover DEPTH: ⌈DEPTH × 125 µs / P⌉ (R247, R249). -/
def Pw.cover (x : Pw) : Nat :=
  let up := fun (a b : Nat) => if b = 0 then 0 else (a + b - 1) / b
  if x.ces then up x.depth x.frames
  else if x.type = 0 then up (x.depth * 32) (fld x.w8 10 0) else up (x.depth * 193) (8 * fld x.w8 10 0)
/-- Buffer slots (R249). -/
def Pw.slots (x : Pw) : Nat := 2 * x.cover
/-- Pages of the jitter buffer (R249). -/
def Pw.need (x : Pw) : Nat := (x.slots * (128 + 64 * ((x.payload + 63) / 64)) + 4095) / 4096

/-- Event source of pseudowire `n` (R265). -/
def pwSource (n : Nat) : Nat := 0x600 + n / 256
/-- Data word 0 of a pseudowire event (R265). -/
def pwWord (n cause : Nat) (st : Bool) : Word := w32 (cause + 256 * n + 2 ^ 22 * b2n st)
/-- Pseudowire `n` raises an event (R265). -/
def pwEvent (s : State) (n cause : Nat) (st : Bool) (d1 : Word) : State := raise s (pwSource n) (pwWord n cause st) d1
/-- Count `i` (0 packets sent to 11 slips deleted) of a pseudowire (R261). -/
def Pw.cntOf (x : Pw) (i : Nat) : Word := x.cnt.getD i 0

/-- CEM_PEEK_STATE of pseudowire `n` (R263). -/
def pwState (s : State) (n : Nat) : Word := match pw? s n with
  | none => 0x80000000
  | some x => w32 (x.st + 4 * b2n x.lRx + 8 * b2n x.raiRx)
/-- CEM_PEEK_FILL of pseudowire `n` (R263). -/
def pwFill (s : State) (n : Nat) : Word := match pw? s n with
  | none => 0
  | some x => w32 (x.buf.length + 65536 * x.e)
/-- CEM_PEEK_FREQ of pseudowire `n` (R263). -/
def pwFreq (s : State) (n : Nat) : Word := match pw? s n with
  | none => 0
  | some x => i32 x.freq
/-- The PW_STATUS record of pseudowire `n` (R261). -/
def pwRecord (s : State) (n : Nat) : List Word := match pw? s n with
  | none => []
  | some x => [w32 n, pwState s n] ++ (List.range 12).map x.cntOf ++ [pwFreq s n, 0]

/-- Slot `a` is a slot of pseudowire `n`. -/
def onPw (n : Nat) (a : Word) : Bool := saTier a == 5 && saNum a == n

/-! ### Sending -/

/-- The termination that pseudowire `n` feeds, or the connection whose endpoint it is (R250). -/
def pwServes (s : State) (n : Nat) : Bool := (termOf s (pwAddr n 0)).isSome || (ccOf s 3 (w32 n)).isSome

/-- The unit that DS0-level source `a` lies in has AIS, LOS or LOF or no content; another pseudowire's slot has all ones in LOPS and while L is
received (R148, R251, R255). -/
def slotFails (s : State) (a : Word) : Bool :=
  let det := fun (d : PdhDefects) => d.shows .los || d.shows .ais || d.shows .lof
  !hasContent s a || (match saTier a with
    | 2 => det (Tab.get s.termFr (saNum a) {}).det
    | 3 => decide (tribMode (portCtl s (saPort a)) ≤ 2) && det (Tab.get s.ports (saPort a) {}).det
    | _ => copySf s a false)

/-- A signal that a clear-channel connection takes from an endpoint has AIS, LOS or LOF, or no content (R148, R251). -/
def endpointFails (s : State) (k : Nat) (id : Word) : Bool := match k with
  | 1 => copySf s id false
  | 2 => !bit (portCtl s (fld id 5 0)) 0 || (Tab.get s.ports (fld id 5 0) {}).det.shows .los ||
      (Tab.get s.ports (fld id 5 0) {}).det.shows .ais || (Tab.get s.ports (fld id 5 0) {}).det.shows .lof
  | _ => false

/-- L of the packets that pseudowire `n` sends: its source has AIS, LOS, LOF or no content; for CESoPSN, the source of every slot it
carries, an idle output having none that fails (R146, R148, R250, R251; log entry 142). -/
def pwL (s : State) (n : Nat) (x : Pw) : Bool :=
  if x.ces then
    ((List.range 32).filter (fun k => bit x.w9 k)).all (fun k => match outRead s (pwAddr n k) with
      | some a => slotFails s a
      | none => false)
  else if (termOf s (pwAddr n 0)).isSome then false
  else match ccOf s 3 (w32 n) with
    | some c => if c.aKind = 3 ∧ c.aId = w32 n then endpointFails s c.bKind c.bId else endpointFails s c.aKind c.aId
    | none => true

/-- ABCD nibbles packed two to a byte, the last byte padded with 0 (R258). -/
def packNibbles (fuel : Nat) (l : List (BitVec 4)) : List Byte := match fuel, l with
  | 0, _ => []
  | _, [] => []
  | _, [a] => [BitVec.ofNat 8 (a.toNat * 16)]
  | n + 1, a :: b :: r => BitVec.ofNat 8 (a.toNat * 16 + b.toNat) :: packNibbles n r

/-- The packet with sequence number `q` ends at a 16-frame multiframe boundary counted from the first frame (R258). -/
def Pw.endsMf (x : Pw) (q : Nat) : Bool := x.cas && (q + 1) * x.frames % 16 == 0

/-- Units of the RTP timestamp's count in 125 µs: bits of a SAToP signal, or one frame (R251). -/
def Pw.tsUnit (x : Pw) : Nat := if x.ces then 1 else if x.type = 0 then 256 else 193

/-- The control word (R251). -/
def pwControl (x : Pw) (l : Bool) (len : Nat) : Nat :=
  2 ^ 27 * b2n l + 2 ^ 26 * b2n (x.st == 3) + 2 ^ 24 * (if x.ces && (x.st == 3 || x.lRx) then 2 else 0) + 65536 * len + x.seqTx

/-- The RTP header: version 2, payload type 96, SSRC the pseudowire's number (R251). -/
def pwRtp (n : Nat) (x : Pw) : List Byte :=
  [0x80, 96] ++ natBe 2 x.seqTx ++ natBe 4 (x.tsTx / x.tsUnit) ++ natBe 4 n

/-- The fields that the device fills in a header template `t` of a packet with `rest` bytes after it (R248). -/
def fillHeader (x : Pw) (f : List Byte) : List Byte :=
  let h := typeAt f + 2
  if x.encap = 1 then
    let f := putBytes f (h + 2) (natBe 2 (f.length - h))
    let f := putBytes f (h + 4) (natBe 2 x.ipId)
    let f := putBytes f (h + 10) [0, 0]
    let f := putBytes f (h + 10) (natBe 2 (65535 - onesSum ((f.drop h).take 20)))
    let f := putBytes f (h + 24) (natBe 2 (f.length - h - 20))
    putBytes f (h + 26) [0, 0]
  else if x.encap = 2 then
    let f := putBytes f (h + 4) (natBe 2 (f.length - h - 40))
    let f := putBytes f (h + 44) (natBe 2 (f.length - h - 40))
    let f := putBytes f (h + 46) [0, 0]
    putBytes f (h + 46) (natBe 2 (udp6Sum f h))
  else f

/-- The frame of a packet without its FCS (R248, R251, R258). -/
def pwFrame (n : Nat) (x : Pw) (l : Bool) (payload : List Byte) (abcd : List (BitVec 4)) : List Byte :=
  let p := if l then List.replicate payload.length 0xFF else payload
  let sig := if x.endsMf x.seqTx then packNibbles 32 abcd else []
  let rtp := if x.rtp then pwRtp n x else []
  let len := 4 + rtp.length + p.length + sig.length
  let short := decide (x.tmpl.length + len < 60)
  let f := x.tmpl ++ natBe 4 (pwControl x l (if short then len else 0)) ++ rtp ++ p ++ sig
  let f := fillHeader x f
  f ++ List.replicate (60 - f.length) 0

/-- The slots that a pseudowire carries, in ascending order (R247). -/
def Pw.carried (x : Pw) : List Nat := (List.range 32).filter (bit x.w9)

/-- ABCD of slot `k` from the CAS multiframe of output 16: frame `k` holds slots `k` and `k` + 16 (R258; G.704). What the multiframe does not
give is open (log entry 94). -/
def Pw.abcdOf (x : Pw) (k : Nat) : BitVec 4 :=
  if x.casAt.isNone ∨ k % 16 = 0 then Config.idleAbcd k
  else
    let b := (x.casMf.getD (k % 16) 0).toNat
    BitVec.ofNat 4 (if k < 16 then b / 16 else b % 16)

/-- The ABCD bits of the slots carried, as a packet has them (R258). -/
def Pw.abcd (x : Pw) : List (BitVec 4) := if x.cas then x.carried.map x.abcdOf else []

/-- Output 16 of a pseudowire with CAS receives `b`: the multiframe is found at two alignment patterns 2 ms apart, and lost where two in a row
are absent (R110, R258). -/
def Pw.casTake (x : Pw) (b : Byte) : Pw :=
  let hit := decide (b.toNat < 16)
  let y := { x with casSeen := (b :: x.casSeen).take 16 }
  match x.casAt with
  | some p =>
    let q := (p + 1) % 16
    if q = 0 ∧ !hit ∧ x.casMiss then { y with casAt := none, casMiss := false }
    else { y with casAt := some q, casMiss := if q = 0 then !hit else x.casMiss, casMf := listPut x.casMf q b }
  | none =>
    if hit ∧ x.casSeen.length = 16 ∧ (x.casSeen.getD 15 0xFF).toNat < 16 then
      { y with casAt := some 0, casMiss := false, casMf := List.replicate 16 b } else y

/-- A SAToP pseudowire that serves neither a termination nor a connection has no signal to collect, and sends its packets all the same (R250). -/
def pwIdle (s : State) (n : Nat) (x : Pw) : Bool := !x.ces && !pwServes s n

/-- PW_PACKET_TX: once its payload has been collected from the DS0 tier or its clear-channel signal, pseudowire `n` sends its next packet,
with the ABCD bits of its slots; while the lane is not link up the packet is dropped and counted, and it waits for a host frame under way
(R242, R246, R248, R250, R251, R258). -/
def execPwPacketTx (n : Fin 16384) (s : State) : Out :=
  .next (match pw? s n with
    | none => s
    | some x =>
      let payload := fitBytes x.payload (bitsBytes (x.txBits.take (8 * x.payload)))
      if x.txBits.length < 8 * x.payload ∧ !pwIdle s n x then s
      else
        let f := pwFrame n x (pwL s n x) payload x.abcd
        let step := if x.ces then x.frames else 8 * x.payload
        let y := { x with
          txBits := x.txBits.drop (8 * x.payload)
          seqTx := (x.seqTx + 1) % 65536, ipId := (x.ipId + 1) % 65536, tsTx := (x.tsTx + step) % (2 ^ 32 * x.tsUnit) }
        pwDue (setPw s n y) x.lane (n, f))

/-! ### Which pseudowire claims a frame -/

/-- The bottom MPLS label from byte `i` on, after at most `k` labels above it: its value and the byte after it (R252). -/
def bottomLabel (f : List Byte) (i k : Nat) : Option (Nat × Nat) :=
  let v := beNat ((f.drop i).take 4)
  if v / 256 % 2 = 1 then some (v / 4096, i + 4)
  else match k with
    | 0 => none
    | k + 1 => bottomLabel f (i + 4) k

/-- What the encapsulation of a frame shows: ENCAP, destination IP (none for MPLS), label or port, and where the control word lies
(R252). -/
def encapOf (f : List Byte) : Option (Nat × List Byte × Nat × Nat) :=
  let h := typeAt f + 2
  if frame16 f (typeAt f) = 0x8847 then (bottomLabel f h 2).map (fun p => (0, [], p.1, p.2))
  else match udpAt f with
    | some u =>
      if frame16 f (typeAt f) = 0x0800 then
        (if u = h + 20 then some (1, (f.drop (h + 16)).take 4, frame16 f (u + 2), u + 8) else none)
      else some (2, (f.drop (h + 24)).take 16, frame16 f (u + 2), u + 8)
    | none => none

/-- The source IP address of a template (R252). -/
def tmplSource (x : Pw) : List Byte :=
  let h := typeAt x.tmpl + 2
  if x.encap = 1 then (x.tmpl.drop (h + 12)).take 4 else if x.encap = 2 then (x.tmpl.drop (h + 8)).take 16 else []

/-- Pseudowire `x` on lane `l` claims what `encapOf` shows (R252). -/
def Pw.claims (x : Pw) (l : Nat) (e : Nat × List Byte × Nat × Nat) : Bool :=
  x.lane == l && x.encap == e.1 && e.2.1 == tmplSource x &&
    (if x.encap = 0 then fld x.w11 19 0 == e.2.2.1 else fld x.w11 15 0 == e.2.2.1)

/-- The pseudowire that claims a frame received on lane `l`, and where the control word lies (R252). -/
def pwOf (s : State) (l : Nat) (f : List Byte) : Option (Nat × Pw × Nat) :=
  if f.take 6 ≠ laneMac s l then none
  else match encapOf f with
    | none => none
    | some e => (List.find? (fun p => p.2.claims l e) s.cem.pws).map (fun p => (p.1, p.2, e.2.2.2))

/-! ### The jitter buffer -/

/-- Re-centring: a return to WAIT with an empty buffer (R254). -/
def Pw.recentre (x : Pw) : Pw := { x with st := 0, buf := [], missRun := 0, inRun := 0 }

/-- The packets held cover DEPTH from E (R254). -/
def Pw.covers (x : Pw) : Bool := x.buf.any (fun p => decide (x.cover ≤ (p.seq + 65536 - x.e) % 65536 + 1))

/-- Frames of the packet in play that the DS0 tier has still to read (R257). -/
def Pw.unread (x : Pw) : Nat := x.play.length / x.slotCount - x.playPos

/-- A CESoPSN pseudowire repeats one frame of every slot, the last one read, or deletes the next one (R257). -/
def Pw.slips (x : Pw) (del : Bool) : Pw :=
  let cut := fun {α : Type} (k : Nat) (l : List α) =>
    if del then l.take (x.playPos * k) ++ l.drop ((x.playPos + 1) * k)
    else l.take (x.playPos * k) ++ (l.drop ((x.playPos - 1) * k)).take k ++ l.drop (x.playPos * k)
  { x with play := cut x.slotCount x.play, play16 := cut 1 x.play16 }

/-- The slip that the arrival of the newest packet, `d` slots ahead of the next one due, calls for in PLAY: a frame is repeated where less than
one packet is left to play, deleted where less than one packet's room is left. The fill is counted in frames, so the next slip comes
after one frame of drift (R117, R257). -/
def Pw.slipDue (x : Pw) (d : Nat) : Option Bool :=
  if !x.ces || x.st != 2 || x.slotCount == 0 || x.buf.any (fun p => decide (d ≤ (p.seq + 65536 - x.e) % 65536)) then none
  else if d * x.frames + x.unread < x.frames then some false
  else if (x.slots - d) * x.frames < x.frames + x.unread then some true
  else none

/-- CESoPSN pseudowire `n` repeats or deletes a frame, and counts the slip (R257). -/
def pwSlip (s : State) (n : Nat) (del : Bool) : State := match pw? s n with
  | none => s
  | some x =>
    raiseOnce (setPw s n ((x.slips del).tally (if del then 11 else 10))) (pwSource n) 6 n (pwWord n 6 false) (w32 (b2n del))

/-- A packet is stored; FILL gives way to PLAY once the packets cover DEPTH (R253, R254). -/
def Pw.put (x : Pw) (p : PwPkt) : Pw :=
  let x := { x with buf := p :: x.buf }
  if x.st = 1 ∧ x.covers then { x with st := 2 } else x

/-- A packet that passed its checks is placed by its sequence number. A packet beyond the buffer, for which more than a packet's worth of frames
would have to slip, re-centres it; one behind E is late (R253, R254, R255, R257). -/
def placePacket (s : State) (n : Nat) (p : PwPkt) : State := match pw? s n with
  | none => s
  | some x =>
    if x.st = 3 then
      let run := if x.inRun ≠ 0 ∧ p.seq = (x.inLast + 1) % 65536 then x.inRun + 1 else 1
      if fld x.w10 19 16 ≤ run then
        let s := setPw s n x.recentre
        refreshConds (pwEvent s n 1 false (x.cntOf 2))
      else setPw s n { x with inRun := run, inLast := p.seq }
    else if x.st = 0 then setPw s n (({ x with st := 1, e := p.seq } : Pw).put p)
    else
      let d := (p.seq + 65536 - x.e) % 65536
      if 32768 ≤ d then setPw s n (x.tally 3)
      else if x.slots ≤ d then
        let x := (x.tally 6).recentre
        let s := setPw s n (({ x with st := 1, e := p.seq } : Pw).put p)
        pwEvent s n 5 false (w32 p.seq)
      else if x.buf.any (fun q => q.seq == p.seq) then setPw s n (x.tally 4)
      else
        let y := x.put p
        if !y.ces && y.st == 2 && decide (y.slots ≤ y.buf.length) then
          pwEvent (setPw s n y.recentre) n 5 false (w32 p.seq)
        else match x.slipDue d with
          | some del => pwSlip (setPw s n y) n del
          | none => setPw s n y

/-- A malformed packet is discarded and counted (R252). -/
def malformed (s : State) (n : Nat) (x : Pw) : State :=
  let x := x.tally 5
  raiseOnce (setPw s n x) (pwSource n) 4 n (pwWord n 4 false) (x.cntOf 5)

/-- A received bit of a pseudowire, L (cause 2) or RAI (cause 3), follows a packet: a change raises its event (R252). -/
def pwBit (s : State) (n cause : Nat) (b : Bool) : State := match pw? s n with
  | none => s
  | some x =>
    let old := if cause = 2 then x.lRx else x.raiRx
    if old = b then s
    else
      let s := setPw s n (if cause = 2 then { x with lRx := b } else { x with raiRx := b })
      let s := pwEvent s n cause b 0
      if cause = 2 then refreshConds s else s

/-- A frame that pseudowire `n` claims, without its FCS, the control word at byte `c` (R251 to R255, R258). -/
def pwReceive (s : State) (n : Nat) (x : Pw) (f : List Byte) (c : Nat) : State :=
  let cw := beNat ((f.drop c).take 4)
  let len := cw / 65536 % 64
  let head := if x.rtp then 16 else 4
  let sigLen := if x.cas then (x.slotCount + 1) / 2 else 0
  let size := fun (sig : Bool) => head + x.payload + (if sig then sigLen else 0)
  let fits := fun (sig : Bool) =>
    if c + size sig < 60 then len == size sig && decide (c + size sig ≤ f.length) else len == 0 && f.length == c + size sig
  let q := cw % 65536
  let sig := x.cas && fits true
  if cw / 2 ^ 28 ≠ 0 ∨ cw / 2 ^ 22 % 4 ≠ 0 ∨ !(sig || fits false) ∨
      (x.rtp ∧ (f.getD (c + 4) 0).toNat / 64 ≠ 2) then malformed s n x
  else
    let l := cw / 2 ^ 27 % 2 == 1
    let r := cw / 2 ^ 26 % 2 == 1
    let rai := x.ces && cw / 2 ^ 24 % 4 == 2
    let pay := (f.drop (c + head)).take x.payload
    let data := if l then List.replicate x.payload 0xFF else pay
    let y := x.tally 1
    let y := if l then y.tally 8 else y
    let y := if r then y.tally 9 else y
    let s := setPw s n y
    let s := pwBit s n 2 l
    let s := if x.ces then pwBit s n 3 rai else s
    placePacket s n { seq := q, data := data, l := l
                      sig := if sig then (f.drop (c + head + x.payload)).take sigLen else [] }

/-- The bytes that the receive path of Ethernet lane `n` takes when `balls` arrives at the balls: in near-end loopback the oldest
frame that the lane has sent and not yet taken back, none where there is none or where the lanes of a quad are looped in different ways (R45). -/
def ethTaken (s : State) (n : Nat) (balls : List Byte) : Option (List Byte) := match macLoop s n with
  | 1 => (eth s n).looped.head?
  | 3 => if (rangeFrom n 4).any (fun k => loopOf s k == 1) then none else some balls
  | _ => some balls

/-- What far-end loopback sends back, and what near-end loopback has brought back (R45). -/
def ethLoops (s : State) (n : Nat) (balls : List Byte) : State :=
  let s := if (eth s n).looped.isEmpty then s else editEth s n (fun e => { e with looped := e.looped.drop 1 })
  if macLoop s n = 2 ∧ !bit (laneCtl s n) 11 then wire s "eth" n (ethPreamble ++ balls) else s

/-- The RS-FEC of Clause 108 runs on lane `n`: MODE 5 with LANE_CTL.FEC (R32). -/
def fecOn (s : State) (n : Nat) : Bool := laneMode s n == 5 && bit (laneCtl s n) 10

/-- Codewords that the RS-FEC of lane `n` corrected and found uncorrectable (R32, R264). -/
def fecCounts (s : State) (n corr uncorr : Nat) : State :=
  let s := if corr = 0 then s else count s (Reg.laneEthFecCorr n) corr
  if uncorr = 0 then s
  else
    let k := (eth s n).fecSec + uncorr
    let s := count (editEth s n (fun e => { e with fecSec := k })) (Reg.laneEthFecUncorr n) uncorr
    raiseOnce s n 0x36 n (w32 (0x36 + 256 * n)) (w32 k)

/-- A frame with its FCS on lane `n`, whose PCS is in lock: discarded, claimed by a pseudowire, delivered as a host frame, or counted
as matching nothing (R241, R245, R252, R264). -/
def macReceive (s : State) (n : Nat) (f : List Byte) (io : HostIO) : State :=
  let b := f.take (f.length - 4)
  if f.length < 64 ∨ fget s (Reg.laneEthCtl n) 13 0 < f.length ∨ f.drop (f.length - 4) ≠ ethFcs b then
    count s (Reg.laneEthRxFcs n) 1
  else if frame16 b 12 = 0x8808 then count s (Reg.laneEthRxPause n) 1
  else
    let s := count s (Reg.laneEthRxOk n) 1
    match pwOf s n b with
    | some (k, x, c) => pwReceive s k x b c
    | none => if hostFrame s n b then hostDeliver s n b io else count s (Reg.laneEthRxNomatch n) 1

/-- ETH_FRAME_RX: a received frame is checked, claimed by a pseudowire, delivered as a host frame, or discarded (R241, R243 to R245,
R252, R264). -/
def execEthFrameRx (lane : LaneId) (f : EthRx) (io : HostIO) (s : State) : Out :=
  let n : Nat := lane
  .next (
    if !ethLane s n || laneState s n != 4 then s
    else
      let taken := ethTaken s n f.bytes
      let s := ethLoops s n f.bytes
      if !bget s (Reg.laneEthStatus n) 0 then s
      else
        let s := if fecOn s n then fecCounts s n f.corr f.uncorr else s
        match taken with
        | some b => macReceive s n b io
        | none => s)

/-! ### Playout -/

/-- What a slot played without its packet carries (R255). -/
def Pw.fill (x : Pw) : List Byte := match fld x.w7 14 13 with
  | 1 => List.replicate x.payload (wordByte x.w10 3)
  | 2 => fitBytes x.payload x.lastPay
  | _ => List.replicate x.payload 0xFF

/-- TS16 in frame `i` of the CAS multiframe that a pseudowire writes: 0x0B, then the received nibbles of slots `i` and `i` + 16 (R258; G.704). -/
def Pw.ts16 (x : Pw) (i : Nat) : Byte :=
  let nib := fun (k : Nat) => if bit x.w9 k && !x.casRx.isEmpty then
      let j := popc k x.w9.toNat
      let b := (x.casRx.getD (j / 2) 0).toNat
      if j % 2 = 0 then b / 16 else b % 16
    else (Config.idleAbcd k).toNat
  if i % 16 = 0 then 0x0B else BitVec.ofNat 8 (nib (i % 16) * 16 + nib (i % 16 + 16))

/-- The bytes `b` of the slot with sequence number `q` are played: frame by frame for CESoPSN, with CAS the frames of the multiframe counted
from the first frame of the stream, and as a stream of bits for SAToP (R250, R254, R258). -/
def Pw.plays (x : Pw) (q : Nat) (b : List Byte) : Pw :=
  if x.ces then { x with
    play := b, playPos := 0, lastPay := b
    play16 := if x.cas then (List.range x.frames).map (fun i => x.ts16 (q * x.frames + i)) else [] }
  else
    let o := x.out ++ bytesBits b
    { x with play := b, playPos := 0, lastPay := b, out := o.drop (o.length - 32768) }

/-- All ones are played for one period, as outside PLAY (R254). -/
def Pw.mute (x : Pw) : Pw :=
  { ({ x with playOk := false } : Pw).plays x.e (List.replicate x.payload 0xFF) with play16 := [] }

/-- The frames of the slot in play have all been read (R250, R257). -/
def Pw.played (x : Pw) : Bool := !x.ces || decide (x.play.length ≤ x.playPos * x.slotCount)

/-- PW_PLAYOUT: the slot that is due once the one in play has been read is played: its packet, the fill in its place, or all ones; the recovered frequency goes on while
packets play, within ±200 ppm (R254 to R257). -/
def execPwPlayout (n : Fin 16384) (s : State) : Out :=
  .next (match pw? s n with
    | none => s
    | some x =>
      if x.st ≠ 2 then setPw s n x.mute
      else if !x.played then s
      else
        let freq := iclamp (-200000) 200000 (sgn 32 (freeNow s).toNat)
        let s := freeNext s
        let next := { x with e := (x.e + 1) % 65536, freq := freq }
        match (if s.hbm.rail4 then x.buf.find? (fun p => p.seq == x.e) else none) with
        | some p =>
          let y := ({ next with
            buf := x.buf.filter (fun q => q.seq != x.e), playOk := !p.l, missRun := 0 } : Pw).plays x.e p.data
          let y := if p.sig.isEmpty then y else { y with casRx := p.sig }
          if x.ces then setPw s n y
          else if y.buf.isEmpty then pwEvent (setPw s n y.recentre) n 5 false (w32 y.e)
          else setPw s n y
        | none =>
          let y := (({ next with playOk := false, missRun := x.missRun + 1 } : Pw).plays x.e x.fill).tally 2
          if fld x.w10 15 12 ≤ y.missRun then
            let y := ({ y with st := 3, buf := [], missRun := 0, inRun := 0 } : Pw).tally 7
            refreshConds (pwEvent (setPw s n y) n 1 true (y.cntOf 2))
          else setPw s n y)

/-! ### PW_CFG -/

/-- A pseudowire as a PW_CFG describes it: words from word 6 on, and its template. -/
def pwNew (w : List Word) (buf : List Byte) : Pw :=
  { w7 := w.getD 1 0, w8 := w.getD 2 0, w9 := w.getD 3 0, w10 := w.getD 4 0, w11 := w.getD 5 0, tmpl := buf }

/-- The pseudowires once every PW_CFG that waits for its boundary has taken effect. -/
def pwsAhead (s : State) : Tab Pw :=
  s.deferred.foldl (fun t x => match x.act with
    | .pw w buf =>
      let n := fld (w.getD 0 0) 13 0
      let y := pwNew w buf
      if bit (w.getD 0 0) 31 then Tab.drop t n else Tab.put t n { y with pages := y.need }
    | _ => t) s.cem.pws

/-- CEM pages held (R263). -/
def cemPages (s : State) : Nat := (s.cem.pws.map (fun p => p.2.pages)).sum + s.hbm.freeing
/-- Free pages of CEM, those that waiting PW_CFGs will hold apart; what a removal frees is free at its boundary (R15, R387, R388). -/
def cemFree (s : State) : Nat :=
  let t := pwsAhead s
  let more := (t.map (fun p => p.2.pages - (match pw? s p.1 with
    | some y => y.pages
    | none => 0))).sum
  s.hbm.placed.getD 1 0 * 262144 - (cemPages s + more)

/-- A header template breaks R248. -/
def tmplBad (s : State) (x : Pw) : Bool :=
  let f := x.tmpl
  let t := typeAt f
  let h := t + 2
  f.length < 14 || decide (128 < f.length) || (f.drop 6).take 6 != laneMac s x.lane ||
    (match x.encap with
     | 0 => frame16 f t != 0x8847 || (match bottomLabel f h 2 with
        | some p => p.2 != f.length
        | none => true)
     | 1 => frame16 f t != 0x0800 || f.length != h + 28 || (f.getD h 0).toNat != 0x45 || (f.getD (h + 9) 0).toNat != 17
     | _ => frame16 f t != 0x86DD || f.length != h + 48 || (f.getD h 0).toNat / 16 != 6 || (f.getD (h + 6) 0).toNat != 17)

/-- Reason 2 of R249, reserved bits and the template apart. -/
def pwBad2 (x : Pw) : Bool :=
  x.encap == 3 || fld x.w7 14 13 == 3 || (x.cas && !x.ces) || fld x.w10 21 20 == 3 || decide (x.depth < 2) ||
    decide (1024 < x.depth) || decide (fld x.w10 15 12 < 2) || fld x.w10 19 16 == 0 ||
    (x.encap != 0 && fld x.w11 19 16 != 0) ||
    (if x.ces then x.frames == 0 || decide (64 < x.frames) || decide (1536 < x.payload)
     else decide (x.payload < 32) || decide (1536 < x.payload))

/-- Reason 3 of R249. -/
def pwBad3 (x : Pw) : Bool :=
  if x.ces then
    x.w9 == 0 || (x.type == 3 && fld x.w9 31 24 != 0) || (x.cas && (x.type == 3 || bit x.w9 16)) ||
      (x.cas && 16 % x.frames != 0)
  else x.w9 != 0

/-- A change that a configured pseudowire does not admit (R249 reason 4). -/
def pwChanged (x y : Pw) : Bool :=
  (x.w7 ^^^ y.w7) &&& 0x1FFF != 0 || x.w9 != y.w9 || (if y.ces then x.frames != y.frames else x.payload != y.payload)

/-- RX_KEY is used by another pseudowire with the same ENCAP on the same lane (R249 reason 4). -/
def pwKeyUsed (s : State) (n : Nat) (y : Pw) : Bool :=
  (pwsAhead s).any (fun p => p.1 != n && p.2.encap == y.encap && p.2.lane == y.lane && fld p.2.w11 19 0 == fld y.w11 19 0)

/-- The pseudowire or its slots are named (R249 reason 5, R168). -/
def pwNamed (s : State) (n : Nat) : Bool :=
  entryNames s (onPw n) || selNames s (onPw n) || pwServes s n ||
    gatherNames s (fun i => Staged.names (onPw n) i || (match i with
      | .cc w => (fld (w.getD 0 0) 1 0 == 3 && w.getD 1 0 == w32 n) || (fld (w.getD 2 0) 1 0 == 3 && w.getD 3 0 == w32 n)
      | _ => false))

/-- The reason for which a PW_CFG fails, with result word 1; `buf` is its template, empty where LENGTH is 0 (R249). -/
def pwReason (s : State) (w : List Word) (len : Nat) (buf : List Byte) : Option (Nat × Nat) :=
  let n := fld (w.getD 0 0) 13 0
  let old := Tab.find? (pwsAhead s) n
  let y := pwNew w buf
  if bit (w.getD 0 0) 31 then
    if (w.drop 1).any (fun v => v != 0) ∨ len ≠ 0 then some (2, 0)
    else if old.isNone then some (4, 0) else if pwNamed s n then some (5, 0) else none
  else if !laneEn s y.lane || quadMember s y.lane || !(decide (4 ≤ laneMode s y.lane) && decide (laneMode s y.lane ≤ 6)) then
    some (1, 0)
  else if pwBad2 y || (!(len = 0 ∧ old.isSome) && tmplBad s y) then some (2, 0)
  else if pwBad3 y then some (3, 0)
  else if pwKeyUsed s n y || (match old with
      | some x => pwChanged x y
      | none => false) then some (4, 0)
  else
    let have' := max ((old.map Pw.pages).getD 0) (((pw? s n).map Pw.pages).getD 0)
    if cemFree s < y.need - have' then some (6, (y.need - have' - cemFree s) * 4096)
    else if y.ces ∧ old.isNone ∧ 65536 ≤ ds0Ahead (withReserved s) [] then some (8, 0)
    else none

/-- A PW_CFG takes effect (R247, R249, R254). -/
def applyPw (s : State) (w : List Word) (buf : List Byte) (d : Nat) : State :=
  let n := fld (w.getD 0 0) 13 0
  let y := pwNew w buf
  let y := { y with pages := y.need }
  match pw? s n with
  | none =>
    if bit (w.getD 0 0) 31 then completeOk s d 0 0 else completeOk (setPw s n y) d (w32 (y.pages * 4096)) 0
  | some x =>
    if bit (w.getD 0 0) 31 then
      let t := { s with cem := { s.cem with pws := Tab.drop s.cem.pws n },
                        hbm := { s.hbm with freeing := s.hbm.freeing + x.pages } }
      completeOk (orphanCheck s (dropEntries t)) d (w32 (x.pages * 4096)) 0
    else
      let z := { x with
        w7 := y.w7, w8 := y.w8, w10 := y.w10, w11 := y.w11, pages := y.pages, tmpl := if buf.isEmpty then x.tmpl else buf }
      let s := if z.depth = x.depth then setPw s n z
        else if x.st = 3 then refreshConds (pwEvent (setPw s n z.recentre) n 1 false (x.cntOf 2))
        else setPw s n z.recentre
      completeOk s d (w32 (z.pages * 4096)) 0

/-- A PW_CFG, its template read, is checked and waits for the next frame boundary (R249). -/
def pwCfg (s : State) (x : Desc) (buf : List Byte) : State := match pwReason s (cfgWords x) x.len buf with
  | some (r, n) => complete s x.id 3 (w32 r) (w32 n)
  | none => defer s x.id false (.pw (cfgWords x) buf)

/-- PW_CFG that creates a pseudowire or changes it; a LENGTH out of range is refused before the template is read (R247, R249). -/
def execPwCfg (d : Nat) (io : HostIO) (s : State) : Out :=
  .next (match takeInput s d 0x48 with
    | none => s
    | some (s', x) =>
      if bit (x.w 6) 31 then s
      else if rangeBad s x then invalid s' d 0xF4
      else if x.len = 0 then pwCfg s' x []
      else if x.len < 14 ∨ 128 < x.len then
        complete s' d 3 (w32 (if !laneEn s (fld (x.w 7) 12 6) ∨ laneMode s (fld (x.w 7) 12 6) < 4 then 1 else 2)) 0
      else withInput s' io x x.len (fun s b => pwCfg s x b))

/-- PW_CFG with REMOVE (R247, R249, R333). -/
def execPwRemove (d : Nat) (s : State) : Out :=
  .next (match takeDesc s d 0x48 with
    | none => s
    | some x => if !bit (x.w 6) 31 then s else if rangeBad s x then invalid s d 0xF4 else pwCfg s x [])

/-- The CEM_PEEK registers are refreshed (R263). -/
def cemPeek (s : State) : State :=
  let n := fget s Reg.cemPeekSel 13 0
  wr (wr (wr s Reg.cemPeekState (pwState s n)) Reg.cemPeekFill (pwFill s n)) Reg.cemPeekFreq (pwFreq s n)

end Sys2Proof.Machine
end

