-- ==== Sys2Proof/Machine/Apply.lean ====
section
/-! DEFINITION. Changes that wait for a boundary take effect, and a gather is applied (R76, R123, R154, R170 to R173). -/

namespace Sys2Proof.Machine

/-- A deferred change takes effect (R76, R154, R156). -/
def applyDeferred (s : State) (x : Deferred) : State := match x.act with
  | .edits l => applyEdits s l x.d
  | .term w => applyTerm s w x.d
  | .cc w => applyCC s w x.d
  | .path w b => completeOk (applyPathCfg s w b) x.d 0 0
  | .sel w => applySel s w x.d
  | .aps w => applyAps s w x.d
  | .merge w => applyMerge s w x.d
  | .guard w => applyGuard s w x.d
  | .pw w b => applyPw s w b x.d

/-- The changes `now` take effect, in this order, and the changes `rest` go on waiting (R173). -/
def applyNow (s : State) (now rest : List Deferred) : State := now.foldl applyDeferred { s with deferred := rest }

/-- A TU multiframe boundary falls on this frame and has not acted yet (R171). -/
def tuAhead (s : State) : Bool := s.glb.mfDue && s.glb.frame % 4 == 0

/-- The changes that wait for this boundary take effect, in the order in which their validations ended, unless a gather is
still to be applied in this frame. On a frame that is also a TU multiframe boundary, those for the frame that follow one for the multiframe
wait with it (R173). -/
def applyBoundary (s : State) (tu : Bool) : State :=
  if !(gathersDue s).isEmpty then s
  else if tu then
    applyNow s (s.deferred.filter (fun x => x.tu || x.due)) (s.deferred.filter (fun x => !(x.tu || x.due)))
  else if tuAhead s then
    applyNow s (s.deferred.takeWhile (fun x => !x.tu))
      ((s.deferred.dropWhile (fun x => !x.tu)).map (fun x => { x with due := !x.tu }))
  else applyNow s (s.deferred.filter (fun x => !x.tu)) (s.deferred.filter (fun x => x.tu))

/-- GATHER_APPLY: every edit of the gather at the commit frame, in the order of R170; the direct changes of the frame follow the
last gather, and the PEEK registers show them (R158, R170, R173, R175, R180, R200). -/
def execGatherApply (slot : Fin 16) (s : State) : Out :=
  let i : Nat := slot
  .next (
    if (gathersDue s).head? ≠ some i then s
    else
      let g := gslot s i
      let s := mapChanged (putItems s g.items)
      let s := freeSlot s i
      let w := w32 (g.sfc + 65536 * b2n g.moved)
      let s := journal s (jrnWords s 3 i g w 0 0 (w32 g.tag) (rd s Reg.mapGen)) true
      let s := gthEvent s i g.gid 2 (rd s Reg.mapGen)
      protPeek (mapPeek (applyBoundary s false)))

end Sys2Proof.Machine
end

