-- ==== Sys2Proof/Machine/Evt.lean ====
section
/-! DEFINITION. Event routing, announcement, chained counters and latching reads (17_events_counters.md, R349 to R364). -/

namespace Sys2Proof.Machine

/-! ### Raw counters -/

/-- The offset, within its lane, of a lane's raw counter (R442). -/
def laneCounter (o : Nat) : Bool :=
  o == 0x18 || o == 0x1C || (o % 4 == 0 && ((0x180 ≤ o && o ≤ 0x1BC) || (0x280 ≤ o && o ≤ 0x2A0)))

/-- Position of a lane's counter among its 27 in offset order (R442). -/
def lanePos (o : Nat) : Nat :=
  if o = 0x18 then 0 else if o = 0x1C then 1 else if o < 0x280 then 2 + (o - 0x180) / 4 else 18 + (o - 0x280) / 4

/-- The snapshot word of the raw counter at BAR0 offset `x`; `none` where `x` names none (R442). -/
def counterWord (x : Nat) : Option Nat :=
  if x = 0x20020 then some 0 else if x = 0x20034 then some 1 else if x = 0x20044 then some 2
  else if x = 0x30004 then some 3 else if x = 0x30114 then some 4 else if x = 0x30118 then some 5
  else if 0x100000 ≤ x ∧ x < 0x180000 then
    if laneCounter (x % 0x1000) then some (6 + 27 * ((x - 0x100000) / 0x1000) + lanePos (x % 0x1000)) else none
  else if 0x180000 ≤ x ∧ x < 0x190000 then
    if x % 4 = 0 ∧ 0x80 ≤ x % 0x400 ∧ x % 0x400 ≤ 0xBC then
      some (3462 + 16 * ((x - 0x180000) / 0x400) + (x % 0x400 - 0x80) / 4)
    else none
  else if 0x207000 ≤ x ∧ x < 0x207800 then if x % 4 = 0 then some (4486 + (x - 0x207000) / 4) else none
  else if x = 0x300020 then some 4998 else if x = 0x300024 then some 4999
  else if 0x300100 ≤ x ∧ x < 0x300180 then
    if x % 16 = 8 then some (5000 + 2 * ((x - 0x300100) / 16))
    else if x % 16 = 12 then some (5001 + 2 * ((x - 0x300100) / 16)) else none
  else if 0x330100 ≤ x ∧ x < 0x330500 then if x % 16 = 8 then some (5016 + (x - 0x330100) / 16) else none
  else if x = 0x35000C then some 5080
  else if x = 0x100002C then some 5081 else if x = 0x1000030 then some 5082
  else if x = 0x1010010 then some 5083 else if x = 0x1010014 then some 5084 else if x = 0x1010018 then some 5085
  else none

/-- `off` names a raw counter (R442). -/
def rawCounter (off : Nat) : Bool := (counterWord off).isSome

/-- COUNTER_CARRY: the raw counter at `off` takes an increment that passes its top: it wraps, and every chain slot on it
takes one carry (R355, R357). -/
def execCounterCarry (off n : Nat) (s : State) : Out :=
  .next (if rawCounter off && decide (n < 2 ^ 32) && decide (2 ^ 32 ≤ (rd s off).toNat + n) then count s off n else s)

/-! ### Chain slots -/

/-- A chain configuration is refused: it would enable a slot on no raw counter, or on one that another enabled slot holds
(R364). -/
def chainRefused (s : State) (k : Nat) (v : Word) : Bool :=
  bit v 31 && (!rawCounter (fld v 25 0) || (List.range 256).any (fun j => j != k && chained s j (fld v 25 0)))

/-- CHAIN_CFG_WRITE: enabling a slot or changing its counter starts HIGH and EPOCH at 0 (R357, R364). -/
def execChainCfgWrite (k : Fin 256) (v : Word) (s : State) : Out :=
  let off := Reg.pmChainCfg k
  .next (hostWrite s off v (fun s =>
    if chainRefused s k v then ignoredWrite s off
    else
      let old := rd s off
      let s := wr s off (v &&& 0x83FFFFFF)
      if (bit v 31 && !bit old 31) || fld v 25 0 != fld old 25 0 then
        bset (wr s (Reg.pmChainHi k) 0) (Reg.pmChainSt k) 0 false
      else s))

/-- CHAIN_HI_WRITE: HIGH takes the value and EPOCH stays (R357). -/
def execChainHiWrite (k : Fin 256) (v : Word) (s : State) : Out :=
  .next (hostWrite s (Reg.pmChainHi k) v (fun s => wr s (Reg.pmChainHi k) v))

/-- What a BAR0 read of a latching register returns. -/
def readOut (s : State) (off : Nat) (v : Word) : State := wire s "bar0-read" off (wordBytes v)

/-- CHAIN_HI_READ: the read returns HIGH and latches EPOCH; in REPLAY it returns ones and latches nothing (R26, R358,
R440). -/
def execChainHiRead (k : Fin 256) (s : State) : Out :=
  let off := Reg.pmChainHi k
  .next (
    if hostDeaf s then s
    else if regLocked s then hostWait s off 4 false []
    else if replay s then readOut s off 0xFFFFFFFF
    else readOut (bset s (Reg.pmChainSt k) 1 (bget s (Reg.pmChainSt k) 0)) off (rd s off))

/-! ### The snapshot registers -/

/-- PM_SNAP_VAL, PM_SNAP_HI and PM_SNAP_STAT for counter `off` of a snapshot (R364). -/
def snapRegs (sn : Option Snap) (off : Nat) : Word × Word × Word :=
  if !rawCounter off then (0, 0, 1)
  else match sn with
    | none => (0, 0, 0)
    | some p =>
      let v := Tab.get p.cnt off 0
      match List.find? (fun c => c.2.off == off) p.chain with
      | some c => (v, c.2.high, w32 (2 + 4 * b2n c.2.epoch))
      | none => (v, 0, 0)

/-- SNAP_SEQ_READ: the read returns SEQ and latches the counter named by PM_SNAP_ADDR (R26, R364, R440). -/
def execSnapSeqRead (s : State) : Out :=
  .next (
    if hostDeaf s then s
    else if regLocked s then hostWait s Reg.pmSnapSeq 4 false []
    else if replay s then readOut s Reg.pmSnapSeq 0xFFFFFFFF
    else
      let r := snapRegs s.pm.snap (fget s Reg.pmSnapAddr 25 0)
      readOut { s with pm := { s.pm with latVal := r.1, latHi := r.2.1, latStat := r.2.2 } } Reg.pmSnapSeq (w32 s.pm.seq))

/-! ### Routing and coalescing -/

/-- HELD_RECORD_FLUSH: every held record that no condition of R352 holds back is written, oldest first (R353). -/
def execHeldRecordFlush (s : State) : Out := .next (flushEvents s)

/-- EVT_ROUTE_WRITE: a ring of another class is refused; EN = 0 discards the records held; the rest takes effect at once
(R350, R351, R363). -/
def execEvtRouteWrite (n : Fin 2048) (v : Word) (s : State) : Out :=
  let off := Reg.evtRoute n
  .next (hostWrite s off v (fun s =>
    if ringClass s (fld v 11 0) ≠ 2 then ignoredWrite s off
    else
      let s := wr s off (v &&& 0xFFFF)
      flushEvents (if bit v 12 || n.val == 0x681 then s else setHeld s n [])))

/-- The enabled event ring that holds vector `v` (R326). -/
def vectorRing (s : State) (v : Nat) : Option Nat :=
  (enabledOf s 2).find? (fun n => fget s (Reg.ringCfg n) 15 10 == v)

/-- The unannounced records of ring `r` are due under coalescing word `c` (R354). -/
def coalDue (s : State) (r : Nat) (c : Word) : Bool :=
  let u := Tab.get s.evt.unann r {}
  decide (0 < u.n) && (decide (fld c 7 0 ≤ u.n) || decide (fld c 25 24 ≤ u.sev) ||
    (fld c 23 8 != 0 && decide (u.since + fld c 23 8 * 500 ≤ s.tod.ticks)))

/-- EVT_COAL_WRITE: a COUNT of 0 is refused; records already unannounced are announced where the new settings require it
(R354, R363). -/
def execEvtCoalWrite (v : Fin 64) (w : Word) (s : State) : Out :=
  let off := Reg.evtCoal v
  .next (hostWrite s off w (fun s =>
    if fld w 7 0 = 0 then ignoredWrite s off
    else
      let s := wr s off (w &&& 0x3FFFFFF)
      match vectorRing s v with
      | some r => if coalDue s r w then signal s r else s
      | none => s))

/-- EVT_TEST_FIRE: FIRE raises cause 0xFF on SOURCE (R363). -/
def execEvtTestFire (v : Word) (s : State) : Out :=
  .next (hostWrite s Reg.evtTest v (fun s => if bit v 31 then raise s (fld v 10 0) 0xFF 0 else s))

end Sys2Proof.Machine
end

