-- ==== Sys2Proof/Machine/Timing.lean ====
section
/-! DEFINITION. Reference candidates, DPLLs, the lehr, holdover and frame-pulse outputs (13_timing_references.md, R266 to
R285). -/

namespace Sys2Proof.Machine

/-! ### Hidden state and fields -/

/-- The hidden state of candidate `r`. -/
def refSt (s : State) (r : Nat) : RefSt := Tab.get s.tim.refs r {}
/-- The hidden state of candidate `r` changed by `f`. -/
def editRef (s : State) (r : Nat) (f : RefSt → RefSt) : State :=
  { s with tim := { s.tim with refs := Tab.edit s.tim.refs r {} f } }
/-- The hidden state of DPLL `d`. -/
def dpllSt (s : State) (d : Nat) : DpllSt := Tab.get s.tim.dplls d {}
/-- The hidden state of DPLL `d` changed by `f`. -/
def editDpll (s : State) (d : Nat) (f : DpllSt → DpllSt) : State :=
  { s with tim := { s.tim with dplls := Tab.edit s.tim.dplls d {} f } }
/-- The hidden state of frame-pulse output `j`. -/
def fpSt (s : State) (j : Nat) : FpSt := Tab.get s.tim.fps j {}
/-- The hidden state of frame-pulse output `j` changed by `f`. -/
def editFp (s : State) (j : Nat) (f : FpSt → FpSt) : State :=
  { s with tim := { s.tim with fps := Tab.edit s.tim.fps j {} f } }

/-- An event of the timing block: cause, instance and further bits of data word 0, and data word 1 (R285). -/
def timEvent (s : State) (src cause inst hi : Nat) (d1 : Word) : State :=
  raise s src (w32 (cause + 256 * inst + hi)) d1

/-- STATE of candidate `r`: 0 DISQUALIFIED, 1 WAIT, 2 QUALIFIED, 3 SUSPECT (R270). -/
def refState (s : State) (r : Nat) : Nat := fget s (Reg.timRefStatus r) 1 0
/-- ACTIVE of candidate `r` (R267). -/
def refActive (s : State) (r : Nat) : Bool := bget s (Reg.timRefStatus r) 2
/-- QL in force of candidate `r` (R269). -/
def refQl (s : State) (r : Nat) : Nat := fget s (Reg.timRefStatus r) 10 7
/-- KIND of candidate `r` (R266). -/
def refKind (s : State) (r : Nat) : Nat := fget s (Reg.timRefCfg r) 6 4
/-- ID of candidate `r` (R266). -/
def refId (s : State) (r : Nat) : Nat := fget s (Reg.timRefCfg r) 23 8
/-- Candidate `r` is enabled and its source is configured (R267). -/
def refOn (s : State) (r : Nat) : Bool := bget s (Reg.timRefCfg r) 0 && (decide (r < 8) || refKind s r != 0)
/-- Candidate `r` is a 1PPS input (R271). -/
def refPps (s : State) (r : Nat) : Bool := decide (r < 8) && fget s (Reg.timRefCfg r) 3 1 == 0
/-- The offset of candidate `r` in 0.001 ppm (R268). -/
def refOfs (s : State) (r : Nat) : Int := sgn 32 (rd s (Reg.timRefOfs r)).toNat
/-- SOFT in force, in 0.001 ppm (R284). -/
def tolSoft (s : State) : Nat := fld s.tim.tol 15 0
/-- HARD in force, in 0.001 ppm (R284). -/
def tolHard (s : State) : Nat := fld s.tim.tol 31 16
/-- DRIFT in force, in 0.1 ppb per 1,000 s (R284). -/
def tolDrift (s : State) : Nat := fld s.tim.drift 15 0
/-- The drift rate of candidate `r` is valid: 1,000 s of samples without a loss of activity (R268). -/
def driftValid (s : State) (r : Nat) : Bool := (refSt s r).samples.length == 1000
/-- The drift rate of candidate `r` in 0.1 ppb per 1,000 s (R268). -/
def refDrift (s : State) (r : Nat) : Int := sgn 32 (rd s (Reg.timRefDrift r)).toNat
/-- DRIFT is reached; an invalid slope counts as below every threshold (R268, R270). -/
def driftHigh (s : State) (r : Nat) : Bool :=
  driftValid s r && decide ((tolDrift s : Int) ≤ refDrift s r)

/-! ### Activity -/

/-- The TU at `a`, with its channel where that was switched to protection, is in TU-AIS or TU-LOP, or its high-order path is in a defect
that puts it in AIS (R86, R193, R267). -/
def tuLost (s : State) (a : Word) : Bool :=
  let r := mspResolve s a
  (path s r).ptr != 0 || serverSf s (hoOf s r)

/-- The condition of R267 of a recovered slot's source, as the device's own state shows it; a pin's comes with the row. -/
def refSource (s : State) (r : Nat) : Bool :=
  let id := refId s r
  match refKind s r with
  | 0 => decide (r < 8)
  | 1 =>
    if ethMode (laneMode s id) then linkUp s id
    else
      let d := (frm s id).det
      sdhOn s id && laneState s id == 4 && !(reported d .los || reported d .lof || reported d .ais)
  | 2 =>
    let d := (Tab.get s.ports id {}).det
    bit (portCtl s id) 0 && tribMode (portCtl s id) != 3 && portState s id == 4 && !(d.shows .los || d.shows .ais)
  | 3 => match term? s id with
    | some t => t.src == 1 && demapped s t.from_ && !tuLost s t.from_
    | none => false
  | _ => match pw? s id with
    | some p => decide (p.type ≤ 1) && p.st == 2
    | none => false

/-! ### Quality levels -/

/-- The QL code of a received S1 [3:0] under FRAMING (R269). -/
def s1Code (sonet : Bool) (v : Nat) : Nat :=
  if sonet then match v with
    | 1 => 1 | 0 => 2 | 7 => 3 | 4 => 4 | 0xD => 5 | 0xA => 6 | 0xC => 7 | 0xE => 8 | _ => 0xF
  else match v with
    | 2 => 1 | 0 => 2 | 4 => 4 | 8 => 5 | 0xB => 7 | _ => 0xF

/-- The S1 [3:0] sent for a QL code under FRAMING (R269). -/
def s1Sent (sonet : Bool) (ql : Nat) : Nat :=
  if sonet then match ql with
    | 1 => 1 | 2 => 0 | 3 => 7 | 4 => 4 | 5 => 0xD | 6 => 0xA | 7 => 0xC | 8 => 0xE | _ => 0xF
  else match ql with
    | 1 => 2 | 2 => 0 | 3 => 4 | 4 => 4 | 5 => 8 | 6 => 0xB | 7 => 0xB | 8 => 0xB | _ => 0xF

/-- A QL code that is not reserved (R269). -/
def qlOk (q : Nat) : Bool := (decide (1 ≤ q) && decide (q ≤ 8)) || q == 0xF

/-- The QL of candidate `r`: configured, as an Ethernet lane's always is, or the accepted S1 of its lane (R60, R266, R269). -/
def refQlNow (s : State) (r : Nat) : Nat :=
  let w := (refSt s r).ql
  if bit w 24 && !ethMode (laneMode s (fld w 23 8)) then s1Code (bit (frmCtl s (fld w 23 8)) 0) (fget s (Reg.laneS1 (fld w 23 8)) 3 0) else fld w 28 25

/-- The QL in force of candidate `r` is read again; a change raises QL_CHG (R285). -/
def refreshQl (s : State) (r : Nat) : State :=
  let new := refQlNow s r
  let old := refQl s r
  if new = old then s
  else timEvent (fset s (Reg.timRefStatus r) 10 7 new) (0x100 + r) 2 r 0 (w32 (new + 16 * old))

/-! ### DPLL fields -/

/-- STATE of DPLL `d`: 0 FREERUN, 1 HOLDOVER, 2 LOCKING, 3 LOCKED (R274). -/
def dpllState (s : State) (d : Nat) : Nat := fget s (Reg.timDpllStatus d) 2 0
/-- Candidate that DPLL `d` selects; 31 none (R284). -/
def dpllRef (s : State) (d : Nat) : Nat := fget s (Reg.timDpllStatus d) 7 3
/-- MODE in effect: the device holds over while it is DORMANT, until it is back in STANDBY or ACTIVE (R272, R275). -/
def dpllMode (s : State) (d : Nat) : Nat :=
  if s.pwr.st = 0 ∧ (s.pwr.dormant || s.pwr.fromDormant) then 2 else fget s (Reg.timDpllCtl d) 1 0
/-- QL_EN of DPLL `d` (R271). -/
def qlEn (s : State) (d : Nat) : Bool := bget s (Reg.timDpllCtl d) 7
/-- The priority of candidate `r` for DPLL `d`; 0 not allowed (R271). -/
def prio (s : State) (d r : Nat) : Nat :=
  let off := if r / 8 = 0 then Reg.timDpllPrio0 d else if r / 8 = 1 then Reg.timDpllPrio1 d else Reg.timDpllPrio2 d
  fget s off (4 * (r % 8) + 3) (4 * (r % 8))
/-- TRIM as a frequency in 0.001 ppb: what FREERUN runs at (R272, R284). -/
def trimFreq (s : State) : Int := sgn 16 (fget s Reg.timOsc 19 4) * 100
/-- The output QL code of DPLL `d` (R274, R279). -/
def dpllQl (s : State) (d : Nat) : Nat :=
  if s.tim.frozen then 0xF else if dpllRef s d = 31 then s.tim.oscQl else refQl s (dpllRef s d)

/-! ### What the status registers show -/

/-- TIM_REF_STATUS of candidate `r` follows its parts (R284). -/
def showRef (s : State) (r : Nat) : State :=
  let o := iabs (refOfs s r)
  let w := rd s (Reg.timRefStatus r)
  let w := setBit w 3 (decide (tolSoft s < o))
  let w := setBit w 4 (decide (tolHard s < o))
  let w := setBit w 5 (driftHigh s r)
  let w := setBit w 6 (driftValid s r)
  let w := setBit w 11 ((List.range 4).any (fun d => (dpllSt s d).outv.contains r))
  let w := (List.range 4).foldl (fun w d => setBit w (12 + d) (dpllRef s d == r)) w
  wr s (Reg.timRefStatus r)
    (setFld w 25 16 (if fld w 1 0 = 1 then fget s Reg.timMonWtr 9 0 - (refSt s r).wtr else 0))

/-- The frequency that TIM_CLKOUT.FREQ selects, in Hz (R280, R284). -/
def clkHz (f : Nat) : Nat :=
  ([2048000, 1544000, 8000, 10000000, 19440000, 25000000, 125000000, 156250000] : List Nat).getD f 0

/-- CLKOUT `k` carries its clock: enabled, and its SQUELCH condition does not hold (R280). -/
def clkoutOn (s : State) (k : Nat) : Bool :=
  let w := rd s (Reg.timClkout k)
  let d := fld w 2 1
  bit w 0 && !(fld w 8 7 == 1 && dpllState s d != 3) && !(fld w 8 7 == 2 && decide (fld w 12 9 < dpllQl s d))

/-- What the balls of CLKOUT `k` carry, in Hz: the frequency selected, from its DPLL, or 0 while the output holds low (R280). -/
def clkout (s : State) (k : Nat) : Nat := if clkoutOn s k then clkHz (fget s (Reg.timClkout k) 6 3) else 0

/-- A CLKOUT that changes leaves through its pin: its DPLL, and its frequency in Hz (R280). -/
def showClk (s : State) : State :=
  let now := (List.range 8).map (clkout s)
  let s' := (List.range 8).foldl (fun t k => if s.tim.clk.getD k 0 = clkout s k then t
    else wire t "clkout" k (natBe 1 (fget s (Reg.timClkout k) 2 1) ++ natBe 4 (clkout s k))) s
  { s' with tim := { s'.tim with clk := if now.all (fun v => v == 0) then [] else now } }

/-- Every candidate's QL is read again, and every status register and CLKOUT follows (R269, R280, R284). -/
def showTim (s : State) : State :=
  let s := (List.range 24).foldl refreshQl s
  let s := (List.range 4).foldl (fun s d => fset s (Reg.timDpllStatus d) 11 8 (dpllQl s d)) s
  showClk ((List.range 24).foldl showRef s)

/-! ### Candidates -/

/-- The newest `n` history samples of every DPLL that selects candidate `r` are marked unclean (R277). -/
def markUnclean (s : State) (r n : Nat) : State :=
  (List.range 4).foldl (fun s d =>
    if dpllRef s d = r then
      editDpll s d (fun x => { x with hist := (x.hist.take n).map (fun h => (h.1, false, h.2.2)) ++ x.hist.drop n })
    else s) s

/-- The second of every DPLL that selects candidate `r` is not spent whole as R277 asks. -/
def breakSecond (s : State) (r : Nat) : State :=
  (List.range 4).foldl (fun s d => if dpllRef s d = r then editDpll s d (fun x => { x with whole := false }) else s) s

/-- Candidate `r` enters state `st`; a change raises STATE, and becoming SUSPECT marks 1,000 s of history (R270, R277,
R285). -/
def setRefState (s : State) (r st : Nat) : State :=
  if refState s r = st then s
  else
    let s := breakSecond (if st = 3 then markUnclean s r 1000 else s) r
    let s := fset s (Reg.timRefStatus r) 1 0 st
    timEvent (editRef s r (fun x => { x with wtr := 0 })) (0x100 + r) 1 r (2 ^ 13 * st) (rd s (Reg.timRefOfs r))

/-- Candidate `r` is not active any more: its samples are discarded and it is DISQUALIFIED; a DPLL that selects it decides within 1 ms
(R268, R270, R272, R277). -/
def loseRef (s : State) (r : Nat) : State :=
  let s := if refActive s r then (List.range 4).foldl (fun s d =>
      if dpllRef s d = r then editDpll s d (fun x => { x with early := true }) else s) (markUnclean s r 2) else s
  let s := wr (bset s (Reg.timRefStatus r) 2 false) (Reg.timRefDrift r) 0
  setRefState (editRef s r (fun x => { x with samples := [] })) r 0

/-- Σ (2t - 999) y over 1,000 samples at t = 0 to 999, the newest first. -/
def slopeSum (l : List Int) : Int := (l.foldl (fun (a : Int × Int) y => (a.1 + a.2 * y, a.2 - 2)) (0, 999)).1

/-- The least-squares slope of 1,000 samples in ppb at 1 s, in 0.1 ppb per 1,000 s, to the nearest (R268). -/
def slope (l : List Int) : Int := (2 * 60000 * slopeSum l + 999999000) / (2 * 999999000)

/-- The state of an active candidate after a measurement (R270). -/
def refStep (s : State) (r : Nat) : State :=
  let o := iabs (refOfs s r)
  let soft := tolSoft s
  let hard := tolHard s
  match refState s r with
  | 0 => if 10 * o < 9 * hard then setRefState s r 1 else s
  | 1 => if hard < o then setRefState (markUnclean s r 1000) r 0 else editRef s r (fun x => { x with wtr := x.wtr + 1 })
  | 2 =>
    if hard < o then setRefState (markUnclean s r 1000) r 0
    else if soft < o || driftHigh s r then setRefState s r 3 else s
  | _ =>
    if hard < o then setRefState (markUnclean s r 1000) r 0
    else if decide (10 * o < 9 * soft) &&
        (!driftValid s r || decide (2 * refDrift s r < (tolDrift s : Int))) then setRefState s r 2
    else s

/-- After OSCIN has returned, the next measurement lets everything resume (R279). -/
def thaw (s : State) : State :=
  if bget s Reg.timOsc 1 then s else { s with tim := { s.tim with frozen := false } }

/-- An offset measured against OSCIN as it runs, in 0.1 ppb, taken after TRIM and rounded to 0.001 ppm (R268, R284). -/
def trimmed (s : State) (raw : Int) : Int := (raw - sgn 16 (fget s Reg.timOsc 19 4) + 5) / 10

/-- REF_MEASURE: an active candidate's offset and drift rate are measured, after TRIM, and its state follows (R268, R270, R279). -/
def execRefMeasure (r : Fin 24) (ofs : Int) (s : State) : Out :=
  .next (
    let s := thaw s
    showTim (
      if !refActive s r || bget s Reg.timOsc 1 then s
      else
        let v := i32 (trimmed s ofs)
        let s := wr s (Reg.timRefOfs r) v
        let s := editRef s r (fun x => { x with samples := (sgn 32 v.toNat :: x.samples).take 1000 })
        let s := if driftValid s r then wr s (Reg.timRefDrift r) (i32 (slope (refSt s r).samples)) else s
        refStep s r))

/-- REF_ACTIVITY_LOSS: the candidate's activity is lost; a recovered slot's only while its source shows it (R267, R270). -/
def execRefActivityLoss (r : Fin 24) (s : State) : Out :=
  .next (if refActive s r && (decide (r.val < 8) || !refSource s r) then showTim (loseRef s r) else s)

/-- REF_ACTIVITY_REGAIN: an enabled and configured candidate is active (R267). -/
def execRefActivityRegain (r : Fin 24) (s : State) : Out :=
  .next (if refOn s r && !refActive s r && refSource s r then showTim (bset s (Reg.timRefStatus r) 2 true) else s)

/-- The wait-to-restore of candidate `r` has run: QUALIFIED or SUSPECT (R270). -/
def endWait (s : State) (r : Nat) : State :=
  if refState s r = 1 ∧ fget s Reg.timMonWtr 9 0 ≤ (refSt s r).wtr then
    setRefState s r (if decide (tolSoft s < iabs (refOfs s r)) || driftHigh s r then 3 else 2)
  else s

/-- REF_WTR_EXPIRY: TIM_MON_WTR has run without a loss of activity or an offset above HARD (R270). -/
def execRefWtrExpiry (r : Fin 24) (s : State) : Out :=
  .next (if s.tim.frozen then s else showTim (endWait s r))

/-! ### Selection -/

/-- Candidate `r` is eligible for DPLL `d` (R271). -/
def eligible (s : State) (d r : Nat) : Bool :=
  prio s d r != 0 && decide (2 ≤ refState s r) && (!qlEn s d || refQl s r != 0xF) &&
    (!refPps s r || decide (fget s (Reg.timDpllBw d) 19 0 ≤ 1000))

/-- The rank triple of candidate `r` for DPLL `d` as one number: QL, priority, SUSPECT (R271). -/
def refRank (s : State) (d r : Nat) : Nat :=
  (if qlEn s d then refQl s r else 0) * 32 + prio s d r * 2 + b2n (refState s r == 3)

/-- The candidates a decision of DPLL `d` considers: the eligible ones, none where SUSPECT_HOLD is 1 and all are SUSPECT
(R272, R278). -/
def refPool (s : State) (d : Nat) : List Nat :=
  let e := (List.range 24).filter (eligible s d)
  if bget s (Reg.timDpllCtl d) 10 && e.all (fun r => refState s r == 3) then [] else e

/-- The members of `e` with the best rank (R272). -/
def topRefs (s : State) (d : Nat) (e : List Nat) : List Nat :=
  e.filter (fun r => e.all (fun c => decide (refRank s d r ≤ refRank s d c)))

/-- Distance of two candidates' offsets (R268). -/
def refGap (s : State) (a b : Nat) : Nat := iabs (refOfs s a - refOfs s b)
/-- AGREE in force, in 0.001 ppm (R284). -/
def agree (s : State) : Nat := fld s.tim.drift 31 16
/-- Candidates of `e` that agree with `x` (R272). -/
def support (s : State) (e : List Nat) (x : Nat) : Nat :=
  (e.filter (fun c => c != x && decide (refGap s c x ≤ agree s))).length
/-- Two members of `top` differ by more than AGREE (R273). -/
def disagree (s : State) (top : List Nat) : Bool :=
  top.any (fun a => top.any (fun b => decide (agree s < refGap s a b)))
/-- The greatest support among `top`. -/
def maxSupport (s : State) (e top : List Nat) : Nat := (top.map (support s e)).foldl max 0

/-- vote(top, cur) of R272. -/
def vote (s : State) (e top : List Nat) (cur : Nat) : Nat :=
  if !disagree s top then (if top.contains cur then cur else top.headD 31)
  else
    let best := top.filter (fun x => support s e x == maxSupport s e top)
    if best.contains cur then cur else best.headD 31

/-- The reference an AUTO decision wants; 31 none (R272). -/
def wantAuto (s : State) (d cur : Nat) (e top : List Nat) : Nat :=
  if e.isEmpty then 31
  else if e.contains cur && !top.contains cur && !bget s (Reg.timDpllCtl d) 8 && refState s cur != 3 &&
      (!qlEn s d || top.any (fun t => refQl s t == refQl s cur)) then cur
  else vote s e top cur

/-- The two members of `top` furthest apart. -/
def furthest (s : State) (top : List Nat) : Option (Nat × Nat) :=
  (top.flatMap (fun a => (top.filter (fun b => decide (a < b))).map (fun b => (a, b)))).foldl (fun best p =>
    match best with
    | none => some p
    | some q => if refGap s q.1 q.2 < refGap s p.1 p.2 then some p else some q) none

/-- Candidate `r` is OUTVOTED for some DPLL (R273). -/
def outvoted (s : State) (r : Nat) : Bool := (List.range 4).any (fun d => (dpllSt s d).outv.contains r)

/-- DISAGREE and OUTVOTED of DPLL `d` follow the decision; a change of either raises its event (R273, R285). -/
def showVote (s : State) (d : Nat) (e top : List Nat) : State :=
  let dis := disagree s top
  let pair := (furthest s top).getD (dpllSt s d).dis
  let was := bget s (Reg.timDpllStatus d) 14
  let s := editDpll s d (fun x => { x with dis := pair })
  let s := if dis = was then s
    else timEvent (bset s (Reg.timDpllStatus d) 14 dis) (0x118 + d) 0x12 d (2 ^ 15 * b2n dis) (w32 (pair.1 + 256 * pair.2))
  let old := s
  let out := if dis then top.filter (fun x => decide (support s e x < maxSupport s e top)) else []
  let s := editDpll s d (fun x => { x with outv := out })
  (List.range 24).foldl (fun s r =>
    if outvoted s r = outvoted old r then s
    else timEvent s (0x100 + r) 3 r (2 ^ 15 * b2n (outvoted s r)) (w32 d)) s

/-! ### State changes of a DPLL -/

/-- DPLL `d` enters state `st`; a change raises STATE (R274, R285). -/
def setDpllState (s : State) (d st : Nat) : State :=
  if dpllState s d = st then s
  else timEvent (editDpll (fset s (Reg.timDpllStatus d) 2 0 st) d (fun x => { x with whole := false })) (0x118 + d) 0x10 d (2 ^ 13 * st) (w32 (dpllRef s d))

/-- DPLL `d` selects `new` (31 none) for `reason`; a change raises REF_CHG (R285). -/
def setDpllRef (s : State) (d new reason : Nat) : State :=
  let old := dpllRef s d
  if new = old then s
  else timEvent (editDpll (fset s (Reg.timDpllStatus d) 7 3 new) d (fun x => { x with whole := false })) (0x118 + d) 0x11 d 0 (w32 (new + 256 * old + 2 ^ 16 * reason))

/-- The period of candidate `r`'s edges in ns, as a fraction: a pin's from its FREQ, a port's, a termination's or a pseudowire's from its signal.
The spec does not say which edges of a lane's clock REALIGN takes: an open value (R266, R276; log entry 143). -/
def refPeriod (s : State) (r : Nat) : Nat × Nat :=
  let id := refId s r
  let line := fun (t1 : Bool) => (1000000, if t1 then 1544 else 2048)
  if r < 8 then match fget s (Reg.timRefCfg r) 3 1 with
    | 0 => (1000000000, 1) | 1 => (125000, 1) | 2 => line true | 3 => line false
    | 4 => (100, 1) | 5 => (100000, 1944) | 6 => (40, 1) | _ => (8, 1)
  else match refKind s r with
    | 1 => (Config.lanePeriod (laneMode s id), 1)
    | 2 => line (tribMode (portCtl s id) == 1)
    | 3 => line (((term? s id).map (fun t => frmType t.framing == 1)).getD false)
    | _ => line (((pw? s id).map (fun p => p.type == 1)).getD false)

/-- A phase in ns modulo the period of candidate `r`, by the shorter way (R276). -/
def refShortWay (s : State) (r : Nat) (x : Int) : Int :=
  let p := refPeriod s r
  let m := (x * p.2) % (p.1 : Int)
  (if (p.1 : Int) < 2 * m then m - p.1 else m) / (p.2 : Int)

/-- The lehr of DPLL `d` starts, or takes a new target, with `phase` ns to move (R276). -/
def startLehr (s : State) (d : Nat) (real : Bool) (phase : Int) : State :=
  let s := editDpll s d (fun x => { x with real := real, lehrFrom := x.freq })
  wr (bset s (Reg.timDpllStatus d) 12 true) (Reg.timDpllPhase d) (i32 (if real then phase else 0))

/-- A frequency held within SLOPE of its value just before the event, in 0.001 ppb (R276). -/
def slopeHeld (s : State) (d : Nat) (f : Int) : Int :=
  let m : Int := fget s (Reg.timDpllLehr d) 10 0 * 50000
  iclamp ((dpllSt s d).lehrFrom - m) ((dpllSt s d).lehrFrom + m) f

/-- The holdover value: the mean of the latest HIST_AVG clean samples under the last reference with clean samples, rounded
down to 0.001 ppb; none without a clean sample (R278). -/
def holdValue (x : DpllSt) (n : Nat) : Option Int := match x.hist.filter (fun h => h.2.1) with
  | [] => none
  | h :: t =>
    let l := ((h :: t).filter (fun y => y.2.2 == h.2.2)).take n
    some ((l.map (fun y => y.1)).foldl (fun a y => a + y) 0 / l.length)

/-- DPLL `d` enters HOLDOVER; on the backup oscillator it runs on at its last frequency (R276, R278, R279). -/
def enterHoldover (s : State) (d reason : Nat) (backup : Bool) : State :=
  let x := dpllSt s d
  let s := setDpllRef s d 31 reason
  let s := match (if backup then none else holdValue x (fget s (Reg.timDpllCtl d) 21 11)) with
    | some v => bset (wr s (Reg.timDpllHold d) (i32 v)) (Reg.timDpllStatus d) 13 true
    | none =>
      let s := bset (wr s (Reg.timDpllHold d) (i32 x.freq)) (Reg.timDpllStatus d) 13 false
      if backup then s else timEvent s (0x118 + d) 0x14 d 0 0
  startLehr (setDpllState s d 1) d false 0

/-- DPLL `d` enters FREERUN, with no history; its frequency moves within SLOPE (R272, R276). -/
def enterFree (s : State) (d : Nat) : State :=
  let s := bset (setDpllRef s d 31 3) (Reg.timDpllStatus d) 13 false
  let s := startLehr (setDpllState s d 0) d false 0
  editDpll s d (fun x => { x with hist := [], freq := slopeHeld s d (trimFreq s) })

/-- DPLL `d` selects reference `r`: LOCKING, its frequency preset to the last measured offset, which is one after TRIM, and the lehr; from
FREERUN a REALIGN steps its phase at once (R268, R274, R276; log entry 144). -/
def enterRef (s : State) (d r reason : Nat) (phase : Int) : State :=
  let free := dpllState s d == 0
  let s := setDpllState (setDpllRef s d r reason) d 2
  let s := startLehr s d (bget s (Reg.timDpllCtl d) 9 && !free) (refShortWay s r phase)
  editDpll s d (fun x => { x with freq := slopeHeld s d (refOfs s r * 1000 + trimFreq s) })

/-- Why an AUTO decision changes the selection (R285). -/
def changeReason (e top : List Nat) (cur want : Nat) (modeNew : Bool) : Nat :=
  if modeNew then 3 else if want = 31 then 0 else if cur = 31 then 1 else if !e.contains cur then 0
  else if top.contains cur then 2 else 1

/-- An AUTO decision of DPLL `d` (R272, R273). -/
def decideAuto (s : State) (d : Nat) (phase : Int) : State :=
  let cur := dpllRef s d
  let e := refPool s d
  let top := topRefs s d e
  let want := wantAuto s d cur e top
  let x := dpllSt s d
  let run := if want = x.want then min 100 (x.wantRun + b2n (!x.early)) else 0
  let s := editDpll (showVote s d e top) d (fun y => { y with want := want, wantRun := run })
  if want = cur then s
  else
    let vol := e.contains cur && !x.modeNew
    let need := if top.contains cur then 100 else 10
    if vol && (decide (run < need) || decide (x.sinceVol < 100)) then s
    else
      let s := if vol then editDpll s d (fun y => { y with sinceVol := 0 }) else s
      let reason := changeReason e top cur want x.modeNew
      if want = 31 then enterHoldover s d reason false else enterRef s d want reason phase

/-- A decision of DPLL `d` in its MODE (R272, R275). -/
def decide4 (s : State) (d : Nat) (phase : Int) : State :=
  let mode := dpllMode s d
  let new := (dpllSt s d).modeNew
  if mode = 0 then decideAuto s d phase
  else
    let s := editDpll (showVote s d [] []) d (fun x => { x with want := 31, wantRun := 0 })
    if mode = 1 then
      let r := fget s (Reg.timDpllCtl d) 6 2
      if refActive s r then (if dpllRef s d = r then s else enterRef s d r 3 phase)
      else if dpllState s d = 1 then s
      else enterHoldover s d (if new then 3 else 0) false
    else if mode = 2 then (if dpllState s d = 1 then s else enterHoldover s d 3 false)
    else if dpllState s d = 0 then s else enterFree s d

/-- While OSCIN is stopped no decision changes a selection, but a reference that is no longer active is left (R279). -/
def decideFrozen (s : State) (d : Nat) : State :=
  if dpllRef s d = 31 || refActive s (dpllRef s d) then s else enterHoldover s d 0 true

/-- What was written since the last decision takes effect: the thresholds, OSC_QL, and the QL and QL_MODE of every candidate (R284). -/
def takeTim (s : State) : State :=
  let s := { s with tim := { s.tim with
    tol := rd s Reg.timMonTol, drift := rd s Reg.timMonDrift, oscQl := fget s Reg.timOsc 23 20 } }
  (List.range 24).foldl (fun s r =>
    if (refSt s r).ql = rd s (Reg.timRefCfg r) then s else editRef s r (fun x => { x with ql := rd s (Reg.timRefCfg r) })) s

/-- Every DPLL holds over as the device becomes DORMANT (R275). -/
def dpllsHold (s : State) : State :=
  showTim ((List.range 4).foldl (fun s d => if dpllState s d = 1 then s else enterHoldover s d 3 s.tim.frozen) s)

/-- DPLL_DECISION: a decision of DPLL `d`; `phase` is the distance of its output from the reference's edges, in ns. Decisions come every
100 ms, but for one that follows a loss of activity within 1 ms (R272, R273, R276, R279). -/
def execDpllDecision (d : Fin 4) (phase : Int) (s : State) : Out :=
  .next (
    let s := (List.range 24).foldl refreshQl (takeTim s)
    let s := if s.tim.frozen then decideFrozen s d
      else
        let s := decide4 s d phase
        editDpll s d (fun x => { x with
          modeNew := false, early := false, sinceVol := min 100 (x.sinceVol + b2n (!x.early)) })
    let s := if bget s (Reg.timDpllStatus d) 12 && (dpllSt s d).real then
        wr s (Reg.timDpllPhase d) (i32 (refShortWay s (dpllRef s d) phase)) else s
    showTim s)

/-- DPLL_LOCK_REACHED: the lehr has ended and the phase error has stayed within ±100 ns for 1 s (R274). -/
def execDpllLockReached (d : Fin 4) (s : State) : Out :=
  .next (if dpllState s d == 2 && !bget s (Reg.timDpllStatus d) 12 then setDpllState s d 3 else s)

/-- LEHR_END: the lehr reaches its new alignment; a BUILD_OUT has moved the phase by 50 ns at most (R276). -/
def execLehrEnd (d : Fin 4) (moved : Int) (s : State) : Out :=
  .next (
    if !bget s (Reg.timDpllStatus d) 12 then s
    else
      let m := if (dpllSt s d).real then refShortWay s (dpllRef s d) moved else iclamp (-50) 50 moved
      let s := wr (bset s (Reg.timDpllStatus d) 12 false) (Reg.timDpllPhase d) 0
      timEvent s (0x118 + d.val) 0x13 d 0 (i32 m))

/-- The frequency of a DPLL in HOLDOVER once its lehr has ended: within 0.1 ppb of the holdover value, or where no clean sample gave one the frequency
at entry (R278). -/
def holdFreq (s : State) (d : Nat) (freq : Int) : Int :=
  let v := sgn 32 (rd s (Reg.timDpllHold d)).toNat
  if bget s (Reg.timDpllStatus d) 13 then iclamp (v - 100) (v + 100) freq else v

/-- The output frequency of DPLL `d` in the second that has passed, `freq` as it is measured: FREERUN runs at TRIM, a lehr holds it within
SLOPE, and HOLDOVER at its value (R272, R276, R278). -/
def sampleFreq (s : State) (d : Nat) (freq : Int) : Int :=
  let f := if dpllState s d = 0 then trimFreq s else freq
  if bget s (Reg.timDpllStatus d) 12 then slopeHeld s d f
  else if dpllState s d = 1 then holdFreq s d f else f

/-- DPLL_HISTORY_SAMPLE: one second's frequency of the output joins the history; it is clean where the whole second was spent LOCKED to one
QUALIFIED reference. While OSCIN stands still no sample against it is taken, and a DPLL without a reference runs on at its last frequency
(R277 to R279, R284; log entry 145). -/
def execDpllHistorySample (d : Fin 4) (freq : Int) (s : State) : Out :=
  .next (
    let s := thaw s
    if s.tim.frozen then s
    else
      let st := dpllState s d
      let f := sampleFreq s d freq
      let r := dpllRef s d
      let good := st == 3 && r != 31 && refState s r == 2
      let clean := good && (dpllSt s d).whole
      let s := editDpll (wr s (Reg.timDpllFreq d) (i32 f)) d (fun x =>
        { x with freq := f, whole := good, hist := if st = 0 then [] else ((f, clean, r) :: x.hist).take 2048 })
      showTim s)

/-! ### The oscillator -/

/-- OSC_FAIL changes (R279, R285). -/
def oscFail (s : State) (b : Bool) : State :=
  if bget s Reg.timOsc 1 = b then s else timEvent (bset s Reg.timOsc 1 b) 0x120 0x30 0 (2 ^ 15 * b2n b) 0

/-- OSCIN_STOP: the monitors freeze and every DPLL's QL is 0xF (R279). -/
def execOscinStop (s : State) : Out :=
  .next (showTim { oscFail s true with tim := { (oscFail s true).tim with frozen := true } })

/-- OSCIN_RETURN: everything resumes at the next measurement (R279). -/
def execOscinReturn (s : State) : Out := .next (oscFail s false)

/-! ### Register writes -/

/-- A TIM_REF_CFG word that is ignored (R266, R269, R284). -/
def refCfgBad (s : State) (r : Nat) (v : Word) : Bool :=
  let kind := fld v 6 4
  let id := fld v 23 8
  (decide (r < 8) && kind != 0) || (decide (8 ≤ r) && fld v 3 1 != 0) || decide (4 < kind) || !qlOk (fld v 28 25) ||
  (kind == 1 && (decide (128 ≤ id) || quadMember s id)) || (kind == 2 && decide (64 ≤ id)) ||
  (kind == 4 && decide (16384 ≤ id)) ||
  (bit v 24 && (kind != 1 || ethMode (laneMode s id))) ||
  (kind != 0 && (List.range 24).any (fun c => c != r && refKind s c == kind && refId s c == id))

/-- TIM_REF_CFG_WRITE: a change of EN, FREQ, KIND or ID disqualifies the candidate at once (R266, R270). -/
def execTimRefCfgWrite (r : Fin 24) (v : Word) (s : State) : Out :=
  let off := Reg.timRefCfg r
  .next (hostWrite s off v (fun s =>
    if refCfgBad s r v then ignoredWrite s off
    else
      let old := rd s off
      let s := wr s off (v &&& 0x1FFFFF7F)
      showTim (if (v ^^^ old) &&& 0xFFFF7F = 0 then s else loseRef s r)))

/-- The offset of a DPLL's writable register `reg` of 0 CTL, 1 BW, 2 LEHR, 3 to 5 PRIO0 to PRIO2 (R284). -/
def dpllReg (d reg : Nat) : Nat := match reg with
  | 0 => Reg.timDpllCtl d
  | 1 => Reg.timDpllBw d
  | 2 => Reg.timDpllLehr d
  | 3 => Reg.timDpllPrio0 d
  | 4 => Reg.timDpllPrio1 d
  | _ => Reg.timDpllPrio2 d

/-- A word that a DPLL's register does not take (R275, R284). -/
def dpllBad (d reg : Nat) (v : Word) : Bool := match reg with
  | 0 => decide (23 < fld v 6 2) || fld v 21 11 == 0 || decide (1024 < fld v 21 11) || (d == 0 && bit v 9)
  | 1 => fld v 19 0 == 0 || decide (1000000 < fld v 19 0)
  | 2 => fld v 10 0 == 0 || decide ((if d = 0 then 92 else 2000) < fld v 10 0)
  | _ => false

/-- DPLL_CTL_WRITE: a control register of a DPLL is written; it acts at the next decision (R272, R273, R275, R284). -/
def execDpllCtlWrite (d : Fin 4) (reg : Fin 6) (v : Word) (s : State) : Out :=
  let off := dpllReg d reg
  .next (hostWrite s off v (fun s =>
    if dpllBad d reg v then ignoredWrite s off
    else
      let m : Word := match reg.val with
        | 0 => 0x3FFFFF | 1 => 0xFFFFF | 2 => 0x7FF | _ => 0xFFFFFFFF
      let new := reg.val == 0 &&
        (fld (v ^^^ rd s off) 1 0 != 0 || (fld v 1 0 == 1 && fld (v ^^^ rd s off) 6 2 != 0))
      let s := wr s off (v &&& m)
      if new then editDpll s d (fun x => { x with modeNew := true }) else s))

/-! ### Frame-pulse outputs -/

/-- The period of an FPOUT RATE in ns (R281). -/
def rateNs (rate : Nat) : Nat := match rate with
  | 0 => 1000000000
  | 1 => 125000
  | 2 => 500000
  | _ => 2000000

/-- The period of a heel source in ns; a REFIN above 8 kHz has a period below every output's (R281). -/
def heelNs (s : State) (src : Nat) : Nat :=
  if src < 8 then
    (if fget s (Reg.timRefCfg src) 3 1 = 0 then 1000000000 else if fget s (Reg.timRefCfg src) 3 1 = 1 then 125000 else 0)
  else if src = 8 then 1000000000 else if src = 9 then 2000000 else 125000

/-- A TIM_FPOUT_CTL word that is ignored (R281, R284). -/
def fpBad (s : State) (v : Word) : Bool :=
  let src := fld v 9 5
  (decide (10 < src) && src != 31) || (src != 31 && decide (heelNs s src < rateNs (fld v 4 3))) ||
    decide (rateNs (fld v 4 3) ≤ fld v 19 12 * 1000)

/-- A phase modulo the output period, by the shorter way. -/
def shortWay (p : Nat) (x : Int) : Int :=
  let m := x % (p : Int)
  if (p : Int) < 2 * m then m - p else m

/-- The heel point that a source pulse at `at_` gives (R281). -/
def heelPoint (s : State) (j : Nat) (at_ : Int) : Int :=
  if fget s (Reg.timFpoutCtl j) 9 5 = 31 then 0 else at_ + sgn 30 (fget s (Reg.timFpoutHeel j) 29 0)

/-- Output `j` takes the heel point `p`: in one step, or at the lehr slope of its DPLL (R282, R285). -/
def takeHeel (s : State) (j : Nat) (p : Int) (once : Bool) : State :=
  let per := rateNs (fget s (Reg.timFpoutCtl j) 4 3)
  let mv := shortWay per (p - (fpSt s j).heel)
  let s := editFp s j (fun _ => { heel := p % (per : Int) })
  let w := setBit (rd s (Reg.timFpoutCtl j)) 21 true
  let s := wr s (Reg.timFpoutCtl j) (setBit w 23 (!once && mv != 0))
  timEvent s (0x11C + j) 0x20 j 0 (i32 mv)

/-- FPOUT_CTL_WRITE: EN takes the first heel at once; a new HEEL_SRC or REHEEL moves the output (R281, R282). -/
def execFpoutCtlWrite (j : Fin 4) (v : Word) (at_ : Int) (s : State) : Out :=
  let off := Reg.timFpoutCtl j
  .next (hostWrite s off v (fun s =>
    if fpBad s v then ignoredWrite s off
    else
      let old := rd s off
      let s := wr s off ((old &&& 0xF00000) ||| (v &&& 0xFFFFF))
      if !bit v 0 then bset s off 23 false
      else if !bit old 0 then takeHeel s j (heelPoint s j at_) true
      else if bit v 20 || fld (v ^^^ old) 9 5 != 0 then takeHeel s j (heelPoint s j at_) false
      else s))

/-- FPOUT_REHEEL: an enabled output takes the heel again and moves to it (R282). -/
def execFpoutReheel (j : Fin 4) (at_ : Int) (s : State) : Out :=
  let off := Reg.timFpoutCtl j
  .next (hostWrite s off (setBit (rd s off) 20 true) (fun s =>
    if bget s off 0 then takeHeel s j (heelPoint s j at_) false else s))

/-- TIM_FPOUT_HEEL: a change of offset moves the output (R282). -/
def fpHeelWrite (s : State) (j : Nat) (v : Word) : State :=
  let off := Reg.timFpoutHeel j
  let n := sgn 30 (fld v 29 0)
  if n < -500000000 ∨ 500000000 < n then ignoredWrite s off
  else
    let old := sgn 30 (fget s off 29 0)
    let s := wr s off (v &&& 0x3FFFFFFF)
    if bget s (Reg.timFpoutCtl j) 0 && n != old && fget s (Reg.timFpoutCtl j) 9 5 != 31 then
      takeHeel s j ((fpSt s j).heel + (n - old)) false
    else s

/-- HEEL_LOST of output `j` changes (R282, R285). -/
def setHeelLost (s : State) (j : Nat) (b : Bool) : State :=
  if bget s (Reg.timFpoutCtl j) 22 = b then s
  else timEvent (bset s (Reg.timFpoutCtl j) 22 b) (0x11C + j) 0x21 j (2 ^ 15 * b2n b) 0

/-- Output `j` runs on a heel that a source gave (R282). -/
def heelRuns (s : State) (j : Nat) : Bool :=
  let w := rd s (Reg.timFpoutCtl j)
  bit w 0 && bit w 21 && fld w 9 5 != 31

/-- HEEL_SOURCE_PULSE: a source pulse, `dev` ns from the heel point; in TRACK the third in a row beyond 8 ns starts a
correction (R282). -/
def execHeelSourcePulse (j : Fin 4) (dev : Int) (s : State) : Out :=
  .next (
    if !heelRuns s j then s
    else
      let s := setHeelLost s j false
      if !bget s (Reg.timFpoutCtl j) 10 then s
      else if iabs dev ≤ 8 then editFp s j (fun x => { x with dev := 0 })
      else if (fpSt s j).dev < 2 then editFp s j (fun x => { x with dev := x.dev + 1 })
      else takeHeel s j ((fpSt s j).heel + dev) false)

/-- HEEL_LOST: three source pulses are missing; the output runs on from its DPLL (R282). -/
def execHeelLost (j : Fin 4) (s : State) : Out :=
  .next (if heelRuns s j then setHeelLost (editFp s j (fun x => { x with dev := 0 })) j true else s)

/-- FPOUT_MOVE_END: the output has reached its heel point (R282). -/
def execFpoutMoveEnd (j : Fin 4) (s : State) : Out := .next (bset s (Reg.timFpoutCtl j) 23 false)

/-! ### Clock and frame-pulse pins -/

/-- FPOUT `j` gives pulses once a heel has been taken after EN rose (R281, R282). -/
def fpoutOn (s : State) (j : Nat) : Bool := bget s (Reg.timFpoutCtl j) 0

/-! ### Registers without a row -/

/-- TIM_MON_WTR: a running wait takes the new length and ends at once where it has run longer; no candidate changes state while OSCIN stands
still (R279, R284). -/
def monWtrWrite (s : State) (v : Word) : State :=
  let s := wr s Reg.timMonWtr (v &&& 0x3FF)
  showTim (if s.tim.frozen then s else (List.range 24).foldl endWait s)

/-- TRIM acts on FREERUN at once (R276, R284). -/
def trimFree (s : State) : State :=
  (List.range 4).foldl (fun s d =>
    if dpllState s d = 0 ∧ !s.tim.frozen then editDpll s d (fun x => { x with
      freq := if bget s (Reg.timDpllStatus d) 12 then slopeHeld s d (trimFreq s) else trimFreq s }) else s) s

/-- A word that a timing register without a row does not take (R269, R284). -/
def timBad (off : Nat) (v : Word) : Bool :=
  if off = Reg.timOsc then !qlOk (fld v 23 20)
  else if off = Reg.timMonTol then
    fld v 15 0 == 0 || decide (fld v 31 16 ≤ fld v 15 0) || decide (50000 < fld v 31 16)
  else if off = Reg.timMonDrift then fld v 15 0 == 0 || decide (fld v 31 16 < 10) || decide (10000 < fld v 31 16)
  else if off = Reg.timMonWtr then decide (720 < fld v 9 0)
  else if Reg.timClkout 0 ≤ off ∧ off < Reg.timClkout 8 then
    decide (7 < fld v 6 3) || fld v 8 7 == 3 || !qlOk (fld v 12 9)
  else false

end Sys2Proof.Machine
end

