-- ==== Sys2Proof/Machine/Pm.lean ====
section
/-! DEFINITION. The one-second snapshot, its records and PMHIST (17_events_counters.md, R359 to R362). -/

namespace Sys2Proof.Machine

/-! ### Records -/

/-- The record of the path at `a` (R97). -/
def pathRecord (s : State) (a : Word) : List Word :=
  a :: (List.range 15).map (fun i => (path s a).cnt.getD i 0)

/-- The record of the terminated signal `n` (R121). -/
def termRecord (s : State) (n : Nat) : List Word :=
  w32 n :: (List.range 14).map (fun i => (Tab.get s.termFr n {}).cnt.getD i 0) ++ [0]

/-- The monitored paths, in ascending slot address order (R359, R360). -/
def monPaths (s : State) : List Word :=
  ((s.cfgs.filter (fun p => bit p.2.w7 3)).map (fun p => w32 p.1)).filter (isPath s)

/-- The paths of a live dump: the monitored ones, and those whose counters MON = 0 has frozen (R98, R362). -/
def livePaths (s : State) : List Word :=
  ((s.cfgs.filter (fun p => bit p.2.w7 3 || !(Tab.get s.paths p.1 {}).cnt.isEmpty)).map (fun p => w32 p.1)).filter (isPath s)

/-- Sizes of the path, termination and pseudowire sections of a live dump (R360, R362). -/
def liveSizes (s : State) : Nat × Nat × Nat := ((livePaths s).length, s.map.terms.length, s.cem.pws.length)

/-! ### Taking a snapshot -/

/-- The chain slots that are enabled or hold anything (R359). -/
def chainSnaps (s : State) : Tab ChainSnap :=
  (List.range 256).filterMap (fun k =>
    let cfg := rd s (Reg.pmChainCfg k)
    let hi := rd s (Reg.pmChainHi k)
    let ep := bget s (Reg.pmChainSt k) 0
    if bit cfg 31 || hi != 0 || ep then
      some (k, { off := if bit cfg 31 then fld cfg 25 0 else 0, high := hi, epoch := ep })
    else none)

/-- The snapshot of this instant, number `seq` (R359, R360). -/
def takeSnap (s : State) (seq : Nat) : Snap :=
  { seq := seq, ns := nsNow s, wraps := s.tod.wraps, epoch := epochNow s, step := s.pm.stepSec,
    cnt := s.regs.filter (fun p => rawCounter p.1), chain := chainSnaps s,
    paths := (monPaths s).map (pathRecord s), terms := s.map.terms.map (fun p => termRecord s p.1),
    pws := s.cem.pws.map (fun p => pwRecord s p.1) }

/-- PM_SNAPSHOT: taken in STANDBY and ACTIVE, and not in DORMANT (R359). -/
def snapshot (s : State) : State :=
  if s.pwr.st = 0 then { s with pm := { s.pm with stepSec := false } }
  else
    let n := (s.pm.seq + 1) % 2 ^ 32
    let sn := takeSnap s n
    { s with pm := { s.pm with seq := n, snap := some sn, toWrite := s.pm.toWrite ++ [sn], stepSec := false } }

/-! ### Contents of a snapshot -/

/-- The device section's counters, by snapshot word (R360, R442). -/
def devWords (cnt : Tab Word) : Tab Word :=
  cnt.filterMap (fun p => (counterWord p.1).map (fun w => (w, p.2)))

/-- Word `i` of a device section (R360). -/
def devWord (dev : Tab Word) (chain : Tab ChainSnap) (i : Nat) : Word :=
  if i < 15872 then Tab.get dev i 0
  else if i < 16128 then (Tab.get chain (i - 15872) {}).high
  else if i < 16136 then
    (List.range 32).foldl (fun w b => setBit w b (Tab.get chain (32 * (i - 16128) + b) {}).epoch) 0
  else 0

/-- Record `r` of a device section (R360). -/
def devRecord (cnt : Tab Word) (chain : Tab ChainSnap) (r : Nat) : List Word :=
  let dev := devWords cnt
  (List.range 16).map (fun i => devWord dev chain (16 * r + i))

/-- The header of a snapshot or dump with these record counts (R360). -/
def snapHeader (seq : Nat) (ns wraps epoch : Word) (live trunc step : Bool) (counts : List Nat) (left : Nat) : List Word :=
  let l := [w32 seq, ns, wraps, epoch, w32 (b2n live + 2 * b2n trunc + 4 * b2n step)] ++
    (List.range 4).map (fun i => w32 (counts.getD i 0)) ++ [w32 left, 0, 0, 0, 0, 0]
  l ++ [crc32 (wordsBytes l)]

/-- Record counts of a snapshot's sections. -/
def Snap.counts (x : Snap) : List Nat := [1024, x.paths.length, x.terms.length, x.pws.length]

/-- Header of a snapshot as PMHIST holds it, with the counts `c` of the sections that follow it. -/
def Snap.header (x : Snap) (c : List Nat) : List Word :=
  snapHeader x.seq x.ns x.wraps x.epoch false (x.trunc != 0) x.step c x.trunc

/-! ### PMHIST -/

/-- Bytes of a snapshot slot (R361). -/
def histSlot (s : State) : Nat := s.hbm.placed.getD 3 0 * 2 ^ 30 / 3600 / 4096 * 4096

/-- A snapshot as it is written to a slot with room for `n` records after the header: the sections in order, up to the last
record that fits (R361). -/
def Snap.fit (x : Snap) (n : Nat) : Snap :=
  let n1 := n - 1024
  let p := x.paths.take n1
  let t := x.terms.take (n1 - p.length)
  let w := x.pws.take (n1 - p.length - t.length)
  { x with paths := p, terms := t, pws := w,
           trunc := x.paths.length + x.terms.length + x.pws.length - (p.length + t.length + w.length) }

/-- What is left of snapshot `y` once the `n` bytes of PMHIST from `o` on are written anew: nothing, a slot marked invalid, or all (R361). -/
def Snap.under (o n : Nat) (y : Snap) : Option Snap :=
  if o ≤ y.off ∧ y.off + y.size ≤ o + n then none
  else if y.off < o + n ∧ o < y.off + y.size then some { y with invalid := true }
  else some y

/-- The beats of the `n` bytes of a region from `o` on have been written, page by page. -/
def regionWritten (s : State) (r o n : Nat) : State :=
  (List.range (n / 4096)).foldl (fun s i => hbmWritten s (regionAddr s.hbm.placed r (o + 4096 * i)) 4096) s

/-- Snapshot `x` is written to its slot, whose former content is gone; a region of 0 granules holds no history (R361). -/
def histPut (s : State) (x : Snap) : State :=
  let n := histSlot s
  if n = 0 then s
  else
    let o := x.seq % 3600 * n
    let t := regionWritten s 3 o n
    let y : Snap := { x.fit (n / 64 - 1) with off := o, size := n }
    { t with pm := { t.pm with hist := y :: t.pm.hist.filterMap (Snap.under o n) } }

/-- PMHIST_WRITE: the snapshots that wait are written, oldest first (R359, R361). -/
def execPmhistWrite (s : State) : Out :=
  .next (s.pm.toWrite.foldl histPut { s with pm := { s.pm with toWrite := [] } })

/-- Snapshot `x` lies in the slot of its SEQ, which is valid (R361). -/
def histLive (s : State) (x : Snap) : Bool := !x.invalid && x.size == histSlot s && x.off == x.seq % 3600 * histSlot s

/-- The snapshots that the slots of PMHIST hold, newest first (R361). -/
def histOf (s : State) : List Snap := s.pm.hist.filter (histLive s)

/-- The oldest SEQ that PMHIST holds; 0 while it holds none (R364). -/
def histOldest (s : State) : Nat := match histOf s with
  | [] => 0
  | x :: r => r.foldl (fun m y => min m y.seq) x.seq

/-- The snapshot `seq` that PMHIST holds. -/
def histSnap (s : State) (seq : Nat) : Option Snap := (histOf s).find? (fun x => x.seq == seq)

end Sys2Proof.Machine
end

