-- ==== Sys2Proof/Machine/Tod.lean ====
section
/-! DEFINITION. The time counter, its servo, TIME_SET, and what the 1PPS does (14_time_counter.md, R286 to R300; R70, R97, R120,
R359, R460). -/

namespace Sys2Proof.Machine

/-! ### The second -/

/-- Every lane, path and PDH signal that runs (R70, R97, R120). -/
def endSeconds (s : State) : State :=
  let s := ((List.range 128).filter (sdhOn s)).foldl endLaneSecond s
  let s := ((s.cfgs.map (fun p => w32 p.1)).filter (isPath s)).foldl endPathSecond s
  let s := ((List.range 64).filter (fun p => pdhCounted s (.port (Fin.ofNat 64 p)))).foldl
    (fun s p => endPdhSecond s (.port (Fin.ofNat 64 p))) s
  (s.map.terms.map (fun p => p.1)).foldl (fun s n => endPdhSecond s (.term (Fin.ofNat 65536 n))) s

/-! ### Servo state -/

/-- STATE of the servo: 0 FREE, 1 ACQUIRING, 2 TRACKING, 3 LOCKED, 4 HOLDOVER (R299). -/
def servoState (s : State) : Nat := fget s Reg.todStatus 2 0

/-- STATE and LOCKED change; a change of STATE raises SERVO_STATE (R293, R300). -/
def setServo (s : State) (st : Nat) : State :=
  let old := servoState s
  let s := bset (fset s Reg.todStatus 2 0 st) Reg.todStatus 3 (st == 3)
  if st = old then s else raise s 0x141 (w32 (3 + 2 ^ 15 * b2n (st == 3))) (w32 (st + 16 * old))

/-- OFFSET_LARGE changes (R292, R300). -/
def setLarge (s : State) (b : Bool) : State :=
  if bget s Reg.todStatus 5 = b then s
  else raise (bset s Reg.todStatus 5 b) 0x141 (w32 (4 + 2 ^ 15 * b2n b)) (rd s Reg.todOfs)

/-- The servo enters ACQUIRING with STEP_ARMED = 1 (R291, R292). -/
def acquire (s : State) : State :=
  let s := { s with tod := { s.tod with samples := [], okRun := 0, badRun := 0 } }
  setServo (bset s Reg.todStatus 4 true) 1

/-- At a 1PPS the SERVO written takes effect (R291). -/
def takeServo (s : State) : State :=
  let n := fget s Reg.todCtl 1 0
  if n = s.tod.servo then s
  else
    let s := { s with tod := { s.tod with servo := n, lockEnd := 0 } }
    if n = 0 then setServo (setLarge (wr s Reg.todOfs 0) false) 0 else acquire s

/-! ### Counting -/

/-- CULLET of each stack in which rows have been retired in the second that ends, with their count (R393, R405). -/
def culletEvents (s : State) : State :=
  let l := s.hbm.retired
  l.foldl (fun s p => raise s (0x780 + p.1) 2 (w32 p.2)) { s with hbm := { s.hbm with retired := [] } }

/-- What the 1PPS of DPLL-T does: the snapshot, the end of the second, and the SERVO written takes effect (R288, R291, R359,
R460). -/
def ppsEffect (s : State) : State :=
  let s := culletEvents (endSeconds (snapshot s))
  takeServo { s with
    evt := { s.evt with once := [] }
    eths := s.eths.map (fun p => (p.1, { p.2 with fecSec := 0 }))
    fab := { s.fab with pairRecov := [] }
    pwr := { s.pwr with secs := if s.pwr.dormant then s.pwr.secs + 1 else s.pwr.secs }
    glb := { s.glb with second := s.glb.second + 1 } }

/-- Ticks until the one at which NS wraps by counting (R287). -/
def ticksToWrap (t : TodSt) : Nat := (2 ^ 64 - t.acc.toNat + t.inc.toNat - 1) / t.inc.toNat

/-- Ticks until the one at which SUBSEC rolls over by counting (R287, R288). -/
def ticksToPps (t : TodSt) : Nat :=
  ((t.acc.toNat / 2 ^ 32 + 1000000000 - t.subsec) * 2 ^ 32 - t.acc.toNat + t.inc.toNat - 1) / t.inc.toNat

/-- The counter after `k` ticks, which pass at most one rollover of SUBSEC and one wrap of NS (R286, R287). -/
def TodSt.count (t : TodSt) (k : Nat) : TodSt :=
  let n := t.acc.toNat + k * t.inc.toNat
  let sub := t.subsec + (n / 2 ^ 32 - t.acc.toNat / 2 ^ 32)
  { t with acc := BitVec.ofNat 64 n, subsec := if 1000000000 ≤ sub then sub - 1000000000 else sub
           wraps := if 2 ^ 64 ≤ n then t.wraps + 1 else t.wraps, ticks := t.ticks + k }

/-- The counter counts `k` ticks; a wrap raises TIME_WRAP with WRAPS after it, and a rollover is the 1PPS (R287 to R289). -/
def countTicks (s : State) (k : Nat) : State :=
  let t := s.tod
  let s := { s with tod := t.count k }
  let s := if 0 < k ∧ ticksToWrap t ≤ k then raise s 0x140 1 s.tod.wraps else s
  if 0 < k ∧ ticksToPps t ≤ k then ppsEffect s else s

/-- The counter counts on for `k` ticks, and stops on the way at every wrap of NS, whose record is stamped there, and at every 1PPS (R288,
R289). -/
def countOn (fuel : Nat) (s : State) (k : Nat) : State := match fuel with
  | 0 => s
  | n + 1 =>
    let p := min (ticksToPps s.tod) (ticksToWrap s.tod)
    if p < k then countOn n (countTicks s p) (k - p) else countTicks s k

/-- TOD_NS_READ: the read returns NS and latches the fraction, SUBSEC and WRAPS; in REPLAY it returns ones (R26, R290). -/
def execTodNsRead (s : State) : Out :=
  .next (
    if hostDeaf s then s
    else if regLocked s then hostWait s Reg.todNs 4 false []
    else if replay s then readOut s Reg.todNs 0xFFFFFFFF
    else
      let t := s.tod
      readOut { s with tod := { t with latFrac := t.acc.extractLsb' 0 32, latSub := w32 t.subsec, latWraps := t.wraps } }
        Reg.todNs (nsNow s))

/-- Ticks of the 500 MHz timebase in one second (R286). -/
def secondTicks : Nat := 500000000

/-! ### Steps -/

/-- Nominal INC (R286). -/
def incNominal : Int := 2 ^ 33

/-- INC is within ±500 ppm (R286). -/
def incOk (n : Nat) : Bool := decide (8585639625 ≤ n) && decide (n ≤ 8594229559)

/-- FPOUTs heeled to the 1PPS of DPLL-T move by a step of `d` ns (R295). -/
def heelStep (s : State) (d : Int) : State :=
  (List.range 4).foldl (fun s j =>
    if heelRuns s j && fget s (Reg.timFpoutCtl j) 9 5 == 8 && d % 1000000000 != 0 then takeHeel s j ((fpSt s j).heel - d) false
    else s) s

/-- SUBSEC that counting would give after `inc` more units of 2^-32 ns (R287). -/
def subAfter (s : State) (inc : Int) : Int :=
  let old : Int := s.tod.acc.toNat
  ((s.tod.subsec : Int) + ((old + inc) / 2 ^ 32 - old / 2 ^ 32)) % 1000000000

/-- The counter takes new values, at a tick at which it does not count, where counting would have added `inc`; TIME_STEP is raised (R295,
R297). -/
def stepTo (s : State) (acc : BitVec 64) (subsec inc : Nat) : State :=
  let ns := nsNow s
  let d : Int := (subsec : Int) - subAfter s inc
  let s := { s with tod := { s.tod with acc := acc, subsec := subsec } }
  heelStep (raise s 0x141 2 ns) d

/-- The counter moves by `d` units of 2^-32 ns beside what a tick `inc` adds; SUBSEC moves with NS (R294). -/
def stepBy (s : State) (inc : Nat) (d : Int) : State :=
  stepTo s (BitVec.ofInt 64 ((s.tod.acc.toNat : Int) + inc + d)) (subAfter s ((inc : Int) + d)).toNat inc

/-! ### The servo -/

/-- Units of INC in MAX_ADJ (R286, R299). -/
def maxAdj (s : State) : Int := 2 ^ 33 * fget s Reg.todServo 15 8 / 1000000

/-- INC held within nominal ± MAX_ADJ (R292). -/
def heldInc (s : State) (i : Int) : BitVec 64 :=
  BitVec.ofInt 64 (iclamp (incNominal - maxAdj s) (incNominal + maxAdj s) i)

/-- The INC that three samples in 1/8 ns, oldest first at 0, `t2` and `t3` ns, preset: the one in force corrected by the slope of the
offsets (R292). -/
def presetInc (s : State) (o1 o2 o3 : Int) (t2 t3 : Int) : BitVec 64 :=
  let num := 3 * (t2 * o2 + t3 * o3) - (t2 + t3) * (o1 + o2 + o3)
  let den := 3 * (t2 * t2 + t3 * t3) - (t2 + t3) * (t2 + t3)
  heldInc s ((s.tod.inc.toNat : Int) - (2 * 2 ^ 33 * num + 8 * den) / (16 * den))

/-- The loop corrects INC: at MAX_ADJ while OFFSET_LARGE is present, otherwise by an amount that the spec leaves to its
proportional-integral loop, within nominal ± MAX_ADJ: free values for INC and for the integral term (R292). -/
def loopStep (s : State) (o : Int) : State :=
  if bget s Reg.todStatus 5 then
    let i := heldInc s (if o < 0 then incNominal + maxAdj s else incNominal - maxAdj s)
    { s with tod := { s.tod with inc := i } }
  else
    let i := heldInc s (incNominal + sgn 32 (freeNow s).toNat)
    let s := freeNext s
    let g := heldInc s (incNominal + sgn 32 (freeNow s).toNat)
    freeNext { s with tod := { s.tod with inc := i, integ := g } }

/-- A sample of offset `o` in 1/8 ns in TRACKING or LOCKED (R292). -/
def trackStep (s : State) (o : Int) : State :=
  let n := iabs o
  let thr := 8 * fget s Reg.todServo 31 16
  let s := if 8000000 < n then setLarge s true else if n < 4000000 then setLarge s false else s
  let ok := if n ≤ thr then s.tod.okRun + 1 else 0
  let bad := if 4 * thr < n then s.tod.badRun + 1 else 0
  let s := { s with tod := { s.tod with okRun := min 16 ok, badRun := min 4 bad } }
  let s :=
    if servoState s = 2 ∧ 16 ≤ ok then setServo { s with tod := { s.tod with badRun := 0 } } 3
    else if servoState s = 3 ∧ 4 ≤ bad then setServo { s with tod := { s.tod with okRun := 0 } } 2
    else s
  loopStep s o

/-- INC is `v` from now on (R286). -/
def setInc (s : State) (v : BitVec 64) : State := { s with tod := { s.tod with inc := v } }

/-- The samples that agree within 1 µs per second with the one of offset `o` in 1/8 ns taken at `t` ns, newest first (R292). -/
def acquireSamples (s : State) (o : Int) (t : Nat) : List (Int × Nat) := match s.tod.samples with
  | [] => [(o, t)]
  | (o', t') :: r => if iabs (o - o') * 1000000 < 8 * (t - t') then (o, t) :: (o', t') :: r else [(o, t)]

/-- INC is preset to `i`; while STEP_ARMED is 1 the counter steps by the offset `o` in 1/8 ns (R292). -/
def presetTo (s : State) (i : BitVec 64) (o : Int) : State :=
  let s := if bget s Reg.todStatus 4 then stepBy s 0 (-(o * 2 ^ 29)) else s
  let s := { s with tod := { s.tod with inc := i, integ := i, samples := [], okRun := 0, badRun := 0 } }
  setServo (bset s Reg.todStatus 4 false) 2

/-- A sample of offset `o`, taken at `t`, in ACQUIRING: the third of three that agree within 1 µs per second presets INC and, while
STEP_ARMED is 1, steps the counter (R292). -/
def acquireStep (s : State) (o : Int) (t : Nat) : State × Bool :=
  match acquireSamples s o t with
  | [(o3, t3), (o2, t2), (o1, t1)] =>
    (presetTo s (presetInc s o1 o2 o3 ((t2 - t1 : Nat) : Int) ((t3 - t1 : Nat) : Int)) o3, bget s Reg.todStatus 4)
  | l => ({ s with tod := { s.tod with samples := l } }, false)

/-- The servo takes one sample of offset `o` in 1/8 ns, of the time `t` in ns; the second part says whether it stepped the counter (R292). DESIGN
CHOICE (log entry 140): TOD_OFS shows the whole ns at or below the offset. -/
def servoStep (s : State) (o : Int) (t : Nat) : State × Bool :=
  let s := wr { s with tod := { s.tod with sampled := s.tod.ticks } } Reg.todOfs (i32 (iclamp (-2147483647) 2147483647 (o / 8)))
  match servoState s with
  | 1 => acquireStep s o t
  | 4 => (trackStep (setServo { s with tod := { s.tod with okRun := 0, badRun := 0 } } 2) o, false)
  | 2 => (trackStep s o, false)
  | 3 => (trackStep s o, false)
  | _ => (s, false)

/-- An offset in 1/8 ns, folded into ±500,000,000 ns (R292). -/
def foldOffset (o : Int) : Int := shortWay 8000000000 o

/-- The sample offset in 1/8 ns of an edge that crosses its ball now: SUBSEC less DELAY, folded (R292, R296). -/
def sampleNow (s : State) : Int :=
  foldOffset (((8 * s.tod.subsec + s.tod.acc.toNat % 2 ^ 32 / 2 ^ 29 : Nat) : Int) - 8 * sgn 24 (fget s Reg.todPps 31 8))

/-- The counter's time in ns with its wraps: differences of it are what has elapsed between samples (R292). -/
def extNow (s : State) : Nat := s.tod.wraps.toNat * 2 ^ 32 + (nsNow s).toNat

/-- SERVO_SAMPLE: a rising edge of the chosen REFIN crosses its ball now; only an active 1PPS input in AUTO_PPS gives samples (R292). -/
def execServoSample (s : State) : Out :=
  let r := fget s Reg.todPps 2 0
  .next (if s.tod.servo == 1 && refPps s r && refActive s r then (servoStep s (sampleNow s) (extNow s)).1 else s)

/-- The servo is in TRACKING or LOCKED in an AUTO mode (R292). -/
def servoTracks (s : State) : Bool := s.tod.servo != 0 && (servoState s == 2 || servoState s == 3)

/-- The HOST lock holds (R293). -/
def hostLocked (s : State) : Bool := s.tod.servo == 0 && servoState s == 3

/-- A servo in TRACKING or LOCKED goes to HOLDOVER; INC holds the integral term (R292). -/
def servoHolds (s : State) : State :=
  if servoTracks s then setServo { s with tod := { s.tod with inc := s.tod.integ, okRun := 0, badRun := 0 } } 4 else s

/-! ### TIME_SET -/

/-- KIND of a TIME_SET (R294). -/
def setKind (x : Desc) : Nat := fld (x.w 6) 2 0

/-- The KIND is accepted in the SERVO mode in force (R291). -/
def kindOk (servo k : Nat) : Bool := match servo with
  | 0 => decide (k ≤ 2)
  | 1 => k == 4
  | _ => k == 3 || k == 4

/-- Why a TIME_SET is refused (R294). -/
def setReason (s : State) (x : Desc) : Option Nat :=
  let k := setKind x
  if 5 ≤ k ∨ !kindOk s.tod.servo k then some 1
  else if (bit (x.w 6) 8 && decide (3 ≤ k)) || (k == 0 && decide (999999999 < (x.w 8).toNat)) ||
      (k == 2 && !incOk ((x.w 7).toNat + 2 ^ 32 * (x.w 8).toNat)) then some 2
  else if k = 3 ∧ 2000000000 < (nsNow s - x.w 8).toNat then some 3
  else none

/-- A TIME_SET of KIND `k` is taken, validated, and waits for its tick; a KIND of 5 to 7 is refused by any row (R294). -/
def takeTimeSet (s : State) (d k : Nat) : State := match takeDesc s d 0x50 with
  | none => s
  | some x =>
    if setKind x ≠ k ∧ setKind x < 5 then s
    else match setReason s x with
      | some r => invalid s d r
      | none => setDesc { s with tod := { s.tod with waiting := s.tod.waiting ++ [d] } } d 1

/-- TIME_SET_SET (R294). -/
def execTimeSetSet (d : Nat) (s : State) : Out := .next (takeTimeSet s d 0)
/-- TIME_SET_STEP (R294). -/
def execTimeSetStep (d : Nat) (s : State) : Out := .next (takeTimeSet s d 1)
/-- TIME_SET_RATE (R294). -/
def execTimeSetRate (d : Nat) (s : State) : Out := .next (takeTimeSet s d 2)
/-- TIME_SET_OFFSET (R294). -/
def execTimeSetOffset (d : Nat) (s : State) : Out := .next (takeTimeSet s d 3)
/-- TIME_SET_REACQUIRE (R294). -/
def execTimeSetReacquire (d : Nat) (s : State) : Out := .next (takeTimeSet s d 4)

/-- The HOST lock that a SET, STEP or RATE with LOCK takes; HOST_TTL 0 is treated as 1 (R293). -/
def hostLock (s : State) (x : Desc) : State :=
  if bit (x.w 6) 8 then
    setServo { s with tod := { s.tod with lockEnd := s.tod.ticks + max 1 (fget s Reg.todCtl 7 4) * secondTicks } } 3
  else s

/-- The second that runs holds a SET or STEP, whose tick is a tick of the timebase though the counter does not count at it (R295,
R360). -/
def noteStep (s : State) : State :=
  { s with pm := { s.pm with stepSec := true }, tod := { s.tod with ticks := s.tod.ticks + 1 } }

/-- A TIME_SET takes effect at its tick: the state after it and its two result words. DEDUCED (log entry 138): the offset of an OFFSET is folded as an
edge's is, since a servo step is smaller than 0.5 s (R294, R295, R297). -/
def applyTimeSet (s : State) (x : Desc) : State × Word × Word :=
  let before := nsNow s
  match setKind x with
  | 0 =>
    let s := stepTo s (BitVec.ofNat 64 ((x.w 7).toNat * 2 ^ 32 + (x.w 9).toNat)) (x.w 8).toNat s.tod.inc.toNat
    (hostLock (noteStep s) x, before, nsNow s)
  | 1 =>
    let s := stepBy s s.tod.inc.toNat (sgn 64 ((x.w 7).toNat + 2 ^ 32 * (x.w 8).toNat) * 2 ^ 32 + ((x.w 9).toNat : Int))
    (hostLock (noteStep s) x, before, nsNow s)
  | 2 =>
    let s := countTicks s 1
    let s := setInc s (BitVec.ofNat 64 ((x.w 7).toNat + 2 ^ 32 * (x.w 8).toNat))
    (hostLock s x, nsNow s, 0)
  | 3 =>
    let t := countTicks s 1
    let r := servoStep t (foldOffset (8 * sgn 32 (x.w 7).toNat)) (extNow t - (nsNow t - x.w 8).toNat)
    (r.1, w32 (b2n r.2), w32 (servoState r.1))
  | _ => (acquire (countTicks s 1), 0, 0)

/-- One tick, at which the oldest waiting TIME_SET takes effect and completes OK (R294, R295, R298). -/
def setTick (s : State) : State := match s.tod.waiting with
  | [] => s
  | d :: r =>
    let s := { s with tod := { s.tod with waiting := r } }
    match desc? s d with
    | none => s
    | some x =>
      let z := applyTimeSet (setDesc s d 2) x
      completeOk z.1 d z.2.1 z.2.2

/-- A TIME_SET waits for the next tick, and a half holds the leash, without which no descriptor reaches its commit point (R294, R366). -/
def setsDue (s : State) : Bool := s.mtx.held && !s.tod.waiting.isEmpty

/-- TIME_SET_APPLY: the first tick after a TIME_SET's validation (R294, R295, R298, R366). -/
def execTimeSetApply (s : State) : Out := .next (if setsDue s then setTick s else s)

/-! ### Time going on -/

/-- The ticks at which the waiting TIME_SETs take effect pass, one each (R294). -/
def setTicks (fuel : Nat) (s : State) : State := match fuel with
  | 0 => s
  | n + 1 => if setsDue s then setTicks n (setTick s) else s

/-- Every TIME_SET that waits takes effect at the next ticks (R294). -/
def setsPass (s : State) : State := setTicks s.tod.waiting.length s

/-- PPS_TICK: the counter counts on to the tick at which SUBSEC rolls over (R288). -/
def execPpsTick (s : State) : Out :=
  .next (
    if inReset s then s
    else
      let t := setsPass s
      if t.glb.second ≠ s.glb.second then t else countOn 3 t (ticksToPps t.tod))

/-- TIME_WRAP: the counter counts on to the tick at which NS wraps, through every 1PPS on the way (R289). -/
def execTimeWrap (s : State) : Out :=
  .next (
    if inReset s then s
    else
      let t := setsPass s
      if t.tod.wraps ≠ s.tod.wraps then t else countOn 7 t (ticksToWrap t.tod))

/-- Time goes on to tick `due`, through every TIME_SET, wrap and 1PPS on the way: a row that happens at a stated time happens then (log
entry 1). -/
def elapse (s : State) (due : Nat) : State :=
  if due ≤ s.tod.ticks ∨ inReset s then s
  else
    let s := setsPass s
    if due ≤ s.tod.ticks then s else countOn ((due - s.tod.ticks) / 400000000 + 4) s (due - s.tod.ticks)

/-- The tick at which a sample is overdue: 3 s after the last in AUTO_PPS, 4 s in AUTO_OFFSET (R292). -/
def sampleDue (s : State) : Nat := s.tod.sampled + (2 + s.tod.servo) * secondTicks

/-- SERVO_HOLDOVER_TIMEOUT: no sample for 3 s in AUTO_PPS or 4 s in AUTO_OFFSET (R292). -/
def execServoHoldoverTimeout (s : State) : Out := .next (if servoTracks s then servoHolds (elapse s (sampleDue s)) else s)

/-- TOD_LOCK_EXPIRY: in HOST mode the lock ends once its seconds have passed (R293). -/
def execTodLockExpiry (s : State) : Out :=
  .next (
    if hostLocked s then
      let s := elapse s s.tod.lockEnd
      if hostLocked s then setServo s 0 else s
    else s)

/-- One tick of the DPLL-T timebase with no command waiting: the oldest waiting TIME_SET, or counting (R286, R294). -/
def idleTick (s : State) : State := if inReset s then s else if setsDue s then setTick s else countTicks s 1

/-- A word that TOD_CTL, TOD_SERVO or TOD_PPS does not take (R299). -/
def todBad (off : Nat) (v : Word) : Bool :=
  if off = Reg.todCtl then fld v 1 0 == 3
  else if off = Reg.todServo then fld v 15 8 == 0 || decide (100 < fld v 15 8)
  else false

end Sys2Proof.Machine
end

