-- ==== Sys2Proof/Machine/Due.lean ====
section
/-! DEFINITION. Timeouts of the host interface (16_translation_preemption.md, R339; 17_events_counters.md, R354). -/

namespace Sys2Proof.Machine

/-- The timeout of a context in FAULT: its tick and the context; a timeout of 0 never comes (R339, R347). -/
def knlDue (s : State) (i : Nat) : Option (Nat × Knl) := match Tab.find? s.xlat.knl i with
  | some k =>
    let ms := fget s Reg.hifKnlTimeout 15 0
    if k.st ≠ 1 ∨ ms = 0 then none else some (k.since + ms * 500000, k)
  | none => none

/-- KENNEL_TIMEOUT: a context in FAULT for HIF_KNL_TIMEOUT ends FAULT_UNRESOLVED (R339, R348). -/
def execKennelTimeout (slot : Fin 256) (s : State) : Out :=
  .next (match knlDue s slot with
    | none => s
    | some (due, k) =>
      let s := elapse s due
      let tag := match desc? s k.d with
        | some d => d.w 1
        | none => 0
      unresolved (raise (knlDrop s slot) 0x682 (w32 (3 + 256 * slot.val)) tag) k)

/-- The ring of a vector whose TIME runs for unannounced records, and the tick at which it ends: TIME µs of 500 ticks each after the
oldest of them (R354). -/
def coalAt (s : State) (v : Nat) : Option (Nat × Nat) := match vectorRing s v with
  | some r =>
    let u := Tab.get s.evt.unann r {}
    let t := fget s (Reg.evtCoal v) 23 8
    if t ≠ 0 ∧ u.n ≠ 0 then some (u.since + t * 500, r) else none
  | none => none

/-- COALESCE_TIMEOUT: TIME after the oldest unannounced record the ring's vector is signalled (R354). -/
def execCoalesceTimeout (v : Fin 64) (s : State) : Out :=
  .next (match coalAt s v with
    | none => s
    | some (due, _) =>
      let s := elapse s due
      match coalAt s v with
      | some (_, r) => signal s r
      | none => s)

end Sys2Proof.Machine
end

