-- ==== Sys2Proof/Machine/Bulk.lean ====
section
/-! DEFINITION. Bulk descriptors, their engines and checkpoints (16_translation_preemption.md, R341 to R345), and what each of
them visits (R99, R155 to R157, R164, R199, R222, R238, R261, R362, R402). -/

namespace Sys2Proof.Machine

/-! ### What a bulk read visits -/

/-- One visit: the progress after it, and the record it writes, if any. -/
abbrev Visit := Bulk × Option (List Word)

/-- MAP_READ: the next output of the tier value that has an entry when the visit reaches it (R157). -/
def visitMap (s : State) (d : Desc) (b : Bulk) : Option Visit :=
  let t := saTier (d.w 6)
  if b.left = 0 then none
  else match nextPlaces (fun k => hasEntry s (placeAddr t k)) (tierPlaces t - b.pos) b.pos 1 with
    | [] => none
    | k :: _ =>
      let a := placeAddr t k
      let n := { b with pos := k + 1, left := b.left - 1 }
      if bit (d.w 8) 0 && (entryOf s a).kind == 0 then some (n, none)
      else
        let g := (rd s Reg.mapGen).toNat
        some ({ n with gen0 := some (b.gen0.getD g), gen1 := g }, some (mapRecord s a))

/-- First place of the paths of a PATH_STATUS, and the place after the last (R99). -/
def lanePlaces (d : Desc) : Nat × Nat :=
  let n := if bit (d.w 6) 8 then 6144 else 192
  (fld (d.w 6) 6 0 * n, (fld (d.w 6) 6 0 + 1) * n)

/-- The defects that the path at `a` reports, as bit positions of R99. -/
def repWord (a : Word) (l : List Nat) : Word := l.foldl (fun w i => setBit w (pathCause a i - 0x40) true) 0

/-- The PATH_STATUS record of the path at `a` (R99). -/
def statusRecord (s : State) (d : Desc) (a : Word) : List Word :=
  let p := path s a
  let tr := match p.trace with
    | some l => (l ++ List.replicate 64 0).take 64
    | none => List.replicate 64 0
  [a, repWord a p.rep, w32 (p.active.getD 0 + 4096 * (if p.ptr = 0 ∧ p.concLop then 1 else p.ptr)), w32 (p.label.getD 0 + 256 * b2n p.mkLock)] ++
    (if bit (d.w 6) 9 then bytesWords 16 tr else [])

/-- PATH_STATUS: the next monitored path of the lane (R99). -/
def visitPath (s : State) (d : Desc) (b : Bulk) : Option Visit :=
  let t := fld (d.w 6) 8 8
  let ok := fun k => isPath s (placeAddr t k) && bit (pathCfg s (placeAddr t k)).w7 3
  match nextPlaces ok ((lanePlaces d).2 - b.pos) b.pos 1 with
  | [] => none
  | k :: _ => some ({ b with pos := k + 1 }, some (statusRecord s d (placeAddr t k)))

/-- A visit of the numbers from `pos` on, below `top`; `r` answers no record for a number that has none (R199, R222). -/
def visitNum (b : Bulk) (top : Nat) (r : Nat → List Word) : Option Visit :=
  if b.left = 0 ∨ top ≤ b.pos then none
  else some ({ b with pos := b.pos + 1, left := b.left - 1 }, if (r b.pos).isEmpty then none else some (r b.pos))

/-- Sections wanted of a PM_DUMP with these record counts (R362). -/
def dumpCounts (d : Desc) (c : List Nat) : List Nat :=
  (List.range 4).map (fun i => if bit (d.w 6) (8 + i) then c.getD i 0 else 0)

/-- Section and index of record `k` after the header, under record counts `c`. -/
def dumpPlace (c : List Nat) (k : Nat) : Option (Nat × Nat) :=
  let go := (List.range 4).foldl (fun (acc : Nat × Option (Nat × Nat)) i => match acc with
    | (n, some r) => (n, some r)
    | (n, none) => if n < c.getD i 0 then (0, some (i, n)) else (n - c.getD i 0, none)) (k, none)
  go.2

/-- A record of a pseudowire that is gone since the dump began: its number and zeros. -/
def pwDump (s : State) (n : Nat) : List Word :=
  if (pwRecord s n).isEmpty then w32 n :: List.replicate 15 0 else pwRecord s n

/-- PM_DUMP of a snapshot `x` of PMHIST: record `k` (R360, R362). -/
def snapDump (d : Desc) (x : Snap) (k : Nat) : Option (List Word) :=
  let c := dumpCounts d x.counts
  if k = 0 then some (x.header c)
  else (dumpPlace c (k - 1)).map (fun p => match p.1 with
    | 0 => devRecord x.cnt x.chain p.2
    | 1 => x.paths.getD p.2 []
    | 2 => x.terms.getD p.2 []
    | _ => x.pws.getD p.2 [])

/-- Items of a live dump as listed when it began: sizes of the three sections, then their paths and numbers (R362). -/
def liveList (s : State) : List Word :=
  [w32 (livePaths s).length, w32 s.map.terms.length, w32 s.cem.pws.length] ++ livePaths s ++
    s.map.terms.map (fun p => w32 p.1) ++ s.cem.pws.map (fun p => w32 p.1)

/-- A live PM_DUMP: record `k` (R360, R362). -/
def liveDump (s : State) (d : Desc) (b : Bulk) (k : Nat) : Option (List Word) :=
  let n := fun i => (b.data.getD i 0).toNat
  let c := dumpCounts d [1024, n 0, n 1, n 2]
  if k = 0 then some (snapHeader 0 b.ns0 s.tod.wraps (epochNow s) true false false c 0)
  else (dumpPlace c (k - 1)).map (fun p => match p.1 with
    | 0 => devRecord s.regs (chainSnaps s) p.2
    | 1 => pathRecord s (b.data.getD (3 + p.2) 0)
    | 2 => termRecord s (b.data.getD (3 + n 0 + p.2) 0).toNat
    | _ => pwDump s (b.data.getD (3 + n 0 + n 1 + p.2) 0).toNat)

/-- PM_DUMP: the next record; a snapshot whose slot has been overwritten ends the dump (R362). -/
def visitDump (s : State) (d : Desc) (b : Bulk) : Option Visit :=
  let r := if fld (d.w 6) 1 0 = 2 then liveDump s d b b.pos
    else (histSnap s (b.data.getD 0 0).toNat).bind (fun x => snapDump d x b.pos)
  r.map (fun r => ({ b with pos := b.pos + 1 }, some r))

/-- The snapshot of a PM_DUMP has lost its slot (R362). -/
def dumpLost (s : State) (d : Desc) (b : Bulk) : Bool :=
  d.op == 0x58 && fld (d.w 6) 1 0 != 2 && (histSnap s (b.data.getD 0 0).toNat).isNone

/-- The LEASE_QUERY record of a lease (R402): an HBM block's element and the bytes that it has tested; the march of a bank and of a map segment,
whose pace is open, gives free values; 15 while a unit is copied in or out. -/
def leaseRecord (s : State) (kind : Nat) (l : Lease) : List Word :=
  let n := s.glb.free + 2 * kind
  let e := [0, 1, 2, 3, 4, 5, 6, 7, 8, 15].getD (Config.pick n % 10) 15
  let head := w32 (kind + 4 * l.unit)
  if kind = 1 then
    [head, w32 (if l.revoked then 15 else l.elem), l.ns, w32 (if l.elem = 15 then 0 else l.elem * 2 ^ 21 + l.done / 2)]
  else [head, w32 (if l.revoked then 15 else e), l.ns, Config.freeValue (n + 1)]

/-- LEASE_QUERY: the next lease in force (R402). -/
def visitLease (s : State) (b : Bulk) : Option Visit :=
  visitNum b 4 (fun k => match List.find? (fun p => p.1 == k) s.bgl.leases with
    | some p => leaseRecord s k p.2
    | none => [])

/-- The next visit of a bulk read; none: the visit has ended. -/
def visit (s : State) (d : Desc) (b : Bulk) : Option Visit := match d.op with
  | 0x19 => visitMap s d b
  | 0x21 => visitPath s d b
  | 0x32 => visitNum b (selCount (fld (d.w 6) 18 17)) (fun k => selRecord s (selKey (fld (d.w 6) 18 17) k))
  | 0x39 => visitNum b (selCount (fld (d.w 6) 18 17)) (fun k => mergeRecord s (selKey (fld (d.w 6) 18 17) k))
  | 0x41 => visitNum b 4096 (guardRecord s)
  | 0x49 => visitNum b 16384 (pwRecord s)
  | 0x58 => visitDump s d b
  | 0x61 => visitLease s b
  | _ => none

/-! ### How a bulk descriptor is refused, and where it begins -/

/-- A bulk read that writes nothing: INVALID with a reason, or, inside, without one (R99, R157, R199, R222, R362). -/
def bulkReason (s : State) (d : Desc) : Option (Option Nat) := match d.op with
  | 0x19 => (mapReadReason s d).map some
  | 0x21 => if laneEn s (fld (d.w 6) 6 0) && decide (laneMode s (fld (d.w 6) 6 0) ≤ 3) then none else some none
  | 0x32 => (selStatusReason d).map some
  | 0x39 => (selStatusReason d).map some
  | 0x41 => if fld (d.w 7) 12 0 = 0 ∨ 4096 < fld (d.w 7) 12 0 then some (some 2) else none
  | 0x49 => if fld (d.w 7) 14 0 = 0 ∨ 16384 < fld (d.w 7) 14 0 then some (some 2) else none
  | 0x58 =>
    let from_ := fld (d.w 6) 1 0
    if from_ = 3 ∨ fld (d.w 6) 11 8 = 0 then some (some 2)
    else if from_ = 2 then none
    else if histSlot s = 0 then some (some 3)
    else if from_ = 1 ∧ (histSnap s (d.w 7).toNat).isNone then some (some 1)
    else if from_ = 0 ∧ histOf s = [] then some none else none
  | _ => none

/-- Where the visit of a bulk descriptor begins. -/
def bulkStart (s : State) (d : Desc) : Bulk := match d.op with
  | 0x19 => { pos := addrPlace (d.w 6), left := fld (d.w 7) 21 0 }
  | 0x21 => { pos := (lanePlaces d).1 }
  | 0x32 => { pos := fld (d.w 6) 16 0, left := fld (d.w 7) 17 0 }
  | 0x39 => { pos := fld (d.w 6) 16 0, left := fld (d.w 7) 17 0 }
  | 0x41 => { pos := fld (d.w 6) 11 0, left := fld (d.w 7) 12 0 }
  | 0x49 => { pos := fld (d.w 6) 13 0, left := fld (d.w 7) 14 0 }
  | 0x58 => match fld (d.w 6) 1 0 with
    | 0 => { data := [w32 (match histOf s with
        | x :: _ => x.seq
        | [] => 0)] }
    | 1 => { data := [d.w 7] }
    | _ => { data := liveList s, ns0 := nsNow s }
  | 0x61 => { pos := 1, left := 3 }
  | _ => { left := d.len / 16 }

/-! ### Running -/

/-- The result words of a bulk read (R99, R157, R222, R362). -/
def bulkWords (d : Desc) (b : Bulk) : Word × Word :=
  (w32 b.recs,
    if d.op = 0x19 then w32 (min 65535 ((b.gen1 + 2 ^ 32 - b.gen0.getD b.gen1) % 2 ^ 32) + 2 ^ 31 * b2n b.full)
    else w32 (b.missed % 2 ^ 31 + 2 ^ 31 * b2n b.full))

/-- A bulk read ends with a status and its words as for OK: 0 OK, 7 PARTIAL (R317). -/
def endRead (s : State) (d : Desc) (b : Bulk) (status : Nat) : State :=
  complete (bulkDrop s d.id) d.id status (bulkWords d b).1 (bulkWords d b).2

/-- A descriptor reaches a checkpoint: 4 KiB moved or 1,024 visits since the last (R341). -/
def Bulk.passes (b : Bulk) : Bool := decide (1024 ≤ b.seen) || decide (b.mark + 4096 ≤ b.moved)
/-- The progress at a checkpoint that it passes (R341). -/
def Bulk.check (b : Bulk) : Bulk := { b with mark := b.moved, seen := 0 }
/-- A descriptor stands at a checkpoint: it has passed one, or has just begun (R341). -/
def Bulk.atCheck (b : Bulk) : Bool := b.seen == 0 && b.mark == b.moved

/-- A bulk read runs to its next checkpoint or its end, whatever has interrupted it since the last; without Bus Master Enable it waits at
its next record, and while no half holds the leash at its first (R305, R314, R336, R337, R341, R366). -/
def runRead (fuel : Nat) (s : State) (io : HostIO) (d : Desc) (b : Bulk) : State := match fuel with
  | 0 => setBulk s d.id b
  | n + 1 =>
    if b.passes then setBulk s d.id b.check
    else match visit s d b with
      | none => endRead s d { b with full := b.full || dumpLost s d b } 0
      | some (b', none) => runRead n s io d { b' with seen := b.seen + 1 }
      | some (b', some r) =>
        if d.len < b.moved + 4 * r.length then
          if d.op = 0x19 then endRead s d { b with full := true } 0
          else runRead n s io d { b' with missed := b.missed + 1, seen := b.seen + 1 }
        else if !s.rng.bme || !(b.commit || s.mtx.held) then setBulk s d.id b
        else match writeHost s io (d.addr + b.moved) (wordsBytes r) with
          | (s, some f) => parkFault (setBulk s d.id b) d.id f.1 true f.2 b.moved [] 0 0
          | (s, none) =>
            runRead n (setDesc s d.id 2) io d
              { b' with moved := b.moved + 4 * r.length, recs := b.recs + 1, commit := true, seen := b.seen + 1 }

/-- The end of a MAP_EDIT whose buffer has been read: staged in its gather, or validated as a direct change (R155, R156,
R164). -/
def endEdit (s : State) (d : Desc) (b : Bulk) : State :=
  let l := recordsOf b.data
  let s := bulkDrop s d.id
  if d.inGather then stage s d (.edits l) else endDirect s d l

/-- A MAP_EDIT reads its records to its next checkpoint or their end; without Bus Master Enable it waits, and while no half holds the leash at the
end (R305, R314, R336, R337, R341, R366). -/
def runEdit (fuel : Nat) (s : State) (io : HostIO) (d : Desc) (b : Bulk) : State := match fuel with
  | 0 => setBulk s d.id b
  | n + 1 =>
    if b.left = 0 then (if s.mtx.held then endEdit s d b else setBulk s d.id b)
    else if b.passes then setBulk s d.id b.check
    else if !s.rng.bme then setBulk s d.id b
    else match readHost s io (d.addr + b.moved) 16 with
      | (s, .inl f) => parkFault (setBulk s d.id b) d.id f.1 false f.2 b.moved [] 0 0
      | (s, .inr l) =>
        runEdit n s { io with data := io.data.drop 4 } d
          { b with left := b.left - 1, moved := b.moved + 16, data := b.data ++ bytesWords 4 l, seen := b.seen + 1 }

/-- A bulk descriptor runs on from its progress to its next checkpoint or its end (R341). -/
def runBulk (s : State) (io : HostIO) (id : Nat) : State := match desc? s id with
  | none => bulkDrop s id
  | some d =>
    let b := bulkOf s id
    if d.op = 0x18 then runEdit 1025 s io d b else runRead 1025 s io d b

/-! ### Engines -/

/-- PRIO of the ring of a descriptor (R307). -/
def prioOf (s : State) (id : Nat) : Nat := match desc? s id with
  | some d => fget s (Reg.ringCfg d.ring) 9 7
  | none => 0

/-- The parked bulk context to go on first: of highest PRIO, the one parked first (R343). -/
def nextContext (s : State) : Option (Nat × Knl) :=
  s.xlat.knl.foldl (fun best p =>
    if p.2.st = 1 ∨ (Tab.find? s.xlat.bulk p.2.d).isNone then best
    else match best with
      | none => some p
      | some q =>
        if prioOf s q.2.d < prioOf s p.2.d ∨ (prioOf s q.2.d = prioOf s p.2.d ∧ p.2.order < q.2.order) then some p
        else best) none

/-- The waiting bulk descriptor of highest PRIO, the oldest first. -/
def nextQueued (s : State) : Option Nat :=
  s.xlat.queue.foldl (fun best d => match best with
    | none => some d
    | some q => if prioOf s q < prioOf s d then some d else best) none

/-- The next piece of work of a free engine (R343). -/
def nextWork (s : State) : Option Nat := match nextContext s, nextQueued s with
  | some c, some q => if prioOf s c.2.d < prioOf s q then some q else some c.2.d
  | some c, none => some c.2.d
  | none, q => q

/-- PREEMPTED contexts move to READY once no bulk descriptor of higher PRIO waits (R343). -/
def readyUp (s : State) : State :=
  { s with xlat := { s.xlat with knl := s.xlat.knl.map (fun p =>
      if p.2.st = 2 ∧ s.xlat.queue.all (fun q => decide (prioOf s q ≤ prioOf s p.2.d)) then (p.1, { p.2 with st := 3 })
      else p) } }

/-- Engine `e` runs descriptor `id`, which leaves the queue and the kennel (R343). -/
def engRun (s : State) (io : HostIO) (e id : Nat) : State :=
  let x := s.xlat
  let s := { s with xlat := { x with
    queue := setDel x.queue id
    knl := x.knl.filter (fun p => p.2.d != id)
    engs := Tab.put x.engs e { d := id, order := x.order }
    order := x.order + 1 } }
  runBulk (readyUp s) io id

/-- A free engine. -/
def engIdle (s : State) : Option Nat := (List.range 4).find? (fun e => (Tab.find? s.xlat.engs e).isNone)

/-- The engine whose descriptor one of PRIO `p` pre-empts: of lowest PRIO below `p`, the one taken last, of those not already
chosen (R342). -/
def victim (s : State) (p : Nat) : Option Nat :=
  (s.xlat.engs.foldl (fun (best : Option (Nat × Eng)) q =>
    if q.2.preempt || decide (p ≤ prioOf s q.2.d) then best
    else match best with
      | none => some q
      | some b =>
        if prioOf s q.2.d < prioOf s b.2.d ∨ (prioOf s q.2.d = prioOf s b.2.d ∧ b.2.order < q.2.order) then some q
        else best) none).map (fun q => q.1)

/-- At least 32 kennel slots are free (R340). -/
def mayPark (s : State) : Bool := decide (knlUsed s + 32 ≤ 256)

/-- A bulk descriptor is taken: it runs on a free engine when it is the next piece of work, and waits otherwise; with all
engines busy it may pre-empt one (R342, R343). -/
def startBulk (s : State) (io : HostIO) (d : Desc) : State :=
  let s := setBulk (setDesc s d.id 1) d.id (bulkStart s d)
  let s := { s with xlat := { s.xlat with queue := s.xlat.queue ++ [d.id] } }
  match engIdle s with
  | some e => if nextWork s = some d.id then engRun s io e d.id else readyUp s
  | none => match victim s (prioOf s d.id) with
    | some e =>
      if mayPark s then
        { s with xlat := { s.xlat with engs := Tab.edit s.xlat.engs e {} (fun g => { g with preempt := true }) } }
      else s
    | none => s

/-- The context of the descriptor on engine `e` goes to a free slot in state PREEMPTED (R342). -/
def preempt (s : State) (e : Nat) (g : Eng) : State := match knlFree s with
  | none => s
  | some i =>
    let s := knlPut s i { st := 2, d := g.d, order := s.xlat.order, moved := (bulkOf s g.d).moved }
    { s with xlat := { s.xlat with order := s.xlat.order + 1, engs := Tab.drop s.xlat.engs e } }

/-- Engine `e`, if it is free, takes the next piece of work (R343). -/
def engTake (s : State) (io : HostIO) (e : Nat) : State :=
  if (Tab.find? s.xlat.engs e).isSome then s
  else match nextWork s with
    | some id => engRun s io e id
    | none => s

/-- A descriptor on an engine that a warm reset has frozen does not run on (R458). -/
def frozenDesc (s : State) (id : Nat) : Bool := match desc? s id with
  | some d => d.frozen
  | none => false

/-- BULK_CHECKPOINT: the descriptor on the engine, at its checkpoint, parks where a pre-emption of it has been decided and at least 32 slots are
free, and the waiting one starts; otherwise it runs on (R340 to R342). -/
def execBulkCheckpoint (engine : Fin 4) (io : HostIO) (s : State) : Out :=
  let e : Nat := engine
  .next (match Tab.find? s.xlat.engs e with
    | none => s
    | some g =>
      if frozenDesc s g.d then s
      else if !(bulkOf s g.d).atCheck then readyUp (runBulk s io g.d)
      else if g.preempt && mayPark s then readyUp (engTake (preempt s e g) io e)
      else
        let s := { s with xlat := { s.xlat with engs := Tab.put s.xlat.engs e { g with preempt := false } } }
        readyUp (runBulk s io g.d))

/-- ENGINE_TAKE: a free engine takes the next piece of work (R343). -/
def execEngineTake (engine : Fin 4) (io : HostIO) (s : State) : Out :=
  .next (match nextWork s with
    | some id => if frozenDesc s id then s else readyUp (engTake s io engine)
    | none => s)

/-! ### The rows -/

/-- A bulk read is taken: checked, and given to an engine (R333, R341). -/
def takeRead (s : State) (io : HostIO) (id op : Nat) : State := match takeDesc s id op with
  | none => s
  | some d =>
    if rangeBad s d then invalid s id 0xF4
    else match bulkReason s d with
      | some (some r) => invalid s id r
      | some none => invalidOpen s id
      | none => startBulk s io d

/-- MAP_READ (R157). -/
def execMapRead (d : Nat) (io : HostIO) (s : State) : Out := .next (takeRead s io d 0x19)
/-- PATH_STATUS (R99). -/
def execPathStatus (d : Nat) (io : HostIO) (s : State) : Out := .next (takeRead s io d 0x21)
/-- SEL_STATUS (R199). -/
def execSelStatus (d : Nat) (io : HostIO) (s : State) : Out := .next (takeRead s io d 0x32)
/-- MERGE_STATUS (R222). -/
def execMergeStatus (d : Nat) (io : HostIO) (s : State) : Out := .next (takeRead s io d 0x39)
/-- GUARD_STATUS (R238). -/
def execGuardStatus (d : Nat) (io : HostIO) (s : State) : Out := .next (takeRead s io d 0x41)
/-- PW_STATUS (R261). -/
def execPwStatus (d : Nat) (io : HostIO) (s : State) : Out := .next (takeRead s io d 0x49)
/-- PM_DUMP (R362). -/
def execPmDump (d : Nat) (io : HostIO) (s : State) : Out := .next (takeRead s io d 0x58)
/-- LEASE_QUERY (R402). -/
def execLeaseQuery (d : Nat) (io : HostIO) (s : State) : Out :=
  .next (takeRead { s with glb := { s.glb with free := s.glb.free + 8 } } io d 0x61)

/-- MAP_EDIT outside a gather: checked, then its buffer is read by an engine (R155, R156). -/
def execMapEditDirect (d : Nat) (io : HostIO) (s : State) : Out :=
  .next (match takeMap s d 0x18 false with
    | none => s
    | some x =>
      if rangeBad s x then invalid s d 0xF4
      else if editLenBad x.len then complete s d 3 2 0xFFFFFFFF
      else startBulk s io x)

/-- MAP_EDIT with IN_GATHER = 1: its buffer is read by an engine, and its edits join the gather (R161 to R164). -/
def execMapEditStage (d : Nat) (io : HostIO) (s : State) : Out :=
  .next (match takeMap s d 0x18 true with
    | none => s
    | some x =>
      if rangeBad s x then invalid s d 0xF4
      else if editLenBad x.len then invalid s d 2 else startBulk s io x)

end Sys2Proof.Machine
end

