-- ==== Sys2Proof/Machine/Abort.lean ====
section
/-! DEFINITION. ABORT (15_host_rings.md, R324 and R459; 16_translation_preemption.md, R345). -/

namespace Sys2Proof.Machine

/-- Entry `i` of command ring `n` is posted, not fetched and not already aborted (R310, R324). -/
def posted (s : State) (n i : Nat) : Bool :=
  cmdRing s n && decide ((i + ringSize s n - ringCons s n) % ringSize s n < ringUsed s n) && !(ringSt s n).skip.contains i

/-- Entry `i` of ring `n` has been fetched since the ring was last enabled, or has been aborted before its fetch (R459). -/
def fetchedEntry (s : State) (n i : Nat) : Bool :=
  decide (ringSize s n ≤ (ringSt s n).fetched) || decide (i < (ringSt s n).fetched) || (ringSt s n).skip.contains i

/-- A descriptor leaves every queue in which it waits before its commit point; a gather whose commit it is returns to OPEN
(R67, R68, R177, R245, R246, R298, R342, R401). -/
def detach (s : State) (id : Nat) : State :=
  let s := match (match desc? s id with
      | some x => x.bound
      | none => none) with
    | some (0x28, c) => editDcc s c (fun q => { q with txq := q.txq.filter (fun p => p.1 != id) })
    | some (0x29, c) => editDcc s c (fun q => { q with rxb := setDel q.rxb id })
    | some (0x4A, n) => editEth s n (fun q => { q with txq := q.txq.filter (fun p => p.1 != id) })
    | some (0x4B, n) => editEth s n (fun q => { q with rxb := setDel q.rxb id })
    | some (0x11, i) => reopen s i
    | _ => s
  let s := { s with groups := s.groups.map (fun (p : Nat × GroupSt) =>
    (p.1, { p.2 with retrimWait := p.2.retrimWait.filter (fun w => w.2 != some id) })) }
  let s := { s with tod := { s.tod with waiting := setDel s.tod.waiting id } }
  let s := if (s.bgl.cap.map (fun c => c.d)) = some id then { s with bgl := { s.bgl with cap := none } } else s
  readyUp (bulkDrop s id)

/-- ABORT `a` waits for the record of `t`; `stopped` says that it stops it (R324). -/
def awaitTarget (s : State) (a t : Nat) (stopped : Bool) : State :=
  { setDesc s a 2 with rng := { (setDesc s a 2).rng with abWait := (setDesc s a 2).rng.abWait ++ [(a, t, stopped)] } }

/-- A bulk read (R314). -/
def bulkRead (op : Nat) : Bool := [0x19, 0x21, 0x32, 0x39, 0x41, 0x49, 0x58, 0x61].contains op

/-- ABORT of a target in flight (R324, R345). -/
def abortFlight (s : State) (a : Nat) (t : Desc) : State :=
  if t.st < 2 then complete (detach (awaitTarget s a t.id true) t.id) t.id 1 0 0
  else if t.st = 2 ∧ bulkRead t.op then
    readyUp (endRead (awaitTarget s a t.id true) t (bulkOf s t.id) 7)
  else match knlOf s t.id with
    | some (_, k) => unresolved (awaitTarget s a t.id false) k
    | none => awaitTarget s a t.id false

/-- ABORT of a posted target: its entry is read alone and passed over later, and it completes ABORTED (R324). -/
def abortPosted (s : State) (a n i : Nat) (entry : List Word) : State :=
  let t : Desc := { id := s.rng.next, ring := n, idx := i, words := entry, st := 2, mode := mode s }
  let s := editRing (addDesc s t) n (fun r => { r with skip := setIns r.skip i })
  complete (awaitTarget s a t.id true) t.id 1 0 0

/-- ABORT finds its target by RING, INDEX and TAG; `entry` is what ring memory holds at the entry now, which it reads where the target is not in
flight, and for which it waits while Bus Master Enable is 0 (R305, R324, R459). -/
def abort (s : State) (a : Desc) (entry : List Word) : State :=
  let n := fld (a.w 6) 11 0
  let i := fld (a.w 6) 31 16
  let e : Desc := { words := entry }
  let same := e.w 1 == a.w 7 && e.op != 2
  if ringClass s n ≠ 0 ∨ ringSize s n ≤ i then invalid s a.id 1
  else match s.rng.descs.find? (fun t => t.ring == n && t.idx == i && t.w 1 == a.w 7 && t.op != 2) with
    | some t => abortFlight s a.id t
    | none =>
      if !s.rng.bme then s
      else
      let s := askHost s (ringAddr s n i) 64
      if posted s n i then (if same then abortPosted s a.id n i entry else invalid s a.id 1)
      else if fetchedEntry s n i && same && s.rng.descs.all (fun t => !(t.ring == n && t.idx == i)) then
        complete s a.id 2 0xFFFFFFFF 0
      else invalid s a.id 1

/-- ABORT acts at once when it has been fetched: neither ring order nor a fence holds it back (R324). -/
def execAbort (d : Nat) (entry : List Word) (s : State) : Out :=
  .next (match desc? s d with
    | none => s
    | some a => if a.op = 2 ∧ a.st = 0 ∧ !a.frozen ∧ s.mtx.held then abort s a entry else s)

end Sys2Proof.Machine
end

