-- ==== Sys2Proof/Machine/Ctl.lean ====
section
/-! DEFINITION. The halves and the leash, handover, warm reset and operating modes (01_architecture.md, R21 to R27;
18_control_complex.md, R365 to R371, R378; 20_power_clocks_reset.md, R423, R427 to R428). -/

namespace Sys2Proof.Machine

/-! ### Masters of the control matrix -/

/-- The lock on target `t` is held by `m`, 15 none (R383). -/
def setLock (s : State) (t m : Nat) : State := match lockLo t with
  | none => s
  | some lo => fset s Reg.mtxLock (lo + 3) lo m

/-- Locks of master `m` are released (R378). -/
def dropLocks (s : State) (m : Nat) : State :=
  [1, 2, 5].foldl (fun s t => if lockOf s t = some m then setLock s t 15 else s) s

/-! ### The scratchpad -/

/-- The newest load that filled byte `o` of the scratchpad, counted from the first; none where none did (R427). -/
def loadAt (l : List Nat) (o : Nat) : Option Nat := match l with
  | [] => none
  | n :: r => if o < n then some r.length else loadAt r o

/-- Byte `o` of the scratchpad: what was last written there, or the firmware that a load put there, or 0 (R379, R427). -/
def scratchByte (s : State) (o : Nat) : Byte := match Tab.find? s.mtx.scratch o with
  | some b => b
  | none => match loadAt s.mtx.fw o with
    | some k => Config.imageByte (1 + k) o
    | none => 0

/-- Byte `o` of the scratchpad is `b` (R379). -/
def scratchPut (s : State) (o : Nat) (b : Byte) : State :=
  { s with mtx := { s.mtx with scratch :=
    if (loadAt s.mtx.fw o).isSome then Tab.put s.mtx.scratch o b else Tab.store s.mtx.scratch o 0 b } }

/-- Bytes of an access in the 8-byte word where it starts (R379). -/
def firstPart (a : Access) : Nat := 8 - a.addr.toNat % 8

/-- Bytes are written to the scratchpad from offset `o` on (R379). -/
def scratchPuts (s : State) (o : Nat) (b : List Byte) : State := (b.zipIdx).foldl (fun s p => scratchPut s (o + p.2) p.1) s

/-- The second cycle of master `m`'s rotated scratchpad write, where one is still to come (R378, R379). -/
def endRotated (s : State) (m : Nat) : State :=
  (s.mtx.waits.filter (fun w => w.acc.master.val == m && w.acc.write && w.rot.isSome)).foldl (fun s w =>
    let k := firstPart w.acc
    scratchPuts s (w.tgt.2 + k) (((w.acc.data ++ List.replicate w.acc.size 0).take w.acc.size).drop k)) s

/-! ### A master's reset -/

/-- Write beats of master `m` that its targets have not accepted: those left of its burst, and those of its waiting accesses (R378). -/
def beatsLeft (s : State) (m : Nat) : Nat :=
  (match Tab.find? s.mtx.bursts m with
    | some b => if b.acc.write then b.acc.beats - b.done else 0
    | none => 0) +
  ((s.mtx.waits.filter (fun w => w.acc.master.val == m && w.acc.write && w.rot.isNone)).map (fun w => w.acc.beats)).sum

/-- Master `m` is reset: beats not accepted are dropped, what is staged is discarded, and an accepted rotated access completes; its locks are released and its
waiting accesses withdrawn; its parked ports are unparked; MASTER_RESET (R378, R384). -/
def resetMaster (s : State) (m : Nat) : State :=
  let n := beatsLeft s m
  let s := dropLocks (endRotated s m) m
  let s := { s with mtx := { s.mtx with
    bursts := Tab.drop s.mtx.bursts m
    lost := s.mtx.lost.filter (fun x => x % 8 != m)
    waits := s.mtx.waits.filter (fun w => w.acc.master.val != m)
    parked := s.mtx.parked.filter (fun p => p.2 != m) } }
  raise s 0x703 (w32 (0x22 + 256 * m)) (w32 n)

/-! ### The halves -/

/-- Lowest bit of a half's STATE field: `false` A, `true` B (R383). -/
def halfLo (h : Bool) : Nat := if h then 3 else 0

/-- State of a half: 0 RESET, 1 BOOT, 2 STANDBY, 3 ACTIVE, 4 FAILED (R365). -/
def halfState (s : State) (h : Bool) : Nat := fget s Reg.mtxHalf (halfLo h + 2) (halfLo h)

/-- A half changes state, and HALF_STATE is raised (R365, R384). -/
def setHalf (s : State) (h : Bool) (st : Nat) : State :=
  let o := halfState s h
  if o = st then s
  else raise (fset s Reg.mtxHalf (halfLo h + 2) (halfLo h) st) (if h then 0x702 else 0x701)
    (w32 (0x10 + 256 * st + 2048 * o)) 0

/-- A half enters RESET: its remap bit returns to 0 and its master is reset (R365, R373, R378). -/
def halfReset (s : State) (h : Bool) : State :=
  if halfState s h = 0 then s
  else resetMaster (bset (setHalf s h 0) Reg.mtxCtl (b2n h) false) (b2n h)

/-- A half that enters RESET is released at once and runs BOOT (R365). -/
def halfReboot (s : State) (h : Bool) : State := setHalf (halfReset s h) h 1

/-- The half that holds the leash, or held it last (R383). -/
def holder (s : State) : Bool := bget s Reg.mtxHalf 6

/-! ### The leash -/

/-- HB_AGE: µs since the holder's last heartbeat, saturating (R366, R383). -/
def hbAge (s : State) : Nat := match s.mtx.beat with
  | some t => min 65535 ((s.tod.ticks - t) / 500)
  | none => 0

/-- HEARTBEAT: the holder's beat restarts HB_AGE and clears LAPSED, and gives no leash back (R366). -/
def execHeartbeat (half : Bool) (s : State) : Out :=
  .next (
    if holder s = half ∧ halfState s half = 3 then
      bset { s with mtx := { s.mtx with beat := some s.tod.ticks } } Reg.mtxHalf 7 false
    else s)

/-- The holder has lapsed: no half holds the leash (R366). -/
def lapsed (s : State) : State :=
  { bset s Reg.mtxHalf 7 true with mtx := { s.mtx with held := false, vacant := 1, lapse := s.tod.ticks } }

/-- LEASH_LAPSE: 10 ms without a beat, and no half holds the leash (R366). -/
def execLeashLapse (s : State) : Out :=
  .next (if s.mtx.held then lapsed (elapse s (s.mtx.beat.getD 0 + 5000000)) else s)

/-- MTX_CLAIM of a half (R383). -/
def claimReg (h : Bool) : Nat := if h then Reg.mtxClaimB else Reg.mtxClaimA

/-- A half claims with epoch `e`: valid while no half holds the leash and `e` is above the epoch in force; refused
otherwise (R367, R384). -/
def claim (s : State) (half : Bool) (e : Word) : State :=
  let s := wr s (claimReg half) e
  if !s.mtx.held && decide ((epochNow s).toNat < e.toNat) then
    bset { s with mtx := { s.mtx with claims := s.mtx.claims ++ [(half, e)] } } Reg.mtxClaimRes 3 false
  else
    let s := bset (bset s Reg.mtxClaimRes 3 true) Reg.mtxClaimRes 4 half
    raise s 0x700 (w32 (3 + 256 * b2n half)) e

/-- LEASH_CLAIM: a half that runs firmware claims (R365, R367). -/
def execLeashClaim (half : Bool) (epoch : Word) (s : State) : Out :=
  .next (if halfState s half = 2 ∨ halfState s half = 3 then claim s half epoch else s)

/-- The highest epoch that a half claims in the window. -/
def bestClaim (s : State) (h : Bool) : Option Nat :=
  ((s.mtx.claims.filter (fun c => c.1 == h)).map (fun c => c.2.toNat)).max?

/-- The decision of a claim window: winner, its epoch, RESULT of MTX_CLAIM_RES, and the loser's epoch where two met
(R368, R383). -/
def decideClaims (s : State) : Option (Bool × Nat × Nat × Nat) := match bestClaim s false, bestClaim s true with
  | some a, some b => if a < b then some (true, b, 2, a) else some (false, a, if a = b then 3 else 2, b)
  | some a, none => some (false, a, 1, 0)
  | none, some b => some (true, b, 1, 0)
  | none, none => none

/-- A descriptor whose outcome a handover or warm reset fixes as NOT_RUN_RECOVERY: it has not reached its commit point and, at a
handover, is no bulk read (R27, R178, R298). -/
def notRun (warm : Bool) (d : Desc) : Bool :=
  if bulkRead d.op then warm && decide (d.st < 3) else decide (d.st < 2)

/-- A descriptor is stopped for recovery: it leaves its queues, and a parked frame is dropped (R27, R44, R346). -/
def stopDesc (s : State) (id : Nat) : State :=
  let s := match knlOf s id, desc? s id with
    | some (_, k), some d => if k.data.isEmpty then s else dropFrame s d.bound
    | _, _ => s
  editDesc (detach s id) id (fun d => { d with st := 0, frozen := true })

/-- Descriptors parked past their commit point that a warm reset stops (R346). -/
def parkedPast (s : State) (d : Desc) : Bool := decide (d.st < 3) && (knlOf s d.id).isSome

/-- Every descriptor in flight whose outcome is NOT_RUN_RECOVERY stops; a handover keeps the kennel, so what is parked there goes on
(R25, R27, R346, R458). -/
def stopAll (s : State) (warm : Bool) : State :=
  ((s.rng.descs.filter (fun d =>
    if warm then notRun true d || parkedPast s d else notRun false d && (knlOf s d.id).isNone)).map (fun d => d.id)).foldl
      stopDesc s

/-- A warm reset turns the waiting record of a GATHER_OPEN, a GATHER_ABORT or a staging descriptor into NOT_RUN_RECOVERY, since its
gather is discarded in any case (R178). -/
def voidRecords (s : State) : State :=
  let ofGather := fun (c : Cpl) => c.op == 0x10 || c.op == 0x12 ||
    ([0x18, 0x1A, 0x1B].contains c.op && (match desc? s c.d with
      | some d => d.inGather
      | none => false))
  { s with rng := { s.rng with cplWait := s.rng.cplWait.map (fun c =>
      if ofGather c then { c with status := 8, r0 := 0, r1 := 0 } else c) } }

/-- Stopped descriptors have their records written, or waiting: NOT_RUN_RECOVERY with both result words 0 (R27). -/
def endStopped (s : State) : State :=
  let l := (s.rng.descs.filter (fun d => d.frozen && decide (d.st < 2))).map (fun d => d.id)
  l.foldl (fun s id => complete s id 8 0 0) s

/-- The winner of a claim window takes the leash with its epoch; a half that held it or claimed enters RESET (R368). -/
def grant (s : State) (w : Bool) (e : Nat) (two : Bool) : State :=
  let other := !w
  let loses := (holder s == other && halfState s other == 3) || s.mtx.claims.any (fun c => c.1 == other)
  let s := wr s Reg.mtxLeash (w32 e)
  let s := bset (bset s Reg.mtxHalf 6 w) Reg.mtxHalf 7 false
  let s := bset s Reg.glbStatus 4 w
  let c := s.mtx.vacant
  let s := { s with mtx := { s.mtx with held := true, handover := false, claims := [], beat := some s.tod.ticks } }
  let s := setHalf s w 3
  let s := if loses || two then halfReboot s other else s
  raise s 0x700 (w32 (1 + 256 * b2n w + 512 * c)) (w32 e)

/-- The window is decided, the winner is granted, and the descriptors in flight at the grant are recovered
(R27, R178, R368, R369, R384). -/
def claimWindowEnd (s : State) : State := match decideClaims s with
  | none => s
  | some (w, e, res, lost) =>
    let two := decide (2 ≤ res)
    let s := bset (fset s Reg.mtxClaimRes 1 0 res) Reg.mtxClaimRes 2 w
    let s := grant s w e two
    let s := if two then raise s 0x700 (w32 (2 + 256 * b2n w + 512 * b2n (res == 3))) (w32 lost) else s
    let s :=
      if replay s then s
      else
        let s := stopAll s false
        { s with mtx := { s.mtx with recover := true } }
    flushEvents s

/-- HANDOVER_RECOVERY_DONE: the new holder has written the records of the descriptors in flight at the grant that had no effect
or had ended (R27, R369). -/
def execHandoverRecoveryDone (s : State) : Out :=
  .next (
    if s.mtx.recover && s.mtx.held && !replay s then
      let s := { s with mtx := { s.mtx with recover := false } }
      endStopped (flushCpl s)
    else s)

/-- CONTROL_LOST: 20 ms after a lapse with no grant (R370, R384). -/
def execControlLost (s : State) : Out :=
  .next (
    if s.mtx.held || s.mtx.vacant != 1 then s
    else
      let s := elapse s (s.mtx.lapse + 10000000)
      raise (setFault s 2) 0x700 4 (epochNow s))

/-- PLANNED_HANDOVER: a write of MTX_CTL with HANDOVER = 1 (R371). -/
def execPlannedHandover (v : Word) (s : State) : Out :=
  .next (hostWrite s Reg.mtxCtl v (fun s =>
    if !bit v 3 then s
    else if !s.mtx.held || halfState s (!holder s) != 2 || s.mtx.handover then ignoredWrite s Reg.mtxCtl
    else { s with mtx := { s.mtx with handover := true } }))

/-- LEASH_RELEASE: the holder releases the leash for a planned handover, and the standby claims with the epoch in force plus
one (R371). -/
def execLeashRelease (s : State) : Out :=
  .next (
    if s.mtx.handover && s.mtx.held then
      claim { s with mtx := { s.mtx with held := false, vacant := 2 } } (!holder s) (epochNow s + 1)
    else s)

/-! ### Boot of a half -/

/-- A manifest's magic, zero fields and lengths, its key and its SVN (R425, R426); the signature is part of `key`, and the bytes after
the last of the list are 0. -/
def manifestOk (s : State) (c : SlotCheck) : Bool :=
  let m := c.manifest
  let b := fun i => (m.getD i 0).toNat
  let n := fun i => leNat ((m.drop i).take 4)
  let zero := fun (i k : Nat) => (((m.drop i).take k).all (fun x => x == 0))
  decide (400 ≤ m.length) && decide (m.length ≤ 4096) && (m.drop 400).all (fun x => x == 0) && m.take 4 == [0x52, 0x4B, 0x46, 0x31] && decide (b 9 < 2) && zero 10 2 && zero 213 91 &&
    decide (4096 ≤ n 12) && decide (n 12 ≤ 524288) && n 12 % 4096 == 0 && decide (n 16 ≤ 33554432 - 4096 - n 12) &&
    c.key.isSome && decide (s.pwr.minSvn ≤ b 8)

/-- VERSION of a manifest (R425). -/
def manifestVersion (c : SlotCheck) : Nat := leNat ((c.manifest.drop 4).take 4)

/-- The image slot with number `i`. -/
def bootSlot (c : BootCheck) (i : Nat) : SlotCheck := if i = 0 then c.slot0 else c.slot1

/-- First choice: the valid manifest with the higher VERSION, slot 0 when they are equal (R427). -/
def firstChoice (s : State) (c : BootCheck) : Option Nat := match manifestOk s c.slot0, manifestOk s c.slot1 with
  | true, true => some (if manifestVersion c.slot0 < manifestVersion c.slot1 then 1 else 0)
  | true, false => some 0
  | false, true => some 1
  | false, false => none

/-- A slot passes: its manifest is valid and its resident segment's hash matches (R427). -/
def slotPasses (s : State) (c : BootCheck) (i : Nat) : Bool := manifestOk s (bootSlot c i) && (bootSlot c i).resident

/-- The slot a choosing half boots from, and whether it fell back to the other one (R427). -/
def bootChoice (s : State) (c : BootCheck) : Option (Nat × Bool) := match firstChoice s c with
  | none => none
  | some i =>
    if slotPasses s c i then some (i, false) else if slotPasses s c (1 - i) then some (1 - i, true) else none

/-- The manifest and resident segment of a slot fill the start of the scratchpad (R427). -/
def loadScratch (s : State) (c : SlotCheck) : State :=
  let n := 4096 + leNat ((c.manifest.drop 12).take 4)
  { s with mtx := { s.mtx with fw := n :: s.mtx.fw, scratch := s.mtx.scratch.filter (fun x => decide (n ≤ x.1)) } }

/-- Bytes of the manifest and resident segment of a slot in the scratchpad have been written over (R427). -/
def scratchSpoilt (s : State) (c : SlotCheck) : Bool :=
  s.mtx.scratch.any (fun x => decide (x.1 < 4096 + leNat ((c.manifest.drop 12).take 4)))

/-- A half that does not choose checks what lies in the scratchpad; where that fails, the slot in force is loaded again (R428). -/
def reloaded (s : State) (c : SlotCheck) : State := if scratchSpoilt s c then loadScratch s c else s

/-- Slot `i` is the slot in force: the boot registers and DBG_EN show it, and BOOT is raised (R427, R428, R432, R433). -/
def putInForce (s : State) (i : Nat) (fell : Bool) (c : BootCheck) : State :=
  let k := bootSlot c i
  let dbg := bit (w32 (k.manifest.getD 9 0).toNat) 0
  let key := match k.key with
    | some x => x.val
    | none => 0
  let s := wr s Reg.glbBoot (w32 (i + 2 * b2n fell + 4 * b2n dbg + 8 * key))
  let s := wr s Reg.glbFwVersion (w32 (manifestVersion k))
  let s := wr s Reg.glbFwSvn (w32 ((k.manifest.getD 8 0).toNat + 256 * s.pwr.minSvn))
  let s := bset (loadScratch s k) Reg.mtxCtl 2 dbg
  let ext := s.pwr.extFail
  let s := { s with pwr := { s.pwr with inForce := true, otherOk := manifestOk s (bootSlot c (1 - i)), extFail := false } }
  raise s 0x7C3 9 (w32 (fget s Reg.glbBoot 5 0 + 256 * b2n ext))

/-- A half's boot ends in STANDBY, its remap bit set (R365, R373, R427). -/
def halfStandby (s : State) (h : Bool) : State := setHalf (bset s Reg.mtxCtl (b2n h) true) h 2

/-- A half runs BOOT, and the SPI controller may serve it (R365, R430). -/
def halfBoots (s : State) : Bool := halfState s false == 1 || halfState s true == 1

/-- The 256 bytes of GLB_FLASH_BUF. -/
def flashBuf (s : State) : List Byte := wordsBytes ((List.range 64).map (fun i => rd s (Reg.glbFlashBuf i)))

/-- The GLB_FLASH command runs: the flash is given a page to program or a sector to erase (R430). -/
def flashStart (s : State) : State := match s.pwr.flash with
  | some (c, a) =>
    let s := { s with pwr := { s.pwr with flashHold := false } }
    if c = 2 then wire s "flash-program" a (flashBuf s) else if c = 3 then wire s "flash-erase" a [] else s
  | none => s

/-- A flash command that waited for the halves to boot runs (R430). -/
def bootServed (s : State) : State := if s.pwr.flashHold && !halfBoots s then flashStart s else s

/-- A half at the end of its boot checks the slot in force, or chooses one where none is, and enters STANDBY or FAILED (R365, R426 to
R428). -/
def halfBootDone (s : State) (half : Bool) (chk : BootCheck) : State :=
  if s.pwr.extFail then
    let i := 1 - fget s Reg.glbBoot 0 0
    if slotPasses s chk i then halfStandby (putInForce s i false chk) half else setHalf s half 4
  else if s.pwr.inForce then
    let i := fget s Reg.glbBoot 0 0
    if slotPasses s chk i then halfStandby (reloaded s (bootSlot chk i)) half else setHalf s half 4
  else match bootChoice s chk with
    | some (i, fell) => halfStandby (putInForce s i fell chk) half
    | none => setHalf s half 4

/-- HALF_BOOT_DONE (R365, R426 to R428, R430). -/
def execHalfBootDone (half : Bool) (chk : BootCheck) (s : State) : Out :=
  .next (if halfState s half ≠ 1 then s else bootServed (halfBootDone s half chk))

/-- BOOT_FAIL_TIMEOUT: no slot passed, and CTL has been powered for 1 s (R427). -/
def execBootFailTimeout (s : State) : Out :=
  .next (
    if s.pwr.st ≠ 0 ∧ halfState s false = 4 ∧ halfState s true = 4 then setFault (elapse s (s.pwr.ctlAt + secondTicks)) 2 else s)

/-! ### Warm reset -/

/-- The qualifying instant of a fall of WARM_RESET_N; ignored while RESET_N is low and before the device has
reached STANDBY (R25, R423, R458). -/
def warmResetStart (s : State) : State :=
  if s.pwr.rstLow || !s.pwr.aonOk || s.pwr.st == 0 then s
  else
    let s := bset (bset s Reg.glbStatus 3 true) Reg.glbStatus 2 false
    let s := fset s Reg.glbMode 1 0 3
    let s := bset (fset s Reg.pwrCtl 1 0 0) Reg.pwrStatus 2 false
    let s := { s with glb := { s.glb with modeGo := false }
                      pwr := { s.pwr with warmLow := true }
                      rng := { s.rng with stopped := true } }
    let s := bset (editGth s (fun t => { t with replayed := false })) Reg.mtxHalf 7 false
    let s := { s with mtx := { s.mtx with held := false, vacant := 3, handover := false, claims := [], recover := false } }
    resetMaster (halfReset (halfReset (stopAll (voidRecords s) true) false) true) 3

/-- WARM_RESET_RISE: both halves are released to boot (R26, R458). -/
def execWarmResetRise (s : State) : Out :=
  .next (
    if s.pwr.warmLow then
      setHalf (setHalf { s with pwr := { s.pwr with warmLow := false } } false 1) true 1
    else s)

/-- Sequence number of a journal record (R175). -/
def JRec.seq (r : JRec) : Word := r.words.getD 1 0

/-- The record's mirror copy is complete, and either replica is intact (R176, R391). -/
def JRec.intact (r : JRec) : Bool := r.mirror && !(r.badA && r.badB)

/-- Place in the log of the commit record of the gather in slot `i`, the newest one of that slot (R175). -/
def commitRecord (s : State) (i : Nat) : Option Nat :=
  s.gth.jrn.findIdx? (fun r => fld (r.words.getD 0 0) 7 0 == 2 && fld (r.words.getD 0 0) 11 8 == i)

/-- The record at place `k` of the log, newest first, is changed by `f`. -/
def editRec (s : State) (k : Nat) (f : JRec → JRec) : State := match s.gth.jrn[k]? with
  | none => s
  | some r => editGth s (fun t => { t with jrn := listPut t.jrn k (f r) })

/-- A read-back finds these copies of a record damaged. -/
def markDamage (s : State) (x : JrnDamage) : State :=
  editRec s x.num (fun r => { r with main := r.main && !x.main, badA := r.badA || x.mirrorA, badB := r.badB || x.mirrorB })

/-- The record at place `k` as a read-back finds it: beside an intact mirror a damaged JOURNAL copy is rewritten, with JRN_REPAIR; a record whose
mirror is damaged in both replicas is no held record, and MIRROR_LOST is raised where its JOURNAL copy is damaged as well (R176, R390, R391). -/
def checkRecord (s : State) (k : Nat) : State := match s.gth.jrn[k]? with
  | none => s
  | some r =>
    if r.intact then
      let t := mirrorWritten (mainWritten s (recordNumber s k)) (recordNumber s k)
      let t := editRec t k (fun r => { r with main := true, badA := false, badB := false })
      if r.main then t else raise t 0x310 0x10 r.seq
    else
      let t := editRec s k (fun r => { r with mirror := false })
      if r.mirror && !r.main then raise t 0x785 0x20 r.seq else t

/-- Slots of the SCHEDULED gathers whose commit record a read-back finds not held (R176). -/
def lostSlots (s : State) : List Nat :=
  (List.range 16).filter (fun i => (gslot s i).st == 3 && (match commitRecord s i with
    | some k => !(s.gth.jrn.getD k {}).intact
    | none => false))

/-- A gather whose commit record was lost follows the VALIDATING row: the record of its GATHER_COMMIT, where it still waits, becomes
NOT_RUN_RECOVERY (R176, R178). -/
def voidCommit (s : State) (i : Nat) : State :=
  { s with rng := { s.rng with cplWait := s.rng.cplWait.map (fun c =>
      if c.op = 0x11 ∧ ((desc? s c.d).bind Desc.bound) = some (0x11, i) then { c with status := 8, r0 := 0, r1 := 0 } else c) } }

/-- JOURNAL_REPLAY: both copies of the log are read; gathers without a held commit record are discarded, and SCHEDULED ones
stay (R26, R176, R178). -/
def execJournalReplay (damage : List JrnDamage) (s : State) : Out :=
  .next (
    if replay s && s.mtx.held && !s.pwr.warmLow then
      let s := damage.foldl markDamage (editGth s (fun t => { t with replayed := true }))
      let lost := lostSlots s
      let s := (((List.range s.gth.jrn.length).filter (fun k =>
        let r := s.gth.jrn.getD k {}
        !r.main || r.badA || r.badB)).foldl checkRecord s)
      let s := lost.foldl voidCommit s
      let open_ := (s.gth.slots.filter (fun p => p.2.st == 1 || p.2.st == 2)).map (fun p => p.1)
      ((List.range 16).filter (fun i => open_.contains i || lost.contains i)).foldl discardGather s
    else s)

/-- REPLAY_END, once the journal has been read: the TLB is invalidated, REPLAY clears, the records of the descriptors in flight at the reset and the held events
are written, recorded doorbells act, and fetching resumes (R26, R27). -/
def execReplayEnd (s : State) : Out :=
  .next (
    if replay s && s.mtx.held && !s.pwr.warmLow && s.gth.replayed then
      let s := bset { s with xlat := { s.xlat with tlb := [], inv := none } } Reg.hifXlatStatus 0 false
      let s := bset s Reg.glbStatus 3 false
      let s := { s with rng := { s.rng with stopped := false } }
      let s := endStopped (flushCpl s)
      let s := flushEvents s
      if s.rng.bme then actResumes (actDoorbells s) {} else s
    else s)

/-! ### Operating modes -/

/-- The host may request mode `b` while mode `a` is in effect (R22). -/
def modeAllowed (a b : Nat) : Bool := match a with
  | 0 => b == 1 || b == 2
  | 1 => b == 0 || b == 2
  | 2 => b == 1
  | _ => b == 1 || b == 2

/-- GLB_STATUS.MODE_PENDING (R21). -/
def modePending (s : State) : Bool := bget s Reg.glbStatus 2

/-- PWR_STATUS.PENDING (R411). -/
def pwrPending (s : State) : Bool := bget s Reg.pwrStatus 2

/-- GLB_MODE_WRITE: accepted or ignored; an accepted request stops fetching (R21 to R23, R325, R411). -/
def execGlbModeWrite (v : Word) (s : State) : Out :=
  let m := fld v 1 0
  .next (hostWrite s Reg.glbMode v (fun s =>
    if modePending s || pwrPending s then ignored s 7 0 Reg.glbMode
    else if m = mode s then s
    else if !modeAllowed (mode s) m then ignored s 7 0 Reg.glbMode
    else
      let s := bset (fset s Reg.glbStatus 1 0 m) Reg.glbStatus 2 true
      { s with glb := { s.glb with modeGo := true }, rng := { s.rng with stopped := true } }))

/-- Every descriptor fetched has completed, those parked for an address fault apart (R23). -/
def allEnded (s : State) : Bool := s.rng.descs.all (fun d => match knlOf s d.id with
  | some (_, k) => k.st == 1
  | none => false)

/-- MODE_SWITCH: the mode takes effect, MODE_PENDING clears and fetching resumes (R23). -/
def execModeSwitch (s : State) : Out :=
  .next (
    if s.glb.modeGo && allEnded s then
      let s := bset (fset s Reg.glbMode 1 0 (fget s Reg.glbStatus 1 0)) Reg.glbStatus 2 false
      { s with glb := { s.glb with modeGo := false }, rng := { s.rng with stopped := false } }
    else s)

end Sys2Proof.Machine
end

