-- ==== Sys2Proof/Machine/Content.lean ====
section
/-! DEFINITION. What the outputs carry: containers built or passed on, their pointers, mapped and DS0-level signals (R74, R80 to R83,
R87, R91 to R94, R101, R131 to R133, R140, R146, R148, R153, R156, R172). -/

namespace Sys2Proof.Machine

/-- What output `o` sends. -/
def outSt (s : State) (o : Word) : OutSt := Tab.get s.outs o.toNat {}
/-- Output `o` sends `x`. -/
def setOut (s : State) (o : Word) (x : OutSt) : State := { s with outs := Tab.put s.outs o.toNat x }
/-- The period of the low-order output `o` is a TU multiframe: a TU-12, TU-11 or TU-2 (R77). -/
def mfOut (s : State) (o : Word) : Bool := saTier o == 1 && !hoPoh s o

/-! ### Path overhead of built containers -/

/-- A trace message in form `m` from the bytes written for it: of 16 bytes, the first is built from the start bit and the CRC-7
(R59, R74). -/
def traceMsg (m : Nat) (b : List Byte) : List Byte :=
  if m = 2 then BitVec.ofNat 8 (128 + crc7 b) :: b.drop 1 else b

/-- Bytes of a transmitted trace in form `m` (R59, R74). -/
def traceTxLen (m : Nat) : Nat := if m = 3 then 64 else if m = 2 then 16 else 1

/-- The trace byte that output `o` sends next, and the rest of its message (R59, R74). -/
def traceOut (s : State) (o : Word) : Byte × List Byte :=
  let c := pathCfg s o
  let m := pathTrace c
  let l := if (outSt s o).tr.isEmpty then traceMsg m ((List.range (traceTxLen m)).map (fun i => c.trTx.getD i 0)) else (outSt s o).tr
  (l.headD 0, l.drop 1)

/-- Parity of a container, as its successor's B3 or V5 [7:6] carries it (R83). -/
def contParity (ho : Bool) (c : List Byte) : Byte :=
  let x := xorAll c
  if ho then x else BitVec.ofNat 8 (64 * bip2Of x)

/-- The overhead that the device writes into a container beside its parity and trace (R83, R87). -/
structure Poh where
  /-- Trace byte. -/
  trace : Byte := 0
  /-- Signal label. -/
  label : Nat := 0
  /-- REI. -/
  rei : Nat := 0
  /-- RDI. -/
  rdi : Bool := false
  /-- H4. -/
  h4 : Byte := 0

/-- A container with the overhead `p` and the parity of the one before it; the other overhead bytes are those of `c`, 0 (R83). -/
def withPoh (ho : Bool) (last : Byte) (p : Poh) (c : List Byte) : List Byte :=
  if ho then
    let r := c.length / 9
    [(0, p.trace), (r, last), (2 * r, BitVec.ofNat 8 p.label), (3 * r, BitVec.ofNat 8 (16 * p.rei + 8 * b2n p.rdi)),
      (5 * r, p.h4)].foldl (fun c (x : Nat × Byte) => listPut c x.1 x.2) c
  else
    listPut (listPut c 0 (last ||| BitVec.ofNat 8 (32 * min 1 p.rei + 2 * (p.label % 8) + b2n p.rdi))) (c.length / 4) p.trace

/-- The overhead of a container that the device assembles or maps at output `o`: trace and label of its PATH_CFG, and the upstream
indications of the path received at the same address (R74, R83, R87). -/
def ownPoh (s : State) (o : Word) (h4 : Byte) : Poh :=
  { trace := (traceOut s o).1, label := fld (pathCfg s o).w8 7 0, rei := (path s o).txRei, rdi := (path s o).upRdi, h4 := h4 }

/-! ### Containers that the device builds -/

/-- A container for output `o` whose payload is `b`, every other byte 0 (R132). -/
def fillPayload (s : State) (o : Word) (b : List Byte) : List Byte :=
  ((List.range (contBytes s o)).foldl (fun (p : List Byte × List Byte) i =>
    if isPayload s o i then (p.2.headD 0 :: p.1, p.2.drop 1) else (0 :: p.1, p.2)) ([], b)).1.reverse

/-- The container of test pattern `pat` at output `o`, and its generator gone on (R131, R132). -/
def patternContainer (s : State) (o : Word) (pat : Nat) : List Byte × State :=
  let r := genBytes s o pat ((List.range (contBytes s o)).filter (isPayload s o)).length
  (withPoh (hoPoh s o) (outSt s o).last { label := if pat = 0 then 0 else 1 } (fillPayload s o r.1), r.2)

/-- The bytes of TU `t` in the frame under way, with its pointer byte: TU-AIS while a direct edit holds it there, and 0xFF from the first byte
that could not be recovered (R140, R156). -/
def tuFrame (s : State) (t : Word) : List Byte :=
  let mf := mfOut s t
  let n := if mf then contBytes s t / 4 + 1 else 774
  let x := outSt s t
  let l := if mf then (x.now.drop (s.glb.frame % 4 * n)).take n else x.now
  let l := if l.isEmpty then List.replicate n 0 else l
  if s.map.tuAis.contains t.toNat then List.replicate n 0xFF
  else match s.fab.ffOut.find? (fun p => p.1 == t) with
    | none => l
    | some p => (List.range n).map (fun k =>
        let ptr := if mf then k == 0 else k % 86 == 0 && decide (k < 258)
        if p.2 ≤ k ∧ !ptr then 0xFF else l.getD k 0)

/-- The 783 bytes of index `i` of lane `l` in an assembled container: its low-order outputs, the null pointer indication of a TUG-3 with
TUG-2s, and 0x00 (R132, R146; G.707 layout, log entry 101). -/
def indexBytes (s : State) (l i : Nat) : List Byte :=
  let w := structWord s l i
  let tus : Tab (List Byte) := ((List.range 8).flatMap (fun g => ((List.range 4).filter (fun t => (tuUnder w g t).isSome)).map (fun t =>
    loAddr l i g t))).foldl (fun q t => Tab.put q t.toNat (tuFrame s t)) []
  let npi := w % 4 == 2 && (container s l i).2 != 1
  (List.range 783).map (fun b => match tuPos s l i b with
    | some t => (Tab.get tus t.1.toNat []).getD t.2 0
    | none => if npi && b == 1 then BitVec.ofNat 8 (0x93 + 4 * ssBits s l) else if npi && b == 88 then 0xE0 else 0)

/-- The container that the device assembles from the low-order outputs of the structured indices of output `o` (R83, R146). H4 names the
frame of the TU multiframe that follows (R82; G.707, log entry 101). -/
def assembled (s : State) (o : Word) : List Byte :=
  let span := hoSpan (hoTy s o)
  let cs := (rangeFrom (saIdx o) span).map (indexBytes s (saLane o))
  withPoh true (outSt s o).last (ownPoh s o (BitVec.ofNat 8 (0xFC + (s.glb.frame + 1) % 4)))
    ((List.range (783 * span)).map (fun k => (cs.getD (k % span) []).getD (k / span) 0))

/-! ### The mapper -/

/-- The signal that the mapper puts into the TU at `a`: kind 0 and the number of a termination, or the far endpoint of its clear-channel
connection (R93, R152, R153). -/
def mapSource (s : State) (a : Word) : Option (Nat × Word) := match termOf s a with
  | some n => some (0, w32 n)
  | none => (ccOf s 1 a).map (fun c => if c.aKind = 1 ∧ c.aId = a then (c.bKind, c.bId) else (c.aKind, c.aId))

/-- The part of a bit, in 10^-9, that the source of a mapper has sent beyond its whole bits (R93, R256). -/
def mapFrac (s : State) (a : Word) : Nat := match mapSource s a with
  | some (3, id) => ((pw? s (fld id 13 0)).map Pw.outFrac).getD 0
  | _ => 0

/-- The justification control byte of a multiframe with `d` data bits above the nominal count: C1 is 1 where S1 is justification, C2 where S2
is (R91, R93). -/
def mapControl (d : Int) : Nat := 128 * b2n (decide (d ≤ 0)) + 64 * b2n (decide (d < 0))

/-- An asynchronously mapped VC-12, its path overhead apart: S1 and S2 hold data where they are no justification (R91). -/
def asyncVc12 (d : Int) (l : List Bool) : List Byte :=
  let c := mapControl d
  let b := fun (i : Nat) => bitsBytes ((l.drop (256 * i)).take 256)
  let s1 := decide (0 < d)
  let s2 := decide (0 ≤ d)
  let r := l.drop 768
  let r2 := if s1 then r.drop 1 else r
  let r3 := if s2 then r2.drop 1 else r2
  [0, 0] ++ b 0 ++ [0, 0, BitVec.ofNat 8 c] ++ b 1 ++ [0, 0, BitVec.ofNat 8 c] ++ b 2 ++
    [0, 0, BitVec.ofNat 8 (c + b2n (s1 && r.headD true))] ++ bitsBytes ((s2 && r2.headD true) :: r3.take 255) ++ [0]

/-- An asynchronously mapped VC-11, its path overhead apart (R91). -/
def asyncVc11 (d : Int) (l : List Bool) : List Byte :=
  let c := mapControl d
  let b := fun (i : Nat) => bitsBytes ((l.drop (193 * i)).take 192)
  let f := fun (i : Nat) => b2n (l.getD (193 * i + 192) true)
  let s1 := decide (0 < d)
  let s2 := decide (0 ≤ d)
  let r := l.drop 579
  let r2 := if s1 then r.drop 1 else r
  let r3 := if s2 then r2.drop 1 else r2
  [0, 0] ++ b 0 ++ [0, BitVec.ofNat 8 (c + 2 * f 0)] ++ b 1 ++ [0, BitVec.ofNat 8 (c + 2 * f 1)] ++ b 2 ++
    [0, BitVec.ofNat 8 (c + 4 * f 2 + 2 * b2n (s1 && r.headD true) + b2n (s2 && r2.headD true))] ++ bitsBytes (r3.take 192)

/-- A byte-synchronously mapped VC-12 or VC-11, its path overhead apart: one E1 or T1 frame in each subframe (R94). -/
def syncVc (vc12 : Bool) (l : List Bool) : List Byte :=
  (List.range 4).flatMap (fun i =>
    if vc12 then [0, 0] ++ bitsBytes ((l.drop (256 * i)).take 256) ++ [0]
    else
      let f := (l.drop (193 * i)).take 193
      [0, BitVec.ofNat 8 (2 * b2n (f.headD true))] ++ bitsBytes (f.drop 1))

/-- The input buffer of the mapper into the TU at `a`, which takes `n` bits of a nominal multiframe: for a new signal it is centred, at twice those
bits (R93; DESIGN CHOICE, log entry 135). -/
def mapCentre (s : State) (a : Word) (n : Nat) : State :=
  if (path s a).mapSrc = mapSource s a then s
  else editPath s a (fun p =>
    let q := List.replicate (2 * n - p.mapQ.length) true ++ p.mapQ
    { p with mapSrc := mapSource s a, mapQ := q.drop (q.length - 2 * n) })

/-- One TU multiframe of the mapper into the TU at `a`: it reads its buffer's fill, chooses S1 and S2, and takes the data bits. A terminated signal
is in DPLL-S timing and mapped at nominal; a byte-synchronous one has no such choice (R93, R94). -/
def mapTu (s : State) (a : Word) : List Byte × State :=
  let vc12 := tuType? s a != some 1
  let n : Nat := if vc12 then 1024 else 772
  let s := mapCentre s a n
  let q := (path s a).mapQ
  let d := if (termOf s a).isSome then 0
    else mapDecision (10 ^ 9 * ((q.length : Int) - ((2 * n : Nat) : Int)) + (mapFrac s a : Int))
  let k := (n + d).toNat
  let b := fitBits k (q.take k)
  (if (termOf s a).isSome && bit (pathCfg s a).w7 11 then syncVc vc12 b else if vc12 then asyncVc12 d b else asyncVc11 d b,
    editPath s a (fun p => { p with mapQ := q.drop k }))

/-! ### What an output carries -/

/-- What an output carries in one period: all ones, without a position or at that of a block, a container that the device builds with the
rest of its trace message, or the block of a source after the container `prev`. -/
inductive Carried where
  | ones (b : Option LineBlk)
  | built (c tr : List Byte)
  | read (b : LineBlk) (prev : List Byte)

/-- What the container output `o` carries in the period that ends, and the state with its generator or mapper gone on (R131 to R133, R146,
R148, R219). -/
def carriedOf (s : State) (o : Word) : Carried × State :=
  let e := entryOf s o
  let ho := hoPoh s o
  if testPart s = some 5 then (.ones none, s)
  else if e.kind = 3 then
    (if e.owner = 1 then (.built (assembled s o) (traceOut s o).2, s)
    else
      let r := mapTu s o
      (.built (withPoh ho (outSt s o).last (ownPoh s o 0) r.1) (traceOut s o).2, r.2))
  else match patternOf s o with
    | some pat =>
      if pat = 1 then (.ones none, s)
      else
        let r := patternContainer s o pat
        (.built r.1 [], r.2)
    | none => match outBlocks s o with
      | none =>
        let r := patternContainer s o 0
        (.built r.1 [], r.2)
      | some b => (if b.1.ones then .ones (some b.1) else .read b.1 (fitBytes (contBytes s o) b.2), s)

/-! ### Pointers and periods -/

/-- The pointer of a period: value in force after it, the two bytes sent, and an adjustment, 1 positive or 2 negative. -/
structure PtrOut where
  val : Nat
  head : List Byte
  adj : Nat
  ndf : Bool

/-- Position of a block, 0 for a container that the device builds (R81). -/
def blockPos (b : Option LineBlk) : Nat := (b.map LineBlk.pos).getD 0

/-- The pointer that output `o` sends, whose last one is in `x`, when it carries `b`: NDF 1001 where a source change, a re-centring or a step of
a guard moves the position, inverted I or D bits where the source's store has adjusted or a guard slews, the constant 0 for a container that
the device builds (R80, R81, R235). -/
def pointerOut (s : State) (o : Word) (x : OutSt) (b : Option LineBlk) : PtrOut :=
  let ss := ssBits s (saLane o)
  let max := ptrMax s o
  let v := blockPos b
  let same := x.src == b.map LineBlk.pace
  let new : PtrOut := { val := v, head := ptrBytes true ss v, adj := 0, ndf := true }
  if same && (b.map LineBlk.ndf).getD false then new
  else if v = x.val then { val := v, head := ptrBytes false ss v, adj := 0, ndf := false }
  else if !same then new
  else if v = (x.val + 1) % (max + 1) then { val := v, head := ptrBytes false ss (Nat.xor x.val iBits), adj := 1, ndf := false }
  else if v = (x.val + max) % (max + 1) then { val := v, head := ptrBytes false ss (Nat.xor x.val dBits), adj := 2, ndf := false }
  else new

/-- Output `o` is the TX of a guarded connection, whose markers are written where it leaves (R227). -/
def guardsTx (s : State) (o : Word) : Bool := s.sym.guards.any (fun p => p.2.tx == o)

/-- Bytes of a period that its own frame or TU multiframe shows; the rest goes out before the next pointer (R80; G.707 layout, log
entry 101). -/
def ownPart (s : State) (o : Word) : Nat :=
  let n := contBytes s o
  if saTier o = 0 then 2 * (n / 3) else if hoPoh s o then 595 else 3 * (n / 4)

/-- The bytes of a frame or TU multiframe: what is left of the last period, the pointer bytes where they lie inside, and this period's
part (G.707 layout, log entry 101). -/
def layOut (s : State) (o : Word) (head opp carry body : List Byte) : List Byte :=
  let own := body.take (ownPart s o)
  if saTier o = 0 then carry ++ own
  else if hoPoh s o then
    let l := carry ++ own
    let first := head ++ opp
    (List.range 9).flatMap (fun r => first.getD r 0 :: (l.drop (85 * r)).take 85)
  else
    let q := contBytes s o / 4
    let l := carry ++ own
    let v := head ++ opp ++ [0]
    (List.range 4).flatMap (fun r => v.getD r 0 :: (l.drop (q * r)).take q)

/-- ns from the beginning of a frame to the moment at which byte `k` of the content of the high-order container at `o` leaves: the content begins in
row 4, after the pointers (R81; G.707 layout, log entry 101). -/
def auLeaves (s : State) (o : Word) (k : Nat) : Nat :=
  let rc := contBytes s o / 9
  125000 * (270 * rc * (3 + k / rc) + 9 * rc + 261 * (k % rc)) / (2430 * rc)

/-- ns from the beginning of its frame or TU multiframe to the moment at which byte `j` of the container of output `o` leaves when its pointer is
`v`: a TU's bytes leave where they lie in its high-order container, whose pointer is 0 (R81, R227; G.707 layout, log entry 101). -/
def leaves (s : State) (o : Word) (v j : Nat) : Nat :=
  let k := unitBytes s o * v + j
  if saTier o = 0 then auLeaves s o k
  else
    let q := if hoPoh s o then 85 else contBytes s o / 4
    let n := if hoPoh s o then 774 else q + 1
    let t := if hoPoh s o then 86 * (2 + k / q) + 1 + k % q else (q + 1) * (1 + k / q) + 1 + k % q
    let h := hoOf s o
    let span := hoSpan (hoTy s h)
    let b := (List.range 783).find? (fun b => tuPos s (saLane o) (saIdx o) b == some (o, t % n))
    125000 * (t / n) + auLeaves s h (b.getD 0 * span + (saIdx o - saIdx h))

/-- A marker group that begins on output `o` in this period, with pointer `v`, is stamped by the guard whose TX it is: the moment at which its first
byte leaves the egress balls, on the time counter (R227, R243). -/
def stampMarker (s : State) (o : Word) (v : Nat) : State := match markerNow s (hoPoh s o) with
  | none => s
  | some m =>
    let n := contBytes s o
    let at' := leaves s o v (if hoPoh s o then 4 * (n / 9) else 3 * (n / 4)) + (laneLat s (saLane o)).toNat / 65536 / 16
    { s with sym := { s.sym with guards := s.sym.guards.map (fun p =>
        if p.2.tx = o then (p.1, { p.2 with txLast := some (m, ((s.glb.frameNs).toNat + at') % 2 ^ 32) }) else p) } }

/-- One period of an output that carries `b`, or a container that the device builds, from the container `prev` before and the container `data` of
this period: the justification opportunity holds data or stuff, the pointer says where `data` begins, and a guard's marker is written (R80,
R81, R227). -/
def sendPeriod (s : State) (o : Word) (b : Option LineBlk) (prev data tr : List Byte) : State :=
  let pace := b.map LineBlk.pace
  let x := outSt s o
  let ho := hoPoh s o
  let n := contBytes s o
  let u := unitBytes s o
  let p := pointerOut s o x b
  let m := if guardsTx s o then putMarker s ho x.fix data else (data, 0)
  let fresh := x.src != pace || p.ndf || x.tail.length != u * x.val % n
  let tail := if fresh then prev.drop (n - u * p.val) else x.tail
  let need := if p.adj = 1 then n - u else if p.adj = 2 then n + u else n
  let all := if need ≤ tail.length then tail else if need ≤ tail.length + n then tail ++ m.1 else tail ++ m.1 ++ m.1
  let cut := if mfOut s o then n / 4 else 0
  let t := all.take need
  let opp := if p.adj = 2 then (t.drop cut).take u else List.replicate u 0
  let body := if p.adj = 2 then t.take cut ++ t.drop (cut + u)
    else if p.adj = 1 then t.take cut ++ List.replicate u 0 ++ t.drop cut else t
  let carry := x.carry.take (n - ownPart s o) ++ List.replicate (n - ownPart s o - x.carry.length) 0
  let s := match pace with
    | some a => if x.src != pace && p.ndf then editPath s a (fun q => { q with adjGap := 0 }) else s
    | none => s
  let s := if guardsTx s o then stampMarker s o p.val else s
  setOut s o { src := pace, val := p.val, tail := all.drop need, carry := body.drop (ownPart s o), head := p.head, opp := opp
               now := layOut s o p.head opp carry body, ones := false, last := contParity ho data, fix := m.2, tr := tr, sent := m.1 }

/-- One period of an output that carries AU-AIS or TU-AIS; the position of its source goes on (R86, R131, R148). -/
def sendOnes (s : State) (o : Word) (b : Option LineBlk) : State :=
  let x := outSt s o
  let n := contBytes s o
  let u := unitBytes s o
  let ff := fun (k : Nat) => List.replicate k (0xFF : Byte)
  setOut s o { x with
    src := b.map LineBlk.pace, val := blockPos b, tail := [], carry := ff (n - ownPart s o), head := ff 2, opp := ff u
    now := layOut s o (ff 2) (ff (max u 7)) (ff (n - ownPart s o)) (ff n), ones := true, last := contParity (hoPoh s o) (ff n), fix := 0, sent := ff n }

/-- One period of the high-order or low-order output `o`; one that a direct edit holds in TU-AIS keeps the position that it had before, against
which the next multiframe's NDF is decided (R81, R133, R146, R156). -/
def periodOut (s : State) (o : Word) : State :=
  if s.map.tuAis.contains o.toNat then
    let x := outSt s o
    let t := sendOnes s o none
    setOut t o { outSt t o with src := x.src, val := x.val }
  else
  let c := carriedOf s o
  match c.1 with
  | .ones b => sendOnes c.2 o b
  | .built d tr => sendPeriod c.2 o none [] d tr
  | .read b prev => sendPeriod c.2 o (some b) prev b.data []

/-- The lanes that transmit SDH or SONET frames: enabled, in MODE 0 to 3, the transmitter not idle (R36, R50). -/
def txLanes (s : State) : List Nat := (List.range 128).filter (fun n => sdhOn s n && !(laneSt s n).txIdle)

/-- The high-order outputs of lane `n`, each the first index of its container (R144). -/
def highOuts (s : State) (n : Nat) : List Word :=
  ((List.range (laneCap s n)).filter (fun i => (container s n i).1 == i)).map (hoAddr n)

/-- The low-order outputs of lane `n` (R144). -/
def lowOuts (s : State) (n : Nat) : List Word := (highOuts s n).flatMap (tusOf s)

/-- The low-order outputs whose period is a TU multiframe begin one (R81, R93, R172). -/
def multiframeOuts (s : State) : State :=
  (((txLanes s).flatMap (lowOuts s)).filter (mfOut s)).foldl periodOut s

/-- The outputs whose period is a frame: TU-3s first, then the containers that hold them (R81, R146). -/
def frameOuts (s : State) : State :=
  let l := txLanes s
  let s := ((l.flatMap (lowOuts s)).filter (fun o => !mfOut s o)).foldl periodOut s
  (l.flatMap (highOuts s)).foldl periodOut s

/-! ### DS0-level outputs -/

/-- The idle code for output `o`: the T1 code at T1 positions, the E1 code elsewhere (R131, R142). -/
def idleCode (s : State) (o : Word) : Byte :=
  let t1 := match saTier o with
    | 2 => match term? s (saNum o) with
      | some t => frmType t.framing == 1
      | none => false
    | 3 => tribMode (portCtl s (saPort o)) == 1
    | _ => false
  wordByte s.fab.idle (if t1 then 1 else 0)

/-- The byte of the DS0-level output `o` in the frame that ends, and its generator gone on (R131 to R133, R140, R146). -/
def ds0Out (s : State) (o : Word) : Byte × State := match patternOf s o with
  | some pat =>
    if pat = 1 ∨ testPart s = some 5 then (0xFF, s)
    else if pat = 2 then (idleCode s o, s)
    else
      let r := genBytes s o pat 1
      (r.1.headD 0, r.2)
  | none => match outRead s o with
    | some a => (if testPart s = some 5 || s.fab.ffOut.any (fun p => p.1 == o) then 0xFF else outByte s o a, s)
    | none => (if testPart s = some 5 then 0xFF else idleCode s o, s)

/-- The bytes of these DS0-level outputs. -/
def ds0Outs (s : State) (l : List Word) : List Byte × State :=
  let r := l.foldl (fun (p : List Byte × State) o =>
    let q := ds0Out p.2 o
    (q.1 :: p.1, q.2)) (([] : List Byte), s)
  (r.1.reverse, r.2)

/-- Port `p` is an E1 or T1 port without framing: it carries a clear-channel signal, or none (R106, R153). -/
def clearPort (s : State) (p : PortId) : Bool := decide (tribMode (portCtl s p) ≤ 1) && pdhKind s (.port p) == 0

/-- Timeslots of a port's outputs: 32, 24, or N (R101). -/
def portOuts (s : State) (p : Nat) : Nat := match tribMode (portCtl s p) with
  | 0 => 32
  | 1 => 24
  | _ => tribN (portCtl s p)

/-- Port `p` is given the frame that ends: its outputs, or all ones where it is unframed and no connection feeds it (R101, R114; DESIGN
CHOICE, log entry 109). -/
def portDs0 (s : State) (p : PortId) : State :=
  if !bit (portCtl s p) 0 then s
  else if clearPort s p then
    (if (ccOf s 2 (w32 p)).isSome then s
      else portTransmit s p (List.replicate (if tribMode (portCtl s p) = 1 then 25 else 32) 0xFF))
  else
    let r := ds0Outs s ((List.range (portOuts s p)).map (tribAddr p))
    portFrame r.2 p r.1

/-- The bits of one transmitted frame of a terminated signal: a T1 frame begins with its F bit (R91, R94). -/
def frameBitsOf (k : Nat) (f : PdhRx) : List Bool :=
  if k = 4 ∨ k = 5 then f.fbit :: bytesBits f.bytes else bytesBits f.bytes

/-- Bits join what a pseudowire will send (R250). -/
def pwTake (s : State) (n : Nat) (b : List Bool) : State := match pw? s n with
  | none => s
  | some x =>
    let q := x.txBits ++ b
    setPw s n { x with txBits := q.drop (q.length - 32768) }

/-- Bits join the input buffer of the mapper into the TU at `a` (R93). -/
def mapTake (s : State) (a : Word) (b : List Bool) : State :=
  editPath s a (fun p =>
    let q := p.mapQ ++ b
    { p with mapQ := q.drop (q.length - 8192) })

/-- One frame of the transmit direction of terminated number `n`: its outputs, framed, go to the mapper or to its SAToP pseudowire (R106,
R113, R152). -/
def termDs0 (s : State) (n : Fin 65536) : State := match term? s n with
  | none => s
  | some t =>
    let k := pdhKind s (.term n)
    let r := ds0Outs s ((List.range (if k = 4 ∨ k = 5 then 24 else 32)).map (ds0Addr n))
    let f := nextTx r.2 (.term n) r.1
    let s := editPdh r.2 (.term n) (fun _ => f.2)
    let b := frameBitsOf k f.1
    if t.src = 2 then pwTake s (saNum t.from_) b else mapTake s t.from_ b

/-- One frame of the slots that CESoPSN pseudowire `n` sends, and with CAS the byte of its output 16 (R250, R251, R258). -/
def pwDs0 (s : State) (n : Nat) : State := match pw? s n with
  | none => s
  | some x =>
    if !x.ces then s
    else
      let r := ds0Outs s (x.carried.map (pwAddr n))
      let s := pwTake r.2 n (bytesBits r.1)
      if !x.cas then s
      else
        let r := ds0Out s (pwAddr n 16)
        match pw? r.2 n with
        | some x => setPw r.2 n (x.casTake r.1)
        | none => r.2

/-- A frame passes for the pseudowires: the next frame of the packet in play is read from now on, and whether it played is kept (R218,
R250). -/
def pwsFrame (s : State) : State :=
  { s with cem := { s.cem with pws := s.cem.pws.map (fun p =>
      (p.1, { p.2 with playPos := p.2.playPos + 1, fails := ((!p.2.playOk) :: p.2.fails).take 3300 })) } }

/-! ### Clear-channel connections -/

/-- Bits of a played SAToP stream that the recovered clock reads in one frame, and the part of a bit left (R256). -/
def pwReads (x : Pw) : Nat × Nat :=
  let t := (((if x.type = 1 then 193 else 256 : Nat) : Int) * (10 ^ 9 + x.freq) + (x.outFrac : Int)).toNat
  (t / 10 ^ 9, t % 10 ^ 9)

/-- The bits that endpoint `id` of kind `k` delivers in a frame, and the state without them; a port in AIS or without content gives all ones, and
a pseudowire what its recovered clock has read (R112, R148, R153, R256). -/
def ccDeliver (s : State) (k : Nat) (id : Word) : List Bool × State := match k with
  | 1 => ((path s id).dsOut, editPath s id (fun p => { p with dsOut := [] }))
  | 2 =>
    let p : PortId := Fin.ofNat 64 (fld id 5 0)
    let x := pdh s (.port p)
    (if !bit (portCtl s p) 0 || x.downAis then List.replicate (if tribMode (portCtl s p) = 1 then 193 else 256) true else x.ccOut,
      editPdh s (.port p) (fun x => { x with ccOut := [] }))
  | _ => match pw? s (fld id 13 0) with
    | none => ([], s)
    | some x => (x.out.take (pwReads x).1, setPw s (fld id 13 0) { x with out := x.out.drop (pwReads x).1, outFrac := (pwReads x).2 })

/-- Endpoint `id` of kind `k` sends bits; a port as soon as it has whole frames of them (R116, R153). -/
def ccAccept (s : State) (k : Nat) (id : Word) (b : List Bool) : State := match k with
  | 1 => mapTake s id b
  | 2 =>
    let p : PortId := Fin.ofNat 64 (fld id 5 0)
    let t1 := tribMode (portCtl s p) == 1
    let n := if t1 then 193 else 256
    let q := (pdh s (.port p)).ccIn ++ b
    let s := editPdh s (.port p) (fun x => { x with ccIn := q.drop (q.length / n * n) })
    (List.range (q.length / n)).foldl (fun s i =>
      let f := (q.drop (n * i)).take n
      portTransmit s p (if t1 then BitVec.ofNat 8 (b2n (f.headD true)) :: bitsBytes (f.drop 1) else bitsBytes f)) s
  | _ => pwTake s (fld id 13 0) b

/-- The signals of a clear-channel connection go on in both directions (R153). -/
def ccMove (s : State) (c : CC) : State :=
  let a := ccDeliver s c.aKind c.aId
  let b := ccDeliver a.2 c.bKind c.bId
  ccAccept (ccAccept b.2 c.bKind c.bId a.1) c.aKind c.aId b.1

/-- What the DS0 tier and the clear-channel connections have sent in the frame that ends (R101, R114, R152, R153, R250). -/
def tierOuts (s : State) : State :=
  let s := (s.tribs.map (fun p => p.1)).foldl (fun s p => portDs0 s (Fin.ofNat 64 p)) s
  let s := (s.map.terms.map (fun p => p.1)).foldl (fun s n => termDs0 s (Fin.ofNat 65536 n)) s
  let s := (s.cem.pws.map (fun p => p.1)).foldl pwDs0 s
  pwsFrame (s.map.ccs.foldl ccMove s)

/-! ### What is latched at a frame boundary -/

/-- Downstream all ones and upstream RDI of the path at `a` begin and end at a frame boundary (R57, R86, R87). -/
def pathLatch (s : State) (a : Word) : State :=
  let p := path s a
  let d := p.ptr != 0 || p.concLop || pathAction s a
  if p.downAis = d ∧ p.upRdi = p.txRdi then s else editPath s a (fun p => { p with downAis := d, upRdi := p.txRdi })

/-- What the pattern monitors on slot `a` have to check at a frame boundary: the DS0-level content that the frame which begins has read, and the ones
that the store of a path holds which receives nothing (R125, R134). -/
def monitorInput (s : State) (a : Word) : List Byte :=
  if 2 ≤ saTier a then [ds0Source s a]
  else if pathRx s a || !sourceOnes s a a || !(hoPoh s a || s.glb.frame % 4 == 0) then []
  else payloadOf s a (List.replicate (contBytes s a) 0xFF)

/-- The pattern monitors have what they check beside the containers received (R134). -/
def feedDs0 (s : State) : State :=
  ((s.fab.pmonOn.map (fun m => rd s (Reg.fabPmonSlot m))).eraseDups).foldl (fun s a => feedMonitors s a (monitorInput s a)) s

end Sys2Proof.Machine
end

