-- ==== Sys2Proof/Machine/Power.lean ====
section
/-! DEFINITION. Rails, power states, supplies, temperature, resets and the flash (20_power_clocks_reset.md, R406 to R433). -/

namespace Sys2Proof.Machine

/-! ### What a move of the power state keeps -/

/-- Register blocks of the AON domain: PWR, TIM and TOD (R11, R434). -/
def aonReg (off : Nat) : Bool :=
  (decide (0x10000 ≤ off) && decide (off < 0x20000)) || (decide (0x80000 ≤ off) && decide (off < 0xA0000))

/-- HBM_REGION_r, whose sizes a move keeps (R412). -/
def regionReg (off : Nat) : Bool := decide (0x1000000 ≤ off) && decide (off < 0x1000014)

/-- Registers that a move to STANDBY keeps: GLB (its flash registers apart), the AON blocks, MTX, HIF, the ring table, the
region sizes and the raw counters (R355, R412). -/
def standbyReg (off : Nat) : Bool :=
  decide (off < 0x30) || aonReg off || (decide (0x20000 ≤ off) && decide (off < 0x40000)) ||
    (decide (0x600000 ≤ off) && decide (off < 0x640000)) || regionReg off || rawCounter off

/-- Registers that a move to DORMANT keeps: the AON blocks, the epoch in force, the region sizes and the raw counters (R355,
R412). -/
def dormantReg (off : Nat) : Bool := aonReg off || off == Reg.mtxLeash || regionReg off || rawCounter off

/-- Configuration and state that every move loses: lanes, ports, paths, the maps, gathers and the journal, selectors and groups,
merges, guards, pseudowires, HBM content and Beagle, snapshots, translations and pending changes (R412); SEQ goes on (R359), and the region sizes are kept as they stand. -/
def loseConfig (s : State) : State :=
  { s with
    lanes := [], groups := [], frms := [], dccs := [], ohp := {}, cfgs := [], paths := [], tribs := [], ports := [],
    termFr := [], fab := {}, seeds := [], map := {}, gth := {}, prot := {}, mrg := {}, sym := {}, eths := [], cem := {},
    pm := { seq := s.pm.seq, stepSec := s.pm.stepSec }, bgl := { paused := s.bgl.paused }, deferred := [],
    hbm := { placed := (List.range 5).map (fun r => fget s (Reg.hbmRegion r) 7 0) },
    xlat := { s.xlat with tlb := [], inv := none },
    glb := { s.glb with sfDue := false, mfDue := false, modeGo := false } }

/-- Rails `l` are turned off, in that order (R408). -/
def railsOff (s : State) (l : List Nat) : State :=
  l.foldl (fun s n =>
    if railOn s n then pmbus (bset (bset s (Reg.pwrRail n) 0 false) (Reg.pwrRail n) 1 false) n "operation-off" [] else s) s

/-- The power request ends, and no domain is powered beyond the new state's (R411, R431). -/
def clearPower (s : State) : State :=
  let s := bset (bset (fset s Reg.pwrCtl 1 0 0) Reg.pwrStatus 2 false) Reg.pwrStatus 3 false
  let s := wr s Reg.pwrDomain 0
  { s with pwr := { s.pwr with rail := none, target := 0, retry := false, lostRails := [], wakes := [], works := [],
                               loading := false, pllBad := [], booting := false, flash := none,
                               flashHold := false } }

/-- The device enters STANDBY on request (R411, R412). -/
def toStandby (s : State) : State :=
  let s := loseConfig { s with regs := s.regs.filter (fun p => standbyReg p.1) }
  let s := { s with evt := { s.evt with held := [] }
                    mtx := { s.mtx with mapWin := [] }
                    rng := { s.rng with stopped := false } }
  let s := clearPower (railsOff s [5, 4])
  let s := wr (wr s Reg.glbMode 0) Reg.glbStatus (rd s Reg.glbStatus &&& 0x10)
  setPower s 1

/-- The device is down but for AON, as DORMANT has it (R412). -/
def powerDown (s : State) : State :=
  let s := loseConfig { s with regs := s.regs.filter (fun p => dormantReg p.1) }
  let s := { s with evt := {}, mtx := {}, rng := { next := s.rng.next }, xlat := { order := s.xlat.order } }
  let s := clearPower (railsOff s [5, 4, 3, 2, 1, 0])
  let s := fset (bset s Reg.pwrAvs 10 false) Reg.pwrAvs 9 0 0
  { s with pwr := { s.pwr with warmLow := false, inForce := false, otherOk := false, extFail := false, extDead := false,
                               avsRun := 0, vdOver := 0, vdUnder := 0, vdHold := false } }

/-- The device enters DORMANT on request, and every DPLL holds over (R275, R411, R412). -/
def toDormant (s : State) : State :=
  let o := [false, true].map (fun h => (h, halfState s h))
  let s := setPower (powerDown s) 0
  let s := o.foldl (fun s p =>
    if p.2 = 0 then s else raise s (if p.1 then 0x702 else 0x701) (w32 (0x10 + 2048 * p.2)) 0) s
  dpllsHold { s with pwr := { s.pwr with dormant := true, secs := 0 } }

/-! ### Power requests -/

/-- A write of PWR_CTL: REQ 3 is ignored and counted; 1 and 2 request a state, refused outside R411's conditions; 0 withdraws a
pending request; the wake enables take their values with it (R411, R413, R431). -/
def pwrCtlWrite (s : State) (v : Word) : State :=
  let q := fld v 1 0
  let put := fun (s : State) => wr s Reg.pwrCtl (v &&& 0x33)
  if q = 3 then ignoredWrite s Reg.pwrCtl
  else if q = 0 then
    if pwrPending s then
      let s := bset (put s) Reg.pwrStatus 2 false
      { s with rng := { s.rng with stopped := false } }
    else put s
  else if 2 ≤ mode s ∨ modePending s ∨ pwrPending s then ignored s 7 0 Reg.pwrCtl
  else
    let s := bset (put s) Reg.pwrStatus 2 true
    { s with rng := { s.rng with stopped := true } }

/-- PWR_REQ_STANDBY: a write of PWR_CTL with REQ = 1 (R20, R411). -/
def execPwrReqStandby (v : Word) (s : State) : Out :=
  .next (if fld v 1 0 = 1 then hostWrite s Reg.pwrCtl v (fun s => pwrCtlWrite s v) else s)

/-- PWR_REQ_DORMANT: a write of PWR_CTL with REQ = 2 (R20, R411). -/
def execPwrReqDormant (v : Word) (s : State) : Out :=
  .next (if fld v 1 0 = 2 then hostWrite s Reg.pwrCtl v (fun s => pwrCtlWrite s v) else s)

/-- PWR_REQ_WITHDRAW: a write of PWR_CTL with REQ = 0 while a request is pending (R411). -/
def execPwrReqWithdraw (v : Word) (s : State) : Out :=
  .next (if fld v 1 0 = 0 ∧ pwrPending s then hostWrite s Reg.pwrCtl v (fun s => pwrCtlWrite s v) else s)

/-- POWER_STATE_CHANGE: no descriptor is in flight and the kennel is empty, and the device enters the state asked for (R411,
R412). -/
def execPowerStateChange (s : State) : Out :=
  .next (
    if pwrPending s && s.rng.descs.isEmpty && s.xlat.knl.isEmpty then
      if fget s Reg.pwrCtl 1 0 = 1 then toStandby s else toDormant s
    else s)

/-! ### Rails -/

/-- The rail that a sequence begins with: 0, or 4 or 5 on demand (R408). -/
def firstRail (target : Nat) : Nat := if target = 1 then 0 else if target = 2 then 4 else 5

/-- The cold-boot sequence begins to raise rails, unless three failures have stopped it (R408, R413). -/
def startBoot (s : State) : State :=
  if 3 ≤ s.pwr.fails then s
  else startRail { s with pwr := { s.pwr with
    booting := true, dormant := false, target := 1, retry := false
    fromDormant := s.pwr.dormant || s.pwr.fromDormant } } 0

/-- Fields of rail `n` of a board block are as R407 gives. -/
def railFieldsOk (b : List Byte) (n : Nat) : Bool :=
  let f := fun i => (b.getD (16 + 8 * n + i) 0).toNat
  let mv := f 2 + 256 * f 3
  decide (f 0 < 128) && decide (1 ≤ f 4) && decide (f 4 ≤ 50) && decide (f 5 < 2) && f 6 == 0 && f 7 == 0 &&
    (n != 1 || (decide (650 ≤ mv) && decide (mv ≤ 850)))

/-- A board block is valid: magic bytes, zeros, fields and CRC-32 (R407). -/
def boardOk (b : List Byte) : Bool :=
  b.length == 68 && b.take 4 == [0x52, 0x4B, 0x42, 0x31] && ((b.drop 4).take 12).all (fun x => x == 0) &&
    (List.range 6).all (railFieldsOk b) && b.drop 64 == wordBytes (crc32 (b.take 64))

/-- The power manager has read the board block: valid, and the rails come up; invalid, and FAULT_N is driven low (R407). -/
def takeBoard (s : State) (b : List Byte) : State :=
  if boardOk b then startBoot { s with pwr := { s.pwr with board := some b, faultN := true } }
  else { s with pwr := { s.pwr with faultN := false, waitFrom := s.tod.ticks } }

/-- The device waits for a valid board block (R407). -/
def boardAwaited (s : State) : Bool := !inReset s && s.pwr.st == 0 && s.pwr.board.isNone && s.pwr.booting && !s.pwr.tripped

/-- BOARD_BLOCK_LOADED: the block's first reading after a cold reset (R407). -/
def execBoardBlockLoaded (bytes : List Byte) (s : State) : Out :=
  .next (if boardAwaited s && s.pwr.faultN then takeBoard s bytes else s)

/-- The wait of 1 s of the power manager ends (R407, R408, R420). -/
def secondOver (s : State) : State := elapse s (s.pwr.waitFrom + secondTicks)

/-- BOARD_BLOCK_RETRY: 1 s after an invalid one the block is read again (R407). -/
def execBoardBlockRetry (bytes : List Byte) (s : State) : Out :=
  .next (if boardAwaited s && !s.pwr.faultN then takeBoard (secondOver s) bytes else s)

/-- READ_VOUT and STATUS_WORD of rail `n` as last read (R431). -/
def showRail (s : State) (n vout status : Nat) : State := fset (fset s (Reg.pwrRail n) 15 3 vout) (Reg.pwrRail n) 31 16 status

/-- READ_VOUT within 3 % of the rail's target and no fault in STATUS_WORD (R408). -/
def railIsGood (s : State) (n vout status : Nat) : Bool :=
  let mv := if n = 1 then fget s Reg.pwrAvs 9 0 else railMv s n
  decide (100 * (max vout mv - min vout mv) ≤ 3 * mv) && status == 0

/-- RAIL_FAULT for rail `n` (R420, R433). -/
def railFault (s : State) (n : Nat) (status : Word) : State := raise s 0x7C1 2 (w32 (n + 65536 * (status.toNat % 65536)))

/-- CTL and PCIE are powered: the device reaches STANDBY, both halves run BOOT, and kept rail faults are reported (R365, R408,
R409). -/
def reachStandby (s : State) : State :=
  let s := setPower { s with pwr := { s.pwr with booting := false, target := 0, ctlAt := s.tod.ticks } } 1
  let l := s.pwr.railRep
  let s := { s with pwr := { s.pwr with railRep := [] } }
  let s := l.foldl (fun s p => railFault s p.1 p.2) s
  setHalf (setHalf s false 1) true 1

/-- Enabled lanes of group `g`. -/
def litLanes (s : State) (g : Nat) : List Nat := (rangeFrom (8 * g) 8).filter (laneEn s)

/-- LG groups with an enabled lane. -/
def busyGroups (s : State) : List Nat := (List.range 16).filter (fun g => !(litLanes s g).isEmpty)

/-- A lost rail is back: HBM reads are good again, or the domains that lost it wake again (R420). -/
def railBack (s : State) (n : Nat) : State :=
  let s := { s with pwr := { s.pwr with lostRails := setDel s.pwr.lostRails n } }
  if n = 4 then
    let s := { s with hbm := { s.hbm with rail4 := true } }
    (rangeFrom 18 4).foldl (fun s d => bset s Reg.pwrDomain d true) s
  else if n = 5 then
    if (List.range 64).any (fun p => bget s (Reg.tribCtl p) 0) then needDomain s 16 else s
  else if s.pwr.lostRails.contains 2 || s.pwr.lostRails.contains 3 then s
  else (busyGroups s).foldl needDomain s

/-- RAIL_GOOD: the polled rail is good, and the next one of its sequence is raised (R408). -/
def execRailGood (n : Fin 6) (vout : BitVec 13) (status : BitVec 16) (s : State) : Out :=
  .next (
    if s.pwr.rail ≠ some n.val then s
    else
      let good := railIsGood s n vout.toNat status.toNat
      let s := showRail s n vout.toNat status.toNat
      if !good then s
      else
        let s := bset { s with pwr := { s.pwr with rail := none } } (Reg.pwrRail n) 1 true
        if s.pwr.lostRails.contains n.val then railBack s n
        else if s.pwr.target = 1 then (if n.val < 3 then startRail s (n.val + 1) else reachStandby s)
        else railDemand { s with pwr := { s.pwr with target := 0 } })

/-- RAIL_RAMP_TIMEOUT: the rail fails; the rails of its sequence go off in reverse order, and a retry follows after 1 s until
the third failure (R408). -/
def execRailRampTimeout (n : Fin 6) (vout : BitVec 13) (status : BitVec 16) (s : State) : Out :=
  .next (
    if s.pwr.rail ≠ some n.val then s
    else
      let st : Word := status.setWidth 32
      let s := bset (showRail s n vout.toNat status.toNat) (Reg.pwrRail n) 2 true
      let s := { s with pwr := { s.pwr with rail := none, waitFrom := s.tod.ticks } }
      if s.pwr.lostRails.contains n.val then railFault (railsOff s [n.val]) n st
      else
        let s := railsOff s (if s.pwr.target = 1 then [3, 2, 1, 0] else [n.val])
        let s := if s.pwr.st = 0 then { s with pwr := { s.pwr with railRep := s.pwr.railRep ++ [(n.val, st)] } }
          else railFault s n st
        let k := s.pwr.fails + 1
        if k < 3 then { s with pwr := { s.pwr with fails := k, retry := true } }
        else { s with pwr := { s.pwr with fails := k, retry := false, faultN := false,
                                          dormant := s.pwr.dormant || s.pwr.target == 1,
                                          booting := s.pwr.booting && s.pwr.target != 1 } })

/-- RAIL_RETRY: after 1 s the failed sequence starts again, or a rail lost in service is raised again (R408, R420). -/
def execRailRetry (s : State) : Out :=
  .next (
    if s.pwr.rail.isSome then s
    else if s.pwr.retry then
      let s := secondOver s
      startRail { s with pwr := { s.pwr with retry := false } } (firstRail s.pwr.target)
    else match s.pwr.lostRails with
      | n :: _ => startRail (secondOver s) n
      | [] => s)

/-! ### Domains -/

/-- Fields of a register that keep what was last written to them while its domain is down (R410). -/
def keptMask (r : RegRow) : Word := accMask r .rw ||| accMask r .rwl

/-- The registers from `lo` to below `hi` lose their RO fields, raw counters apart (R355, R410). -/
def resetRo (s : State) (lo hi : Nat) : State :=
  { s with regs := s.regs.filterMap (fun p =>
      if p.1 < lo ∨ hi ≤ p.1 ∨ rawCounter p.1 then some p
      else match regRow? p.1 with
        | none => some p
        | some r =>
          let v := (p.2 &&& keptMask r) ||| (w32 r.reset &&& ~~~ keptMask r)
          if v = w32 r.reset then none else some (p.1, v)) }

/-- The entries of a table outside the numbers from `lo` to below `hi`. -/
def outside {α : Type} (t : Tab α) (lo hi : Nat) : Tab α := t.filter (fun p => decide (p.1 < lo) || decide (hi ≤ p.1))

/-- LG g powers down (R409, R410). -/
def gateGroup (s : State) (g : Nat) : State :=
  let s := resetRo (bset s Reg.pwrDomain g false) (0x100000 + 0x8000 * g) (0x108000 + 0x8000 * g)
  { s with
    lanes := outside s.lanes (8 * g) (8 * g + 8)
    frms := outside s.frms (8 * g) (8 * g + 8)
    eths := outside s.eths (8 * g) (8 * g + 8)
    groups := Tab.drop s.groups g }

/-- TRIB is not powered: the words of its ports stay in force, their state is gone (R410). -/
def tribDown (s : State) : State :=
  let s := resetRo (bset s Reg.pwrDomain 16 false) 0x180000 0x190000
  { s with tribs := s.tribs.map (fun p => (p.1, { ctl := p.2.ctl, frm := p.2.frm })), ports := [] }

/-- TRIB powers down, and rail 5 goes off (R406, R409, R410). -/
def gateTrib (s : State) : State := railsOff (tribDown s) [5]

/-- LG g (0 to 15) has no enabled lane, or TRIB (16) no enabled port (R409). -/
def domainIdle (s : State) (dom : Nat) : Bool :=
  if dom < 16 then (litLanes s dom).isEmpty else (List.range 64).all (fun p => !bget s (Reg.tribCtl p) 0)

/-- DOMAIN_GATE_TIMEOUT: 1 s without an enabled lane or port, and the domain powers down (R409). -/
def execDomainGateTimeout (dom : Fin 17) (s : State) : Out :=
  .next (
    if !domainUp s dom || !domainIdle s dom then s
    else
      let s := elapse s (Tab.get s.pwr.idleFrom dom 0 + secondTicks)
      if dom.val < 16 then gateGroup s dom else gateTrib s)

/-! ### Waking from DORMANT -/

/-- The device leaves DORMANT with a WAKE_CAUSE (R413, R431). -/
def wakeUp (s : State) (cause : Nat) : State := startBoot (fset s Reg.pwrStatus 5 4 cause)

/-- WAKE_PIN: a qualified fall of WAKE_N while WAKE_PIN_EN is 1 (R413). -/
def execWakePin (s : State) : Out :=
  .next (if s.pwr.dormant && bget s Reg.pwrCtl 4 && decide (s.pwr.fails < 3) then wakeUp s 1 else s)

/-- WAKE_TIMER_EXPIRY: PWR_WAKE_TIMER has run while WAKE_TIMER_EN is 1 (R413). -/
def execWakeTimerExpiry (s : State) : Out :=
  let n := fget s Reg.pwrWakeTimer 15 0
  .next (
    if s.pwr.dormant && bget s Reg.pwrCtl 5 && n != 0 && decide (n ≤ s.pwr.secs) && decide (s.pwr.fails < 3) then
      wakeUp s 2
    else s)

/-! ### TRIP and rails that leave their range -/

/-- TRIP: FAULT_N low, every switch open and every rail off; only a cold reset ends it (R421). -/
def trip (s : State) : State :=
  let s := setPower (powerDown s) 0
  { s with pwr := { s.pwr with tripped := true, faultN := false } }

/-- The lanes and the PCIe link go down with rail 2 or 3, and with the link the host's master is reset (R305, R378, R420). -/
def serDown (s : State) : State :=
  let s := ((List.range 16).filter (domainUp s)).foldl gateGroup s
  resetMaster (hotReset s) 2

/-- RAIL_OUT_OF_RANGE: RAIL_FAULT, and what the rail feeds goes down; rails 0 and 1 act as TRIP (R420, R421). -/
def execRailOutOfRange (n : Fin 6) (status : BitVec 16) (s : State) : Out :=
  .next (
    if !railGood s n then s
    else
      let s := bset (fset (bset s (Reg.pwrRail n) 1 false) (Reg.pwrRail n) 31 16 status.toNat) (Reg.pwrRail n) 2 true
      let s := railFault s n (status.setWidth 32)
      if n.val < 2 then trip s
      else
        let s := { s with pwr := { s.pwr with lostRails := setIns s.pwr.lostRails n.val, waitFrom := s.tod.ticks } }
        if n.val = 4 then
          let s := { s with hbm := { s.hbm with rail4 := false } }
          (rangeFrom 18 4).foldl (fun s d => bset s Reg.pwrDomain d false) s
        else if n.val = 5 then
          tribDown s
        else serDown s)

/-! ### Clocks -/

/-- CLOCK_PLL_UNLOCK: the control (0), PCIe (1), fabric (2) or an HBM PLL (3) loses or regains lock (R415, R433). -/
def execClockPllUnlock (pll : Fin 4) (stack : Fin 4) (locked : Bool) (s : State) : Out :=
  let k := if pll.val < 3 then pll.val else 3 + stack.val
  .next (
    if s.pwr.pllBad.contains k == !locked then s
    else
      let s := { s with pwr := { s.pwr with pllBad := if locked then setDel s.pwr.pllBad k else setIns s.pwr.pllBad k } }
      raise s 0x7C3 (w32 (8 + 2 ^ 15 * b2n (!locked))) (w32 k))

/-! ### VDD_CORE -/

/-- VDD_CORE's target in mV (R431). -/
def coreMv (s : State) : Nat := fget s Reg.pwrAvs 9 0

/-- PWR_AVS.FIXED_MV (R416). -/
def fixedMv (s : State) : Nat := fget s Reg.pwrAvs 25 16

/-- LIMIT, and AVS_LIMIT once 850 mV has been held for 1 s while the monitors ask for more (R416, R431, R433). -/
def avsLimit (s : State) (more : Bool) : State :=
  let at_ := decide (coreMv s = 850) && more
  let s := bset s Reg.pwrAvs 10 at_
  if !at_ then { s with pwr := { s.pwr with avsRun := 0 } }
  else
    let s' := { s with pwr := { s.pwr with avsRun := min 101 (s.pwr.avsRun + 1) } }
    if s.pwr.avsRun = 100 then raise s' 0x7C1 3 850 else s'

/-- AVS_READING: one 5 mV step toward the monitors' band while FIXED_MV is 0 and R417 does not hold AVS (R416, R417). -/
def execAvsReading (ask : AvsAsk) (s : State) : Out :=
  .next (
    if coreMv s = 0 ∨ fixedMv s ≠ 0 then s
    else
      let v := coreMv s
      let s' := if s.pwr.vdHold then s
        else match ask with
          | .less => fset s Reg.pwrAvs 9 0 (max 650 (v - 5))
          | .keep => s
          | .more => fset s Reg.pwrAvs 9 0 (min 850 (v + 5))
      avsLimit s' (ask == .more && v == 850))

/-- A write of PWR_AVS: FIXED_MV 0 or 650 to 850, in force at once (R416, R431). -/
def avsWrite (s : State) (v : Word) : State :=
  let f := fld v 25 16
  if inService s then lockedWrite s Reg.pwrAvs v
  else if f ≠ 0 ∧ (f < 650 ∨ 850 < f) then ignoredWrite s Reg.pwrAvs
  else
    let s := fset s Reg.pwrAvs 25 16 f
    if f ≠ 0 ∧ coreMv s ≠ 0 then
      avsLimit (fset s Reg.pwrAvs 9 0 f) false
    else s

/-- VDIFF_CHECK: a largest difference of `mv` between powered domains; above 40 mV for 1 ms raises VDD_CORE by 10 mV, and AVS
resumes after 1 s below 30 mV (R417, R433). -/
def execVdiffCheck (mv : Nat) (s : State) : Out :=
  .next (
    if coreMv s = 0 then s
    else
      let p := s.pwr
      if 40 < mv then
        if p.vdOver < 10 then { s with pwr := { p with vdOver := p.vdOver + 1, vdUnder := 0 } }
        else
          let s := { s with pwr := { p with vdOver := 0, vdUnder := 0, vdHold := true } }
          let s := if fixedMv s = 0 then fset s Reg.pwrAvs 9 0 (min 850 (coreMv s + 10)) else s
          raise s 0x7C1 4 (w32 mv)
      else if 30 ≤ mv then { s with pwr := { p with vdOver := 0, vdUnder := 0 } }
      else if p.vdUnder < 10000 then { s with pwr := { p with vdOver := 0, vdUnder := p.vdUnder + 1 } }
      else { s with pwr := { p with vdOver := 0, vdHold := false } })

/-! ### Temperature -/

/-- A bit of PWR_THERM_STATUS changes, with its event (R418, R433). -/
def setTherm (s : State) (i : Nat) (b : Bool) : State :=
  if bget s Reg.pwrThermStatus i = b then s
  else
    let s := bset s Reg.pwrThermStatus i b
    raise s 0x7C2 (w32 (5 + i + 2 ^ 15 * b2n b)) (rd s Reg.pwrThermStatus)

/-- The readings are shown: TEMP and MAX of every sensor (R431). -/
def showTemps (s : State) (t : List Int) : State :=
  (List.range 16).foldl (fun s g =>
    let x := iclamp (-128) 127 (t.getD g 0)
    let m := max x (sgn 8 (fget s (Reg.pwrTherm g) 15 8))
    fset (fset s (Reg.pwrTherm g) 7 0 (unsgn 8 x)) (Reg.pwrTherm g) 15 8 (unsgn 8 m)) s

/-- The sensor with the highest reading, the lowest number of equals. -/
def hottest (t : List Int) : Nat :=
  (List.range 16).foldl (fun b g => if t.getD b 0 < t.getD g 0 then g else b) 0

/-- THERMAL_SAMPLE: the sixteen sensors are read; WARN, CRIT, GRADIENT and TRIP follow (R418). -/
def execThermalSample (temps : List Int) (s : State) : Out :=
  let t := (List.range 16).map (fun g => temps.getD g 0)
  let hi := t.foldl max (t.getD 0 0)
  let lo := t.foldl min (t.getD 0 0)
  let warn : Int := fget s Reg.pwrThermLim 7 0
  let grad : Int := fget s Reg.pwrThermLim 15 8
  .next (
    if inReset s then s
    else
      let s := showTemps s t
      let s := fset (fset s Reg.pwrThermStatus 7 4 (hottest t)) Reg.pwrThermStatus 15 8 (hi - lo).toNat
      let s := if warn ≤ hi then setTherm s 0 true else if hi < warn - 5 then setTherm s 0 false else s
      let s :=
        if 110 ≤ hi then
          if s.pwr.critRun = 0 then { s with pwr := { s.pwr with critRun := 1 } }
          else setTherm { s with bgl := { s.bgl with paused := true } } 1 true
        else
          let s := { s with pwr := { s.pwr with critRun := 0 } }
          if hi < 105 then setTherm { s with bgl := { s.bgl with paused := false } } 1 false else s
      let on := bget s Reg.pwrThermStatus 2
      let against := if on then decide (hi - lo ≤ grad - 2) else decide (grad < hi - lo)
      let s :=
        if !against then { s with pwr := { s.pwr with gradRun := 0 } }
        else if s.pwr.gradRun < 100 then { s with pwr := { s.pwr with gradRun := s.pwr.gradRun + 1 } }
        else setTherm { s with pwr := { s.pwr with gradRun := 0 } } 2 (!on)
      if 125 ≤ hi then trip s else s)

/-- A write of PWR_THERM_LIM: out-of-range values are ignored as a whole (R431). -/
def thermBad (v : Word) : Bool :=
  decide (fld v 7 0 < 80) || decide (105 < fld v 7 0) || decide (fld v 15 8 < 5) || decide (40 < fld v 15 8)

/-! ### Resets -/

/-- The state that a cold reset leaves: reset values, the fuses, the commands that wait and the record of what was sent out
(R25, R422, R429). -/
def coldState (s : State) (low aon : Bool) : State :=
  { State.reset with
    pending := s.pending
    out := s.out
    glb := { State.reset.glb with free := s.glb.free }
    pwr := { State.reset.pwr with minSvn := s.pwr.minSvn, rstLow := low, aonOk := aon } }

/-- COLD_RESET: the qualifying instant of a fall of RESET_N; the rails go off and everything is lost (R25, R422). -/
def execColdReset (s : State) : Out := .next (coldState (railsOff s [5, 4, 3, 2, 1, 0]) true s.pwr.aonOk)

/-- COLD_RESET_RELEASE: RESET_N rises; with VDD_AON in range the cold-boot sequence starts (R406, R422). -/
def execColdResetRelease (s : State) : Out := .next { s with pwr := { s.pwr with rstLow := false } }

/-- VDD_AON_DETECTOR: below its range AON is held in reset; in range again, a rise of RESET_N made earlier takes effect
(R406). -/
def execVddAonDetector (inRange : Bool) (s : State) : Out :=
  .next (
    if inRange = s.pwr.aonOk then s
    else if inRange then { s with pwr := { s.pwr with aonOk := true } }
    else coldState (railsOff s [5, 4, 3, 2, 1, 0]) s.pwr.rstLow false)

/-! ### The extension segment -/

/-- The segment is loaded and checked, and work proceeds; otherwise both halves, but one that has FAILED, boot from the other slot where its
manifest is valid, or the device stays in STANDBY with CONTROL set (R365, R428). -/
def extensionLoadDone (ok : Bool) (s : State) : State :=
  if !s.pwr.loading || !s.mtx.held then s
  else if ok then
    railDemand (bset { s with pwr := { s.pwr with loading := false } } Reg.pwrStatus 3 true)
  else if s.pwr.otherOk then
    let s := { s with pwr := { s.pwr with extFail := true, inForce := false }
                      mtx := { s.mtx with held := false, vacant := 0, handover := false, claims := [], beat := none } }
    [false, true].foldl (fun s h => if halfState s h = 4 then s else halfReboot s h) s
  else
    let s := wr { s with pwr := { s.pwr with loading := false, extDead := true, wakes := [] } } Reg.pwrDomain 0
    setFault (setPower (railsOff s [5, 4]) 1) 2

/-- SVN_COMMIT: a write of GLB_BOOT with SVN_COMMIT = 1 raises MIN_SVN to the SVN of the slot in force, in BRINGUP only
(R429). -/
def execSvnCommit (v : Word) (s : State) : Out :=
  .next (hostWrite s Reg.glbBoot v (fun s =>
    if !bit v 5 then s
    else
      let n := fget s Reg.glbFwSvn 7 0
      if mode s ≠ 0 ∨ n ≤ s.pwr.minSvn then ignoredWrite s Reg.glbBoot
      else fset { s with pwr := { s.pwr with minSvn := n } } Reg.glbFwSvn 15 8 n))

/-! ### The flash -/

/-- GLB_FLASH_CMD.BUSY (R432). -/
def flashBusy (s : State) : Bool := bget s Reg.glbFlashCmd 8

/-- The range of `len` bytes from `a` touches the slot in force (R425, R430). -/
def flashGuarded (s : State) (a len : Nat) : Bool :=
  let b := 0x1000000 * (1 + fget s Reg.glbBoot 0 0)
  s.pwr.inForce && decide (a < b + 0x2000000) && decide (b < a + len)

/-- A write of GLB_FLASH_CMD: ignored while a command runs and in SERVICE and RECOVERY; a program or erase that touches the slot
in force ends at once with ERR = 1; a command waits while a half boots (R430, R432). -/
def flashCmd (s : State) (v : Word) : State :=
  let c := fld v 1 0
  let a := fget s Reg.glbFlashAddr 27 8 * 256
  if flashBusy s || decide (2 ≤ mode s) then ignoredWrite s Reg.glbFlashCmd
  else if c = 0 then s
  else
    let r := if c = 3 then (a / 65536 * 65536, 65536) else (a, 256)
    if 2 ≤ c ∧ flashGuarded s r.1 r.2 then fset s Reg.glbFlashCmd 10 9 1
    else
      bootServed (wr { s with pwr := { s.pwr with flash := some (c, r.1), flashHold := true } } Reg.glbFlashCmd 0x100)

/-- FLASH_READ: CMD 1 (R430). -/
def execFlashRead (v : Word) (s : State) : Out :=
  .next (if fld v 1 0 = 1 then hostWrite s Reg.glbFlashCmd v (fun s => flashCmd s v) else s)

/-- FLASH_PROGRAM: CMD 2 (R430). -/
def execFlashProgram (v : Word) (s : State) : Out :=
  .next (if fld v 1 0 = 2 then hostWrite s Reg.glbFlashCmd v (fun s => flashCmd s v) else s)

/-- FLASH_ERASE: CMD 3 (R430). -/
def execFlashErase (v : Word) (s : State) : Out :=
  .next (if fld v 1 0 = 3 then hostWrite s Reg.glbFlashCmd v (fun s => flashCmd s v) else s)

/-- FLASH_CMD_DONE: `page` is what the flash holds at the page read or read back; ERR 2 where a read-back differs (R430,
R432). -/
def execFlashCmdDone (page : List Byte) (s : State) : Out :=
  .next (match s.pwr.flash with
    | none => s
    | some (c, _) =>
      if s.pwr.flashHold then s
      else
      let p := (page ++ List.replicate 256 0).take 256
      let e := if c = 2 ∧ p ≠ flashBuf s then 2 else 0
      let s := wr { s with pwr := { s.pwr with flash := none } } Reg.glbFlashCmd (w32 (512 * e))
      if c = 1 then
        (List.range 64).foldl (fun s i => wr s (Reg.glbFlashBuf i) (bytesWord (p.drop (4 * i)))) s
      else s)

end Sys2Proof.Machine
end

