-- ==== Sys2Proof/Machine/Hbm.lean ====
section
/-! DEFINITION. Buffer memory, cullet, Beagle, SELFTEST and captures (19_buffer_memory.md, R385 to R405). -/

namespace Sys2Proof.Machine

/-! ### Bytes -/

/-- Byte `i` of a list of words. -/
def recByte (l : List Word) (i : Nat) : Byte := wordByte (l.getD (i / 4) 0) (i % 4)

/-- Record `k` of a snapshot as PMHIST holds it; none after its last record (R360, R361). -/
def histRecord (x : Snap) (k : Nat) : Option (List Word) :=
  if k = 0 then some (x.header x.counts)
  else (dumpPlace x.counts (k - 1)).map (fun p => match p.1 with
    | 0 => devRecord x.cnt x.chain p.2
    | 1 => x.paths.getD p.2 []
    | 2 => x.terms.getD p.2 []
    | _ => x.pws.getD p.2 [])

/-- A free value as a byte of HBM whose content the spec leaves open. -/
def freeByte (s : State) (a : Nat) : Byte := (Config.freeValue (s.glb.free + a)).setWidth 8

/-- Place in the log, newest first, of the record at byte `off` of JOURNAL's first granule or of a replica (R174, R175). -/
def jrnPlace (s : State) (off : Nat) : Nat := ((rd s Reg.gthJrnHead).toNat + 2 ^ 32 - 1 - off / 64) % jrnSize

/-- The byte of JOURNAL at `off`: record k lies at (k mod 16,777,216) × 64 of the first granule (R174, R175). -/
def jrnByte (s : State) (off : Nat) : Option Byte :=
  if granule ≤ off then none else (s.gth.jrn[jrnPlace s off]?).map (fun r => recByte r.words (off % 64))

/-- The byte of a replica of the mirror at `off` (R174, R391). -/
def mirrorByte (s : State) (off : Nat) : Option Byte :=
  (s.gth.jrn[jrnPlace s off]?).bind (fun r => if r.mirror then some (recByte r.words (off % 64)) else none)

/-- The snapshot that was written last at byte `off` of PMHIST (R361). -/
def histAt (s : State) (off : Nat) : Option Snap := s.pm.hist.find? (fun x => decide (x.off ≤ off) && decide (off < x.off + x.size))

/-- The byte of PMHIST at `off`; what follows the last record of a snapshot is open (R361). -/
def histByte (s : State) (off : Nat) : Option Byte :=
  (histAt s off).map (fun x => match histRecord x ((off - x.off) / 64) with
    | some l => recByte l ((off - x.off) % 64)
    | none => freeByte s off)

/-- Bytes of region `r` that pages in use fill: pages are handed out from the bottom (R388). -/
def pagesUsed (s : State) (r : Nat) : Nat :=
  if r = 0 then 4096 * (mergePages s + guardPages s) else if r = 1 then 4096 * cemPages s else 0

/-- The byte of DELAY or CEM at byte `o` of region `r` and address `a`, where `m` is what was written there: what a delay line or jitter
buffer holds is open, and what it leaves in a page that it frees stays until the page is zeroed for the next (R388). -/
def pageByte (s : State) (r o a : Nat) (m : Byte) : Byte :=
  if o < pagesUsed s r ∨ (o < s.hbm.peak.getD r 0 ∧ m = 0) then freeByte s a else m

/-! ### The march -/

/-- HBM test block `u` begins at this byte address, 2 MiB each (R395). -/
def blockAddr (u : Nat) : Nat := u * 2 ^ 21

/-- Bytes of an HBM test block (R395). -/
def blockBytes : Nat := 2 ^ 21

/-- What march element `e` writes at byte address `a`: 0x00, 0xFF, 0x55 and 0xAA, each in two elements; the last each beat's own address
(R395). -/
def marchByte (e a : Nat) : Byte :=
  if e = 8 then BitVec.ofNat 8 (a / 32 * 32 / 256 ^ (a % 32)) else [0x00, 0xFF, 0x55, 0xAA].getD (e / 2) 0

/-- Byte `k` of element `e`'s way through a block of `n` bytes: upward, and downward in the second element of a pattern (R395). -/
def marchStep (e n k : Nat) : Nat := if e % 2 = 1 then n - 1 - k else k

/-- The byte at `a` of the leased block under march: an element that has gone past it has written its own, each beat being written and read back
before the next (R395; log entry 151). -/
def marchedByte (l : Lease) (a : Nat) : Byte :=
  let o := a - blockAddr l.unit
  let k := marchStep l.elem blockBytes o
  if k / 32 * 64 < l.done then marchByte l.elem a else if l.elem = 0 then 0 else marchByte (l.elem - 1) a

/-- The HBM block on lease, once its content is in the save area (R395). -/
def marched (s : State) (u : Nat) : Option Lease := match List.find? (fun p => p.1 == 1) s.bgl.leases with
  | some p => if p.2.unit = u ∧ p.2.elem ≠ 15 then some p.2 else none
  | none => none

/-- The place in the save area of a copy of block `u`: its first block, or its second for the first one itself (R385; log entry 149). -/
def saveAddr (u : Nat) : Nat := if blockAddr u = saveBase then saveBase + blockBytes else saveBase

/-- The byte of the save area at `a`, where a block on lease is kept there (R395). -/
def savedByte (s : State) (a : Nat) : Option Byte := match List.find? (fun p => p.1 == 1) s.bgl.leases with
  | some p =>
    let b := saveAddr p.2.unit
    if p.2.elem ≠ 15 ∧ b ≤ a ∧ a < b + blockBytes then
      let d := blockAddr p.2.unit + (a - b)
      some (cellByte d (Tab.get p.2.saved d 0))
    else none
  | none => none

/-- The byte that a clean read of the private address `a` gives: the replicas of the journal, the shadows, whose form is open, the block in the
save area; the rest is as last written (R385). -/
def privateByte (s : State) (a : Nat) (m : Byte) : Byte :=
  if stackOf a ≠ 0 then m
  else if mirrorBase 0 ≤ a ∧ a < shadowBase then (mirrorByte s (a % granule)).getD m
  else if shadowBase ≤ a ∧ a < saveBase then freeByte s a
  else (savedByte s a).getD m

/-- The byte that a clean read of byte address `a` gives: what delay lines and jitter buffers hold is open; the journal and
the snapshots are as they were written; the rest is as last written, 0 before (R385, R387, R388, R395). -/
def hbmByte (s : State) (a : Nat) : Byte :=
  let m := cellByte a (Tab.get s.hbm.mem a 0)
  match marched s (a / blockBytes) with
  | some l => marchedByte l a
  | none => match regionAt s.hbm.placed a with
    | some (0, o) => pageByte s 0 o a m
    | some (1, o) => pageByte s 1 o a m
    | some (2, o) => (jrnByte s o).getD m
    | some (3, o) => (histByte s o).getD m
    | some _ => m
    | none => privateByte s a m

/-- The free values drawn for bytes of HBM have been used. -/
def freeBytesNext (s : State) : State := { s with glb := { s.glb with free := s.glb.free + 2 ^ 38 } }

/-! ### Region sizes -/

/-- The five sizes after a write of `n` to HBM_REGION_r total more than 128 (R387). -/
def regionTotal (s : State) (r n : Nat) : Nat :=
  ((List.range 5).map (fun i => if i = r then n else fget s (Reg.hbmRegion i) 7 0)).sum

/-- HBM_STATUS.RESIZING (R387). -/
def resizing (s : State) : Bool := bget s Reg.hbmStatus 12

/-- A write of `n` to HBM_REGION_r is ignored (R24, R387). -/
def regionRefused (s : State) (r n : Nat) : Bool :=
  mode s != 0 || decide (128 < regionTotal s r n) || decide (n * granule < pagesUsed s r) ||
    (r == 2 && n == 0 && s.gth.slots.any (fun p => p.2.st != 0)) || resizing s

/-- A write to HBM_REGION_r in reach of the memory: accepted, it takes effect with RESIZE_DONE (R387). -/
def regionWrite (s : State) (r : Nat) (v : Word) : State :=
  if regionRefused s r (fld v 7 0) then ignoredWrite s (Reg.hbmRegion r)
  else bset (wr s (Reg.hbmRegion r) (v &&& 0xFF)) Reg.hbmStatus 12 true

/-- HBM_REGION_WRITE: HBM wakes for it (R19, R387, R409). -/
def execHbmRegionWrite (r : Fin 5) (v : Word) (s : State) : Out :=
  .next (domainWrite s 18 (Reg.hbmRegion r) v (fun s => regionWrite s r v))

/-- Cells of HBM after a change of the sizes from `p` to `q`: every region keeps its content below its new top, at the same
offsets, and the private area is as it was (R387). -/
def movedAddr (p q : List Nat) (a : Nat) : Option Nat := match granuleAt a with
  | none => some a
  | some _ => match regionAt p a with
    | none => none
    | some (r, o) => if o < regionSize q r * granule then some (regionAddr q r o) else none

/-- Memory with every cell moved. -/
def movedMem (p q : List Nat) (m : List Host.Cell) : List Host.Cell :=
  m.foldl (fun t c => match movedAddr p q c.1 with
    | some a => Tab.store t a 0 c.2
    | none => t) []

/-- Beats of a set, moved. -/
def movedBeats (p q : List Nat) (l : List Nat) : List Nat :=
  l.filterMap (fun b => (movedAddr p q (32 * b)).map (fun a => a / 32))

/-- An access of the matrix waits for stack `i` to answer (R386). -/
def stackWaited (s : State) (i : Nat) : Bool := s.mtx.waits.any (fun w =>
  decide (0x4000000000 ≤ w.acc.addr.toNat ∧ w.acc.addr.toNat < 0x6400000000) && stackOf (w.acc.addr.toNat - 0x4000000000) == i)

/-- Stacks that hold no granule and no lease, and for which no access waits, rest in self-refresh; a stack that now holds granules
wakes (R386). -/
def stackRefresh (s : State) : State :=
  let held := fun (i : Nat) => stackUsed s.hbm.placed i || (match List.find? (fun p => p.1 == 1) s.bgl.leases with
    | some p => stackOf (p.2.unit * 2 ^ 21) == i
    | none => false) || stackWaited s i
  let s := { s with hbm := { s.hbm with
    selfRef := (List.range 4).map (fun i => !held i || s.hbm.selfRef.getD i true) } }
  [1, 2, 3].foldl (fun s i => if held i && s.hbm.selfRef.getD i true then needDomain s (18 + i) else s) s

/-! ### Read errors -/

/-- Row of 1 KiB that holds byte address `a` (R392). -/
def rowOf (a : Nat) : Nat := a / 1024

/-- A row qualifies as cullet: it waits for its retirement (R392). -/
def cullRow (s : State) (row : Nat) : State :=
  if s.hbm.cullet.contains row then s else { s with hbm := { s.hbm with due := setIns s.hbm.due row } }

/-- A corrected read of byte address `a`: four different addresses in its row within 24 h make it cullet (R389, R392). -/
def correctedRead (s : State) (a : Nat) : State :=
  let s := count s Reg.hbmCorrCnt 1
  let row := rowOf a
  let old := (Tab.get s.hbm.corr row []).filter (fun p => p.1 != a / 32 && decide (s.tod.ticks < p.2 + 86400 * 500000000))
  let l := (a / 32, s.tod.ticks) :: old
  let s := { s with hbm := { s.hbm with corr := Tab.put s.hbm.corr row l } }
  if 4 ≤ l.length then cullRow s row else s

/-- A read finds copies of the record at place `i` of the log uncorrectable, as `main`, `a` and `b` say: from a copy that is left they are rewritten,
with JRN_REPAIR for the JOURNAL copy, and MIRROR_LOST is raised where none is; a record not yet held has no mirror to be rewritten from (R180,
R390, R391). -/
def recordUncorr (s : State) (i : Nat) (main a b : Bool) : State := match s.gth.jrn[i]? with
  | none => s
  | some r =>
    let r' := { r with main := r.main && !main, badA := r.badA || a, badB := r.badB || b }
    let s := editGth s (fun t => { t with jrn := listPut t.jrn i r' })
    if !r.mirror then s
    else if !r'.main && r'.badA && r'.badB then raise s 0x785 0x20 r.seq
    else if !s.hbm.rail4 then s
    else
      let s := if r'.main then s else mainWritten s (recordNumber s i)
      let s := if r'.badA || r'.badB then mirrorWritten s (recordNumber s i) else s
      let s := editGth s (fun t => { t with jrn := listPut t.jrn i { r' with main := true, badA := false, badB := false } })
      if r'.main then s else raise s 0x310 0x10 r.seq

/-- The record whose JOURNAL copy lies at byte address `a` (R174). -/
def recordAt (s : State) (a : Nat) : Option Nat := match regionAt s.hbm.placed a with
  | some (2, o) => if o < granule then some (jrnPlace s o) else none
  | _ => none

/-- An uncorrectable beat of the JOURNAL copy, the replicas reading uncorrectable as `a` and `b` say (R390, R391). -/
def journalUncorr (s : State) (addr : Nat) (a b : Bool) : State := match recordAt s addr with
  | some i => recordUncorr s i true a b
  | none => s

/-- An uncorrectable beat of a replica of the mirror, the other replica and the JOURNAL copy reading uncorrectable as told (R390, R391). -/
def mirrorUncorr (s : State) (addr : Nat) (other main : Bool) : State :=
  if mirrorBase 0 ≤ addr ∧ addr < shadowBase then
    let first := decide (addr < mirrorBase 1)
    recordUncorr s (jrnPlace s (addr % granule)) main (first || other) (!first || other)
  else s

/-- An uncorrectable beat of PMHIST: the slot that holds it is marked invalid and keeps its content (R362, R390). -/
def histUncorr (s : State) (addr : Nat) : State := match regionAt s.hbm.placed addr with
  | some (3, o) => match histAt s o with
    | some x => { s with pm := { s.pm with hist := s.pm.hist.map (fun y =>
        if y.seq = x.seq ∧ y.off = x.off then { y with invalid := true } else y) } }
    | none => s
  | _ => s

/-- The stored copy of the merge of selector `k` fails its block (R218, R390). -/
def mergeUncorr (s : State) (k : Nat) : State := match merge? s k with
  | none => s
  | some x => setMerge s k (if x.ref then { x with badW := true } else { x with badP := true })

/-- The source slot whose content the delay line of guard `g` holds (R225). -/
def guardSource (s : State) (g : Nat) : Option Word := (Tab.find? s.sym.guards g).bind (guardRx s)

/-- The user reads each beat once for each time that it writes it: a delay line or a jitter buffer (R205, R226, R249). -/
def lineUser (u : HbmUser) : Bool := match u with
  | .merge _ => true
  | .guard _ _ => true
  | .jitter _ _ => true
  | _ => false

/-- The uncorrectable beat at byte address `addr` affects its user (R390); supervisor data and shadows are loaded again from their on-die source,
which writes the beat. -/
def userUncorr (s : State) (addr : Nat) (u : HbmUser) : State := match u with
  | .merge k => mergeUncorr s k
  | .guard g byte => match guardSource s g with
    | some a => markUnrec s [(a, byte)]
    | none => s
  | .jitter n q =>
    { s with cem := { s.cem with pws := s.cem.pws.map (fun (p : Nat × Pw) =>
        if p.1 = n.val then (p.1, { p.2 with buf := p.2.buf.filter (fun x => x.seq != q.toNat) }) else p) } }
  | .journal a b => journalUncorr s addr a b
  | .mirror other main => mirrorUncorr s addr other main
  | .pmhist => histUncorr s addr
  | .supervisor => if s.hbm.rail4 then hbmWritten s addr 1 else s
  | .other => s

/-- An uncorrectable read of the beat at `a`: counted, recorded and raised; a beat that a write has not cleared makes its row cullet, and any beat
reads uncorrectable again until it is written (R389, R390, R392); with rail 4 lost every read is, until the rail returns (R420). -/
def uncorrRead (s : State) (a : Nat) (u : HbmUser) : State :=
  let b := a / 32
  let s := count s Reg.hbmUncorrCnt 1
  let s := wr (wr s Reg.hbmErrAddrLo (w32 (32 * b))) Reg.hbmErrAddrHi (w32 (32 * b / 2 ^ 32))
  let s := raiseOnce s (0x780 + stackOf a) 1 0 1 (w32 (32 * b / 64))
  let s := if s.hbm.again.contains b then cullRow s (rowOf a) else s
  let s := if s.hbm.rail4 then { s with hbm := { s.hbm with bad := setIns s.hbm.bad b, again := setDel s.hbm.again b } } else s
  userUncorr s a u

/-- HBM_READ_CHECK: a beat is read for a user with `bad` wrong bits: clean, corrected or uncorrectable; with rail 4 lost every read
is uncorrectable (R389, R390, R420). -/
def execHbmReadCheck (addr : BitVec 38) (bad : Nat) (user : HbmUser) (s : State) : Out :=
  let a := addr.toNat
  let b := a / 32
  .next (
    if 4 ≤ stackOf a ∨ (s.hbm.rail4 ∧ !domainUp s (18 + stackOf a)) then s
    else
      let s := if lineUser user then hbmWritten s a 1 else s
      if 2 ≤ bad ∨ !s.hbm.rail4 ∨ s.hbm.bad.contains b then uncorrRead s a user
      else
        let s := { s with hbm := { s.hbm with again := setDel s.hbm.again b } }
        if bad = 0 then s else correctedRead s a)

/-- Software reads these beats, which read uncorrectable (R389). -/
def readBad (s : State) (beats : List Nat) : State := beats.foldl (fun s b => uncorrRead s (32 * b) .other) s

/-- The beats of `n` bytes from byte address `a` on that read uncorrectable (R390, R420). -/
def badFrom (s : State) (a n : Nat) : List Nat :=
  (rangeFrom (a / 32) ((a + n + 31) / 32 - a / 32)).filter (fun b => !s.hbm.rail4 || s.hbm.bad.contains b)

/-! ### Cullet -/

/-- ROW_RETIRE: the oldest row that waits is copied to a spare of its stack and every access redirected, unless the stack's table
is full; CULLET follows at the end of the second (R393, R394). -/
def execRowRetire (s : State) : Out :=
  .next (match s.hbm.due with
    | [] => s
    | row :: rest =>
      let i := row * 1024 / stackBytes
      let n := fget s (Reg.hbmCullet i) 16 0
      let s := { s with hbm := { s.hbm with due := rest } }
      if 65536 ≤ n ∨ s.hbm.cullet.contains row then s
      else
        let s := { s with hbm := { s.hbm with cullet := setIns s.hbm.cullet row } }
        let s := fset s (Reg.hbmCullet i) 16 0 (n + 1)
        let s := { s with hbm := { s.hbm with retired := Tab.put s.hbm.retired i (Tab.get s.hbm.retired i 0 + 1) } }
        let s := if n + 1 = 58982 then raise s (0x780 + i) 3 (w32 (n + 1)) else s
        if n + 1 = 65536 then raise s (0x780 + i) 4 65536 else s)

/-! ### Units and leases -/

/-- Units of a kind: 73,728 HBM blocks, 64 slot banks, 24 map segments (R395). -/
def unitCount (k : Nat) : Nat := if k = 1 then 73728 else if k = 2 then 64 else 24

/-- Ranges of the regions in use that no lease may take: pages of delay lines and jitter buffers, the journal head record, the
PMHIST slot of the next snapshot, and a capture being recorded: region, first byte, byte after the last (R396). -/
def busyRanges (s : State) : List (Nat × Nat × Nat) :=
  let j := (rd s Reg.gthJrnHead).toNat % jrnSize * 64
  let h := (s.pm.seq + 1) % 3600 * histSlot s
  [(0, 0, pagesUsed s 0), (1, 0, pagesUsed s 1), (2, j, j + 64), (3, h, h + histSlot s)] ++
    (match s.bgl.cap with
      | some c => [(4, c.off, c.off + c.left * c.size)]
      | none => [])

/-- HBM test block `u` holds content that no lease may take; supervisor data as the supervisor marks it (R396; log entry 150). -/
def blockBusy (s : State) (u : Nat) : Bool := match regionAt s.hbm.placed (blockAddr u) with
  | none => inFirmware (blockAddr u) && Config.supervisorBusy s.tod.ticks u
  | some (r, o) => (busyRanges s).any (fun x => x.1 == r && decide (x.2.1 < o + 2 ^ 21) && decide (o < x.2.2))

/-- Unit `u` of a kind may be leased (R396). -/
def unitOk (s : State) (k u : Nat) : Bool :=
  decide (u < unitCount k) && s.pwr.st == 2 &&
  (if k = 1 then
    let i := stackOf (blockAddr u)
    domainUp s (18 + i) && !s.hbm.selfRef.getD i true && decide (blockAddr u % stackBytes < 34 * granule) && !blockBusy s u
  else if k = 2 then domainUp s 17 && pairOn s (u % 32) && !s.bgl.badBanks.contains u
  else domainUp s 17 && !bget s Reg.bglStatus 3)

/-- The first unit of a kind that may be leased, from `u` on, `n` units being left. -/
def nextUnit (s : State) (k : Nat) : Nat → Nat → Option Nat
  | 0, _ => none
  | n + 1, u => if unitOk s k u then some u else nextUnit s k n (u + 1)

/-- The first unit of a kind from `u` on that may be leased. -/
def unitFrom (s : State) (k u : Nat) : Option Nat := nextUnit s k (unitCount k - u) u

/-- SELFTEST runs the sweep of a kind: part k (R399). -/
def testSweeps (s : State) (k : Nat) : Bool := match s.bgl.test with
  | some t => t.part == k
  | none => false

/-- The sweep of a kind runs: BGL_CTL.EN_x, or a SELFTEST (R396, R399). -/
def sweeps (s : State) (k : Nat) : Bool := bget s Reg.bglCtl (k - 1) || testSweeps s k

/-- The lease of a kind in force. -/
def leaseOf (s : State) (k : Nat) : Option Lease := Tab.find? s.bgl.leases k

/-- The bank register that shows bank `u` as leased (R127). -/
def bankReg (u : Nat) : Nat := if u < 32 then Reg.fabBankLease else Reg.fabBankLeaseR

/-- The cells of HBM test block `u`. -/
def blockCells (s : State) (u : Nat) : List Host.Cell :=
  s.hbm.mem.filter (fun c => decide (blockAddr u ≤ c.1 ∧ c.1 < blockAddr (u + 1)))

/-- A lease of unit `u` begins: the block's content is being copied to the save area, the bank's partner serves, or the shadow segment takes the
place of the segment (R395). -/
def beginLease (s : State) (k u : Nat) (named : Bool) : State :=
  let l : Lease := { unit := u, ns := nsNow s, named := named }
  let s := { s with bgl := { s.bgl with leases := Tab.put s.bgl.leases k l } }
  let s := bset s Reg.bglStatus (k - 1) true
  if k = 2 then bset s (bankReg u) (u % 32) true else s

/-- Beat `b` lies in HBM test block `u`. -/
def beatIn (u b : Nat) : Bool := b / 65536 == u

/-- The content of the leased block is in the save area: the march begins, at the rate of BGL_CTL (R395, R404). -/
def copyIn (s : State) (l : Lease) : State :=
  let l' := { l with elem := 0, done := 0, rate := fget s Reg.bglCtl 7 3, saved := blockCells s l.unit,
                     savedBad := s.hbm.bad.filter (beatIn l.unit) }
  let s := hbmWritten s (saveAddr l.unit) blockBytes
  { s with
    bgl := { s.bgl with leases := Tab.put s.bgl.leases 1 l' }
    hbm := { s.hbm with
      mem := s.hbm.mem.filter (fun c => !decide (blockAddr l.unit ≤ c.1 ∧ c.1 < blockAddr (l.unit + 1)))
      bad := s.hbm.bad.filter (fun b => !beatIn l.unit b) } }

/-- The content of a leased block is back from the save area, uncorrectable where it was or where its copy has become so; a block still being
copied in has kept it (R395, R397). -/
def copyBack (s : State) (l : Lease) : State :=
  if l.elem = 15 then s
  else
    let v := saveAddr l.unit / blockBytes
    let bad := l.savedBad ++ (s.hbm.bad.filter (beatIn v)).map (fun b => b % 65536 + 65536 * l.unit)
    { s with hbm := { s.hbm with mem := l.saved.foldl (fun m c => Tab.store m c.1 0 c.2) s.hbm.mem, bad := bad.foldl setIns s.hbm.bad } }

/-- A frame time of the march of an HBM block: 62,500 bytes for each 0.5 GB/s; an element that ends is followed by the next, at the rate of BGL_CTL
as it is then, unless CRIT has paused Beagle (R395, R404, R418). -/
def marchOn (s : State) (l : Lease) : Lease :=
  let d := min (2 * blockBytes) (l.done + 62500 * l.rate)
  if d < 2 * blockBytes ∨ 8 ≤ l.elem ∨ s.bgl.paused then { l with done := d }
  else { l with elem := l.elem + 1, done := 0, rate := fget s Reg.bglCtl 7 3 }

/-- The HBM block on lease passes a frame boundary: the copying in has ended, or the march goes on (R395). -/
def leaseFrame (s : State) : State := match leaseOf s 1 with
  | some l =>
    if l.revoked then s
    else if l.elem = 15 then copyIn s l
    else { s with bgl := { s.bgl with leases := Tab.put s.bgl.leases 1 (marchOn s l) } }
  | none => s

/-- A lease ends: the block is copied back, and its stack may rest again; both banks serve again unless the bank is retired (R127, R386, R395,
R398). -/
def endLease (s : State) (k : Nat) (l : Lease) : State :=
  let s := { s with bgl := { s.bgl with leases := Tab.drop s.bgl.leases k } }
  let s := bset s Reg.bglStatus (k - 1) false
  if k = 1 then stackRefresh (copyBack s l)
  else if k = 2 ∧ !s.bgl.badBanks.contains l.unit then
    editFab (bset s (bankReg l.unit) (l.unit % 32) false) (fun f =>
      if l.unit < 32 then { f with tailP := Tab.put f.tailP (l.unit % 32) 2 }
      else { f with tailR := Tab.put f.tailR (l.unit % 32) 2 })
  else s

/-- Part 4 runs: the content of every region and every cullet entry is lost (R399). -/
def loseHbm (s : State) : State :=
  let s := [0, 1, 2, 3].foldl (fun s i => fset s (Reg.hbmCullet i) 16 0 0) s
  { s with
    hbm := { s.hbm with mem := [], bad := [], again := [], corr := [], due := [], cullet := [] }
    gth := { s.gth with jrn := [] }
    pm := { s.pm with hist := [] }
    bgl := { s.bgl with leases := s.bgl.leases.map (fun (p : Nat × Lease) => (p.1, { p.2 with saved := [], savedBad := [] })) } }

/-- A SELFTEST begins a sweep of a kind from its first unit; a lease in force is none of it (R399). -/
def testSweep (s : State) (k : Nat) : State :=
  { s with bgl := { s.bgl with
      pos := Tab.put s.bgl.pos k 0, swept := Tab.put s.bgl.swept k 0
      leases := s.bgl.leases.map (fun (p : Nat × Lease) => if p.1 = k then (p.1, { p.2 with named := true }) else p) } }

/-- Nothing of part `p` is left to do as it begins: a sweep that finds no unit (R396, R399). -/
def partIdle (s : State) (p : Nat) : Bool := decide (1 ≤ p) && decide (p ≤ 3) && (unitFrom s p 0).isNone

/-- The parts follow one another in ascending order, from part `p` on, `fuel` of them at most: the first that runs and has something to do
is in progress (R399). -/
def testFrom (fuel : Nat) (s : State) (t : SelfTest) (p : Nat) : State := match fuel with
  | 0 => { s with bgl := { s.bgl with test := some { t with part := 8, frames := 0 } } }
  | n + 1 =>
    if t.run.testBit p && !partIdle s p then
      let s := { s with bgl := { s.bgl with test := some { t with part := p, frames := 0 } } }
      if p = 4 then loseHbm s else if 1 ≤ p ∧ p ≤ 3 then testSweep s p else s
    else testFrom n s t (p + 1)

/-- The part in progress has ended: the next begins (R399). -/
def nextPart (s : State) : State := match s.bgl.test with
  | some t => testFrom (7 - t.part) s t (t.part + 1)
  | none => s

/-- Frames that a part takes: 20 ms and 100 ms for those that take the traffic; the time of the others is open, and they end with their frame (R399;
log entry 110). -/
def partFrames (p : Nat) : Nat := if p = 5 then 160 else if p = 6 ∨ p = 7 then 800 else 1

/-- A SELFTEST counts the frames that end, and its part in progress ends with its last, or with its sweep (R399). -/
def testFrame (s : State) : State := match s.bgl.test with
  | some t =>
    let s := { s with bgl := { s.bgl with test := some { t with frames := t.frames + 1 } } }
    if t.part = 8 ∨ (1 ≤ t.part ∧ t.part ≤ 3) ∨ t.frames + 1 < partFrames t.part then s else nextPart s
  | none => s

/-- A sweep passes its last unit: SWEEP_DONE with the units tested in it; a SELFTEST's part ends with it (R399, R405). -/
def sweepDone (s : State) (k : Nat) : State :=
  let s := raise s 0x784 (w32 (0x12 + 256 * k)) (w32 (Tab.get s.bgl.swept k 0))
  let s := { s with bgl := { s.bgl with pos := Tab.put s.bgl.pos k 0, swept := Tab.put s.bgl.swept k 0 } }
  if testSweeps s k then nextPart s else s

/-- The next unit of a sweep is leased; a sweep with no unit left passes its end and starts again (R396). -/
def sweepLease (s : State) (k : Nat) : State :=
  match unitFrom s k (Tab.get s.bgl.pos k 0) with
  | some u => beginLease s k u false
  | none =>
    if Tab.get s.bgl.pos k 0 = 0 then s
    else
      let s := sweepDone s k
      if !sweeps s k then s
      else match unitFrom s k 0 with
        | some u => beginLease s k u false
        | none => s

/-- BEAGLE_LEASE_START: a unit named by BGL_REQ goes first, then the sweep of the kind (R395, R396). -/
def execBeagleLeaseStart (kind : Fin 3) (s : State) : Out :=
  let k := kind.val + 1
  .next (
    if (leaseOf s k).isSome || s.bgl.paused || s.pwr.st != 2 then s
    else match s.bgl.reqs.find? (fun r => r.1 == k) with
      | some r =>
        let s := { s with bgl := { s.bgl with reqs := s.bgl.reqs.erase r } }
        if unitOk s k r.2 then beginLease s k r.2 true else s
      | none => if sweeps s k then sweepLease s k else s)

/-- A unit failed its test (R398). -/
def unitFailed (s : State) (k u : Nat) (rows : List Nat) : State :=
  let s := if testSweeps s k then
      { s with bgl := { s.bgl with test := s.bgl.test.map (fun t => { t with failed := t.failed ||| 2 ^ k }) } }
    else s
  let s := count s Reg.bglFailed 1
  let s := raise s 0x784 (w32 (0x10 + 256 * k)) (w32 u)
  if k = 1 then rows.foldl cullRow s
  else if k = 2 then
    if s.bgl.badBanks.contains ((u + 32) % 64) then s
    else bset { s with bgl := { s.bgl with badBanks := setIns s.bgl.badBanks u } } (bankReg u) (u % 32) true
  else if bget s Reg.bglStatus 3 then s
  else fset (bset s Reg.bglStatus 3 true) Reg.bglStatus 8 4 u

/-- The sweep goes on after unit `u`; past its last unit it is done (R396, R405). -/
def sweepOn (s : State) (k u : Nat) : State :=
  let s := { s with bgl := { s.bgl with pos := Tab.put s.bgl.pos k (u + 1),
                                        swept := Tab.put s.bgl.swept k (Tab.get s.bgl.swept k 0 + 1) } }
  if (unitFrom s k (u + 1)).isNone then sweepDone s k else s

/-- The failing rows of those listed that lie in unit `u`; for a unit other than an HBM block, anything listed is a failure (R398). -/
def rowsIn (k u : Nat) (l : List Nat) : List Nat := if k = 1 then l.filter (fun r => r * 1024 / 2 ^ 21 == u) else l

/-- BEAGLE_UNIT_END: the ninth element has ended and the content is back; a failing row of an HBM block, or anything listed for
another unit, is a failure (R395, R398, R404, R405). -/
def execBeagleUnitEnd (kind : Fin 3) (badRows : List Nat) (s : State) : Out :=
  let k := kind.val + 1
  .next (match leaseOf s k with
    | none => s
    | some l =>
      if l.revoked then s
      else
        let rows := rowsIn k l.unit badRows
        let s := count (endLease s k l) Reg.bglTested 1
        let s := if rows.isEmpty then s else unitFailed s k l.unit rows
        if l.named then s else sweepOn s k l.unit)

/-- A write of BGL_REQ with GO = 1: the unit is queued ahead of the sweep, unless R396 would skip it (R396, R404). -/
def bglReqWrite (s : State) (v : Word) : State :=
  let k := fld v 1 0
  if !bit v 31 then s
  else if k = 0 ∨ !unitOk s k (fld v 18 2) then ignoredWrite s Reg.bglReq
  else { s with bgl := { s.bgl with reqs := s.bgl.reqs ++ [(k, fld v 18 2)] } }

/-- BGL_REQ_GO (R396, R404, R410). -/
def execBglReqGo (v : Word) (s : State) : Out :=
  .next (domainWrite s 18 Reg.bglReq v (fun s => bglReqWrite s v))

/-- A claim on the unit of a kind on lease: the march stops, having found `bad`, and the restore begins (R397). -/
def revokeLease (s : State) (k : Nat) (bad : List Nat) : State := match leaseOf s k with
  | none => s
  | some l =>
    { s with bgl := { s.bgl with leases := Tab.put s.bgl.leases k { l with revoked := true, bad := rowsIn k l.unit bad } } }

/-- LEASE_REVOKE: an agent other than Beagle claims the unit on lease (R397). -/
def execLeaseRevoke (kind : Fin 3) (bad : List Nat) (s : State) : Out := .next (revokeLease s (kind.val + 1) bad)

/-- A revoked lease is restored and released; what failed by then is reported after it, and the unit is tested again when the sweep
next reaches it (R397, R398). -/
def restoreLease (s : State) (k : Nat) : State := match leaseOf s k with
  | none => s
  | some l =>
    if !l.revoked then s
    else
      let s := count (endLease s k l) Reg.bglRevoked 1
      let s := raiseOnce s 0x784 0x11 0 0x11 (rd s Reg.bglRevoked)
      let s := if l.bad.isEmpty then s else unitFailed s k l.unit l.bad
      if l.named then s else { s with bgl := { s.bgl with pos := Tab.put s.bgl.pos k (l.unit + 1) } }

/-- LEASE_RESTORE_DONE (R397). -/
def execLeaseRestoreDone (kind : Fin 3) (s : State) : Out := .next (restoreLease s (kind.val + 1))

/-- A claim on the HBM block at byte address `a`, if it is on lease: the access waits for the release and then proceeds against
the content before the lease (R397). -/
def claimAddr (s : State) (a : Nat) : State := match leaseOf s 1 with
  | some l => if a / 2 ^ 21 = l.unit then restoreLease (revokeLease s 1 []) 1 else s
  | none => s

/-- Pages of region `r` (0 DELAY, 1 CEM) that are newly in use are zeroed (R388). -/
def zeroPages (s : State) (r : Nat) : State :=
  let n := pagesUsed s r
  let old := s.hbm.inUse.getD r 0
  let hit := fun (a : Nat) => match regionAt s.hbm.placed a with
    | some (q, o) => q == r && decide (old ≤ o) && decide (o < n)
    | none => false
  { s with hbm := { s.hbm with
      mem := s.hbm.mem.filter (fun c => !hit c.1)
      bad := s.hbm.bad.filter (fun b => !hit (32 * b))
      again := (s.hbm.bad.filter (fun b => hit (32 * b))).foldl setIns s.hbm.again
      inUse := listPut s.hbm.inUse r n
      peak := listPut s.hbm.peak r (max n (s.hbm.peak.getD r 0)) } }

/-- Pages are handed out: a leased block that pages in use have come to fill is claimed, and the pages are zeroed (R388, R397). -/
def claimPages (s : State) : State :=
  let s := match leaseOf s 1 with
    | some l => if blockBusy s l.unit then restoreLease (revokeLease s 1 []) 1 else s
    | none => s
  zeroPages (zeroPages s 0) 1

/-! ### A change of the region sizes -/

/-- The HBM block on lease lies in a region, as the sizes are or as they will be (R397). -/
def leaseInRegion (s : State) : Bool := match leaseOf s 1 with
  | some l =>
    (regionAt s.hbm.placed (blockAddr l.unit)).isSome ||
      (regionAt ((List.range 5).map (fun r => fget s (Reg.hbmRegion r) 7 0)) (blockAddr l.unit)).isSome
  | none => false

/-- RESIZE_DONE: the granules are placed again; content below each new top is kept, and granules added read 0 (R386, R387). The
move claims a region's block that is on lease first (R397). -/
def execResizeDone (s : State) : Out :=
  .next (
    if !resizing s then s
    else
      let s := if leaseInRegion s then restoreLease (revokeLease s 1 []) 1 else s
      let p := s.hbm.placed
      let q := (List.range 5).map (fun r => fget s (Reg.hbmRegion r) 7 0)
      let s := bset s Reg.hbmStatus 12 false
      let s := { s with
        hbm := { s.hbm with
          placed := q, mem := movedMem p q s.hbm.mem, bad := movedBeats p q s.hbm.bad, again := movedBeats p q s.hbm.again
          peak := (List.range 2).map (fun r => min (s.hbm.peak.getD r 0) (regionSize q r * granule)) }
        pm := { s.pm with hist := s.pm.hist.filter (fun x => decide (x.off < regionSize q 3 * granule)) }
        gth := if regionSize q 2 = 0 then { s.gth with jrn := [] } else s.gth }
      stackRefresh s)

/-! ### SELFTEST -/

/-- Part 4 is skipped: a gather slot is not FREE, or a merge, guard or pseudowire is in force (R399). -/
def skipPart4 (s : State) : Bool :=
  s.gth.slots.any (fun p => p.2.st != 0) || !s.mrg.merges.isEmpty || !s.sym.guards.isEmpty || !s.cem.pws.isEmpty

/-- The parts that run of those requested (R399, R400). -/
def testParts (s : State) (parts : Nat) : Nat :=
  let p := if mode s ≤ 1 then parts else parts % 16
  if p.testBit 4 && skipPart4 s then p - 16 else p

/-- SELFTEST begins: PARTS = 0 is INVALID; the parts that run follow in ascending order (R24, R399, R400). -/
def execSelftest (d : Nat) (s : State) : Out :=
  .next (match takeDesc s d 0x60 with
    | none => s
    | some x =>
      let parts := fld (x.w 6) 7 0
      if parts = 0 then invalidOpen s d
      else if s.bgl.test.isSome then s
      else
        let t : SelfTest := { d := d, run := testParts s parts, status := if 2 ≤ mode s ∧ 16 ≤ parts then 5 else 0 }
        testFrom 8 (setDesc s d 2) t 0)

/-- No part of a SELFTEST is left but one whose end the spec leaves open (R399). -/
def testEnds (t : SelfTest) : Bool :=
  t.part == 8 || ((t.part == 0 || t.part == 4 || t.part == 5) && t.run / 2 ^ (t.part + 1) == 0)

/-- Failures of part 4, by row, and of part 5, by bank, are handled as those of a lease are (R398, R400). -/
def partFailures (s : State) (rows banks : List Nat) : State :=
  let units := (rows.map (fun r => r / 2048)).eraseDups
  let s := units.foldl (fun s u => unitFailed s 1 u (rowsIn 1 u rows)) s
  banks.foldl (fun s u => unitFailed s 2 u [u]) s

/-- SELFTEST_DONE: every part that ran has ended; `failed` says which of parts 0, 6 and 7 found a failure, `rows` what part 4 found and `banks` what part 5
did; the sweeps have told theirs (R400). -/
def execSelftestDone (failed : Byte) (rows banks : List Nat) (s : State) : Out :=
  .next (match s.bgl.test with
    | none => s
    | some t =>
      if !testEnds t then s
      else
        let l4 := if t.run.testBit 4 then rows else []
        let l5 := if t.run.testBit 5 then banks.filter (fun b => decide (b < 64)) else []
        let s := partFailures { s with bgl := { s.bgl with test := none } } l4 l5
        let bad := failed.toNat % 2 + failed.toNat / 64 * 64 + t.failed % 16 + 16 * b2n (!l4.isEmpty) + 32 * b2n (!l5.isEmpty)
        complete s t.d t.status (w32 t.run) (w32 (bad &&& t.run)))

/-! ### Captures -/

/-- Content bytes of one frame of a slot (R401). -/
def frameBytes (s : State) (a : Word) : Nat :=
  if 2 ≤ saTier a then 1 else if hoPoh s a then contBytes s a else contBytes s a / 4

/-- The fields of a CAPTURE RECORD are in range (R401). -/
def recordOk (s : State) (x : Desc) : Bool :=
  let a := x.w 7
  let n := (x.w 8).toNat
  let off := (x.w 9).toNat
  saTier a != 4 && saValid s a && decide (1 ≤ n) && decide (n ≤ 65536) && decide (off % 4096 = 0) &&
    decide (off + n * frameBytes s a ≤ regionSize s.hbm.placed 4 * granule) && s.bgl.cap.isNone

/-- CAPTURE_RECORD: the capture begins at the next frame boundary (R401). -/
def execCaptureRecord (d : Nat) (s : State) : Out :=
  .next (match takeDesc s d 0x59 with
    | none => s
    | some x =>
      if bit (x.w 6) 0 then s
      else if !recordOk s x then invalidOpen s d
      else
        let n := (x.w 8).toNat
        let k := frameBytes s (x.w 7)
        let c : Capture := { d := d, slot := x.w 7, left := n, off := (x.w 9).toNat, bytes := n * k, size := k }
        setDesc { s with bgl := { s.bgl with cap := some c } } d 1)

/-- The capture that waits begins at a frame boundary (R401). -/
def captureStart (s : State) : State := match s.bgl.cap with
  | none => s
  | some c => if c.started then s else setDesc { s with bgl := { s.bgl with cap := some { c with started := true } } } c.d 2

/-- One more frame of the capture that runs is `b`: its bytes are written to CAPTURE, behind those before (R401). -/
def captureTake (s : State) (c : Capture) (b : List Byte) : State :=
  let at_ := fun (i : Nat) => regionAddr s.hbm.placed 4 (c.off + i)
  let s := hbmPuts (claimAddr (claimAddr s (at_ 0)) (at_ (c.size - 1))) at_ (fitBytes c.size b)
  { s with bgl := { s.bgl with cap := some { c with left := c.left - 1, off := c.off + c.size } } }

/-- CAPTURE_RECORD_DONE: the last frame has been written (R401). -/
def execCaptureRecordDone (s : State) : Out :=
  .next (match s.bgl.cap with
    | none => s
    | some c =>
      if c.started && c.left == 0 then
        completeOk { s with bgl := { s.bgl with cap := none } } c.d (w32 c.bytes) 0
      else s)

/-- The beats of `n` bytes of region `r` from `off` on that read uncorrectable (R390). -/
def badBeats (s : State) (r off n : Nat) : List Nat :=
  (((List.range n).map (fun i => regionAddr s.hbm.placed r (off + i) / 32)).eraseDups).filter
    (fun b => !s.hbm.rail4 || s.hbm.bad.contains b)

/-- CAPTURE_READ: LENGTH bytes of a region are copied to ADDRESS; the 32 bytes of an uncorrectable beat go out as 0xFF and are counted
(R390, R401). -/
def execCaptureRead (d : Nat) (io : HostIO) (s : State) : Out :=
  .next (match takeDesc s d 0x59 with
    | none => s
    | some x =>
      let r := fld (x.w 7) 2 0
      let off := (x.w 8).toNat + 2 ^ 32 * (x.w 9).toNat
      if !bit (x.w 6) 0 || !s.rng.bme then s
      else if rangeBad s x then invalid s d 0xF4
      else if 4 < r ∨ regionSize s.hbm.placed r * granule < off + x.len then invalidOpen s d
      else
        let s := match leaseOf s 1 with
          | some l =>
            if (List.range (x.len / 2 ^ 21 + 2)).any (fun i =>
              regionAddr s.hbm.placed r (min (off + i * 2 ^ 21) (off + x.len - 1)) / 2 ^ 21 == l.unit) then
              claimAddr s (blockAddr l.unit)
            else s
          | none => s
        let bad := badBeats s r off x.len
        let bytes := (List.range x.len).map (fun i =>
          let a := regionAddr s.hbm.placed r (off + i)
          if bad.contains (a / 32) then 0xFF else hbmByte s a)
        copyOut (freeBytesNext (setDesc (readBad s bad) d 2)) io x 0 bytes (w32 x.len) (w32 bad.length))

end Sys2Proof.Machine
end

