-- ==== Sys2Proof/Machine/Frame.lean ====
section
/-! DEFINITION. The fabric frame, TU multiframe and superframe boundaries, and what leaves a line at a frame (R12, R45, R46, R50, R56 to
R62, R65, R69, R80, R93, R117, R123, R171, R173, R188, R193). -/

namespace Sys2Proof.Machine

/-! ### Transmitted overhead -/

/-- Message of the J0 trace that lane `n` begins to send (R59). -/
def j0Message (s : State) (n : Nat) : List Byte :=
  let m := fld (frmCtl s n) 3 2
  traceMsg m (traceBytes s Reg.ohpJ0Tx n (traceTxLen m))

/-- The J0 byte of this frame, and the rest of its message (R59). -/
def j0Byte (s : State) (n : Nat) : Byte × List Byte :=
  let l := if (frm s n).j0Tx.isEmpty then j0Message s n else (frm s n).j0Tx
  (l.headD 0, l.drop 1)

/-- S1 sent on lane `n`: LANE_S1.TX, or the quality level of DPLL-S, do-not-use where its reference comes from this lane (R60,
R269). -/
def s1Tx (s : State) (n : Nat) : Nat :=
  let c := frmCtl s n
  let r := dpllRef s 0
  if bit c 11 then fget s (Reg.laneS1 n) 23 16
  else if r ≠ 31 ∧ 8 ≤ r ∧ refKind s r = 1 ∧ refId s r = n then s1Sent (bit (frm s n).ctl 0) 0xF
  else s1Sent (bit (frm s n).ctl 0) (dpllQl s 0)

/-- The overhead that lane `n` sends in the frame that begins: J0, D1 to D12, E1, F1, E2, K1, K2, S1, M1, and whether bit 0 of B1 and of the first B2
byte is inverted; with FORCE_MS_AIS K1, K2 and S1 show 0xFF, and M1 is 0 in LOS, LOF and MS-AIS (R50, R56, R59 to R62, R65, R71). -/
def txLatch (s : State) (n : Nat) : State :=
  let f := frm s n
  let ais := bit f.ctl 13
  let j := j0Byte s n
  let oh := if f.ohTx.length = 15 then f.ohTx else List.replicate 15 0
  let k := txK s n ais (f.txRdi || bit f.ctl 14)
  let s1 := if ais then 0xFF else s1Tx s n
  let m1 := if f.det.los || f.det.lof || f.det.ais then 0 else f.m1Tx
  let inv := b2n f.b1Inv + 2 * b2n f.b2Inv
  let b := j.1 :: oh ++ [BitVec.ofNat 8 k.1, BitVec.ofNat 8 k.2, BitVec.ofNat 8 s1, BitVec.ofNat 8 m1, BitVec.ofNat 8 inv]
  let s := editFrm s n (fun f => { f with j0Tx := j.2, ohTx := [], b1Inv := false, b2Inv := false, soh := b })
  fset s (Reg.laneS1 n) 31 24 s1

/-! ### Transmitted frames -/

/-- Content byte `b` of index `i` of lane `l` as it goes out: 0xFF from the first byte that could not be recovered (R123, R140). -/
def auByte (s : State) (l i b : Nat) : Byte :=
  let p := placeOf s l i
  let o := hoAddr l p.1
  let k := containerPos p.1 p.2 i b
  match s.fab.ffOut.find? (fun q => q.1 == o) with
  | some q => if q.2 ≤ k then 0xFF else (outSt s o).now.getD k 0
  | none => (outSt s o).now.getD k 0

/-- The pointer bytes of index `i` of lane `l`, H1, H2 or H3 as `row` is 0, 1 or 2: a container's first index has its pointer, the others a
concatenation indication (R79, R81; G.707 layout, log entry 101). -/
def auPointer (s : State) (l i row : Nat) : Byte :=
  let p := placeOf s l i
  let x := outSt s (hoAddr l p.1)
  let first := i == p.1
  if x.ones then 0xFF
  else match row with
    | 0 => if first then x.head.headD 0x6A else BitVec.ofNat 8 (0x93 + 4 * ssBits s l)
    | 1 => if first then x.head.getD 1 0 else 0xFF
    | _ => x.opp.getD (if p.2 = 1 then 0 else p.2 / 3 * ((i - p.1) % 3) + (i - p.1) / 3) 0

/-- Byte of the section overhead in row `a` (1 to 9) and column `c` (from 0) of a frame of lane `n` at STM-`m`, the pointers apart: the
bytes of `txLatch`, frame pattern, parities, probes; the others 0x00, or 0xAA in row 1 (R50, R69). -/
def sohByte (s : State) (n m a c : Nat) : Byte :=
  let f := frm s n
  let o := fun (i : Nat) => f.soh.getD i 0
  let pr := fun (i : Nat) => if f.probeOn then f.probeTx.getD (4 * s.glb.frame + i) 0 else 0
  let inv := (o 20).toNat
  let at' := c / (3 * m)
  let sec := c % (3 * m) == 0
  match a with
  | 1 => if c < 3 * m then 0xF6 else if c < 6 * m then 0x28 else if c = 6 * m then o 0 else 0xAA
  | 2 =>
    if c = 0 then (if inv % 2 = 1 then f.b1Tx ^^^ 1 else f.b1Tx)
    else if c = 3 * m then o 13 else if c = 6 * m then o 14 else if c = 7 * m then pr 0 else if c = 8 * m then pr 1 else 0
  | 3 => if sec then o (1 + at') else if c = 7 * m then pr 2 else if c = 8 * m then pr 3 else 0
  | 5 =>
    if c < 3 * m then (let b := f.b2Tx.getD c 0
      if 2 ≤ inv ∧ c = 0 then b ^^^ 1 else b)
    else if c = 3 * m then o 16 else if c = 6 * m then o 17 else 0
  | 6 => if sec then o (4 + at') else 0
  | 7 => if sec then o (7 + at') else 0
  | 8 => if sec then o (10 + at') else 0
  | 9 => if c = 0 then o 18 else if c = 3 * m + 2 then o 19 else if c = 6 * m then o 15 else 0
  | _ => 0

/-- The frame that lane `n` at STM-`m` has built, before scrambling; with FORCE_MS_AIS every byte after the regenerator section overhead
is 0xFF (R50, R61, R123, R193). -/
def plainFrameOf (s : State) (n m : Nat) : List Byte :=
  let l := txFrom s n
  let ais := bit (frm s n).ctl 13
  (List.range 9).flatMap (fun r =>
    (List.range (9 * m)).map (fun c =>
      if ais ∧ 3 ≤ r then 0xFF
      else if r = 3 then auPointer s l (auIndex m (c % (3 * m))) (c / (3 * m)) else sohByte s n m (r + 1) c) ++
    (List.range (261 * m)).map (fun j => if ais then 0xFF else auByte s l (auIndex m j) (87 * r + j / (3 * m))))

/-- Serializer data of lane `n` in place of `own`: that of its PRBS generator, one bit of it inverted by ERR_INJ (R46, R48). -/
def generated (s : State) (n len : Nat) : List Byte × State :=
  let r := patBytes (genPattern s n) (userPattern s n) len (laneSt s n).gen
  let b := if (laneSt s n).errInj then listPut r.1 0 (r.1.headD 0 ^^^ 0x80) else r.1
  (b, editLane s n (fun l => { l with gen := r.2, errInj := false }))

/-- `b` leaves the serializer of lane `n`: to the balls with the transmit polarity, unless they are closed to it, and to a near-end
loopback (R45, R48). -/
def serialize (s : State) (n : Nat) (b : List Byte) : State :=
  let s := editLane s n (fun l => { l with serOut := b })
  if ballsOpen s n then wire s "line" n (polarity (bit (laneCtl s n) 8) b) else s

/-- The frame that ends leaves lane `n`: B1 is computed over it scrambled, B2 over all but its regenerator section overhead, both for the
next frame; a PRBS generator replaces it (R46, R50). -/
def sframeSend (s : State) (n : Nat) : State :=
  if (frm s n).soh.isEmpty then s
  else
    let m := laneN s n
    let plain := plainFrameOf s n m
    let line := if bit (frm s n).ctl 1 then plain else descramble plain m
    let s := editFrm s n (fun f => { f with b1Tx := xorAll line, b2Tx := bip24Of plain m })
    if genOn s n then
      let r := generated s n line.length
      serialize r.2 n r.1
    else serialize s n line

/-- Bytes of an Ethernet lane's rate in the frame that ends: 10.3125 or 25.78125 Gb/s over 125 µs, in whole bytes over 32 frames (R29). -/
def ethBytes (s : State) (n : Nat) : Nat :=
  let k := s.glb.sfc % 2 * 16 + s.glb.frame
  let t := if laneMode s n = 4 then 5156250 else 12890625
  (k + 1) * t / 32 - k * t / 32

/-- The PRBS generators of Ethernet lanes go on (R46; what the PCS sends is its frames, ETH_TX_SENT and PW_PACKET_TX). -/
def ethPatterns (s : State) : State :=
  ((List.range 128).filter (fun n => (laneEn s n && ethMode (laneMode s n) || quadMember s n) && genOn s n && !(laneSt s n).txIdle)).foldl
    (fun s n =>
      let r := generated s n (ethBytes s n)
      serialize r.2 n r.1) s

/-- With rail 4 lost, what leaves a guard's delay line is unrecovered from its first byte on (R390, R420). -/
def linesLost (s : State) : State :=
  if s.hbm.rail4 then s
  else markUnrec s (((s.sym.guards.map (fun p => p.1)).filterMap (guardSource s)).map (fun a => (a, 0)))

/-- The frame that ends is sent: merges choose its blocks, what could not be recovered is 0xFF, the DS0 tier gives its outputs, and containers
and line frames are built from what the fabric has read (R123, R140, R146, R219). -/
def frameSend (s : State) : State :=
  let s := linesLost (guardsHold (mergesFrame s) false)
  let s := editFab s (fun f => { f with ffOut := ffOutputs s })
  let s := { s with outs := s.outs.filter (fun p => hasEntry s (w32 p.1)) }
  let s := frameOuts (tierOuts s)
  ethPatterns ((txLanes s).foldl sframeSend s)

/-! ### What takes effect at a frame boundary -/

/-- A frame time passes on lane `n`, and LANE_FRM_CTL, AU-AIS downstream and MS-RDI upstream are in force from this frame on (R51, R54,
R56, R57, R71). -/
def lineBoundary (s : State) (n : Nat) : State :=
  let s := oofFrame s n
  let f := frm s n
  let sf := sdhOn s n && lineSf f.det (frmCtl s n)
  if f.ctl = frmCtl s n ∧ f.auAis = sf ∧ f.txRdi = sf then s
  else editFrm s n (fun f => { f with ctl := frmCtl s n, auAis := sf, txRdi := sf })

/-- DCC channels, overhead serial ports and triples as written are in force (R63, R64, R72). -/
def ohpBoundary (s : State) : State :=
  let s := (List.range 256).foldl (fun s c =>
    let w := rd s (Reg.ohpDccCtl c)
    if (dcc s c).ctl = w then s else editDcc s c (fun q => { q with ctl := w, rxOn := false, rxOnes := 0, rxBits := [] })) s
  { s with ohp := { s.ohp with
      osp := (List.range 8).foldl (fun t p => Tab.store t p 0 (rd s (Reg.ohpOspCtl p))) s.ohp.osp
      ow := (List.range 96).foldl (fun t i => Tab.store t i 0 (rd s (Reg.ohpOspOw i))) s.ohp.ow } }

/-- The framed units that the DS0 tier reads (R117). -/
def slipUnits (s : State) : List PdhUnit :=
  s.ports.map (fun p => PdhUnit.port (Fin.ofNat 64 p.1)) ++ s.termFr.map (fun p => PdhUnit.term (Fin.ofNat 65536 p.1))

/-- Received paths whose pointer period is a frame (`true`) or a TU multiframe (R77, R80). -/
def periodPaths (s : State) (ho : Bool) : List Word :=
  (s.paths.map (fun p => w32 p.1)).filter (fun a => isPath s a && hoPoh s a == ho)

/-- The number of the new frame; the boundaries that fall on it are still to act (R12, R171). -/
def nextFrameNo (s : State) : State :=
  let f := (s.glb.frame + 1) % 16
  { s with
    glb := { s.glb with frame := f, sfDue := s.glb.sfDue || f == 0, mfDue := s.glb.mfDue || f % 4 == 0 }
    map := if f % 4 = 0 then { s.map with tuAis := [] } else s.map }

/-- Lines, data channels, ports and timers pass a frame, and the DS0 tier reads one of every framed unit (R51, R57, R63, R106, R112, R117). -/
def unitsStart (s : State) : State :=
  let s := (List.range 128).foldl lineBoundary (nextFrameNo s)
  let s := (List.range 64).foldl (fun s p => portBoundary s (Fin.ofNat 64 p)) (ohpBoundary (countTimers s))
  let s := (slipUnits s).foldl raiBoundary s
  (slipUnits s).foldl slipRead s

/-- Elastic stores, consequent actions and leak queues of every path pass a frame (R57, R80, R86, R95). -/
def pathsStart (s : State) : State :=
  let s := (periodPaths s true).foldl storePeriod s
  let s := (s.paths.map (fun p => w32 p.1)).foldl pathLatch s
  (periodPaths s false).foldl leakFrame s

/-- Everything that follows its own clockwork at a frame boundary, before the map changes. -/
def frameStart (s : State) : State :=
  let s := feedDs0 (fabControls (guardsFrame (pathsStart (unitsStart s))))
  { s with hbm := { s.hbm with freeing := 0 } }

/-- What is in force for the new frame: changes pending for it, selections, groups, and the fabric's own work (R123, R126, R173, R188,
R195). -/
def frameApply (s : State) : State :=
  let s := applyBoundary (freeStorage s) false
  let s := applySelections s false
  claimPages (startBridges (fabricFrame (groupsFrame s)))

/-- What the frame that begins will send beside its content (R50, R66, R227). -/
def frameLatch (s : State) : State :=
  let s := (s.dccs.map (fun p => p.1)).foldl dccOpen { s with glb := { s.glb with frameNs := nsNow s } }
  (txLanes s).foldl txLatch s

/-- The PEEK registers that a frame boundary refreshes (R158, R200, R223). -/
def framePeeks (s : State) : State := mrgPeekAt (protPeek (mapPeek s)) false

/-- The content of slot `a` in the frame that ends, as it enters its store: the byte of a DS0-level slot, the container of the frame, or the
quarter that the frame has of a TU multiframe's; all ones for a slot whose source gives none (R401). -/
def captureBlock (s : State) (a : Word) : List Byte :=
  if 2 ≤ saTier a then [ds0Source s a]
  else
    let n := contBytes s a
    let b := if sourceOnes s a a then List.replicate n 0xFF else fitBytes n (path s a).data
    if hoPoh s a then b else (b.drop (n / 4 * (s.glb.frame % 4))).take (n / 4)

/-- The capture that runs takes the frame that ends (R401). -/
def captureFrame (s : State) : State := match s.bgl.cap with
  | some c => if c.started && c.left != 0 then captureTake s c (captureBlock s c.slot) else s
  | none => s

/-- FRAME_BOUNDARY (R123): the frame that ends leaves, and the next begins; nothing runs while the device is held in reset. -/
def execFrameBoundary (s : State) : Out :=
  .next (
    if inReset s then s
    else captureStart (framePeeks (refreshConds (frameLatch (frameApply (frameStart (frameSend (leaseFrame (testFrame (captureFrame s))))))))))

/-- SUPERFRAME_BOUNDARY: SFC advances with every 16th frame boundary, and the probe messages begin (R12, R69, R228). -/
def execSuperframeBoundary (s : State) : Out :=
  .next (
    if s.glb.sfDue then
      cemPeek (symPeek (probesSuperframe { s with glb := { s.glb with sfDue := false, sfc := (s.glb.sfc + 1) % 65536 } }))
    else s)

/-- TU_MULTIFRAME_BOUNDARY: low-order changes and selections are carried, and every low-order output begins a multiframe, for which the
mappers decide; the gathers whose commit frame has begun come first (R81, R93, R170 to R173, R188). -/
def execTuMultiframeBoundary (s : State) : Out :=
  .next (
    if s.glb.mfDue && (gathersDue s).isEmpty then
      let s := guardsHold (mergesMultiframe { s with glb := { s.glb with mfDue := false } }) true
      let s := applySelections (applyBoundary s true) true
      let s := multiframeOuts ((periodPaths s false).foldl storePeriod s)
      claimPages (mrgPeekAt (protPeek (mapPeek (refreshConds (dropLatencies (syncStorage s))))) true)
    else s)

end Sys2Proof.Machine
end

