-- ==== Sys2Proof/Machine/Regs.lean ====
section
/-! DEFINITION. What a register reads, and REGISTER_WRITE (R4 to R7, R304, R325, R410, R434 to R441, and the register
descriptions of every chapter). -/

namespace Sys2Proof.Machine

/-! ### Domains -/

/-- The domain of the register at `off`: 0 to 15 LG g, 16 TRIB, 17 FAB, 18 HBM; none in AON, CTL and PCIE, which are up whenever
BAR0 answers (R11, R409, R410, R434). DESIGN CHOICE (log entry 79): R11 gives MRG and SYM the domains FAB and HBM, and CEM LG and HBM,
and does not say which one gates the block's registers; here FAB gates MRG and SYM, and the HBM stack 0 gates CEM. -/
def regDomain (off : Nat) : Option Nat :=
  let b := off / 0x10000
  if 0x10 ≤ b ∧ b ≤ 0x17 then some (laneGroup ((off - 0x100000) / 0x1000))
  else if b = 0x18 then some 16
  else if b = 0x20 ∨ (0x30 ≤ b ∧ b ≤ 0x35) then some 17
  else if b = 0x36 ∨ b = 0x100 ∨ b = 0x101 then some 18 else none

/-! ### Reading -/

/-- HIF_KNL_INFO0 to 4 of kennel slot `i` (R347). -/
def knlInfo (s : State) (i : Nat) : List Word := match Tab.find? s.xlat.knl i with
  | none => [0, 0, 0, 0, 0]
  | some k => match desc? s k.d with
    | none => [0, 0, 0, 0, 0]
    | some d =>
      let past := decide (2 ≤ d.st) || (bulkOf s k.d).commit
      let f := k.st == 1
      [w32 (k.st + 4 * (if f then k.kind else 0) + 32 * b2n k.write + 64 * b2n past + 256 * d.ring),
        w32 (d.idx + 65536 * d.op), d.w 1, if f then w32 (k.va / 4096 % 2 ^ 26) else 0, w32 k.moved]

/-- Words of the merge count: merges and their pages and rate (R223). -/
def mergeCounts (s : State) : Nat × Nat × Nat := (s.mrg.merges.length, mergePages s, mergeRate s)

/-- Selectors of tier `t` configured (R200). -/
def selTier (s : State) (t : Nat) : Nat := (s.prot.sels.filter (fun p => keyTier p.1 == t)).length

/-- Bits of EVT_HELD_MAP_w (R363). -/
def heldMap (s : State) (w : Nat) : Word :=
  (List.range 32).foldl (fun v i => setBit v i (!(heldBy s (32 * w + i)).isEmpty)) 0

/-- The MAP registers that follow the map (R158). -/
def mapShown (s : State) (o : Nat) : Option Word :=
  match o with
  | 0x00 => some (w32 (mapUsed s 0))
  | 0x04 => some (w32 (mapUsed s 1))
  | 0x08 => some (w32 (mapUsed s 2))
  | 0x20 => some (w32 s.map.ccs.length)
  | _ => none

/-- The FAB registers that follow the fabric (R142). -/
def fabShown (s : State) (o : Nat) : Option Word := match o with
  | 0x00 => some (w32 (structuredCount s + 2 ^ 14 * ds0Positions s))
  | 0x04 => some (w32 (poolWords s + 2 ^ 19 * popc 32 (rd s Reg.fabBankOn).toNat))
  | 0x18 => some (w32 (dualNow s))
  | 0x44 => some (latWord s (rd s Reg.fabLatSlot))
  | _ => none

/-- The GTH registers that follow the gathers (R179). -/
def gthShown (s : State) (o : Nat) : Option Word :=
  if o = 0x00 then some (frameWord s)
  else if o = 0x04 then some (gthUse s)
  else if o = 0x08 then some (gthNext s)
  else if 0x100 ≤ o ∧ o < 0x200 ∧ o % 16 ≤ 8 then some (gthSlotWord s ((o - 0x100) / 16) (o % 16 / 4)) else none

/-- The PROT registers that follow the protection engine (R200). -/
def protShown (s : State) (o : Nat) : Option Word :=
  let g := (o - 0x100) / 16
  if o = 0x00 then some (w32 (selTier s 0))
  else if o = 0x04 then some (w32 (selTier s 1))
  else if o = 0x08 then some (w32 (selTier s 2))
  else if 0x100 ≤ o ∧ o < 0x500 then match o % 16 with
    | 0 => some (grpStatus s g)
    | 4 => some (grpK s g)
    | 12 => some (grpTimer s g)
    | _ => none
  else none

/-- The MRG registers that follow the marver (R223). -/
def mrgShown (s : State) (o : Nat) : Option Word :=
  match o with
  | 0x00 => some (w32 (mergeCounts s).2.2)
  | 0x04 => some (w32 (mergeCounts s).1)
  | 0x08 => some (w32 (mergeCounts s).2.1)
  | _ => none

/-- The SYM registers that follow the guards (R239). -/
def symShown (s : State) (o : Nat) : Option Word :=
  match o with
  | 0x08 => some (w32 s.sym.guards.length)
  | 0x28 => some (w32 (guardPages s))
  | _ => none

/-- The CEM registers that follow the pseudowires (R263). -/
def cemShown (s : State) (o : Nat) : Option Word :=
  match o with
  | 0x00 => some (w32 s.cem.pws.length)
  | 0x04 => some (w32 (cemPages s))
  | _ => none

/-- The PM registers that follow the snapshots (R364). -/
def pmShown (s : State) (o : Nat) : Option Word := match o with
  | 0x04 => some (w32 s.pm.seq)
  | 0x08 => some s.pm.latVal
  | 0x0C => some s.pm.latHi
  | 0x10 => some s.pm.latStat
  | 0x20 => some (w32 (histSlot s / 4096))
  | 0x24 => some (w32 (histOldest s))
  | _ => none

/-- The TOD registers that follow the time counter (R290, R299). -/
def todShown (s : State) (o : Nat) : Option Word := match o with
  | 0x08 => some (nsNow s)
  | 0x0C => some s.tod.latFrac
  | 0x10 => some s.tod.latSub
  | 0x14 => some s.tod.latWraps
  | 0x18 => some (s.tod.inc.extractLsb' 0 32)
  | 0x1C => some (s.tod.inc.extractLsb' 32 32)
  | _ => none

/-- The lane registers that follow the lane (R33, R43, R47, R48, R262): the LANE_CTL write held, the LIVE bit, what reads 0 in an
oversampled mode, the group's PLLs, the latency, and the Ethernet registers
of a quad's other lanes. -/
def laneShown (s : State) (off : Nat) : Option Word :=
  let n := (off - 0x100000) / 0x1000
  let o := off % 0x1000
  if o = 0x00 then (laneSt s n).heldCtl
  else if o = 0x04 then some (setBit (rd s off) 6 (laneLive s n))
  else if o = 0x0C then some (shownEq s n (rd s off))
  else if o = 0x30 ∧ oversampled (laneMode s n) then some 0
  else if o = 0x40 then some (rd s (Reg.laneGpll (n / 8 * 8)))
  else if 0x200 ≤ o ∧ o < 0x2A4 ∧ quadMember s n then some 0
  else if o = 0x208 then some (laneLat s n) else none

/-- The HIF registers that follow the rings, the leash and the kennel (R329, R347). -/
def hifShown (s : State) (o : Nat) : Option Word :=
  if o = 0x00 then some (setFld (rd s Reg.hifStatus) 16 0 (inFlight s))
  else if o = 0x18 then some (epochNow s)
  else if o = 0x110 then some (setFld (rd s Reg.hifXlatStatus) 12 1 s.xlat.tlb.length)
  else if o = 0x120 then some (knlStatus s) else none

/-- The EVT registers that follow the records held (R363). -/
def evtShown (s : State) (off : Nat) : Option Word :=
  if off < 0x42000 then
    some (setFld (rd s off) 18 16 (heldBy s ((off - 0x40000) / 4)).length)
  else if off = Reg.evtStatus then some (w32 s.evt.held.length)
  else if 0x42200 ≤ off ∧ off < 0x42300 then some (heldMap s ((off - 0x42200) / 4)) else none

/-- The HBM status (R403). -/
def hbmShown (s : State) : Word :=
  let w := setFld (rd s Reg.hbmStatus) 7 0 (128 - s.hbm.placed.sum)
  (List.range 4).foldl (fun w i => setBit w (8 + i) (s.hbm.selfRef.getD i true)) w

/-- The value of a register that shows something the state holds elsewhere; none where the stored word is what it shows. -/
def shown (s : State) (off : Nat) : Option Word :=
  let b := off / 0x10000
  if b = 0x3 then hifShown s (off % 0x10000)
  else if b = 0x4 then evtShown s off
  else if off = Reg.mtxHalf then some (setFld (rd s off) 23 8 (hbAge s))
  else if b = 0x9 then todShown s (off % 0x10000)
  else if 0x10 ≤ b ∧ b ≤ 0x17 then laneShown s off
  else if b = 0x18 then
    if off % 0x400 = 0x08 then some (setBit (rd s off) 13 (portLive s ((off - 0x180000) / 0x400))) else none
  else if b = 0x30 then fabShown s (off % 0x10000)
  else if b = 0x31 then mapShown s (off % 0x10000)
  else if b = 0x32 then gthShown s (off % 0x10000)
  else if b = 0x33 then protShown s (off % 0x10000)
  else if b = 0x34 then mrgShown s (off % 0x10000)
  else if b = 0x35 then symShown s (off % 0x10000)
  else if b = 0x36 then cemShown s (off % 0x10000)
  else if b = 0x40 then pmShown s (off % 0x10000)
  else if 0x60 ≤ b ∧ b ≤ 0x63 then
    if off % 64 = 0x18 then
      some (w32 (s.rng.descs.filter (fun d => d.ring == (off - 0x600000) / 64)).length)
    else none
  else if off = Reg.hbmStatus then some (hbmShown s) else none

/-- The register's domain is powered down (R410). -/
def regDown (s : State) (off : Nat) : Bool := match regDomain off with
  | some d => !domainUp s d
  | none => false

/-- What a read of the register at `off` returns outside REPLAY: 0 where none is listed; WO fields read 0; in a domain that is down,
RW and RWL fields and raw counters keep their values and every other field reads its reset value (R5, R7, R304, R410, R434). -/
def readReg (s : State) (off : Nat) : Word := match regRow? off with
  | none => 0
  | some r =>
    let keep := accMask r .rw ||| accMask r .rwl
    if regDown s off && !rawCounter off then ((rd s off &&& keep) ||| (w32 r.reset &&& ~~~ keep)) &&& ~~~ accMask r .wo
    else ((shown s off).getD (rd s off)) &&& ~~~ accMask r .wo

/-- The bytes of the MSI-X table and of the PBA (R303, R354). -/
def msixWord (s : State) (off : Nat) : Word :=
  if off < 0x3FF0000 + 65 * 16 then
    let i := (off - 0x3FF0000) / 4
    if i % 4 = 3 then w32 (b2n (s.evt.vmask.contains (i / 4))) else Tab.get s.evt.tab i 0
  else if 0x3FF8000 ≤ off ∧ off < 0x3FF8010 then
    (List.range 32).foldl (fun w b => setBit w b (s.evt.pba.contains ((off - 0x3FF8000) / 4 * 32 + b))) 0
  else 0

/-- What a BAR0 read of a word returns: ones in REPLAY, GLB_STATUS apart (R26, R304). DESIGN CHOICE (log entry 80): an offset that
holds no register reads ones in REPLAY too, although R304 says that unassigned space reads 0. -/
def readBar0 (s : State) (off : Nat) : Word :=
  if 0x3FF0000 ≤ off then msixWord s off
  else if replay s && off != Reg.glbStatus then 0xFFFFFFFF else readReg s off

/-- The configuration space, by byte offset of its word as PCIe lays it out: Vendor ID and Device ID, the Command register's bus master
enable, Revision ID and class code, and the Subsystem IDs; none where the spec gives no content (R301, R437). -/
def configWord (s : State) (off : Nat) : Option Word := match off with
  | 0x00 => some 0x94401F3D
  | 0x04 => some (w32 (4 * b2n s.rng.bme))
  | 0x08 => some 0x0B4000B0
  | 0x2C => some 0x94401F3D
  | _ => none

/-! ### Writing -/

/-- The state after an outcome that is always a next state. -/
def Out.or (o : Out) (s : State) : State := match o with
  | .next t => t
  | _ => s

/-- Registers whose writes in SERVICE follow R438: they count only where an RWL field would change. -/
def mixedLock (off : Nat) : Bool :=
  [Reg.timOsc, Reg.symCtl, Reg.pwrAvs, Reg.hifXlatCtl, Reg.todPps].contains off ||
    (decide (0x600000 ≤ off) && decide (off < 0x640000))

/-- A value that the register's description does not take: the write is ignored as a whole. -/
def badValue (off : Nat) (v : Word) : Bool :=
  if off = Reg.pwrThermLim then thermBad v
  else if off = Reg.hifKnlTimeout then decide (60000 < fld v 15 0)
  else if off = Reg.bglCtl then fld v 7 3 == 0 || decide (16 < fld v 7 3)
  else if off / 0x10000 = 0x8 then timBad off v
  else if off / 0x10000 = 0x9 then todBad off v else false

/-- A write by access types: RW and, outside SERVICE, RWL fields take their bits; a 1 clears a W1C bit; every other bit is ignored
(R5 to R7, R438, R441). -/
def fieldWrite (s : State) (r : RegRow) (off : Nat) (v : Word) : State :=
  let lock := inService s && accMask r .rwl != 0
  let m := if lock then accMask r .rw else accMask r .rw ||| accMask r .rwl
  let c := accMask r .w1c
  let s := if lock then (if mixedLock off then lockedWrite s off v else ignoredWrite s off) else s
  let old := rd s off
  wr s off (((old &&& ~~~ m) ||| (v &&& m)) &&& ~~~ (v &&& c))

/-- What follows a write of the register at `off`: monitors and outputs show the new limits, HIF_KNL_SEL takes the slot's words, and a write
of a PEEK selection refreshes its registers (R158, R200, R223, R239, R263, R284, R347). -/
def afterWrite (s : State) (off : Nat) : State :=
  if off / 0x10000 = 0x8 then showTim (if off = Reg.timOsc then trimFree s else s)
  else if off = Reg.hifKnlSel then
    ((knlInfo s (fget s Reg.hifKnlSel 7 0)).zipIdx).foldl (fun s p => wr s (Reg.hifKnlInfo0 + 4 * p.2) p.1) s
  else if off = Reg.mapPeekSlot then mapPeek s
  else if off = Reg.protPeekSel then protPeek s
  else if off = Reg.mrgPeekSel then mrgPeek s
  else if off = Reg.symPeekSel then symPeek s
  else if off = Reg.cemPeekSel then cemPeek s
  else s

/-- A write that no row of its own makes. -/
def plainWrite (s : State) (off : Nat) (v : Word) : State := match regRow? off with
  | none => s
  | some r =>
    if badValue off v && !(inService s && accMask r .rw == 0) then ignoredWrite s off
    else afterWrite (fieldWrite s r off v) off

/-- The pulse that a write of TIM_FPOUT_CTL heels to, where no row of its own brings it: a free value. -/
def fpoutWrite (s : State) (j : Nat) (v : Word) : State :=
  Out.or (execFpoutCtlWrite (Fin.ofNat 4 j) v (sgn 30 (freeNow s).toNat) (freeNext s)) s

/-- A write of LANE_ETH_MAC at `off` of lane 4q+1 to 4q+3 of a running quad: without effect (R262), and counted in SERVICE as every
write to an RWL register is (R6). -/
def memberMacWrite (s : State) (off : Nat) : State := if inService s then ignoredWrite s off else s

/-- Writes of lane `n`'s registers that have an effect of their own; `o` is the offset within the lane. -/
def laneWrite (s : State) (n o : Nat) (v : Word) : Option State :=
  let l := Fin.ofNat 128 n
  match o with
  | 0x00 => some (Out.or (execLaneCtlWrite l v s) s)
  | 0x08 => some (txfirWrite s n v)
  | 0x14 => some (prbsWrite s n v)
  | 0x28 => some (eyeWrite s n v)
  | 0x100 => some (frmWrite s n v)
  | 0x200 => some (Out.or (execEthCtlWrite l v s) s)
  | 0x20C => if quadMember s n then some (memberMacWrite s (0x100000 + 0x1000 * n + o)) else none
  | 0x210 => if quadMember s n then some (memberMacWrite s (0x100000 + 0x1000 * n + o)) else none
  | _ => none

/-- Writes of the host interface's registers that have an effect of their own (R327, R347). -/
def hifWrite (s : State) (o : Nat) (v : Word) : Option State := match o with
  | 0x100 => some (Out.or (execXlatConfigWrite 0 v s) s)
  | 0x104 => some (Out.or (execXlatConfigWrite 1 v s) s)
  | 0x108 => some (Out.or (execXlatConfigWrite 2 v s) s)
  | 0x10C => some (Out.or (execTlbInvalidate v s) s)
  | _ => none

/-- Writes of the timing registers that have an effect of their own (R266, R282, R284). -/
def timWrite (s : State) (o : Nat) (v : Word) : Option State :=
  if 0x100 ≤ o ∧ o < 0x280 ∧ o % 16 = 0 then
    some (Out.or (execTimRefCfgWrite (Fin.ofNat 24 ((o - 0x100) / 16)) v s) s)
  else if 0x400 ≤ o ∧ o < 0x500 ∧ o % 64 < 24 then
    some (Out.or (execDpllCtlWrite (Fin.ofNat 4 ((o - 0x400) / 64)) (Fin.ofNat 6 (o % 64 / 4)) v s) s)
  else if 0x540 ≤ o ∧ o < 0x560 then
    some (if o % 8 = 0 then fpoutWrite s ((o - 0x540) / 8) v else fpHeelWrite s ((o - 0x540) / 8) v)
  else if o = 0x0C ∧ !timBad Reg.timMonWtr v then some (monWtrWrite s v) else none

/-- Writes of the overhead and fabric registers that have an effect of their own (R63, R72, R142). -/
def fabricWrite (s : State) (off : Nat) (v : Word) : Option State :=
  if 0x206000 ≤ off ∧ off < 0x206400 then some (Out.or (execDccCtlWrite (Fin.ofNat 256 ((off - 0x206000) / 4)) v s) s)
  else if 0x206400 ≤ off ∧ off < 0x206420 then some (Out.or (execOspCtlWrite (Fin.ofNat 8 ((off - 0x206400) / 4)) v s) s)
  else if 0x206500 ≤ off ∧ off < 0x206680 then some (Out.or (execOspOwWrite (Fin.ofNat 96 ((off - 0x206500) / 4)) v s) s)
  else if off = Reg.fabParInj then some (Out.or (execParityInjectArm v s) s)
  else if 0x300100 ≤ off ∧ off < 0x300180 ∧ off % 16 < 8 then
    some (Out.or (execPmonCtlWrite (Fin.ofNat 8 ((off - 0x300100) / 16)) (off % 16 == 4) v s) s)
  else none

/-- A write whose register has an effect of its own; none where the access types say it all. -/
def ownWrite (s : State) (off : Nat) (v : Word) : Option State :=
  let b := off / 0x10000
  let o := off % 0x10000
  if off = Reg.glbMode then some (Out.or (execGlbModeWrite v s) s)
  else if off = Reg.glbBoot then some (Out.or (execSvnCommit v s) s)
  else if off = Reg.glbFlashCmd then some (flashCmd s v)
  else if off = Reg.pwrCtl then some (pwrCtlWrite s v)
  else if off = Reg.pwrAvs then some (avsWrite s v)
  else if off = Reg.mtxCtl then some (Out.or (execPlannedHandover v s) s)
  else if b = 0x3 then hifWrite s o v
  else if b = 0x4 then
    if off < 0x42000 then some (Out.or (execEvtRouteWrite (Fin.ofNat 2048 (o / 4)) v s) s)
    else if off < 0x42100 then some (Out.or (execEvtCoalWrite (Fin.ofNat 64 ((o - 0x2000) / 4)) v s) s)
    else if off = Reg.evtTest then some (Out.or (execEvtTestFire v s) s) else none
  else if b = 0x8 then timWrite s o v
  else if 0x10 ≤ b ∧ b ≤ 0x17 then laneWrite s ((off - 0x100000) / 0x1000) (off % 0x1000) v
  else if b = 0x18 then
    if off % 0x400 = 0 then some (Out.or (execTribCtlWrite (Fin.ofNat 64 (o / 0x400)) v s) s)
    else if off % 0x400 = 4 then some (Out.or (execTribFrmWrite (Fin.ofNat 64 (o / 0x400)) v s) s) else none
  else if b = 0x20 ∨ b = 0x30 then fabricWrite s off v
  else if b = 0x40 ∧ 0x100 ≤ o then
    let k : Fin 256 := Fin.ofNat 256 ((o - 0x100) / 16)
    if o % 16 = 0 then some (Out.or (execChainCfgWrite k v s) s)
    else if o % 16 = 4 then some (Out.or (execChainHiWrite k v s) s) else none
  else if 0x60 ≤ b ∧ b ≤ 0x63 then
    let n : RingId := Fin.ofNat 4096 ((off - 0x600000) / 64)
    if off % 64 < 12 then some (Out.or (execRingCfgWrite n (Fin.ofNat 3 (off % 64 / 4)) v s) s)
    else if off % 64 = 12 then some (Out.or (if bit v 0 then execRingEnable n s else execRingDisable n s) s) else none
  else if 0x1000000 ≤ off ∧ off < 0x1000014 then some (regionWrite s ((off - 0x1000000) / 4) v)
  else if off = Reg.bglReq then some (bglReqWrite s v) else none

/-- A register takes a write now: its domain is up (R410). -/
def regWrite (s : State) (off : Nat) (v : Word) : State := (ownWrite s off v).getD (plainWrite s off v)

/-- The row has a field that a write can change (R5). -/
def RegRow.writable (r : RegRow) : Bool := r.fields.any (fun f => f.acc != .ro && f.acc != .rc)

/-- A word of the MSI-X table is written as PCIe defines: address and data are kept, and vector control bit 0 masks the vector (R303,
R304). -/
def msixWrite (s : State) (off : Nat) (v : Word) : State :=
  if 0x3FF0000 + 65 * 16 ≤ off then s
  else
    let i := (off - 0x3FF0000) / 4
    if i % 4 = 3 then
      if bit v 0 then { s with evt := { s.evt with vmask := setIns s.evt.vmask (i / 4) } }
      else
        let s := { s with evt := { s.evt with vmask := setDel s.evt.vmask (i / 4) } }
        sendPending s
    else { s with evt := { s.evt with tab := Tab.store s.evt.tab i 0 (if i % 4 = 0 then v &&& 0xFFFFFFFC else v) } }

/-- One word written by the host at `off`: an offset that no block lists is ignored and not counted; in REPLAY a write is ignored and
counted; a write in a domain that is down wakes it and waits (R7, R26, R410, R434). -/
def wordWrite (s : State) (off : Nat) (v : Word) : State :=
  if hostDeaf s then s
  else if 0x3FF0000 ≤ off then msixWrite s off v
  else match regRow? off with
    | none => s
    | some r =>
      if replay s then ignoredWrite s off
      else if !r.writable then s
      else match regDomain off with
        | none => regWrite s off v
        | some d => domainWrite s d off v (fun s => regWrite s off v)

/-- REGISTER_WRITE: nothing in DORMANT (R18), and a wait behind a lock on the register file (R376); 4 bytes at a multiple of 4, or 8 at a multiple of 8, the lower register first; any other size or alignment is
ignored and counted, but in the MSI-X table (R304, R325). -/
def execRegisterWrite (off size : Nat) (v : BitVec 64) (s : State) : Out :=
  .next (
    if hostDeaf s then s
    else if regLocked s then hostWait s off size true ((wordBytes (v.extractLsb' 0 32) ++ wordBytes (v.extractLsb' 32 32)).take size)
    else if size = 4 ∧ off % 4 = 0 then wordWrite s off (v.extractLsb' 0 32)
    else if size = 8 ∧ off % 8 = 0 then
      wordWrite (wordWrite s off (v.extractLsb' 0 32)) (off + 4) (v.extractLsb' 32 32)
    else if 0x3FF0000 ≤ off then s
    else ignoredWrite s off)

end Sys2Proof.Machine
end

