-- ==== Sys2Proof/Machine/Wake.lean ====
section
/-! DEFINITION. A domain or stack wakes (R19, R36, R386, R409, R410, R414). -/

namespace Sys2Proof.Machine

/-- Domain `d` can accept its work: the extension segment is loaded unless it is FAB or HBM 0, and the rail it needs is good (R406,
R408, R409, R414). -/
def wakeReady (s : State) (d : Nat) : Bool :=
  s.pwr.st == 2 && s.pwr.wakes.contains d && (d == 17 || d == 18 || bget s Reg.pwrStatus 3) &&
    (decide (d < 18) || railGood s 4) && (d != 16 || railGood s 5) &&
    (decide (16 ≤ d) || !(s.pwr.lostRails.contains 2 || s.pwr.lostRails.contains 3))

/-- The lanes of LG g whose EN is 1 start: the group's PLLs are powered, and they then lock (R36, R414). -/
def startGroup (s : State) (g : Nat) : State :=
  (litLanes s g).foldl (fun s n => startLane (if ethMode (laneMode s n) then s else freshLane s n) n) (setPlls s g)

/-- Ports enabled before TRIB went down start once it is up (R105, R410, R420). -/
def startPorts (s : State) : State :=
  (List.finRange 64).foldl (fun (s : State) (p : PortId) => if bit (portCtl s p) 0 then portStart s p else s) s

/-- A write that its lock does not hold back: what a master of the matrix writes while it holds the register file, or a write taken before (R376,
R410). -/
def unlocked (s : State) (f : State → State) : State :=
  let l := fget s Reg.mtxLock 7 4
  if l = 15 then f s else fset (f (fset s Reg.mtxLock 7 4 15)) Reg.mtxLock 7 4 l

/-- Writes held for a domain that is up now take effect, oldest first, as if they arrived now (R410). -/
def doWorks (s : State) : State :=
  let up := fun (p : Nat × Word) => match regDomain p.1 with
    | some d => domainUp s d
    | none => true
  let l := s.pwr.works
  let s := { s with pwr := { s.pwr with works := l.filter (fun p => !up p) } }
  unlocked s (fun s => (l.filter up).foldl (fun s p => regWrite s p.1 p.2) s)

/-- FAB and HBM 0 are up for the first time since a cold boot or a DORMANT exit: the extension segment is loaded (R409, R428). -/
def startLoad (s : State) : State :=
  if domainUp s 17 && domainUp s 18 && !bget s Reg.pwrStatus 3 && !s.pwr.extDead then
    { s with pwr := { s.pwr with loading := true } }
  else s

/-- The domain is powered: with VDD_HBM up every stack is, the ones that hold nothing in self-refresh (R386, R431). -/
def powerUp (s : State) (d : Nat) : State :=
  if d < 18 then bset s Reg.pwrDomain d true
  else
    let s := (rangeFrom 18 4).foldl (fun s i => bset s Reg.pwrDomain i true) s
    stackRefresh { s with hbm := { s.hbm with selfRef := listPut s.hbm.selfRef (d - 18) false } }

/-- Domain `d` (0 to 15 LG g, 16 TRIB, 17 FAB, 18 to 21 HBM stack) accepts its work (R19, R414). -/
def wakeDone (s : State) (d : Nat) : State :=
  if !wakeReady s d then s
  else
    let s := powerUp { s with pwr := { s.pwr with wakes := setDel s.pwr.wakes d } } d
    let s := if d < 16 then startGroup (idleMark s d) d else if d = 16 then startPorts (idleMark s d) else s
    doWorks (startLoad s)

end Sys2Proof.Machine
end

