-- ==== Sys2Proof/Machine/Matrix.lean ====
section
/-! DEFINITION. The control matrix, its locks, the scratchpad and the mailbox (18_control_complex.md, R372 to R382). -/

namespace Sys2Proof.Machine

/-! ### Decoding -/

/-- The half's remap bit as the access of master `m` sees it; masters other than the halves see the remap-0 view (R373). -/
def remapped (s : State) (m : Nat) : Bool := decide (m < 2) && bget s Reg.mtxCtl m

/-- Target and offset that address `a` decodes to under a remap bit (R372, R373). -/
def decodeView (r : Bool) (a : Nat) : Nat × Nat :=
  let rom := fun (o : Nat) => if o < 0x40000 then (0, o) else (7, 0)
  if a < 0x200000 then (if r then (1, a) else rom a)
  else if 0x400000 ≤ a ∧ a < 0x600000 then (if r then rom (a - 0x400000) else (1, a - 0x400000))
  else if 0x1000000 ≤ a ∧ a < 0x1010000 then (5, a - 0x1000000)
  else if 0x1010000 ≤ a ∧ a < 0x1011000 then (6, a - 0x1010000)
  else if 0x4000000 ≤ a ∧ a < 0x8000000 then (2, a - 0x4000000)
  else if 0x10000000 ≤ a ∧ a < 0x11800000 then (3, a - 0x10000000)
  else if 0x4000000000 ≤ a ∧ a < 0x6400000000 then (4, a - 0x4000000000)
  else (7, 0)

/-- Target and offset of an access that is issued now: the host's decode within the register file alone (R372, R374). -/
def targetOf (s : State) (m a : Nat) : Nat × Nat := if m = 2 then (2, a % 2 ^ 26) else decodeView (remapped s m) a

/-- Bytes of one beat (R372). -/
def beatSize (a : Access) : Nat := if a.beats ≤ 1 then a.size else 8

/-- Bytes of an access (R372). -/
def accLen (a : Access) : Nat := beatSize a * a.beats

/-- The access has a shape that R372 gives: 1 to 8 bytes, or 2 to 16 beats of 8. -/
def shaped (a : Access) : Bool :=
  decide (1 ≤ a.size) && decide (a.size ≤ 8) && decide (1 ≤ a.beats) && decide (a.beats ≤ 16) &&
    (a.beats == 1 || a.size == 8)

/-- Master `m` is admitted to target `t` (R372, R374). -/
def admitted (s : State) (m t : Nat) : Bool :=
  let l : List Nat := match t with
    | 0 => [0, 1, 6]
    | 1 => [0, 1, 3, 4, 6]
    | 2 => [0, 1, 2, 5, 6]
    | 3 => [0, 1, 3, 5, 6]
    | 4 => [0, 1, 3, 4, 5, 6]
    | 5 => [0, 1, 6]
    | 6 => [0, 1, 6]
    | _ => [0, 1, 2, 3, 4, 5, 6]
  l.contains m && (m != 6 || bget s Reg.mtxCtl 2)

/-- The access is not aligned as its target asks, or is a map-window burst across a 128-byte boundary (R374, R378). -/
def misaligned (a : Access) (t o : Nat) : Bool :=
  if a.beats ≤ 1 then t != 1 && a.addr.toNat % a.size != 0
  else a.addr.toNat % 8 != 0 || (t == 3 && o / 128 != (o + accLen a - 1) / 128)

/-- Targets on which master `m` holds a lock (R376). -/
def locksOf (s : State) (m : Nat) : List Nat := [1, 2, 5].filter (fun t => lockOf s t == some m)

/-- KIND of the error response to an access, the lowest of those that apply; none where it is performed (R374, R376, R377). The
host sees none. -/
def errorKind (s : State) (w : MtxWait) : Option Nat :=
  let a := w.acc
  let m := a.master.val
  let d := w.tgt
  let e := targetOf s m (a.addr.toNat + accLen a - 1)
  if m = 2 then none
  else if d.1 = 7 ∨ e.1 ≠ d.1 then some 1
  else if !admitted s m d.1 then some 2
  else if misaligned a d.1 d.2 then some 3
  else if a.write ∧ d.1 = 0 then some 4
  else if w.lock ∧ (lockLo d.1 = none ∨ (locksOf s m).any (fun t => t != d.1)) then some 5
  else if a.write ∧ a.unlock ∧ s.mtx.lost.contains (m + 8 * d.1) then some 6
  else none

/-- An error response: nothing is performed, the access is counted and recorded, and MATRIX_ERR is raised at most once per second
and master; a read returns 0 (R374, R383, R384). -/
def refuseAccess (s : State) (w : MtxWait) (kind : Nat) : State :=
  let a := w.acc
  let m := a.master.val
  let t := w.tgt.1
  let hi := a.addr.toNat / 2 ^ 32
  let s := count s Reg.mtxErrCnt 1
  let s := wr s Reg.mtxErrLast (w32 (m + 8 * b2n a.write + 16 * kind + 128 * t))
  let s := wr (wr s Reg.mtxErrAddrLo (a.addr.setWidth 32)) Reg.mtxErrAddrHi (w32 (hi % 256 + 256 * b2n (decide (256 ≤ hi))))
  let s := { s with mtx := { s.mtx with lost := if kind = 6 then setDel s.mtx.lost (m + 8 * t) else s.mtx.lost } }
  let s := wire s "matrix-error" m [BitVec.ofNat 8 kind]
  let s := if a.write then s else wire s "matrix-read" m (List.replicate (accLen a) 0)
  raiseOnce s 0x703 0x20 m (w32 (0x20 + 256 * m + 4096 * kind)) (a.addr.setWidth 32)

/-! ### The mailbox -/

/-- Byte `o` of the mailbox (R380). -/
def mboxByte (s : State) (o : Nat) : Byte := Tab.get s.mtx.mailbox o 0

/-- Byte `o` of the mailbox is `b` (R380). -/
def mboxPut (s : State) (o : Nat) (b : Byte) : State :=
  { s with mtx := { s.mtx with mailbox := Tab.store s.mtx.mailbox o 0 b } }

/-- The byte a write holds for byte `o` of the mailbox; none where it does not write it. -/
def mboxLane (w : MboxWrite) (o : Nat) : Option Byte :=
  if o < w.offset then none else (w.lanes[o - w.offset]?).bind (fun x => x)

/-- The write writes a byte of word `i` (R380). -/
def mboxHits (w : MboxWrite) (i : Nat) : Bool := (rangeFrom (8 * i) 8).any (fun o => (mboxLane w o).isSome)

/-- Words of the mailbox that a write reaches, in address order (R380). -/
def mboxWords (w : MboxWrite) : List Nat :=
  (rangeFrom (w.offset / 8) (w.lanes.length / 8 + 2)).filter (fun i => decide (i < 8192) && mboxHits w i)

/-- The bytes that a write holds for word `i` are stored (R380). -/
def mboxStore (s : State) (w : MboxWrite) (i : Nat) : State :=
  (rangeFrom (8 * i) 8).foldl (fun s o => match mboxLane w o with
    | some b => mboxPut s o b
    | none => s) s

/-- The low 32 bits of word `i` (R382). -/
def mboxLow (s : State) (i : Nat) : Word := bytesWord ((rangeFrom (8 * i) 4).map (mboxByte s))

/-- The supervisor port has written word `i`: word 8,191 raises MBOX_SIGNAL (R382, R384). -/
def supSignal (s : State) (i : Nat) : State := if i = 8191 then raise s 0x704 0x31 (mboxLow s 8191) else s

/-- The host port has written word `i`: word 8,190 interrupts the supervisor (R382). -/
def hostSignal (s : State) (i : Nat) : State :=
  if i = 8190 then { s with mtx := { s.mtx with irq := s.mtx.irq + 1 } } else s

/-- The supervisor port writes (R380, R382). -/
def mboxSup (s : State) (w : MboxWrite) : State := (mboxWords w).foldl (fun s i => supSignal (mboxStore s w i) i) s

/-- Both ports have written word `i` in one cycle: recorded, counted, and MBOX_COLL at most once per second (R381, R384). -/
def mboxColl (s : State) (i : Nat) : State :=
  let s := count (wr s Reg.mtxMboxColl (w32 (i + 8192))) Reg.mtxMboxCollCnt 1
  raiseOnce s 0x704 0x30 0 0x30 (w32 i)

/-- The host port writes word `i` while the supervisor port writes `p`: where both write the word, the host's byte lanes win over
the supervisor's, and each side signals once, with the merged value (R381, R382). -/
def mboxBoth (s : State) (w p : MboxWrite) (i : Nat) : State :=
  if mboxHits p i then supSignal (hostSignal (mboxColl (mboxStore (mboxStore s p i) w i) i) i) i
  else hostSignal (mboxStore s w i) i

/-- MAILBOX_HOST_WRITE: a write to BAR4, word by word in address order; `sup` is a write of the supervisor port in the same cycle as
the host's write of its word (R380 to R382). -/
def execMailboxHostWrite (w : MboxWrite) (sup : Option MboxWrite) (s : State) : Out :=
  .next (
    if s.pwr.st = 0 then s
    else
      let p := sup.getD {}
      let s := (mboxWords w).foldl (fun s i => mboxBoth s w p i) s
      ((mboxWords p).filter (fun i => !mboxHits w i)).foldl (fun s i => supSignal (mboxStore s p i) i) s)

/-- MAILBOX_SUPERVISOR_WRITE: by the half that holds the leash or held it last; it waits behind another master's lock on the mailbox (R376, R381,
R382). -/
def execMailboxSupervisorWrite (w : MboxWrite) (s : State) : Out :=
  let m : Fin 7 := if holder s then 1 else 0
  .next (
    if s.pwr.st = 0 then s
    else if (lockOf s 5).getD m.val = m.val then mboxSup s w
    else { s with mtx := { s.mtx with waits := s.mtx.waits ++
      [{ acc := { master := m, write := true }, tgt := (5, w.offset), mbox := some w }] } })

/-! ### What the targets do -/

/-- Byte `o` of the map-memory window: as the window last wrote it; how map memory shows the maps there is open. -/
def mapWinByte (s : State) (o : Nat) : Byte := match Tab.find? s.mtx.mapWin o with
  | some b => b
  | none => freeByte s o

/-- The word of the register file at `off`, as a master of the matrix reads it (R372, R434). -/
def regFileWord (s : State) (off : Nat) : Word := if 0x3FF0000 ≤ off then msixWord s off else readReg s off

/-- Effect of a BAR0 read of the register at `off` (R290, R358, R364). -/
def readEffect (s : State) (off : Nat) : State :=
  let t :=
    if off = Reg.todNs then Out.or (execTodNsRead s) s
    else if off = Reg.pmSnapSeq then Out.or (execSnapSeqRead s) s
    else if 0x400100 ≤ off ∧ off < 0x401100 ∧ off % 16 = 4 then
      Out.or (execChainHiRead (Fin.ofNat 256 ((off - 0x400100) / 16)) s) s
    else s
  { t with out := s.out }

/-- The words that `n` bytes from `o` touch. -/
def touched (o n : Nat) : List Nat := (rangeFrom (o / 4) 4).filterMap (fun i => if 4 * i < o + n then some (4 * i) else none)

/-- `n` bytes of BAR0 from `o`, read by master `m`, word by word in ascending order: each word is read after the effect that its read has for the host,
so that an upper half shows what its lower half latched (R290, R440). -/
def readWords (s : State) (m o n : Nat) : State × List Byte :=
  (touched o n).foldl (fun r w =>
    let s := if m = 2 then readEffect r.1 w else r.1
    let v := if m = 2 then readBar0 s w else regFileWord s w
    (s, r.2 ++ ((rangeFrom o n).filter (fun a => a / 4 * 4 == w)).map (fun a => wordByte v (a % 4)))) (s, [])

/-- `n` bytes read from target `t` at offset `o`, 1 to 8, and the state after the read (R372, R379, R390). -/
def readBeat (s : State) (m t o n : Nat) : State × List Byte :=
  let l := rangeFrom o n
  match t with
  | 0 => (s, l.map (Config.imageByte 0))
  | 1 => (s, l.map (scratchByte s))
  | 2 => readWords s m o n
  | 3 => (freeBytesNext s, l.map (mapWinByte s))
  | 4 =>
    let s := claimAddr s o
    (readBad (freeBytesNext s) (badFrom s o n), l.map (hbmByte s))
  | 5 => (s, l.map (mboxByte s))
  | 6 => (freeBytesNext s, l.map (freeByte s))
  | _ => (s, l.map (fun _ => 0))

/-- The value written to the register at `off` by an access of `b` from `o` on: a byte that is not written keeps its fields. -/
def mergedWord (s : State) (r : RegRow) (off o : Nat) (b : List Byte) : Word :=
  let old := rd s off &&& ~~~ (accMask r .w1c ||| accMask r .wo)
  bytesWord ((List.range 4).map (fun i =>
    if off + i < o then wordByte old i else (b[off + i - o]?).getD (wordByte old i)))

/-- A master of the matrix other than the host writes a register: its fields take the value as BAR0 gives it to them, nothing is
counted as ignored, and a half sets its own remap bit (R372, R373, R383, R410). -/
def matrixRegWrite (s : State) (m off o : Nat) (b : List Byte) : State :=
  match regRow? off with
  | none => if 0x3FF0000 ≤ off then msixWrite s off (bytesWord (b.drop (off - o))) else s
  | some r =>
    let v := mergedWord s r off o b
    let t := match regDomain off with
      | none => unlocked s (fun s => regWrite s off v)
      | some d => if domainUp s d && s.pwr.st == 2 then unlocked s (fun s => regWrite s off v) else holdWrite s d off v
    let t := [Reg.hifIgnoredCnt, Reg.hifIgnoredLast, Reg.hifIgnoredAddr].foldl (fun t x => wr t x (rd s x)) t
    if off = Reg.mtxCtl ∧ m < 2 then bset t off m (bit v m) else t

/-- Bytes are written to target `t` from offset `o` on: 1 to 8, or the whole of a burst to map memory (R372, R378 to R380). -/
def writeBeat (s : State) (m t o : Nat) (b : List Byte) : State :=
  match t with
  | 1 => scratchPuts s o b
  | 2 =>
    if m = 2 then Out.or (execRegisterWrite o b.length (BitVec.ofNat 64 (leNat b)) s) s
    else (touched o b.length).foldl (fun s off => matrixRegWrite s m off o b) s
  | 3 => { s with mtx := { s.mtx with mapWin := (b.zipIdx).foldl (fun t p => Tab.put t (o + p.2) p.1) s.mtx.mapWin } }
  | 4 => hbmPuts (claimAddr s o) (fun i => o + i) b
  | 5 => mboxSup s { offset := o, lanes := b.map some }
  | 6 => wire s "pmbus-write" o b
  | _ => s

/-! ### Grants -/

/-- Bytes of beat `i` of a write, zeros where the data ends early. -/
def beatOf (a : Access) (i : Nat) : List Byte :=
  ((a.data.drop (beatSize a * i)) ++ List.replicate (beatSize a) 0).take (beatSize a)

/-- The first `n` beats of a write together. -/
def firstBeats (a : Access) (n : Nat) : List Byte := (List.range n).flatMap (beatOf a)

/-- One more beat of master `m`'s burst is accepted (R378). -/
def acceptBeat (s : State) (m : Nat) (b : Burst) : State × Burst :=
  let a := b.acc
  let d := b.tgt
  let o := d.2 + beatSize a * b.done
  if a.write then (if d.1 = 3 then s else writeBeat s m d.1 o (beatOf a b.done), { b with done := b.done + 1 })
  else
    let r := readBeat s m d.1 o (beatSize a)
    (r.1, { b with done := b.done + 1, got := b.got ++ r.2 })

/-- `n` more beats are accepted. -/
def acceptBeats (n : Nat) (s : State) (m : Nat) (b : Burst) : State × Burst := match n with
  | 0 => (s, b)
  | k + 1 =>
    let r := acceptBeat s m b
    acceptBeats k r.1 m r.2

/-- Every beat is accepted: what was staged for map memory is written in one cycle, a read is answered, and an unlocking write by
the holder releases the lock (R376, R378). -/
def endAccess (s : State) (m : Nat) (b : Burst) : State :=
  let a := b.acc
  let d := b.tgt
  let s := { s with mtx := { s.mtx with bursts := Tab.drop s.mtx.bursts m } }
  if a.write then
    let s := if d.1 = 3 then writeBeat s m 3 d.2 (firstBeats a a.beats) else s
    if a.unlock && lockOf s d.1 == some m then setLock s d.1 15 else s
  else wire s "matrix-read" m b.got

/-- A scratchpad access of one transfer that crosses an 8-byte boundary: two cycles, arbitrated separately (R379). -/
def rotated (a : Access) (t : Nat) : Bool := decide (a.beats ≤ 1) && t == 1 && decide (8 < a.addr.toNat % 8 + a.size)

/-- The bytes of one cycle of a rotated access, `i` of them passed over and `n` moved; what a read reads (R379). -/
def rotCycle (s : State) (w : MtxWait) (i n : Nat) : State × List Byte :=
  if w.acc.write then (scratchPuts s (w.tgt.2 + i) (((beatOf w.acc 0).drop i).take n), [])
  else (s, (readBeat s w.acc.master 1 (w.tgt.2 + i) n).2)

/-- The first cycle of a rotated access: its second waits for the port as an access of its own, until the master's next access comes where the access
says that it is still to come (R379). -/
def rotFirst (s : State) (w : MtxWait) : State :=
  let r := rotCycle s w 0 (firstPart w.acc)
  { r.1 with mtx := { r.1.mtx with waits := r.1.mtx.waits ++
    [{ w with rot := some r.2, hold := w.acc.accepted == 0, lock := false }] } }

/-- The second cycle of a rotated access, `got` read by the first, which ends it (R379). -/
def rotSecond (s : State) (w : MtxWait) (got : List Byte) : State :=
  let k := firstPart w.acc
  let r := rotCycle s w k (w.acc.size - k)
  endAccess r.1 w.acc.master { acc := w.acc, tgt := w.tgt, got := got ++ r.2 }

/-- Up to `n` more beats of the access are accepted; it ends, or goes on later (R378). -/
def runBurst (s : State) (m n : Nat) (b : Burst) : State :=
  let r := acceptBeats (min n (b.acc.beats - b.done)) s m b
  if r.2.done < b.acc.beats then { r.1 with mtx := { r.1.mtx with bursts := Tab.put r.1.mtx.bursts m r.2 } }
  else endAccess r.1 m r.2

/-- A burst keeps the port for its beats: those of master `m` and of port `t` that have not ended do so before another access is
served (R375). -/
def finishBursts (s : State) (m t : Nat) : State :=
  (s.mtx.bursts.filter (fun p => p.1 == m || p.2.tgt.1 == t)).foldl (fun s p => runBurst s p.1 16 p.2) s

/-- What an access does once its port serves it: a write of the mailbox's supervisor port, a cycle of a rotated access, or the beats that the
target accepts (R378 to R380). -/
def perform (s : State) (w : MtxWait) : State := match w.mbox, w.rot with
  | some x, _ => mboxSup s x
  | none, some got => rotSecond s w got
  | none, none =>
    if rotated w.acc w.tgt.1 then rotFirst s w else runBurst s w.acc.master w.acc.accepted { acc := w.acc, tgt := w.tgt }

/-- The port serves an access: it parks on the master, a locked read takes the lock, and the access is performed (R375, R376, R378). -/
def serve (s : State) (w : MtxWait) : State :=
  let m := w.acc.master.val
  let t := w.tgt.1
  let s := finishBursts s m t
  let s := { s with mtx := { s.mtx with served := Tab.put s.mtx.served t m, parked := Tab.put s.mtx.parked t m } }
  let s :=
    if w.lock && (lockOf s t).isNone then
      setLock { s with mtx := { s.mtx with lost := setDel s.mtx.lost (m + 8 * t) } } t m
    else s
  perform (if m = 6 then { s with mtx := { s.mtx with dbg := true } } else s) w

/-- Stack of HBM that an access needs and that does not answer: it is powered down or in self-refresh; with rail 4 lost it answers every read as uncorrectable (R19, R386, R397, R420). -/
def sleepingStack (s : State) (t o : Nat) : Option Nat :=
  let i := stackOf o
  if t = 4 ∧ s.hbm.rail4 ∧ (!domainUp s (18 + i) ∨ s.hbm.selfRef.getD i true ∨ s.pwr.st ≠ 2) then some i else none

/-- The port can serve the access: no other master holds a lock there, and the memory is awake (R376, R386). -/
def canServe (s : State) (w : MtxWait) : Bool :=
  let m := w.acc.master.val
  !w.hold && ((lockOf s w.tgt.1).getD m == m) && (sleepingStack s w.tgt.1 w.tgt.2).isNone

/-- Round-robin distance of the access's master from the one its port served last (R375). -/
def turn (s : State) (w : MtxWait) : Nat :=
  let m := w.acc.master.val
  (m + 6 - Tab.get s.mtx.served w.tgt.1 6) % 7

/-- The place in the queue of the waiting access that is granted next: of those that can be served, at the port with the lowest
number, the one whose turn comes first (R375). -/
def nextWait (s : State) : Option Nat :=
  ((s.mtx.waits.zipIdx).foldl (fun (best : Option (Nat × Nat)) p =>
    if !canServe s p.1 then best
    else
      let k := 7 * p.1.tgt.1 + turn s p.1
      match best with
      | some b => if k < b.1 then some (k, p.2) else best
      | none => some (k, p.2)) none).map (fun b => b.2)

/-- Waiting accesses that can be served now are granted (R375, R378). -/
def grantN (fuel : Nat) (s : State) : State := match fuel with
  | 0 => s
  | k + 1 => match nextWait s with
    | none => s
    | some i => match s.mtx.waits[i]? with
      | none => s
      | some w => grantN k (serve { s with mtx := { s.mtx with waits := s.mtx.waits.eraseIdx i } } w)

/-- Every waiting access that can be served now is granted, each cycle of a rotated one by itself (R375, R378, R379). -/
def grantWaits (s : State) : State := grantN (2 * s.mtx.waits.length) s

/-- The matrix takes the access: the control complex is powered, and the half that issues it is not held in reset (R18, R365). -/
def matrixOn (s : State) (a : Access) : Bool :=
  shaped a && s.pwr.st != 0 && !(a.master.val == 0 && halfState s false == 0) && !(a.master.val == 1 && halfState s true == 0)

/-- An access is answered with an error, is served, or waits; a stack it needs begins its wake (R374 to R377, R386). -/
def request (s : State) (w : MtxWait) : State :=
  if !matrixOn s w.acc then s
  else match errorKind s w with
    | some k => refuseAccess s w k
    | none =>
      if canServe s w then serve s w
      else
        let s := { s with mtx := { s.mtx with waits := s.mtx.waits ++ [w] } }
        match sleepingStack s w.tgt.1 w.tgt.2 with
        | some i => needDomain s (18 + i)
        | none => s

/-- Second cycles of rotated accesses that `p` picks are held back no longer (R379). -/
def release (s : State) (p : MtxWait → Bool) : State :=
  { s with mtx := { s.mtx with waits := s.mtx.waits.map (fun w => if p w then { w with hold := false } else w) } }

/-- A master issues an access, which decodes under the remap bit as it is: its own second cycle ends before it, and another's comes to the port with
it, behind it in round-robin order since its master was served last (R373, R375, R379). -/
def issue (s : State) (a : Access) (lock : Bool) : State :=
  let s := grantWaits (release s (fun w => w.acc.master == a.master))
  let s := release s (fun _ => true)
  grantWaits (request s { acc := a, lock := lock, tgt := targetOf s a.master a.addr.toNat })

/-- MATRIX_ACCESS: a master's access, in the order in which the ports take them (R372 to R379). -/
def execMatrixAccess (a : Access) (s : State) : Out := .next (issue s a false)

/-- LOCKED_READ: by master 0, 1 or 6, which alone lock (R376). -/
def execLockedRead (master : Fin 7) (addr : BitVec 64) (size : Nat) (s : State) : Out :=
  .next (
    if [0, 1, 6].contains master.val then
      issue s { master := master, addr := addr, size := size } true
    else s)

/-- LOCK_TIMEOUT: 256 cycles from the grant the lock is released and counted, LOCK_LOST is raised, and the port serves the masters
that wait (R377, R384). -/
def execLockTimeout (target : Fin 8) (s : State) : Out :=
  let t := target.val
  .next (match lockOf s t with
    | none => s
    | some m =>
      let s := count (setLock s t 15) Reg.mtxLockToCnt 1
      let s := { s with mtx := { s.mtx with lost := setIns s.mtx.lost (m + 8 * t) } }
      grantWaits (raise s 0x703 (w32 (0x21 + 256 * m + 4096 * t)) 0))

/-- DEBUG_SESSION_END: master 6 is reset (R378). -/
def execDebugSessionEnd (s : State) : Out :=
  .next (if s.mtx.dbg then grantWaits (resetMaster { s with mtx := { s.mtx with dbg := false } } 6) else s)

/-! ### Rows that release a port -/

/-- CLAIM_WINDOW_END: the window is decided, the loser's half enters RESET, and its locks go (R27, R178, R368, R369, R378). -/
def execClaimWindowEnd (s : State) : Out := .next (grantWaits (claimWindowEnd s))

/-- WARM_RESET_START: both halves and the fetch engine are reset (R25, R378, R423, R458). -/
def execWarmResetStart (s : State) : Out := .next (grantWaits (warmResetStart s))

/-- HOT_RESET: the configuration space and the MSI-X table are reset, and so is the host's master (R305, R378). -/
def execHotReset (s : State) : Out := .next (grantWaits (resetMaster (hotReset s) 2))

/-- EXTENSION_LOAD_DONE (R428). -/
def execExtensionLoadDone (ok : Bool) (s : State) : Out := .next (grantWaits (extensionLoadDone ok s))

/-- DOMAIN_WAKE_DONE: the domain accepts its work, and accesses to a stack that waited for it are served (R19, R36, R386, R409,
R410, R414). -/
def execDomainWakeDone (dom : Fin 22) (s : State) : Out := .next (stackRefresh (grantWaits (wakeDone s dom.val)))

end Sys2Proof.Machine
end

