-- ==== Sys2Proof/Machine/Dispatch.lean ====
section
/-! DEFINITION. One arm for every command: the meaning it calls. -/

namespace Sys2Proof.Machine

/-- The effect of a command on everything but the queue of waiting commands. -/
def exec (i : Instr) (s : State) : Host.Outcome State Fault Refusal :=
  match i with
  | .registerWrite off size v => Sys2Proof.Machine.execRegisterWrite off size v s
  | .glbModeWrite v => Sys2Proof.Machine.execGlbModeWrite v s
  | .modeSwitch => Sys2Proof.Machine.execModeSwitch s
  | .warmResetStart => Sys2Proof.Machine.execWarmResetStart s
  | .warmResetRise => Sys2Proof.Machine.execWarmResetRise s
  | .journalReplay damage => Sys2Proof.Machine.execJournalReplay damage s
  | .replayEnd => Sys2Proof.Machine.execReplayEnd s
  | .coldReset => Sys2Proof.Machine.execColdReset s
  | .coldResetRelease => Sys2Proof.Machine.execColdResetRelease s
  | .boardBlockLoaded bytes => Sys2Proof.Machine.execBoardBlockLoaded bytes s
  | .boardBlockRetry bytes => Sys2Proof.Machine.execBoardBlockRetry bytes s
  | .railGood n vout status => Sys2Proof.Machine.execRailGood n vout status s
  | .railRampTimeout n vout status => Sys2Proof.Machine.execRailRampTimeout n vout status s
  | .railRetry => Sys2Proof.Machine.execRailRetry s
  | .frameBoundary => Sys2Proof.Machine.execFrameBoundary s
  | .superframeBoundary => Sys2Proof.Machine.execSuperframeBoundary s
  | .tuMultiframeBoundary => Sys2Proof.Machine.execTuMultiframeBoundary s
  | .domainWakeDone dom => Sys2Proof.Machine.execDomainWakeDone dom s
  | .domainGateTimeout dom => Sys2Proof.Machine.execDomainGateTimeout dom s
  | .pwrReqStandby v => Sys2Proof.Machine.execPwrReqStandby v s
  | .pwrReqDormant v => Sys2Proof.Machine.execPwrReqDormant v s
  | .pwrReqWithdraw v => Sys2Proof.Machine.execPwrReqWithdraw v s
  | .powerStateChange => Sys2Proof.Machine.execPowerStateChange s
  | .wakePin => Sys2Proof.Machine.execWakePin s
  | .wakeTimerExpiry => Sys2Proof.Machine.execWakeTimerExpiry s
  | .laneCtlWrite lane v => Sys2Proof.Machine.execLaneCtlWrite lane v s
  | .laneCtlHeldRelease lane => Sys2Proof.Machine.execLaneCtlHeldRelease lane s
  | .lanePllLocked lane => Sys2Proof.Machine.execLanePllLocked lane s
  | .laneCalEnd lane fail eq us sig => Sys2Proof.Machine.execLaneCalEnd lane fail eq us sig s
  | .laneCdrLock lane => Sys2Proof.Machine.execLaneCdrLock lane s
  | .laneCdrUnlock lane sig => Sys2Proof.Machine.execLaneCdrUnlock lane sig s
  | .adaptConverged lane eq => Sys2Proof.Machine.execAdaptConverged lane eq s
  | .adaptLimit lane value eq => Sys2Proof.Machine.execAdaptLimit lane value eq s
  | .laneTempCheck lane => Sys2Proof.Machine.execLaneTempCheck lane s
  | .retrimEnd lane us => Sys2Proof.Machine.execRetrimEnd lane us s
  | .laneFofsMeasure lane ofs sig => Sys2Proof.Machine.execLaneFofsMeasure lane ofs sig s
  | .fofsOff lane => Sys2Proof.Machine.execFofsOff lane s
  | .groupPllUnlock group eth => Sys2Proof.Machine.execGroupPllUnlock group eth s
  | .pllRelockTimeout group eth => Sys2Proof.Machine.execPllRelockTimeout group eth s
  | .groupPllRelock group eth => Sys2Proof.Machine.execGroupPllRelock group eth s
  | .laneCalFull d => Sys2Proof.Machine.execLaneCalFull d s
  | .laneCalAdapt d => Sys2Proof.Machine.execLaneCalAdapt d s
  | .adaptBoostEnd lane us => Sys2Proof.Machine.execAdaptBoostEnd lane us s
  | .laneCalRetrim d => Sys2Proof.Machine.execLaneCalRetrim d s
  | .prbsErrInj lane v => Sys2Proof.Machine.execPrbsErrInj lane v s
  | .prbsLockChange lane balls => Sys2Proof.Machine.execPrbsLockChange lane balls s
  | .eyeScanStart lane v => Sys2Proof.Machine.execEyeScanStart lane v s
  | .eyeScanDone lane errs => Sys2Proof.Machine.execEyeScanDone lane errs s
  | .eyeSumRefresh lane height width => Sys2Proof.Machine.execEyeSumRefresh lane height width s
  | .laneFrmCtlWrite lane v => Sys2Proof.Machine.execLaneFrmCtlWrite lane v s
  | .b1Inj lane v => Sys2Proof.Machine.execB1Inj lane v s
  | .b2Inj lane v => Sys2Proof.Machine.execB2Inj lane v s
  | .framePatternMatch lane t => Sys2Proof.Machine.execFramePatternMatch lane t s
  | .laneFrameRx lane t bytes => Sys2Proof.Machine.execLaneFrameRx lane t bytes s
  | .lineDefectChange lane defect present => Sys2Proof.Machine.execLineDefectChange lane defect present s
  | .berStepEnd lane deg => Sys2Proof.Machine.execBerStepEnd lane deg s
  | .j0MessageRx lane => Sys2Proof.Machine.execJ0MessageRx lane s
  | .dccCtlWrite c v => Sys2Proof.Machine.execDccCtlWrite c v s
  | .ospCtlWrite p v => Sys2Proof.Machine.execOspCtlWrite p v s
  | .ospOwWrite idx v => Sys2Proof.Machine.execOspOwWrite idx v s
  | .ospFrame p di => Sys2Proof.Machine.execOspFrame p di s
  | .dccFrameRx c io => Sys2Proof.Machine.execDccFrameRx c io s
  | .dccTx d io => Sys2Proof.Machine.execDccTx d io s
  | .dccTxSent c => Sys2Proof.Machine.execDccTxSent c s
  | .dccRxBuf d => Sys2Proof.Machine.execDccRxBuf d s
  | .pmSecondClassify unit => Sys2Proof.Machine.execPmSecondClassify unit s
  | .pathCfg d io => Sys2Proof.Machine.execPathCfg d io s
  | .pointerRx path member b0 b1 => Sys2Proof.Machine.execPointerRx path member b0 b1 s
  | .lomChange path h4 => Sys2Proof.Machine.execLomChange path h4 s
  | .pohRx path data => Sys2Proof.Machine.execPohRx path data s
  | .pathSecondEval path => Sys2Proof.Machine.execPathSecondEval path s
  | .markerGroupRx path unit => Sys2Proof.Machine.execMarkerGroupRx path unit s
  | .demapMultiframe path bytes read => Sys2Proof.Machine.execDemapMultiframe path bytes read s
  | .leakRelease path => Sys2Proof.Machine.execLeakRelease path s
  | .pathStatus d io => Sys2Proof.Machine.execPathStatus d io s
  | .tribCtlWrite p v => Sys2Proof.Machine.execTribCtlWrite p v s
  | .tribFrmWrite p v => Sys2Proof.Machine.execTribFrmWrite p v s
  | .tribTrimDone p trim => Sys2Proof.Machine.execTribTrimDone p trim s
  | .tribLiuAdjust p what => Sys2Proof.Machine.execTribLiuAdjust p what s
  | .lossHigh p high => Sys2Proof.Machine.execLossHigh p high s
  | .tribTxFaultChange p fault => Sys2Proof.Machine.execTribTxFaultChange p fault s
  | .pdhFramePattern u pos t qual => Sys2Proof.Machine.execPdhFramePattern u pos t qual s
  | .mfaTimeout u => Sys2Proof.Machine.execMfaTimeout u s
  | .interworkTimeout u => Sys2Proof.Machine.execInterworkTimeout u s
  | .pdhFrameRx u f => Sys2Proof.Machine.execPdhFrameRx u f s
  | .pdhDefectChange u defect present => Sys2Proof.Machine.execPdhDefectChange u defect present s
  | .parityInjectArm v => Sys2Proof.Machine.execParityInjectArm v s
  | .fabricWordRead r => Sys2Proof.Machine.execFabricWordRead r s
  | .pairGateOff pair => Sys2Proof.Machine.execPairGateOff pair s
  | .pmonCtlWrite m slotReg v => Sys2Proof.Machine.execPmonCtlWrite m slotReg v s
  | .pmonLockChange m => Sys2Proof.Machine.execPmonLockChange m s
  | .latencyMeasure out ns => Sys2Proof.Machine.execLatencyMeasure out ns s
  | .mapEditDirect d io => Sys2Proof.Machine.execMapEditDirect d io s
  | .mapEditStage d io => Sys2Proof.Machine.execMapEditStage d io s
  | .termCfg d => Sys2Proof.Machine.execTermCfg d s
  | .termCfgStage d => Sys2Proof.Machine.execTermCfgStage d s
  | .termRelease d => Sys2Proof.Machine.execTermRelease d s
  | .ccCfg d => Sys2Proof.Machine.execCcCfg d s
  | .ccCfgStage d => Sys2Proof.Machine.execCcCfgStage d s
  | .ccRelease d => Sys2Proof.Machine.execCcRelease d s
  | .mapRead d io => Sys2Proof.Machine.execMapRead d io s
  | .gatherOpen d => Sys2Proof.Machine.execGatherOpen d s
  | .gatherCommit d => Sys2Proof.Machine.execGatherCommit d s
  | .gatherAbort d => Sys2Proof.Machine.execGatherAbort d s
  | .gatherValidationStart slot => Sys2Proof.Machine.execGatherValidationStart slot s
  | .gatherValidationEnd slot => Sys2Proof.Machine.execGatherValidationEnd slot s
  | .commitRecordHeld slot uncorr => Sys2Proof.Machine.execCommitRecordHeld slot uncorr s
  | .bridgeReady slot => Sys2Proof.Machine.execBridgeReady slot s
  | .gatherApply slot => Sys2Proof.Machine.execGatherApply slot s
  | .holdoffExpiry t copy => Sys2Proof.Machine.execHoldoffExpiry t copy s
  | .protectionDecision t => Sys2Proof.Machine.execProtectionDecision t s
  | .wtrExpiry t => Sys2Proof.Machine.execWtrExpiry t s
  | .selCfg d => Sys2Proof.Machine.execSelCfg d s
  | .selRemove d => Sys2Proof.Machine.execSelRemove d s
  | .selCmdClear d => Sys2Proof.Machine.execSelCmdClear d s
  | .selCmdLockout d => Sys2Proof.Machine.execSelCmdLockout d s
  | .selCmdFs d => Sys2Proof.Machine.execSelCmdFs d s
  | .selCmdFsW d => Sys2Proof.Machine.execSelCmdFsW d s
  | .selCmdMs d => Sys2Proof.Machine.execSelCmdMs d s
  | .selCmdMsW d => Sys2Proof.Machine.execSelCmdMsW d s
  | .selCmdExer d => Sys2Proof.Machine.execSelCmdExer d s
  | .selExerEnd key => Sys2Proof.Machine.execSelExerEnd key s
  | .apsExerEnd g => Sys2Proof.Machine.execApsExerEnd g s
  | .apsCfg d => Sys2Proof.Machine.execApsCfg d s
  | .apsRemove d => Sys2Proof.Machine.execApsRemove d s
  | .apsKAccept g => Sys2Proof.Machine.execApsKAccept g s
  | .fopArch g => Sys2Proof.Machine.execFopArch g s
  | .fopMode g => Sys2Proof.Machine.execFopMode g s
  | .fopNoresp g => Sys2Proof.Machine.execFopNoresp g s
  | .fopFlap g => Sys2Proof.Machine.execFopFlap g s
  | .selStatus d io => Sys2Proof.Machine.execSelStatus d io s
  | .mergeCfg d => Sys2Proof.Machine.execMergeCfg d s
  | .mergeOff d => Sys2Proof.Machine.execMergeOff d s
  | .mergeAlignReached key => Sys2Proof.Machine.execMergeAlignReached key s
  | .mergeWindowEnd key => Sys2Proof.Machine.execMergeWindowEnd key s
  | .mergeStatus d io => Sys2Proof.Machine.execMergeStatus d io s
  | .guardCfg d => Sys2Proof.Machine.execGuardCfg d s
  | .guardRemove d => Sys2Proof.Machine.execGuardRemove d s
  | .leivProbeRx lane => Sys2Proof.Machine.execLeivProbeRx lane s
  | .guardAsymClear g => Sys2Proof.Machine.execGuardAsymClear g s
  | .partnerLost g => Sys2Proof.Machine.execPartnerLost g s
  | .guardCompStepDue g => Sys2Proof.Machine.execGuardCompStepDue g s
  | .guardSlewUnit g => Sys2Proof.Machine.execGuardSlewUnit g s
  | .guardPulseHoldEnd g => Sys2Proof.Machine.execGuardPulseHoldEnd g s
  | .guardStatus d io => Sys2Proof.Machine.execGuardStatus d io s
  | .ethLinkChange lane block align hiBer localF remoteF deskew => Sys2Proof.Machine.execEthLinkChange lane block align hiBer localF remoteF deskew s
  | .ethFrameRx lane f io => Sys2Proof.Machine.execEthFrameRx lane f io s
  | .ethTx d io => Sys2Proof.Machine.execEthTx d io s
  | .ethTxSent lane => Sys2Proof.Machine.execEthTxSent lane s
  | .ethRxBuf d => Sys2Proof.Machine.execEthRxBuf d s
  | .ethCtlWrite lane v => Sys2Proof.Machine.execEthCtlWrite lane v s
  | .pwCfg d io => Sys2Proof.Machine.execPwCfg d io s
  | .pwRemove d => Sys2Proof.Machine.execPwRemove d s
  | .pwPacketTx n => Sys2Proof.Machine.execPwPacketTx n s
  | .pwPlayout n => Sys2Proof.Machine.execPwPlayout n s
  | .pwStatus d io => Sys2Proof.Machine.execPwStatus d io s
  | .refMeasure r ofs => Sys2Proof.Machine.execRefMeasure r ofs s
  | .refActivityLoss r => Sys2Proof.Machine.execRefActivityLoss r s
  | .refActivityRegain r => Sys2Proof.Machine.execRefActivityRegain r s
  | .refWtrExpiry r => Sys2Proof.Machine.execRefWtrExpiry r s
  | .dpllDecision d phase => Sys2Proof.Machine.execDpllDecision d phase s
  | .dpllLockReached d => Sys2Proof.Machine.execDpllLockReached d s
  | .lehrEnd d moved => Sys2Proof.Machine.execLehrEnd d moved s
  | .dpllHistorySample d freq => Sys2Proof.Machine.execDpllHistorySample d freq s
  | .oscinStop => Sys2Proof.Machine.execOscinStop s
  | .oscinReturn => Sys2Proof.Machine.execOscinReturn s
  | .timRefCfgWrite r v => Sys2Proof.Machine.execTimRefCfgWrite r v s
  | .dpllCtlWrite d reg v => Sys2Proof.Machine.execDpllCtlWrite d reg v s
  | .fpoutCtlWrite j v at_ => Sys2Proof.Machine.execFpoutCtlWrite j v at_ s
  | .fpoutReheel j at_ => Sys2Proof.Machine.execFpoutReheel j at_ s
  | .heelSourcePulse j dev => Sys2Proof.Machine.execHeelSourcePulse j dev s
  | .heelLost j => Sys2Proof.Machine.execHeelLost j s
  | .fpoutMoveEnd j => Sys2Proof.Machine.execFpoutMoveEnd j s
  | .clockPllUnlock pll stack locked => Sys2Proof.Machine.execClockPllUnlock pll stack locked s
  | .ppsTick => Sys2Proof.Machine.execPpsTick s
  | .timeWrap => Sys2Proof.Machine.execTimeWrap s
  | .todNsRead => Sys2Proof.Machine.execTodNsRead s
  | .timeSetSet d => Sys2Proof.Machine.execTimeSetSet d s
  | .timeSetStep d => Sys2Proof.Machine.execTimeSetStep d s
  | .timeSetRate d => Sys2Proof.Machine.execTimeSetRate d s
  | .timeSetOffset d => Sys2Proof.Machine.execTimeSetOffset d s
  | .timeSetReacquire d => Sys2Proof.Machine.execTimeSetReacquire d s
  | .timeSetApply => Sys2Proof.Machine.execTimeSetApply s
  | .servoSample => Sys2Proof.Machine.execServoSample s
  | .servoHoldoverTimeout => Sys2Proof.Machine.execServoHoldoverTimeout s
  | .todLockExpiry => Sys2Proof.Machine.execTodLockExpiry s
  | .doorbellProducer ring bytes w0 => Sys2Proof.Machine.execDoorbellProducer ring bytes w0 s
  | .doorbellConsumer ring bytes w0 => Sys2Proof.Machine.execDoorbellConsumer ring bytes w0 s
  | .resumeDoorbell w0 bytes w1 io => Sys2Proof.Machine.execResumeDoorbell w0 bytes w1 io s
  | .descriptorFetch ring words => Sys2Proof.Machine.execDescriptorFetch ring words s
  | .fetchError ring => Sys2Proof.Machine.execFetchError ring s
  | .ringEnable ring => Sys2Proof.Machine.execRingEnable ring s
  | .ringDisable ring => Sys2Proof.Machine.execRingDisable ring s
  | .ringDisableDone ring => Sys2Proof.Machine.execRingDisableDone ring s
  | .ringCfgWrite ring reg v => Sys2Proof.Machine.execRingCfgWrite ring reg v s
  | .nop d => Sys2Proof.Machine.execNop d s
  | .fence d => Sys2Proof.Machine.execFence d s
  | .abort d entry => Sys2Proof.Machine.execAbort d entry s
  | .busMasterEnable cfg io => Sys2Proof.Machine.execBusMasterEnable cfg io s
  | .hotReset => Sys2Proof.Machine.execHotReset s
  | .coalesceTimeout v => Sys2Proof.Machine.execCoalesceTimeout v s
  | .kennelTimeout slot => Sys2Proof.Machine.execKennelTimeout slot s
  | .bulkCheckpoint engine io => Sys2Proof.Machine.execBulkCheckpoint engine io s
  | .engineTake engine io => Sys2Proof.Machine.execEngineTake engine io s
  | .tlbInvalidate v => Sys2Proof.Machine.execTlbInvalidate v s
  | .tlbInvDone => Sys2Proof.Machine.execTlbInvDone s
  | .xlatConfigWrite reg v => Sys2Proof.Machine.execXlatConfigWrite reg v s
  | .heldRecordFlush => Sys2Proof.Machine.execHeldRecordFlush s
  | .evtRouteWrite n v => Sys2Proof.Machine.execEvtRouteWrite n v s
  | .evtCoalWrite v w => Sys2Proof.Machine.execEvtCoalWrite v w s
  | .evtTestFire v => Sys2Proof.Machine.execEvtTestFire v s
  | .pmhistWrite => Sys2Proof.Machine.execPmhistWrite s
  | .counterCarry off n => Sys2Proof.Machine.execCounterCarry off n s
  | .chainHiRead k => Sys2Proof.Machine.execChainHiRead k s
  | .chainHiWrite k v => Sys2Proof.Machine.execChainHiWrite k v s
  | .chainCfgWrite k v => Sys2Proof.Machine.execChainCfgWrite k v s
  | .snapSeqRead => Sys2Proof.Machine.execSnapSeqRead s
  | .pmDump d io => Sys2Proof.Machine.execPmDump d io s
  | .heartbeat half => Sys2Proof.Machine.execHeartbeat half s
  | .leashLapse => Sys2Proof.Machine.execLeashLapse s
  | .leashClaim half epoch => Sys2Proof.Machine.execLeashClaim half epoch s
  | .claimWindowEnd => Sys2Proof.Machine.execClaimWindowEnd s
  | .controlLost => Sys2Proof.Machine.execControlLost s
  | .plannedHandover v => Sys2Proof.Machine.execPlannedHandover v s
  | .leashRelease => Sys2Proof.Machine.execLeashRelease s
  | .handoverRecoveryDone => Sys2Proof.Machine.execHandoverRecoveryDone s
  | .halfBootDone half chk => Sys2Proof.Machine.execHalfBootDone half chk s
  | .bootFailTimeout => Sys2Proof.Machine.execBootFailTimeout s
  | .matrixAccess a => Sys2Proof.Machine.execMatrixAccess a s
  | .lockedRead master addr size => Sys2Proof.Machine.execLockedRead master addr size s
  | .lockTimeout target => Sys2Proof.Machine.execLockTimeout target s
  | .mailboxHostWrite w sup => Sys2Proof.Machine.execMailboxHostWrite w sup s
  | .mailboxSupervisorWrite w => Sys2Proof.Machine.execMailboxSupervisorWrite w s
  | .hbmRegionWrite r v => Sys2Proof.Machine.execHbmRegionWrite r v s
  | .resizeDone => Sys2Proof.Machine.execResizeDone s
  | .hbmReadCheck addr bad user => Sys2Proof.Machine.execHbmReadCheck addr bad user s
  | .rowRetire => Sys2Proof.Machine.execRowRetire s
  | .beagleLeaseStart kind => Sys2Proof.Machine.execBeagleLeaseStart kind s
  | .beagleUnitEnd kind badRows => Sys2Proof.Machine.execBeagleUnitEnd kind badRows s
  | .bglReqGo v => Sys2Proof.Machine.execBglReqGo v s
  | .leaseRevoke kind bad => Sys2Proof.Machine.execLeaseRevoke kind bad s
  | .leaseRestoreDone kind => Sys2Proof.Machine.execLeaseRestoreDone kind s
  | .selftest d => Sys2Proof.Machine.execSelftest d s
  | .selftestDone failed rows banks => Sys2Proof.Machine.execSelftestDone failed rows banks s
  | .captureRecord d => Sys2Proof.Machine.execCaptureRecord d s
  | .captureRecordDone => Sys2Proof.Machine.execCaptureRecordDone s
  | .captureRead d io => Sys2Proof.Machine.execCaptureRead d io s
  | .leaseQuery d io => Sys2Proof.Machine.execLeaseQuery d io s
  | .thermalSample temps => Sys2Proof.Machine.execThermalSample temps s
  | .avsReading ask => Sys2Proof.Machine.execAvsReading ask s
  | .vdiffCheck mv => Sys2Proof.Machine.execVdiffCheck mv s
  | .railOutOfRange n status => Sys2Proof.Machine.execRailOutOfRange n status s
  | .extensionLoadDone ok => Sys2Proof.Machine.execExtensionLoadDone ok s
  | .svnCommit v => Sys2Proof.Machine.execSvnCommit v s
  | .flashRead v => Sys2Proof.Machine.execFlashRead v s
  | .flashProgram v => Sys2Proof.Machine.execFlashProgram v s
  | .flashErase v => Sys2Proof.Machine.execFlashErase v s
  | .flashCmdDone page => Sys2Proof.Machine.execFlashCmdDone page s
  | .fopFlapClear g => Sys2Proof.Machine.execFopFlapClear g s
  | .busMasterDisable d3 => Sys2Proof.Machine.execBusMasterDisable d3 s
  | .pcieLinkUp => Sys2Proof.Machine.execPcieLinkUp s
  | .debugSessionEnd => Sys2Proof.Machine.execDebugSessionEnd s
  | .vddAonDetector inRange => Sys2Proof.Machine.execVddAonDetector inRange s
  | .msixVectorUnmask v => Sys2Proof.Machine.execMsixVectorUnmask v s

end Sys2Proof.Machine
end

