-- ==== Sys2Proof/Machine/Step.lean ====
section
/-! DEFINITION. One step of the block: the command at the front of the queue runs; with no command waiting the time counter goes on
by one tick. -/

namespace Sys2Proof.Machine

/-- One step: the front command runs with the queue's rest; on an empty queue one tick of the DPLL-T timebase passes (DESIGN CHOICE,
log entry 1; R286). -/
def step (s : State) : Host.Outcome State Fault Refusal := match s.pending with
  | c :: r => exec c { s with pending := r }
  | [] => .next (idleTick s)

/-- The state with the command that a word spells at the front of its queue; the table gives no row any bits, so no word spells one and
the state is unchanged. -/
def State.withFetchWord (s : State) (nbits w : Nat) : State := match decodeTableWord nbits w with
  | some c => { s with pending := c :: s.pending }
  | none => s

end Sys2Proof.Machine
end

