-- ==== Sys2Proof/WellFormed.lean ====
section
/-! DEFINITION. Which commands are well formed: operands that the type admits and the block's ports cannot carry are refused
here. -/

namespace Sys2Proof

/-- An access of 1 to 8 bytes (R304, R372). -/
def oneToEight (n : Nat) : Bool := decide (1 ≤ n) && decide (n ≤ 8)

/-- A single transfer of 1 to 8 bytes or a burst of 2 to 16 beats of 8, with the data of a write, no more beats accepted than it has
(R372, R378). -/
def accessOk (a : Access) : Bool :=
  oneToEight a.size && decide (1 ≤ a.beats) && decide (a.beats ≤ 16) && (a.beats == 1 || a.size == 8) &&
    decide (a.accepted ≤ a.beats) && (!a.write || a.data.length == a.size * a.beats)

/-- A write within the 64 KiB of the mailbox (R380). -/
def mboxOk (w : MboxWrite) : Bool := decide (w.offset + w.lanes.length ≤ 65536)

/-- A write within one word of the mailbox (R380, R381). -/
def mboxWord (w : MboxWrite) : Bool := mboxOk w && decide (w.offset % 8 + w.lanes.length ≤ 8)

/-- A selector's key: tier times 131,072 plus its number (R184). -/
def keyOk (key : Nat) : Bool := decide (key < 3 * 131072)

/-- The command is one that the block's ports can carry. -/
def wellFormed : Instr → Bool
  | .registerWrite off size _ => decide (off < 2 ^ 26) && oneToEight size
  | .glbModeWrite _ => true
  | .modeSwitch => true
  | .warmResetStart => true
  | .warmResetRise => true
  | .journalReplay _ => true
  | .replayEnd => true
  | .coldReset => true
  | .coldResetRelease => true
  | .boardBlockLoaded bytes => bytes.length == 68
  | .boardBlockRetry bytes => bytes.length == 68
  | .railGood _ _ _ => true
  | .railRampTimeout _ _ _ => true
  | .railRetry => true
  | .frameBoundary => true
  | .superframeBoundary => true
  | .tuMultiframeBoundary => true
  | .domainWakeDone _ => true
  | .domainGateTimeout _ => true
  | .pwrReqStandby _ => true
  | .pwrReqDormant _ => true
  | .pwrReqWithdraw _ => true
  | .powerStateChange => true
  | .wakePin => true
  | .wakeTimerExpiry => true
  | .laneCtlWrite _ _ => true
  | .laneCtlHeldRelease _ => true
  | .lanePllLocked _ => true
  | .laneCalEnd _ _ _ _ _ => true
  | .laneCdrLock _ => true
  | .laneCdrUnlock _ _ => true
  | .adaptConverged _ _ => true
  | .adaptLimit _ _ _ => true
  | .laneTempCheck _ => true
  | .retrimEnd _ _ => true
  | .laneFofsMeasure _ _ _ => true
  | .fofsOff _ => true
  | .groupPllUnlock _ _ => true
  | .pllRelockTimeout _ _ => true
  | .groupPllRelock _ _ => true
  | .laneCalFull _ => true
  | .laneCalAdapt _ => true
  | .adaptBoostEnd _ _ => true
  | .laneCalRetrim _ => true
  | .prbsErrInj _ _ => true
  | .prbsLockChange _ _ => true
  | .eyeScanStart _ _ => true
  | .eyeScanDone _ _ => true
  | .eyeSumRefresh _ _ _ => true
  | .laneFrmCtlWrite _ _ => true
  | .b1Inj _ _ => true
  | .b2Inj _ _ => true
  | .framePatternMatch _ _ => true
  | .laneFrameRx _ _ _ => true
  | .lineDefectChange _ _ _ => true
  | .berStepEnd _ _ => true
  | .j0MessageRx _ => true
  | .dccCtlWrite _ _ => true
  | .ospCtlWrite _ _ => true
  | .ospOwWrite _ _ => true
  | .ospFrame _ _ => true
  | .dccFrameRx _ _ => true
  | .dccTx _ _ => true
  | .dccTxSent _ => true
  | .dccRxBuf _ => true
  | .pmSecondClassify _ => true
  | .pathCfg _ _ => true
  | .pointerRx _ _ _ _ => true
  | .lomChange _ _ => true
  | .pohRx _ _ => true
  | .pathSecondEval _ => true
  | .markerGroupRx _ _ => true
  | .demapMultiframe _ _ _ => true
  | .leakRelease _ => true
  | .pathStatus _ _ => true
  | .tribCtlWrite _ _ => true
  | .tribFrmWrite _ _ => true
  | .tribTrimDone _ _ => true
  | .tribLiuAdjust _ _ => true
  | .lossHigh _ _ => true
  | .tribTxFaultChange _ _ => true
  | .pdhFramePattern _ _ _ _ => true
  | .mfaTimeout _ => true
  | .interworkTimeout _ => true
  | .pdhFrameRx _ _ => true
  | .pdhDefectChange _ _ _ => true
  | .parityInjectArm _ => true
  | .fabricWordRead _ => true
  | .pairGateOff _ => true
  | .pmonCtlWrite _ _ _ => true
  | .pmonLockChange _ => true
  | .latencyMeasure _ _ => true
  | .mapEditDirect _ _ => true
  | .mapEditStage _ _ => true
  | .termCfg _ => true
  | .termCfgStage _ => true
  | .termRelease _ => true
  | .ccCfg _ => true
  | .ccCfgStage _ => true
  | .ccRelease _ => true
  | .mapRead _ _ => true
  | .gatherOpen _ => true
  | .gatherCommit _ => true
  | .gatherAbort _ => true
  | .gatherValidationStart _ => true
  | .gatherValidationEnd _ => true
  | .commitRecordHeld _ _ => true
  | .bridgeReady _ => true
  | .gatherApply _ => true
  | .holdoffExpiry _ _ => true
  | .protectionDecision _ => true
  | .wtrExpiry _ => true
  | .selCfg _ => true
  | .selRemove _ => true
  | .selCmdClear _ => true
  | .selCmdLockout _ => true
  | .selCmdFs _ => true
  | .selCmdFsW _ => true
  | .selCmdMs _ => true
  | .selCmdMsW _ => true
  | .selCmdExer _ => true
  | .selExerEnd key => keyOk key
  | .apsExerEnd _ => true
  | .apsCfg _ => true
  | .apsRemove _ => true
  | .apsKAccept _ => true
  | .fopArch _ => true
  | .fopMode _ => true
  | .fopNoresp _ => true
  | .fopFlap _ => true
  | .selStatus _ _ => true
  | .mergeCfg _ => true
  | .mergeOff _ => true
  | .mergeAlignReached key => keyOk key
  | .mergeWindowEnd key => keyOk key
  | .mergeStatus _ _ => true
  | .guardCfg _ => true
  | .guardRemove _ => true
  | .leivProbeRx _ => true
  | .guardAsymClear _ => true
  | .partnerLost _ => true
  | .guardCompStepDue _ => true
  | .guardSlewUnit _ => true
  | .guardPulseHoldEnd _ => true
  | .guardStatus _ _ => true
  | .ethLinkChange _ _ _ _ _ _ _ => true
  | .ethFrameRx _ _ _ => true
  | .ethTx _ _ => true
  | .ethTxSent _ => true
  | .ethRxBuf _ => true
  | .ethCtlWrite _ _ => true
  | .pwCfg _ _ => true
  | .pwRemove _ => true
  | .pwPacketTx _ => true
  | .pwPlayout _ => true
  | .pwStatus _ _ => true
  | .refMeasure _ _ => true
  | .refActivityLoss _ => true
  | .refActivityRegain _ => true
  | .refWtrExpiry _ => true
  | .dpllDecision _ _ => true
  | .dpllLockReached _ => true
  | .lehrEnd _ _ => true
  | .dpllHistorySample _ _ => true
  | .oscinStop => true
  | .oscinReturn => true
  | .timRefCfgWrite _ _ => true
  | .dpllCtlWrite _ _ _ => true
  | .fpoutCtlWrite _ _ _ => true
  | .fpoutReheel _ _ => true
  | .heelSourcePulse _ _ => true
  | .heelLost _ => true
  | .fpoutMoveEnd _ => true
  | .clockPllUnlock _ _ _ => true
  | .ppsTick => true
  | .timeWrap => true
  | .todNsRead => true
  | .timeSetSet _ => true
  | .timeSetStep _ => true
  | .timeSetRate _ => true
  | .timeSetOffset _ => true
  | .timeSetReacquire _ => true
  | .timeSetApply => true
  | .servoSample => true
  | .servoHoldoverTimeout => true
  | .todLockExpiry => true
  | .doorbellProducer _ _ _ => true
  | .doorbellConsumer _ _ _ => true
  | .resumeDoorbell _ _ _ _ => true
  | .descriptorFetch _ words => words.length == 16
  | .fetchError _ => true
  | .ringEnable _ => true
  | .ringDisable _ => true
  | .ringDisableDone _ => true
  | .ringCfgWrite _ _ _ => true
  | .nop _ => true
  | .fence _ => true
  | .abort _ entry => entry.isEmpty || entry.length == 16
  | .busMasterEnable _ _ => true
  | .hotReset => true
  | .coalesceTimeout _ => true
  | .kennelTimeout _ => true
  | .bulkCheckpoint _ _ => true
  | .engineTake _ _ => true
  | .tlbInvalidate _ => true
  | .tlbInvDone => true
  | .xlatConfigWrite _ _ => true
  | .heldRecordFlush => true
  | .evtRouteWrite _ _ => true
  | .evtCoalWrite _ _ => true
  | .evtTestFire _ => true
  | .pmhistWrite => true
  | .counterCarry off _ => off % 4 == 0 && decide (off < 2 ^ 26)
  | .chainHiRead _ => true
  | .chainHiWrite _ _ => true
  | .chainCfgWrite _ _ => true
  | .snapSeqRead => true
  | .pmDump _ _ => true
  | .heartbeat _ => true
  | .leashLapse => true
  | .leashClaim _ _ => true
  | .claimWindowEnd => true
  | .controlLost => true
  | .plannedHandover _ => true
  | .leashRelease => true
  | .handoverRecoveryDone => true
  | .halfBootDone _ chk => chk.slot0.manifest.length == 400 && chk.slot1.manifest.length == 400
  | .bootFailTimeout => true
  | .matrixAccess a => accessOk a
  | .lockedRead _ _ size => oneToEight size
  | .lockTimeout _ => true
  | .mailboxHostWrite w sup => mboxOk w && (sup.all mboxWord)
  | .mailboxSupervisorWrite w => mboxWord w
  | .hbmRegionWrite _ _ => true
  | .resizeDone => true
  | .hbmReadCheck addr _ _ => decide (addr.toNat < 144 * 2 ^ 30)
  | .rowRetire => true
  | .beagleLeaseStart _ => true
  | .beagleUnitEnd _ _ => true
  | .bglReqGo _ => true
  | .leaseRevoke _ _ => true
  | .leaseRestoreDone _ => true
  | .selftest _ => true
  | .selftestDone _ rows banks => rows.all (fun r => decide (r < 144 * 2 ^ 20)) && banks.all (fun b => decide (b < 64))
  | .captureRecord _ => true
  | .captureRecordDone => true
  | .captureRead _ _ => true
  | .leaseQuery _ _ => true
  | .thermalSample temps => temps.length == 16
  | .avsReading _ => true
  | .vdiffCheck _ => true
  | .railOutOfRange _ _ => true
  | .extensionLoadDone _ => true
  | .svnCommit _ => true
  | .flashRead _ => true
  | .flashProgram _ => true
  | .flashErase _ => true
  | .flashCmdDone page => page.length == 256
  | .fopFlapClear _ => true
  | .busMasterDisable _ => true
  | .pcieLinkUp => true
  | .debugSessionEnd => true
  | .vddAonDetector _ => true
  | .msixVectorUnmask _ => true

end Sys2Proof
end

