-- ==== Sys2Proof/Safety.lean ====
section
/-! DEFINITION. The terms that statements about the block use: when a step is safe, when the host's writes act, and what form the
memories keep. -/

namespace Sys2Proof.Machine

/-- A step from `s` ends in a next state. -/
def Runs (s : State) : Prop := ∃ t, step s = .next t

/-- A BAR0 write to a register of domain `dom` acts now: outside REPLAY, with the domain powered in ACTIVE and no lock on the register file
(R26, R376, R410). -/
abbrev hostReady (s : State) (dom : Nat) : Prop :=
  replay s = false ∧ domainUp s dom = true ∧ s.pwr.st = 2 ∧ regLocked s = false

/-- None of the rules R29 to R31, R34 and R168 refuses a LANE_CTL write `v` of lane `n`. -/
abbrev ctlAdmitted (s : State) (n : Nat) (v : Word) : Prop :=
  ctlBad v = false ∧ quadMember s n = false ∧ quadRefuses s n v = false ∧ settingRefuses s n v = false ∧
    guardRefuses s n v = false ∧ gatherBlocksLane s n (modeCapacity (ctlMode v)) = false

/-- A table has no entry that says what an unlisted number already holds. -/
def noDefaults {α : Type} [DecidableEq α] (t : Tab α) (d : Nat → α) : Bool := t.all (fun p => decide (p.2 ≠ d p.1))

/-- The memories are in canonical form: numbers strictly rising, no entry that an unlisted one would equal; a scratchpad entry may
hold 0 where a firmware load lies under it. -/
def memWf (s : State) : Bool :=
  Tab.wf s.hbm.mem && noDefaults s.hbm.mem (fun _ => 0) && Tab.wf s.mtx.mailbox &&
    noDefaults s.mtx.mailbox (fun _ => 0) && Tab.wf s.mtx.mapWin && Tab.wf s.mtx.scratch &&
    s.mtx.scratch.all (fun p => decide (p.2 ≠ 0) || (loadAt s.mtx.fw p.1).isSome)

/-- The commands that may change the bytes of buffer memory, mailbox, scratchpad or map-memory window: accesses to them, and what
moves, leases, loads or loses them. -/
def writesMemory (c : Instr) : Bool := match c with
  | .registerWrite _ _ _ | .warmResetStart | .coldReset | .frameBoundary | .tuMultiframeBoundary | .domainWakeDone _
  | .powerStateChange | .hotReset | .claimWindowEnd | .halfBootDone _ _ | .matrixAccess _ | .lockedRead _ _ _
  | .lockTimeout _ | .mailboxHostWrite _ _ | .mailboxSupervisorWrite _ | .resizeDone | .beagleLeaseStart _
  | .beagleUnitEnd _ _ | .leaseRestoreDone _ | .selftest _ | .captureRead _ _ | .thermalSample _
  | .railOutOfRange _ _ | .extensionLoadDone _ | .debugSessionEnd | .vddAonDetector _ => true
  | _ => false

end Sys2Proof.Machine
end

