-- ==== Sys2Proof/Certificates/Slice0/Obligations.lean ====
section
/-! DEFINITION. The statements about the block for the provers. -/

open Sys2Proof Sys2Proof.Machine

/-- REGISTER_WRITE, GLB_MODE_WRITE, MODE_SWITCH, HOT_RESET, COLD_RESET, COLD_RESET_RELEASE, WARM_RESET_START,
WARM_RESET_RISE, JOURNAL_REPLAY, REPLAY_END, HANDOVER_RECOVERY_DONE (R21 to R27, R178, R304, R423, R458). -/
def Obligations.ModesResetsAndRegisterWritesAct : Prop :=
  (∀ (off : Nat) (v : BitVec 64) (s : State), hostDeaf s = false → regLocked s = false → off % 4 = 0 →
    exec (.registerWrite off 4 v) s = .next (wordWrite s off (v.extractLsb' 0 32))) ∧
  (∀ (off : Nat) (v : BitVec 64) (s : State), hostDeaf s = false → regLocked s = false → off % 8 = 0 →
    exec (.registerWrite off 8 v) s =
    .next (wordWrite (wordWrite s off (v.extractLsb' 0 32)) (off + 4) (v.extractLsb' 32 32))) ∧
  (∀ (v : Word) (s : State), hostDeaf s = false → regLocked s = false → replay s = false → modePending s = false → pwrPending s = false →
    fld v 1 0 ≠ mode s →
    modeAllowed (mode s) (fld v 1 0) = true → exec (.glbModeWrite v) s =
      .next { bset (fset s Reg.glbStatus 1 0 (fld v 1 0)) Reg.glbStatus 2 true with
        glb := { s.glb with modeGo := true }, rng := { s.rng with stopped := true } }) ∧
  (∀ (s : State), s.glb.modeGo = true → allEnded s = true → exec .modeSwitch s =
    .next { bset (fset s Reg.glbMode 1 0 (fget s Reg.glbStatus 1 0)) Reg.glbStatus 2 false with
      glb := { s.glb with modeGo := false }, rng := { s.rng with stopped := false } }) ∧
  (∀ (s : State), exec .hotReset s = .next (grantWaits (resetMaster (hotReset s) 2))) ∧
  (∀ (s : State), exec .coldReset s = .next { State.reset with
    pending := s.pending
    out := (railsOff s [5, 4, 3, 2, 1, 0]).out
    glb := { State.reset.glb with free := s.glb.free }
    pwr := { State.reset.pwr with minSvn := s.pwr.minSvn, rstLow := true, aonOk := s.pwr.aonOk } }) ∧
  (∀ (s : State), exec .coldResetRelease s = .next { s with pwr := { s.pwr with rstLow := false } }) ∧
  (∀ (s t : State), s.pwr.rstLow = false → s.pwr.aonOk = true → s.pwr.st ≠ 0 → t = warmResetStart s →
    exec .warmResetStart s = .next (grantWaits t)) ∧
  (∀ (s : State), s.pwr.warmLow = true → exec .warmResetRise s =
    .next (setHalf (setHalf { s with pwr := { s.pwr with warmLow := false } } false 1) true 1)) ∧
  (∀ (dmg : List JrnDamage) (s t u : State), replay s = true → s.mtx.held = true → s.pwr.warmLow = false →
    t = dmg.foldl markDamage (editGth s (fun x => { x with replayed := true })) →
    u = (lostSlots t).foldl voidCommit (((List.range t.gth.jrn.length).filter (fun k =>
      !(t.gth.jrn.getD k {}).main || (t.gth.jrn.getD k {}).badA || (t.gth.jrn.getD k {}).badB)).foldl checkRecord t) →
    exec (.journalReplay dmg) s = .next (((List.range 16).filter (fun i =>
      ((u.gth.slots.filter (fun p => p.2.st == 1 || p.2.st == 2)).map (fun p => p.1)).contains i ||
        (lostSlots t).contains i)).foldl discardGather u)) ∧
  (∀ (s t u : State), replay s = true → s.mtx.held = true → s.pwr.warmLow = false →
    s.gth.replayed = true → t = bset (bset { s with xlat := { s.xlat with tlb := [], inv := none } } Reg.hifXlatStatus 0 false) Reg.glbStatus 3 false →
    u = flushEvents (endStopped (flushCpl { t with rng := { t.rng with stopped := false } })) →
    exec .replayEnd s = .next (if u.rng.bme then actResumes (actDoorbells u) {} else u)) ∧
  (∀ (s : State), s.mtx.recover = true → s.mtx.held = true → replay s = false → exec .handoverRecoveryDone s =
    .next (endStopped (flushCpl { s with mtx := { s.mtx with recover := false } })))

/-- LANE_CTL_WRITE, LANE_CTL_HELD_RELEASE, PRBS_ERR_INJ, EYE_SCAN_START (R34, R43, R46 to R48). PRBS_LOCK_CHANGE, EYE_SCAN_DONE, EYE_SUM_REFRESH (R46, R47). -/
def Obligations.LaneWritesTakeEffect : Prop :=
  (∀ (lane : LaneId) (v : Word) (s : State), hostReady s (laneGroup lane) → ctlBusy s lane v = false →
    ctlAdmitted s lane v → quadTakes s lane v = false → exec (.laneCtlWrite lane v) s = .next (acceptCtl s lane v)) ∧
  (∀ (lane : LaneId) (v : Word) (s : State), hostReady s (laneGroup lane) → ctlBusy s lane v = true →
    (laneCtl s lane ^^^ v) &&& 0x41F ≠ 0 →
    exec (.laneCtlWrite lane v) s = .next (editLane s lane (fun l => { l with heldCtl := some (v &&& 0xFFF) }))) ∧
  (∀ (lane : LaneId) (v : Word) (s t : State), (laneSt s lane).heldCtl = some v → ctlBusy s lane v = false →
    t = editLane s lane (fun l => { l with heldCtl := none }) → ctlAdmitted t lane v →
    quadTakes t lane v = false →
    exec (.laneCtlHeldRelease lane) s = .next (acceptCtl t lane v)) ∧
  (∀ (lane : LaneId) (v : Word) (s : State), hostReady s (laneGroup lane) → mode s < 2 → laneLive s lane = false →
    fld v 2 0 ≠ 7 → fld v 5 3 ≠ 7 → bit v 7 = false → bit v 6 = true → bit v 9 = true →
    exec (.prbsErrInj lane v) s =
      .next (editLane (wr s (Reg.lanePrbs lane) (setBit (v &&& 0xFF) 8 false)) lane (fun l => { l with
        chk := {}
        gen := if bget s (Reg.lanePrbs lane) 6 && fget s (Reg.lanePrbs lane) 2 0 == fld v 2 0 then l.gen else {}
        errInj := true }))) ∧
  (∀ (lane : LaneId) (v : Word) (s : State), hostReady s (laneGroup lane) → (laneSt s lane).eyeRun = false →
    bit v 31 = true → 10 ≤ fld v 19 14 → fld v 19 14 ≤ 40 →
    oversampled (laneMode (wr s (Reg.laneEyeCtl lane) (v &&& 0xFFFFF)) lane) = false →
    laneState (wr s (Reg.laneEyeCtl lane) (v &&& 0xFFFFF)) lane = 4 →
    exec (.eyeScanStart lane v) s = .next
      (let s := wr s (Reg.laneEyeCtl lane) (v &&& 0xFFFFF)
       editLane (wr s (Reg.laneEyeRes lane) (setFld (rd s (Reg.laneEyeRes lane)) 2 0 0)) lane
         (fun l => { l with eyeRun := true, eyePaused := retrimBusy s lane }))) ∧
  (∀ (lane : LaneId) (balls : List Byte) (s : State) (r : CheckSum), bget s (Reg.lanePrbs lane) 7 = true →
    r = checkBits (fget s (Reg.lanePrbs lane) 5 3) (userPattern s lane) (laneSt s lane).chk
      (bget s (Reg.lanePrbs lane) 8) (bytesBits (sampled s lane balls)) →
    exec (.prbsLockChange lane balls) s = .next
      (let t := (laneSt s lane).prbsFrac + r.bits
       let s := count (count s (Reg.lanePrbsErr lane) (r.errs % 2 ^ 32)) (Reg.lanePrbsBits lane) (t / 1024 % 2 ^ 32)
       bset (editLane s lane (fun l => { l with prbsFrac := t % 1024, chk := r.x })) (Reg.lanePrbs lane) 8 r.lock)) ∧
  (∀ (lane : LaneId) (errs : Nat) (s : State), (laneSt s lane).eyeRun = true → (laneSt s lane).eyePaused = false →
    exec (.eyeScanDone lane errs) s = .next
      (editLane (wr s (Reg.laneEyeRes lane)
        (setFld (setBit (rd s (Reg.laneEyeRes lane)) 0 true) 31 8 (min errs 0xFFFFFF))) lane
        (fun l => { l with eyeRun := false }))) ∧
  (∀ (lane : LaneId) (height : BitVec 8) (width : BitVec 7) (s : State), laneEn s lane = true →
    exec (.eyeSumRefresh lane height width) s = .next (wr s (Reg.laneEyeSum lane)
      (if oversampled (laneMode s lane) then 0 else w32 (height.toNat + 256 * width.toNat))))

/-- LANE_PLL_LOCKED, LANE_CAL_END, LANE_CDR_LOCK, LANE_CDR_UNLOCK, ADAPT_CONVERGED (R36, R43, R48, R49). GROUP_PLL_UNLOCK,
PLL_RELOCK_TIMEOUT, GROUP_PLL_RELOCK (R41). -/
def Obligations.LaneStartUpFollowsItsStates : Prop :=
  (∀ (lane : LaneId) (s t : State), laneState s lane = 1 → laneEn s lane = true →
    pllLost s (laneGroup lane) (ethMode (laneMode s lane)) = false → (laneSt s lane).back = false →
    t = showLocks (bset s (gpll (laneGroup lane)) (if ethMode (laneMode s lane) then 3 else 1) true) (laneGroup lane) →
    exec (.lanePllLocked lane) s = .next (if retrimBusy t lane then
      setLaneState (editLane t lane (fun l => { l with calDue := true })) lane 2 else beginCal t lane none)) ∧
  (∀ (lane : LaneId) (eq us : Word) (sig : Bool) (s t u v : State), calBusy s lane = true →
    t = editGroup (fset (setLaneBit (setLaneBit s lane 7 false) lane 3 sig) (Reg.laneStatus lane) 23 16 0) (laneGroup lane)
      (fun x => { x with retrimWait := x.retrimWait.filter (fun p => p.1 != lane.val || p.2.isSome) }) →
    u = laneEvent (editLane (setLaneState (setEq (fset t (Reg.laneStatus lane) 31 24 (laneTemp t lane)) lane eq) lane 3)
      lane (fun l => { l with calRun := none, txIdle := false })) lane 1 us →
    v = (match (laneSt s lane).calRun with | some d => completeOk u d (calResult u lane) us | none => u) →
    exec (.laneCalEnd lane none eq us sig) s =
      .next (if (groupSt v (laneGroup lane)).retrimRun.isNone then serveRetrim v (laneGroup lane) else v)) ∧
  (∀ (lane : LaneId) (i : Fin 5) (eq us : Word) (sig : Bool) (s t u v : State), calBusy s lane = true →
    t = editGroup (fset (setLaneBit (setLaneBit s lane 7 false) lane 3 sig) (Reg.laneStatus lane) 23 16 0) (laneGroup lane)
      (fun x => { x with retrimWait := x.retrimWait.filter (fun p => p.1 != lane.val || p.2.isSome) }) →
    u = laneEvent (editLane (setLaneState t lane 5) lane (fun l => { l with calRun := none, txIdle := true })) lane 2
      (w32 i.val) →
    v = (match (laneSt s lane).calRun with | some d => completeOk u d (calResult u lane) us | none => u) →
    exec (.laneCalEnd lane (some i) eq us sig) s =
      .next (if (groupSt v (laneGroup lane)).retrimRun.isNone then serveRetrim v (laneGroup lane) else v)) ∧
  (∀ (lane : LaneId) (s : State), laneState s lane = 3 →
    exec (.laneCdrLock lane) s = .next (laneEvent
      (setLaneBit (setLaneBit (setLaneBit (setLaneState s lane 4) lane 3 true) lane 4 true) lane 5 false) lane 4 0)) ∧
  (∀ (lane : LaneId) (sig : Bool) (s : State), laneState s lane = 4 → exec (.laneCdrUnlock lane sig) s =
    .next (laneEvent (setLaneBit (setLaneBit (setLaneState s lane 3) lane 4 false) lane 3 sig) lane 3 0)) ∧
  (∀ (lane : LaneId) (eq : Word) (s : State), laneState s lane = 4 →
    exec (.adaptConverged lane eq) s = .next (setLaneBit (setEq s lane eq) lane 5 true)) ∧
  (∀ (g : GroupId) (eth : Bool) (s t : State), pllLocked s g eth = true →
    t = setPllLost (bset s (gpll g) (if eth then 3 else 1) false) g eth true →
    exec (.groupPllUnlock g eth) s =
      .next ((familyLanes t g eth).foldl (fun s n => laneEvent s n 8 (w32 (b2n eth))) (showLocks t g))) ∧
  (∀ (g : GroupId) (eth : Bool) (s : State), pllLost s g eth = true →
    exec (.pllRelockTimeout g eth) s =
      .next (((familyLanes s g eth).filter (fun n => laneState s n == 3 || laneState s n == 4)).foldl (fun s n =>
        editLane (setLaneBit (setLaneState s n 1) n 4 false) n (fun l => { l with back := true, txIdle := true })) s)) ∧
  (∀ (g : GroupId) (eth : Bool) (s t : State), pllLost s g eth = true →
    t = setPllLost (bset s (gpll g) (if eth then 3 else 1) true) g eth false →
    exec (.groupPllRelock g eth) s =
      .next (((familyLanes t g eth).filter (fun n => (laneSt t n).back)).foldl (fun s n =>
        editLane (setLaneState s n 3) n (fun l => { l with back := false, txIdle := false })) (showLocks t g)))

/-- ADAPT_LIMIT, LANE_TEMP_CHECK, RETRIM_END, ADAPT_BOOST_END, LANE_FOFS_MEASURE, FOFS_OFF (R38 to R40, R42, R49). LANE_CAL_FULL, LANE_CAL_ADAPT, LANE_CAL_RETRIM (R42). -/
def Obligations.LaneMonitorsReportWhatTheyMeasure : Prop :=
  (∀ (lane : LaneId) (value : Fin 6) (eq : Word) (s t : State), laneState s lane = 4 → t = setEq s lane eq →
    eqAtEnd (rd t (Reg.laneRxeq lane)) value = true → (laneSt t lane).atLimit.contains value.val = false →
    oversampled (laneMode t lane) = false →
    exec (.adaptLimit lane value eq) s = .next (laneEvent
      (editLane t lane (fun l => { l with atLimit := setIns l.atLimit value })) lane 10 (w32 value.val))) ∧
  (∀ (lane : LaneId) (s : State), laneState s lane = 3 ∨ laneState s lane = 4 →
    8 ≤ iabs (sgn 8 (laneTemp s lane) - sgn 8 (tempTrim s lane)) → (groupSt s (laneGroup lane)).retrimRun = none →
    calBusy s lane = false → exec (.laneTempCheck lane) s = .next (startRetrim s lane none)) ∧
  (∀ (lane : LaneId) (us : Word) (s : State), (groupSt s (laneGroup lane)).retrimRun = some lane.val →
    exec (.retrimEnd lane us) s = .next (endRetrim s (laneGroup lane) lane us.toNat)) ∧
  (∀ (lane : LaneId) (us : Word) (d : Nat) (s : State), (laneSt s lane).boost = some d →
    exec (.adaptBoostEnd lane us) s =
      .next (completeOk (editLane s lane (fun l => { l with boost := none })) d (calResult s lane) us)) ∧
  (∀ (lane : LaneId) (ofs : BitVec 16) (sig : Bool) (s t : State), laneState s lane = 0 ∨ laneState s lane = 4 →
    bget s (Reg.laneStatus lane) 4 = true →
    t = wr s (Reg.laneFofs lane) (w32 ofs.toNat) →
    exec (.laneFofsMeasure lane ofs sig) s = .next
      (if (fofsLimit t lane).1 < iabs ofs.toInt ∧ !bget t (Reg.laneStatus lane) 9 then
        laneEvent (setLaneBit t lane 9 true) lane 6 (w32 ofs.toNat)
      else t)) ∧
  (∀ (lane : LaneId) (ofs : BitVec 16) (sig : Bool) (s : State), laneState s lane ≠ 0 → laneState s lane ≠ 4 →
    exec (.laneFofsMeasure lane ofs sig) s = .next (setLaneBit s lane 3 sig)) ∧
  (∀ (lane : LaneId) (s : State), bget s (Reg.laneStatus lane) 9 = true →
    iabs (sgn 16 (fget s (Reg.laneFofs lane) 15 0)) < (fofsLimit s lane).2 →
    exec (.fofsOff lane) s =
      .next (laneEvent (setLaneBit s lane 9 false) lane 7 (w32 (fget s (Reg.laneFofs lane) 15 0)))) ∧
  (∀ (d : Nat) (x : Desc) (s : State), takeDesc s d 0x22 = some x → calKind x = 0 → laneEn s (calLane x) = true →
    calWaits s (calLane x) = false → mode s < 2 →
    exec (.laneCalFull d) s = .next (beginCal (setDesc s x.id 2) (calLane x) (some x.id))) ∧
  (∀ (d : Nat) (x : Desc) (s : State), takeDesc s d 0x22 = some x → calKind x = 1 → laneEn s (calLane x) = true →
    calWaits s (calLane x) = false → (laneSt s (calLane x)).boost = none →
    exec (.laneCalAdapt d) s =
      .next (editLane (setDesc s x.id 2) (calLane x) (fun l => { l with boost := some x.id }))) ∧
  (∀ (d : Nat) (x : Desc) (s : State), takeDesc s d 0x22 = some x → calKind x = 2 → laneEn s (calLane x) = true →
    calWaits s (calLane x) = false →
    exec (.laneCalRetrim d) s = .next (dueRetrim (setDesc s x.id 1) (calLane x) (some x.id)))

/-- LANE_FRM_CTL_WRITE, B1_INJ, B2_INJ, FRAME_PATTERN_MATCH, LANE_FRAME_RX, LINE_DEFECT_CHANGE, BER_STEP_END, J0_MESSAGE_RX,
PM_SECOND_CLASSIFY. -/
def Obligations.RegeneratorSectionsFollowTheirFrames : Prop :=
  (∀ (lane : LaneId) (v : Word) (s : State), hostReady s (laneGroup lane) → (fld v 7 6 = 3 ∨ 5 ≤ fld v 10 8) →
    exec (.laneFrmCtlWrite lane v) s = .next (ignoredWrite s (Reg.laneFrmCtl lane))) ∧
  (∀ (lane : LaneId) (v w : Word) (s t : State), hostReady s (laneGroup lane) → fld w 7 6 ≠ 3 → fld w 10 8 < 5 →
    laneLive s lane = false → fld w 3 2 ≠ 0 →
    t = editFrm (wr s (Reg.laneFrmCtl lane) (w &&& 0x7FFF)) lane (fun f => { f with
      excSteps := if fld (frmCtl s lane) 7 6 = fld w 7 6 then f.excSteps else []
      excAcc := if fld (frmCtl s lane) 7 6 = fld w 7 6 then f.excAcc else 0
      degSteps := if fld (frmCtl s lane) 10 8 = fld w 10 8 then f.degSteps else []
      degAcc := if fld (frmCtl s lane) 10 8 = fld w 10 8 then f.degAcc else 0
      b1Inv := f.b1Inv || bit w 15
      b2Inv := f.b2Inv || bit w 16 }) →
    exec (.laneFrmCtlWrite lane w) s = .next (refreshConds (refreshLanePaths (noteSecond (showFrm t lane) lane) lane)) ∧
    (w = setBit v 15 true →
      exec (.b1Inj lane v) s = .next (refreshConds (refreshLanePaths (noteSecond (showFrm t lane) lane) lane))) ∧
    (w = setBit v 16 true →
      exec (.b2Inj lane v) s = .next (refreshConds (refreshLanePaths (noteSecond (showFrm t lane) lane) lane)))) ∧
  (∀ (lane : LaneId) (k : Nat) (s : State), sdhOn s lane = true → laneState s lane = 4 →
    isOof s lane = true → (loopOf s lane = 1 → framePatternOk (laneSt s lane).serOut (laneN s lane) = true) →
    exec (.framePatternMatch lane k) s =
      .next (setCands s lane (scoreMatch (dropLate (frm s lane).cands k) k (frameBits s lane)))) ∧
  (∀ (lane : LaneId) (k : Nat) (balls : List Byte) (s : State), sdhOn s lane = true → laneState s lane = 4 →
    (sampled s lane balls).length = 2430 * laneN s lane → isOof s lane = false → loopOf s lane ≠ 2 →
    exec (.laneFrameRx lane k balls) s = .next (frameInFrame s lane (sampled s lane balls))) ∧
  (∀ (lane : LaneId) (x : LineDefect) (b : Bool) (s t : State), sdhOn s lane = true → (frm s lane).det.has x ≠ b →
    defectDue s lane x b = true →
    t = editFrm s lane (fun f => if x = .ais then { f with aisRun := 0 } else if x = .rdi then { f with rdiRun := 0 }
      else if x = .los ∨ x = .lof then { f with k1Run := 0, k1Win := 0, m1Tx := 0 } else f) →
    exec (.lineDefectChange lane x b) s = .next
      (if b = true ∧ (x = .los ∨ x = .lof) then setDefects (dccLost t lane) lane ((frm (dccLost t lane) lane).det.put x b)
      else setDefects t lane ((frm t lane).det.put x b))) ∧
  (∀ (lane : LaneId) (s t : State), sdhOn s lane = true →
    t = editFrm s lane (fun f => { f with degSteps := ((frm s lane).degAcc :: (frm s lane).degSteps).take 10, degAcc := 0 }) →
    exec (.berStepEnd lane true) s = .next (setDefects t lane { (frm s lane).det with
      deg := berState (frm s lane).det.deg (((frm s lane).degAcc :: (frm s lane).degSteps).take 10)
        (berExp (frmCtl s lane) true) (laneN t lane) })) ∧
  (∀ (lane : LaneId) (s t : State), sdhOn s lane = true →
    t = editFrm s lane (fun f => { f with excSteps := ((frm s lane).excAcc :: (frm s lane).excSteps).take 10, excAcc := 0 }) →
    exec (.berStepEnd lane false) s = .next (setDefects t lane { (frm s lane).det with
      exc := berState (frm s lane).det.exc (((frm s lane).excAcc :: (frm s lane).excSteps).take 10)
        (berExp (frmCtl s lane) false) (laneN t lane) })) ∧
  (∀ (lane : LaneId) (msg : List Byte) (l : List (List Byte)) (s t : State), (frm s lane).j0Due = msg :: l →
    traceValid (frm s lane).j0Mode msg = true →
    t = editFrm s lane (fun f => { f with j0Due := l }) → (frm t lane).j0Last ≠ msg →
    exec (.j0MessageRx lane) s = .next (editFrm t lane (fun f => { f with j0Run := 1, j0Last := msg }))) ∧
  (∀ (n : LaneId) (s : State), exec (.pmSecondClassify (.lane n)) s = .next (classifyLane s n)) ∧
  (∀ (a : Word) (s : State), exec (.pmSecondClassify (.path a)) s = .next (classifyPath s a)) ∧
  (∀ (u : PdhUnit) (s : State), exec (.pmSecondClassify (.pdh u)) s = .next (classifyPdh s u))

/-- DCC_CTL_WRITE, OSP_CTL_WRITE, OSP_OW_WRITE, DCC_RX_BUF, DCC_FRAME_RX, DCC_TX, DCC_TX_SENT, OSP_FRAME. -/
def Obligations.DataChannelsAndSerialPortsCarryTheirFrames : Prop :=
  (∀ (c : Fin 256) (v : Word) (s : State), hostReady s 17 → bget s (Reg.ohpDccCtl c) 0 = false →
    dccConflict s c v = false →
    exec (.dccCtlWrite c v) s = .next (wr s (Reg.ohpDccCtl c) (v &&& 0x7FFFFFFF))) ∧
  (∀ (p : Fin 8) (v : Word) (s : State), hostReady s 17 → fld v 2 1 ≠ 3 → bget s (Reg.ohpOspCtl p) 0 = false →
    exec (.ospCtlWrite p v) s = .next (wr s (Reg.ohpOspCtl p) (v &&& 7))) ∧
  (∀ (i : Fin 96) (v : Word) (s : State), hostReady s 17 → bit v 7 = false →
    exec (.ospOwWrite i v) s = .next (wr s (Reg.ohpOspOw i) (v &&& 0xFF))) ∧
  (∀ (d c : Nat) (x : Desc) (s : State), desc? s d = some x → x.op = 0x29 → mayPost s x = true → rangeBad s x = false →
    dccRing s x.ring = some c →
    exec (.dccRxBuf d) s = .next
      (editDcc (editDesc s d (fun x => { x with st := 1, bound := some (0x29, c) })) c
        (fun q => { q with rxb := q.rxb ++ [d] }))) ∧
  (∀ (c : Fin 256) (f : HdlcRx) (r : List HdlcRx) (io : HostIO) (s : State), (dcc s c).rxDone = f :: r →
    hdlcBad (dcc s c).ctl f = true → exec (.dccFrameRx c io) s =
      .next (count (editDcc s c (fun q => { q with rxDone := r })) (Reg.ohpDccRxBad c) 1)) ∧
  (∀ (c : Fin 256) (f : HdlcRx) (r : List HdlcRx) (io : HostIO) (x : Desc) (l : List Desc) (s t : State),
    (dcc s c).rxDone = f :: r → hdlcBad (dcc s c).ctl f = false → t = editDcc s c (fun q => { q with rxDone := r }) →
    (dcc t c).rxb.filterMap (desc? t) = x :: l → replay t = false → t.mtx.held = true → t.rng.bme = true → x.frozen = false →
    (f.bytes.take (f.bytes.length - fcsLen (dcc s c).ctl)).length ≤ x.len →
    exec (.dccFrameRx c io) s = .next
      (deliver (editDcc (setDesc t x.id 2) c (fun q => { q with rxb := setDel q.rxb x.id })) io x
        (f.bytes.take (f.bytes.length - fcsLen (dcc s c).ctl))
        (w32 (f.bytes.take (f.bytes.length - fcsLen (dcc s c).ctl)).length) (w32 c))) ∧
  (∀ (d c : Nat) (io : HostIO) (x : Desc) (s t : State), takeInput s d 0x28 = some (t, x) → rangeBad s x = false →
    c = fld (x.w 6) 7 0 →
    bit (dcc s c).ctl 0 = true → bit (dcc s c).ctl 9 = true → laneEn s (dccLane (dcc s c).ctl) = true → x.len ≠ 0 →
    x.len ≤ 1600 → (dcc s c).txq.length < 8 →
    exec (.dccTx d io) s = .next (withInput t io x x.len (fun s b =>
      editDcc (editDesc s d (fun y => { y with st := 1, bound := some (0x28, c) })) c
        (fun q => { q with txq := q.txq ++ [(d, b)] })))) ∧
  (∀ (c : Fin 256) (d : Nat) (b : List Byte) (r : List (Nat × List Byte)) (s : State), (dcc s c).txq = (d, b) :: r →
    (dcc s c).opened = true → (dcc s c).txLeft = 0 →
    exec (.dccTxSent c) s = .next (completeOk (editDcc s c (fun q => { q with txq := r, opened := false })) d
      (w32 (b.length + fcsLen (dcc s c).ctl)) 0)) ∧
  (∀ (p : Fin 8) (di x : List Byte) (w : Word) (n k : Nat) (s t : State), w = Tab.get s.ohp.osp p 0 → bit w 0 = true →
    n = ospFields (fld w 2 1) → k = ospTriples (fld w 2 1) → x = di ++ List.replicate (9 * n + 3 * k - di.length) 0 →
    t = wire { s with glb := { s.glb with free := s.glb.free + 324 } } "osp" p
      ((List.range n).flatMap (fieldOut s p) ++ (List.range k).flatMap (tripleOut s p)) →
    exec (.ospFrame p di) s = .next ((List.range k).foldl (fun s j => tripleIn s p n j x)
      ((List.range n).foldl (fun s f => fieldIn s p f x) t)))

/-- POINTER_RX, LOM_CHANGE, POH_RX, PATH_SECOND_EVAL, DEMAP_MULTIFRAME, LEAK_RELEASE, MARKER_GROUP_RX, PATH_CFG. -/
def Obligations.PathsFollowTheirPointersAndOverhead : Prop :=
  (∀ (a : Word) (m : Nat) (b0 b1 : Byte) (b : List Byte) (s : State), pathRx s a = true → m < memberCount s a →
    saTier a = 0 → b = pathTaken s a (ownHead s a m) [b0, b1] → exec (.pointerRx a m b0 b1) s = .next
      (if (frm s (saLane a)).auAis then pointerStep s a m 0xFF 0xFF else pointerStep s a m (b.getD 0 0) (b.getD 1 0))) ∧
  (∀ (a : Word) (m : Nat) (b0 b1 : Byte) (b : List Byte) (s : State), pathRx s a = true → m < memberCount s a →
    saTier a ≠ 0 → hoNorm s (hoOf s a) = true → (path s (hoOf s a)).lom = false →
    b = pathTaken s a (ownHead s a m) [b0, b1] →
    exec (.pointerRx a m b0 b1) s = .next (pointerStep s a m (b.getD 0 0) (b.getD 1 0))) ∧
  (∀ (a : Word) (v h4 : Byte) (s t : State), pathRx s a = true → saTier a = 0 → (tusOf s a).isEmpty = false →
    hoNorm s a = true → h4 = (pathTaken s a [(ownOut s a).sent.getD (5 * (contBytes s a / 9)) 0] [v]).getD 0 0 →
    t = editPath s a (fun p => { h4Step p (h4.toNat % 4) with
      lom := if (h4Step p (h4.toNat % 4)).oomRun = 8 then true
        else if (h4Step p (h4.toNat % 4)).mfRun = 8 then false else (h4Step p (h4.toNat % 4)).lom }) →
    (path t a).inMf = true → (path t a).lom = (path s a).lom → exec (.lomChange a v) s = .next t) ∧
  (∀ (a : Word) (v h4 : Byte) (s t u : State), pathRx s a = true → saTier a = 0 → (tusOf s a).isEmpty = false →
    hoNorm s a = true → h4 = (pathTaken s a [(ownOut s a).sent.getD (5 * (contBytes s a / 9)) 0] [v]).getD 0 0 →
    t = editPath s a (fun p => { h4Step p (h4.toNat % 4) with
      lom := if (h4Step p (h4.toNat % 4)).oomRun = 8 then true
        else if (h4Step p (h4.toNat % 4)).mfRun = 8 then false else (h4Step p (h4.toNat % 4)).lom }) →
    (path t a).inMf = false → u = (tusOf t a).foldl (fun s c => editPath s c PathSt.unread) t →
    (path u a).lom = true → (path s a).lom = false → exec (.lomChange a v) s = .next (followPath (tusAis u a) a)) ∧
  (∀ (a : Word) (h4 : Byte) (s : State), pathRx s a = true → saTier a = 0 → (tusOf s a).isEmpty = false →
    hoNorm s a = false → exec (.lomChange a h4) s =
      .next (editPath s a (fun p => { p with h4Last := (p.h4Last + 1) % 4, mfPhase := (p.mfPhase + 1) % 4 }))) ∧
  (∀ (a : Word) (balls data : List Byte) (s : State), pathRx s a = true →
    data = pathTaken s a (ownOut s a).sent balls → data.length = contBytes s a →
    exec (.pohRx a balls) s = .next (
      if monitored (storeData s a data) a = false then storeData s a data
      else if pohRead (storeData s a data) a = true then pohStep (storeData s a data) a data
      else editPath (storeData s a data) a (fun p => { p.unread with ebs := (false :: p.ebs).take 3300 }))) ∧
  (∀ (a : Word) (s t : State), pathOn s a = true → bit (pathCfg s a).w7 3 = true → (path s a).due = true →
    t = editPath s a (fun p => { p with
      due := false
      exc := (secondRun p.exc (decide (fld (pathCfg s a).w9 6 0 * pathBlocks s a ≤ (p.secs.getLast?.getD {}).eb * 100))
        p.excRun 2).1
      excRun := (secondRun p.exc (decide (fld (pathCfg s a).w9 6 0 * pathBlocks s a ≤ (p.secs.getLast?.getD {}).eb * 100))
        p.excRun 2).2
      deg := (secondRun p.deg (decide (fld (pathCfg s a).w8 22 16 * pathBlocks s a ≤ (p.secs.getLast?.getD {}).eb * 100))
        p.degRun (fld (pathCfg s a).w8 26 23)).1
      degRun := (secondRun p.deg (decide (fld (pathCfg s a).w8 22 16 * pathBlocks s a ≤ (p.secs.getLast?.getD {}).eb * 100))
        p.degRun (fld (pathCfg s a).w8 26 23)).2 }) →
    exec (.pathSecondEval a) s = .next (followPath t a)) ∧
  (∀ (a : Word) (balls bytes : List Byte) (read : Nat) (s : State), pathRx s a = true →
    bytes = pathTaken s a (ownOut s a).sent balls → bytes.length = contBytes s a →
    exec (.demapMultiframe a balls read) s = .next (((demapOwners s a).filter (fun c =>
      demapped s c && tuType? s c == tuType? s a)).foldl (fun s c => demapInto s a c bytes read) s)) ∧
  (∀ (a : Word) (balls bytes : List Byte) (read : Nat) (b : List Bool) (s : State), pathRx s a = true →
    demapped s a = true → demapOwners s a = [a] → bytes = pathTaken s a (ownOut s a).sent balls →
    bytes.length = contBytes s a →
    b = (if (path s a).ptr = 0 ∧ mspTaken s a = false then demapData (tuType? s a == some 0) (demapInput s a bytes)
      else List.replicate (if tuType? s a = some 0 then 1024 else 772) true) →
    exec (.demapMultiframe a balls read) s =
      .next (desyncMove (editPath s a (fun p => { p with
        dsq := (p.dsq ++ b).drop read
        dsOut := (p.dsOut ++ fitBits read ((p.dsq ++ b).take read)).drop
          ((p.dsOut ++ fitBits read ((p.dsq ++ b).take read)).length - 8192) })) a ((b.length : Int) - (read : Int)))) ∧
  (∀ (a : Word) (s : State), demapped s a = true → (path s a).leakQ ≠ 0 → leakFrames s a ≤ (path s a).leakAge →
    exec (.leakRelease a) s = .next
      (desyncMove (editPath s a (fun p =>
        { p.queueLeak ((path s a).leakQ - (if 0 < (path s a).leakQ then 1 else -1)) with leakAge := 0 })) a
        (if 0 < (path s a).leakQ then 1 else -1))) ∧
  (∀ (a : Word) (unit : Byte) (s t : State), pathOn s a = true → bit (pathCfg s a).w7 10 = true →
    t = (match (markUnit s a unit).2 with
      | some m => mergeMarkers (markUnit s a unit).1 a m (2 * s.tod.ticks)
      | none => (markUnit s a unit).1) →
    exec (.markerGroupRx a unit) s = .next
      (if pohRead t a then (guardsAt t a).foldl (fun u g => guardUnit u g a unit (nsNow u).toNat) t else t)) ∧
  (∀ (d : Nat) (io : HostIO) (x : Desc) (s t : State), takeInput s d 0x20 = some (t, x) → rangeBad s x = false →
    cfgReason s x = none → x.len = 0 →
    exec (.pathCfg d io) s = .next { setDesc t d 2 with deferred := t.deferred ++
      [{ tu := saTier (x.w 6) == 1, act := .path x.words [], d := d }] }) ∧
  (∀ (d : Nat) (io : HostIO) (x : Desc) (s t : State), takeInput s d 0x20 = some (t, x) → rangeBad s x = false →
    cfgReason s x = none → x.len ≠ 0 →
    exec (.pathCfg d io) s = .next (withInput t io x 128 (fun u b => { setDesc u d 2 with deferred := u.deferred ++
      [{ tu := saTier (x.w 6) == 1, act := .path x.words b, d := d }] })))

/-- FRAME_BOUNDARY, SUPERFRAME_BOUNDARY, TU_MULTIFRAME_BOUNDARY. -/
def Obligations.BoundariesAdvanceTheFrameGrid : Prop :=
  (∀ (s : State), inReset s = false →
    exec .frameBoundary s = .next
      (captureStart (framePeeks (refreshConds (frameLatch (frameApply (frameStart (frameSend (leaseFrame (testFrame (captureFrame s))))))))))) ∧
  (∀ (s : State), s.glb.sfDue = true → exec .superframeBoundary s = .next (cemPeek (symPeek
    (probesSuperframe { s with glb := { s.glb with sfDue := false, sfc := (s.glb.sfc + 1) % 65536 } })))) ∧
  (∀ (s t : State), s.glb.mfDue = true → gathersDue s = [] →
    t = applySelections (applyBoundary (guardsHold
      (mergesMultiframe { s with glb := { s.glb with mfDue := false } }) true) true) true →
    ∃ u v, u = (periodPaths t false).foldl storePeriod t ∧ v = multiframeOuts u ∧
      exec .tuMultiframeBoundary s =
        .next (claimPages (mrgPeekAt (protPeek (mapPeek (refreshConds (dropLatencies (syncStorage v))))) true)))

/-- TRIB_CTL_WRITE, TRIB_FRM_WRITE, TRIB_TRIM_DONE, TRIB_LIU_ADJUST, LOSS_HIGH, TRIB_TX_FAULT_CHANGE, PDH_FRAME_PATTERN,
MFA_TIMEOUT, INTERWORK_TIMEOUT, PDH_FRAME_RX, PDH_DEFECT_CHANGE. -/
def Obligations.TributaryFramersAndPortsFollowTheirSignals : Prop :=
  (∀ (p : PortId) (v w : Word) (s : State), hostReady s 16 → w = v &&& 0xFFFFF → tribBad w = false →
    portGuarded s p (bit w 13) = false → gatherBlocksPort s p w (portFrm s p) = false →
    portExceeds s p w (portFrm s p) = false → portExceeds s p w (rd s (Reg.tribFrm p)) = false → bget s (Reg.tribCtl p) 0 = false →
    exec (.tribCtlWrite p v) s =
      .next (putPort (wr (portForced s p (rd s (Reg.tribCtl p)) w) (Reg.tribCtl p) w) p w
        (portFrm (portForced s p (rd s (Reg.tribCtl p)) w) p))) ∧
  (∀ (p : PortId) (v w : Word) (s : State), hostReady s 16 → w = v &&& 0x1FFF → frmBad (rd s (Reg.tribCtl p)) w = false →
    portGuarded s p (bget s (Reg.tribCtl p) 13) = false → gatherBlocksPort s p (rd s (Reg.tribCtl p)) w = false →
    portExceeds s p (rd s (Reg.tribCtl p)) w = false → portLive s p = false →
    exec (.tribFrmWrite p v) s = .next (wr s (Reg.tribFrm p) w)) ∧
  (∀ (p : PortId) (trim : BitVec 5) (s : State), portState s p = 1 →
    exec (.tribTrimDone p trim) s = .next (setPortState (fset s (Reg.tribLiu p) 15 11 trim.toNat) p 2)) ∧
  (∀ (p : PortId) (eq : BitVec 5) (s : State), tribMode (portCtl s p) ≤ 1 → portState s p = 2 →
    exec (.tribLiuAdjust p (.acquired eq)) s = .next (fset s (Reg.tribLiu p) 10 6 eq.toNat)) ∧
  (∀ (p : PortId) (est : BitVec 6) (s : State), tribMode (portCtl s p) ≤ 1 → 2 ≤ portState s p →
    exec (.tribLiuAdjust p (.loss est)) s = .next (fset s (Reg.tribLiu p) 5 0 est.toNat)) ∧
  (∀ (p : PortId) (s : State), bit (portCtl s p) 0 = true → tribMode (portCtl s p) ≤ 1 →
    (Tab.get s.tribs p {}).lossHigh = false → 60 < fget s (Reg.tribLiu p) 5 0 →
    exec (.lossHigh p true) s = .next (pdhEvent (editTrib s p (fun t => { t with lossHigh := true })) (.port p) 0x0B true
      (w32 (fget s (Reg.tribLiu p) 5 0)))) ∧
  (∀ (p : PortId) (b : Bool) (s : State), bit (portCtl s p) 0 = true → tribMode (portCtl s p) ≤ 1 →
    bget s (Reg.tribLiu p) 16 ≠ b →
    exec (.tribTxFaultChange p b) s = .next (pdhEvent (bset s (Reg.tribLiu p) 16 b) (.port p) 0x0C b 0)) ∧
  (∀ (u : PdhUnit) (pos k : Nat) (s : State), pdhRuns s u = true → pdhKind s u ≠ 0 → (pdh s u).oof = true →
    exec (.pdhFramePattern u pos k none) s = .next (settle (editPdh s u (fun x => { x with
      cands := sight (pdhKind s u) (lateCands (pdhKind s u) (pdh s u) k) pos k
      failMfa := failsMfa (pdhKind s u) x k })) u pos k none)) ∧
  (∀ (u : PdhUnit) (pos k : Nat) (q : Bool) (s : State), pdhRuns s u = true → pdhKind s u ≠ 0 → (pdh s u).oof = true →
    (lateCands (pdhKind s u) (pdh s u) k).any (fun c => c.pos == pos && c.conf) = true →
    exec (.pdhFramePattern u pos k (some q)) s = .next (settle (editPdh s u (fun x => { x with
      cands := lateCands (pdhKind s u) (pdh s u) k
      failMfa := failsMfa (pdhKind s u) x k })) u pos k (some q))) ∧
  (∀ (u : PdhUnit) (s : State), pdhRuns s u = true → (pdhKind s u = 2 ∨ pdhKind s u = 3) → (pdh s u).oof = false →
    (pdh s u).mfa = false → (pdh s u).interwork = false →
    exec (.mfaTimeout u) s = .next (enterOof (editPdh s u (fun x => { x with failMfa := min 2 (x.failMfa + 1) })) u
      ((pdh s u).cands.filter (fun c => c.pos != (pdh s u).taken)) true)) ∧
  (∀ (u : PdhUnit) (s : State), pdhRuns s u = true → pdhKind s u = 3 → (pdh s u).oof = false → (pdh s u).mfa = false →
    (pdh s u).interwork = false → (pdh s u).firstConf.isSome = true →
    exec (.interworkTimeout u) s = .next (followPdh (pdhEvent
      (editPdh s u (fun x => { x with interwork := true, cands := [], firstConf := none, failMfa := 0 })) u 9 true 0) u)) ∧
  (∀ (u : PdhUnit) (f g h : PdhRx) (s r t x y z : State), pdhRuns s u = true → takeFrame s u f = some (r, g) →
    t = portReturns r u g → h = portReceives t u g → x = (if h.cv = 0 then t else pdhCount t u 0 h.cv) →
    y = slipTxRead (if h.exz = 0 then x else pdhCount x u 1 h.exz) u →
    (pdhKind s u = 0 → exec (.pdhFrameRx u f) s = .next (editPdh y u (fun z => { z with
      rxLast := plainFrame y u h.bytes, ccOut := z.ccOut ++ clearBits y u h }))) ∧
    (z = editPdh y u (fun q => aisStep (pdhKind s u) q h) → pdhKind s u ≠ 0 → (pdh z u).oof = true →
      exec (.pdhFrameRx u f) s = .next z) ∧
    (∀ (w : Option Bool) (a b c : State), z = editPdh y u (fun q => aisStep (pdhKind s u) q h) → pdhKind s u ≠ 0 →
      (pdh z u).oof = false → w = wordError (pdhKind s u) h → a = blockStep (overheadStep z u h) u h w →
      b = (if w = none ∨ (pdh a u).oof = true then a else wordStep a u (pdhKind s u) (w == some true)) →
      c = (if (pdh b u).oof = true then b else slipWrite b u h.bytes) →
      exec (.pdhFrameRx u f) s = .next (followPdh (editPdh c u (fun z => { z with
        ebLast := (failStep (pdhKind s u) (pdh c u).fails (w == some true || sideError (pdhKind s u) h)
          (h.crc == some true && usesCrc c u)).headD false
        fails := failStep (pdhKind s u) (pdh c u).fails (w == some true || sideError (pdhKind s u) h)
          (h.crc == some true && usesCrc c u) })) u))) ∧
  (∀ (n : Fin 65536) (x : PdhDefect) (b : Bool) (s t : State), (pdh s (.term n)).det.has x ≠ b →
    pdhDue s (.term n) x b = true →
    t = editPdh s (.term n) (fun y => if x = .rai then { y with raiRun := 0 } else if x = .nmis then { y with nRun := 0 }
      else if x = .casLom then { y with casRun := 0 } else y) →
    exec (.pdhDefectChange (.term n) x b) s = .next (setPdhDet t (.term n) ((pdh t (.term n)).det.put x b)))

/-- PAIR_GATE_OFF, FABRIC_WORD_READ, PARITY_INJECT_ARM, PMON_CTL_WRITE, PMON_LOCK_CHANGE, LATENCY_MEASURE. -/
def Obligations.FabricMonitorsAndPairsAnswer : Prop :=
  (∀ (p : Fin 32) (s : State), pairUsed s p = false → 8000 ≤ Tab.get s.fab.pairIdle p 0 →
    exec (.pairGateOff p) s = .next (bset s Reg.fabBankOn p false)) ∧
  (∀ (r : WordRead) (s : State) (x y b : Word), x = failing s r.pair r.loc r.prim → y = failing s (r.pair + 32) r.loc r.repl →
    b = (if bget s Reg.fabBankLease r.pair = true ∨ Tab.get s.fab.tailP r.pair 0 ≠ 0 then y
      else if bget s Reg.fabBankLeaseR r.pair = true ∨ Tab.get s.fab.tailR r.pair 0 ≠ 0 then x else x &&& y) →
    (if bget s Reg.fabBankLease r.pair = true ∨ Tab.get s.fab.tailP r.pair 0 ≠ 0 then y else x) ≠ 0 →
    s.fab.counted.contains (r.pair.val, r.loc.val) = false →
    exec (.fabricWordRead r) s = .next
      (if b = 0 then recovered (editFab s (fun f => { f with counted := (r.pair.val, r.loc.val) :: f.counted })) r.pair r.loc x
      else unrecovered (editFab s (fun f => { f with counted := (r.pair.val, r.loc.val) :: f.counted })) r.pair
        (b2n (bget s Reg.fabBankLease r.pair || Tab.get s.fab.tailP r.pair 0 != 0)) r.loc b)) ∧
  (∀ (v : Word) (s : State), hostReady s 17 → mode s < 2 → bit v 31 = true →
    exec (.parityInjectArm v) s = .next (editFab s (fun f => { f with inj := some v }))) ∧
  (∀ (m : Fin 8) (v : Word) (s t : State), hostReady s 17 → pmonBad s v (rd s (Reg.fabPmonSlot m)) = false →
    t = wr s (Reg.fabPmonCtl m) (setBit (v &&& 7) 3 (bget s (Reg.fabPmonCtl m) 3)) →
    exec (.pmonCtlWrite m false v) s = .next
      (if bit v 0 = true ∧ fld v 2 1 = fget s (Reg.fabPmonCtl m) 2 1 then t else pmonRestart t m)) ∧
  (∀ (m : Fin 8) (v : Word) (s : State), hostReady s 17 → pmonBad s (rd s (Reg.fabPmonCtl m)) v = false →
    rd s (Reg.fabPmonSlot m) ≠ v →
    exec (.pmonCtlWrite m true v) s = .next (pmonRestart (wr s (Reg.fabPmonSlot m) v) m)) ∧
  (∀ (m : Fin 8) (r : CheckSum) (s t u : State), bget s (Reg.fabPmonCtl m) 0 = true →
    r = checkBits (pmonPrbs (fget s (Reg.fabPmonCtl m) 2 1)) 0 (Tab.get s.fab.pmonSt m {}) (bget s (Reg.fabPmonCtl m) 3)
      (bytesBits (Tab.get s.fab.pmonIn m [])) →
    t = count (count s (Reg.fabPmonErr m) (r.errs % 2 ^ 32)) (Reg.fabPmonBits m)
      ((Tab.get s.fab.pmonFrac m 0 + r.bits) / 1024 % 2 ^ 32) →
    u = editFab (bset t (Reg.fabPmonCtl m) 3 r.lock) (fun f => { f with
      pmonFrac := Tab.put f.pmonFrac m ((Tab.get s.fab.pmonFrac m 0 + r.bits) % 1024)
      pmonSt := Tab.put f.pmonSt m r.x, pmonIn := Tab.drop f.pmonIn m }) →
    exec (.pmonLockChange m) s = .next
      (r.flips.reverse.foldl (fun x q => pmonEvent x m q.1 (rd s (Reg.fabPmonErr m) + w32 q.2)) u)) ∧
  (∀ (out a : Word) (ns : Nat) (s : State), hasEntry s out = true → latSource s (latOut s out) = some a →
    exec (.latencyMeasure out ns) s = .next (editFab s (fun f => { f with
      lat := Tab.put f.lat (latOut s out).toNat (ns / 2 * 2 % 2 ^ 29)
      latSrc := Tab.put f.latSrc (latOut s out).toNat a })))

/-- TERM_CFG, TERM_RELEASE, CC_CFG, CC_RELEASE, MAP_EDIT_DIRECT, MAP_EDIT_STAGE, MAP_READ. -/
def Obligations.MapDescriptorsOutsideAGatherWaitForTheirBoundary : Prop :=
  (∀ (d : Nat) (x : Desc) (w : List Word) (s : State), takeMap s d 0x1A false = some x → w = cfgWords x → termSrc w ≠ 0 →
    termReason s w = none → lateReason s x (.term w) = none →
    exec (.termCfg d) s = .next (defer s x.id true (.term w))) ∧
  (∀ (d : Nat) (x : Desc) (w : List Word) (s : State), takeMap s d 0x1A false = some x → w = cfgWords x → termSrc w = 0 →
    releaseReason s w (numberUsed s (termNum w) || gatherNames s (Staged.names (onNumber (termNum w)))) = none →
    lateReason s x (.term w) = none →
    exec (.termRelease d) s = .next (defer s x.id true (.term w))) ∧
  (∀ (d : Nat) (x : Desc) (w : List Word) (s : State), takeMap s d 0x1B false = some x → w = cfgWords x → ccRel w = false →
    ccReason s w = none → lateReason s x (.cc w) = none →
    exec (.ccCfg d) s = .next (defer s x.id true (.cc w))) ∧
  (∀ (d : Nat) (x : Desc) (w : List Word) (s : State), takeMap s d 0x1B false = some x → w = cfgWords x → ccRel w = true →
    ccReleaseReason s w (fun c => gatherNames s (fun i => Staged.names (onEndpoint c) i || Staged.namesEnd c i)) = none →
    lateReason s x (.cc w) = none →
    exec (.ccRelease d) s = .next (defer s x.id true (.cc w))) ∧
  (∀ (d : Nat) (io : HostIO) (x : Desc) (s : State), takeMap s d 0x18 false = some x → rangeBad s x = false →
    editLenBad x.len = false → exec (.mapEditDirect d io) s = .next (startBulk s io x)) ∧
  (∀ (d : Nat) (io : HostIO) (x : Desc) (s : State), takeMap s d 0x18 true = some x → rangeBad s x = false →
    editLenBad x.len = false → exec (.mapEditStage d io) s = .next (startBulk s io x)) ∧
  (∀ (d : Nat) (io : HostIO) (x : Desc) (s : State), takeDesc s d 0x19 = some x → rangeBad s x = false →
    bulkReason s x = none → exec (.mapRead d io) s = .next (startBulk s io x))

/-- PATH_STATUS, SEL_STATUS, MERGE_STATUS, GUARD_STATUS, PW_STATUS, PM_DUMP, LEASE_QUERY. -/
def Obligations.StatusReadsGoToABulkEngine : Prop :=
  (∀ (d : Nat) (io : HostIO) (x : Desc) (s : State), takeDesc s d 0x21 = some x → rangeBad s x = false →
    laneEn s (fld (x.w 6) 6 0) = true → laneMode s (fld (x.w 6) 6 0) ≤ 3 → x.op = 0x21 →
    exec (.pathStatus d io) s = .next (startBulk s io x)) ∧
  (∀ (d : Nat) (io : HostIO) (x : Desc) (s : State), takeDesc s d 0x32 = some x → rangeBad s x = false →
    bulkReason s x = none → exec (.selStatus d io) s = .next (startBulk s io x)) ∧
  (∀ (d : Nat) (io : HostIO) (x : Desc) (s : State), takeDesc s d 0x39 = some x → rangeBad s x = false →
    bulkReason s x = none → exec (.mergeStatus d io) s = .next (startBulk s io x)) ∧
  (∀ (d : Nat) (io : HostIO) (x : Desc) (s : State), takeDesc s d 0x41 = some x → rangeBad s x = false →
    bulkReason s x = none → exec (.guardStatus d io) s = .next (startBulk s io x)) ∧
  (∀ (d : Nat) (io : HostIO) (x : Desc) (s : State), takeDesc s d 0x49 = some x → rangeBad s x = false →
    bulkReason s x = none → exec (.pwStatus d io) s = .next (startBulk s io x)) ∧
  (∀ (d : Nat) (io : HostIO) (x : Desc) (s : State), takeDesc s d 0x58 = some x → rangeBad s x = false →
    bulkReason s x = none → exec (.pmDump d io) s = .next (startBulk s io x)) ∧
  (∀ (d : Nat) (io : HostIO) (x : Desc) (s t : State), t = { s with glb := { s.glb with free := s.glb.free + 8 } } →
    takeDesc t d 0x61 = some x → rangeBad t x = false → bulkReason t x = none →
    exec (.leaseQuery d io) s = .next (startBulk t io x))

/-- GATHER_OPEN, TERM_CFG_STAGE, CC_CFG_STAGE, GATHER_COMMIT, GATHER_ABORT, GATHER_VALIDATION_START, GATHER_VALIDATION_END,
COMMIT_RECORD_HELD, BRIDGE_READY, GATHER_APPLY. -/
def Obligations.GathersOpenStageCommitAndApply : Prop :=
  (∀ (d i : Nat) (x : Desc) (s : State), takeDesc s d 0x10 = some x → x.gather ≠ 0 → gatherIn s x.gather 1 3 = none →
    openReason s x = none → gatherFree s = some i →
    exec (.gatherOpen d) s = .next (completeOk (setGslot s i { st := 1, gid := x.gather }) d (w32 i) 0)) ∧
  (∀ (d k : Nat) (x : Desc) (s t : State), takeMap s d 0x1A true = some x → gatherIn s x.gather 1 1 = some k →
    x.gather ≠ 0 → (gslot s k).edits + (Staged.term (cfgWords x)).size ≤ 65536 →
    stagedAll s + (Staged.term (cfgWords x)).size ≤ 262144 →
    t = setGslot s k { gslot s k with items := (gslot s k).items ++ [.term (cfgWords x)] } →
    exec (.termCfgStage d) s = .next (completeOk t x.id (w32 (gslot t k).edits) (w32 (stagedAll t)))) ∧
  (∀ (d k : Nat) (x : Desc) (s t : State), takeMap s d 0x1B true = some x → gatherIn s x.gather 1 1 = some k →
    x.gather ≠ 0 → (gslot s k).edits + (Staged.cc (cfgWords x)).size ≤ 65536 →
    stagedAll s + (Staged.cc (cfgWords x)).size ≤ 262144 →
    t = setGslot s k { gslot s k with items := (gslot s k).items ++ [.cc (cfgWords x)] } →
    exec (.ccCfgStage d) s = .next (completeOk t x.id (w32 (gslot t k).edits) (w32 (stagedAll t)))) ∧
  (∀ (d i : Nat) (x : Desc) (s t : State), takeDesc s d 0x11 = some x → x.gather ≠ 0 → gatherIn s x.gather 1 1 = some i →
    t = setGslot s i { gslot s i with st := 2, commit := some d, tag := (x.w 1).toNat, named := x.w 6 } →
    exec (.gatherCommit d) s = .next (editGth (editDesc t d (fun e => { e with st := 1, bound := some (0x11, i) }))
      (fun g => { g with queue := g.queue ++ [i] }))) ∧
  (∀ (d i : Nat) (x : Desc) (s t : State), takeDesc s d 0x12 = some x → x.gather ≠ 0 → gatherIn s x.gather 1 3 = some i →
    (gslot s i).st ≠ 3 → (gslot s i).commit = none →
    t = journal (freeSlot s i) (jrnWords (freeSlot s i) 4 i (gslot s i) 0 0 0 (x.w 1) 0) true →
    exec (.gatherAbort d) s = .next (completeOk (gthEvent t i (gslot s i).gid 5 (w32 (gslot s i).edits)) d
      (w32 (gslot s i).edits) 0)) ∧
  (∀ (d i : Nat) (x : Desc) (s : State), takeDesc s d 0x12 = some x → x.gather ≠ 0 → gatherIn s x.gather 1 3 = some i →
    (gslot s i).st = 3 → exec (.gatherAbort d) s = .next (complete s d 2 0 0)) ∧
  (∀ (i : Fin 16) (s : State), s.gth.run = none → s.gth.queue.head? = some i.val →
    exec (.gatherValidationStart i) s =
      .next (editGth s (fun t => { t with queue := t.queue.drop 1, run := some i.val }))) ∧
  (∀ (i : Fin 16) (e : Nat × Nat) (s : State), s.gth.run = some i.val → (gslot s i).st = 2 → (gslot s i).valid = false →
    (checkGather s i).1 = some e → exec (.gatherValidationEnd i) s = .next (reject s i e)) ∧
  (∀ (i : Fin 16) (s t : State), s.gth.run = some i.val → (gslot s i).st = 2 → (gslot s i).valid = false →
    (checkGather s i).1 = none →
    t = takeSources (editGth (setGslot s i { gslot s i with
        valid := true, items := (checkGather s i).2, order := s.gth.orderNext,
        sfc := (commitFrame s i (gslot s i).named).1, moved := (commitFrame s i (gslot s i).named).2 })
      (fun g => { g with run := none, orderNext := g.orderNext + 1 })) ((checkGather s i).2.flatMap Staged.sources) →
    exec (.gatherValidationEnd i) s = .next (if t.mtx.held then beginRecord t i else t)) ∧
  (∀ (i : Fin 16) (d : Nat) (s t u : State), (gslot s i).st = 2 → (gslot s i).valid = true → s.mtx.held = true →
    replay s = false → (gslot s i).begun = true → t = holdRecord s i → (gslot t i).commit = some d →
    u = setGslot t i { gslot t i with st := 3, commit := none } →
    exec (.commitRecordHeld i false) s = .next (gthEvent
      (completeOk (setDesc u d 2) d (w32 ((gslot t i).sfc + 65536 * b2n (gslot t i).moved)) (w32 (gslot t i).edits))
      i (gslot t i).gid 1 (w32 ((gslot t i).sfc + 65536 * b2n (gslot t i).moved)))) ∧
  (∀ (i : Fin 16) (s : State), (gslot s i).bridged = true →
    exec (.bridgeReady i) s = .next (setGslot s i { gslot s i with ready := true })) ∧
  (∀ (i : Fin 16) (s t u v : State), (gathersDue s).head? = some i.val →
    t = freeSlot (mapChanged (putItems s (gslot s i).items)) i →
    u = journal t (jrnWords t 3 i (gslot s i) (w32 ((gslot s i).sfc + 65536 * b2n (gslot s i).moved)) 0 0
      (w32 (gslot s i).tag) (rd t Reg.mapGen)) true → v = gthEvent u i (gslot s i).gid 2 (rd u Reg.mapGen) →
    exec (.gatherApply i) s = .next (protPeek (mapPeek (applyBoundary v false))))

/-- HOLDOFF_EXPIRY, PROTECTION_DECISION, WTR_EXPIRY, SEL_CFG, SEL_REMOVE, SEL_CMD_*, SEL_EXER_END. -/
def Obligations.SelectorsAndTheirCommandsAct : Prop :=
  (∀ (k : Nat) (x : Sel) (s : State), sel? s k = some x →
    exec (.holdoffExpiry (.sel k) 0) s = .next (setSel s k { x with w := x.w.expire (holdFrames (fld x.par 9 3)) }) ∧
    exec (.holdoffExpiry (.sel k) 1) s = .next (setSel s k { x with p := x.p.expire (holdFrames (fld x.par 9 3)) })) ∧
  (∀ (i : Fin 64) (c : Nat) (g : Grp) (s : State), grp? s i = some g →
    exec (.holdoffExpiry (.grp i) c) s = .next (setGrp s i { g with
      lanes := listPut g.lanes c ((g.lanes.getD c {}).expire (holdFrames (fld g.w7 11 5))) })) ∧
  (∀ (k : Nat) (s : State), exec (.protectionDecision (.sel k)) s = .next (decide' s k)) ∧
  (∀ (i : Fin 64) (s : State), exec (.protectionDecision (.grp i)) s = .next (decideGroup s i)) ∧
  (∀ (k n : Nat) (x : Sel) (s : State), sel? s k = some x → x.wtr = some n → max 1 (wtrFrames (fld x.par 25 16)) ≤ n →
    exec (.wtrExpiry (.sel k)) s = .next (setSel s k { x with wtr := none })) ∧
  (∀ (i : Fin 64) (w : Nat × Nat) (g : Grp) (s : State), grp? s i = some g → g.wtr = some w →
    max 1 (wtrFrames (fld g.w7 25 16)) ≤ w.1 →
    exec (.wtrExpiry (.grp i)) s = .next (setGrp s i { g with wtr := none })) ∧
  (∀ (d : Nat) (x : Desc) (s : State), takeDesc s d 0x30 = some x → selReason s x = none →
    (bit (x.w 6) 31 = false → exec (.selCfg d) s = .next (defer s d false (.sel (cfgWords x)))) ∧
    (bit (x.w 6) 31 = true → exec (.selRemove d) s = .next (defer s d false (.sel (cfgWords x))))) ∧
  (∀ (d c k : Nat) (x : Desc) (s : State), takeDesc s d 0x31 = some x → cmdReason s x = none → c = fld (x.w 7) 3 0 →
    fld (x.w 6) 18 17 ≠ 3 → k = wordKey (x.w 6) →
    (c = 0 → exec (.selCmdClear d) s = .next (selCommand s d k 0)) ∧
    (c = 1 → exec (.selCmdLockout d) s = .next (selCommand s d k 1)) ∧
    (c = 2 → exec (.selCmdFs d) s = .next (selCommand s d k 2)) ∧
    (c = 3 → exec (.selCmdFsW d) s = .next (selCommand s d k 3)) ∧
    (c = 4 → exec (.selCmdMs d) s = .next (selCommand s d k 4)) ∧
    (c = 5 → exec (.selCmdMsW d) s = .next (selCommand s d k 5)) ∧
    (c = 6 → exec (.selCmdExer d) s = .next (selCommand s d k 6))) ∧
  (∀ (d c g ch : Nat) (x : Desc) (s : State), takeDesc s d 0x31 = some x → cmdReason s x = none → c = fld (x.w 7) 3 0 →
    fld (x.w 6) 18 17 = 3 → g = fld (x.w 6) 5 0 → ch = fld (x.w 7) 11 8 →
    (c = 0 → exec (.selCmdClear d) s = .next (grpCommand s d g 0 ch)) ∧
    (c = 1 → exec (.selCmdLockout d) s = .next (grpCommand s d g 1 ch)) ∧
    (c = 2 → exec (.selCmdFs d) s = .next (grpCommand s d g 2 ch)) ∧
    (c = 4 → exec (.selCmdMs d) s = .next (grpCommand s d g 4 ch)) ∧
    (c = 6 → exec (.selCmdExer d) s = .next (grpCommand s d g 6 ch))) ∧
  (∀ (key : Nat) (x : Sel) (ok : Bool) (s : State), sel? s key = some x → x.exer = some ok →
    8000 ≤ x.exerRun →
    exec (.selExerEnd key) s =
      .next (decide' (selEvent (setSel s key { x with cmd := 0, exer := none }) key 4 0 (b2n ok)) key))

/-- APS_CFG, APS_REMOVE, APS_K_ACCEPT, APS_EXER_END, FOP_ARCH, FOP_MODE, FOP_NORESP, FOP_FLAP, FOP_FLAP_CLEAR. -/
def Obligations.MspGroupsFollowTheirFarEnd : Prop :=
  (∀ (d : Nat) (x : Desc) (s : State), takeDesc s d 0x33 = some x → apsReason s x = none →
    (bit (x.w 6) 31 = false → exec (.apsCfg d) s = .next (defer s d false (.aps (cfgWords x)))) ∧
    (bit (x.w 6) 31 = true → exec (.apsRemove d) s = .next (defer s d false (.aps (cfgWords x))))) ∧
  (∀ (g : Fin 64) (k1 k2 : Nat) (x : Grp) (s t u : State), grp? s g = some x → (frm s x.protLane).kRun = 3 →
    k1 = fget s (Reg.laneK12 x.protLane) 7 0 → k2 = fget s (Reg.laneK12 x.protLane) 15 8 →
    t = setGrp s g { x with
      k1Used := if k1Valid x k1 then k1 else x.k1Used
      k2Used := if k2Valid x k2 = true ∧ k2 % 8 < 6 then k2 else x.k2Used
      kAcc := some (k1, k2), kStable := if x.kAcc = some (k1, k2) then x.kStable else 0 } →
    u = setFop t g 0 (!k1Valid x k1 || (x.fop.getD 0 false && !k2Valid x k2)) (rawK s x) →
    exec (.apsKAccept g) s = .next (setFop u g 1
      (if 6 ≤ k2 % 8 then x.fop.getD 1 false else !k2Valid x k2 || (x.fop.getD 1 false && !k1Valid x k1)) (rawK s x))) ∧
  (∀ (g : Fin 64) (c n : Nat) (x : Grp) (s : State), grp? s g = some x → x.exer = some (c, n) →
    (answered x c = true ∨ 400 ≤ n) →
    exec (.apsExerEnd g) s = .next (decideGroup (grpEvent (setGrp s g { x with cmd := 0, cmdCh := 0, exer := none }) g 9
      false (w32 (b2n (answered x c) + 256 * c))) g)) ∧
  (∀ (g : Fin 64) (x : Grp) (s : State), grp? s g = some x → 400 ≤ x.archRun →
    exec (.fopArch g) s = .next (setFop (setGrp s g { x with archRun := 0 }) g 2 (!x.fop.getD 2 false) (rawK s x))) ∧
  (∀ (g : Fin 64) (x : Grp) (s : State), grp? s g = some x → 400 ≤ x.modeRun →
    exec (.fopMode g) s = .next (setFop (setGrp s g { x with modeRun := 0 }) g 3 (!x.fop.getD 3 false) (rawK s x))) ∧
  (∀ (g : Fin 64) (x : Grp) (s : State), grp? s g = some x → 400 ≤ x.noresp → unanswered x = true →
    exec (.fopNoresp g) s = .next (setFop s g 4 true (norespWord x))) ∧
  (∀ (g : Fin 64) (x : Grp) (s : State), grp? s g = some x → 5 ≤ x.flaps.length →
    exec (.fopFlap g) s = .next (setFop s g 5 true (w32 x.flaps.length))) ∧
  (∀ (g : Fin 64) (x : Grp) (s : State), grp? s g = some x → 8000 ≤ x.kStable →
    exec (.fopFlapClear g) s = .next (setFop s g 5 false (w32 x.flaps.length)))

/-- MERGE_CFG, MERGE_OFF, MERGE_ALIGN_REACHED, MERGE_WINDOW_END, GUARD_CFG, GUARD_REMOVE, LEIV_PROBE_RX, GUARD_ASYM_CLEAR,
PARTNER_LOST, GUARD_COMP_STEP_DUE, GUARD_SLEW_UNIT, GUARD_PULSE_HOLD_END. -/
def Obligations.MergesAndGuardsFollowTheirDelays : Prop :=
  (∀ (d : Nat) (x : Desc) (s : State), takeDesc s d 0x38 = some x → mergeReason s x = none →
    (bit (x.w 6) 31 = false →
      exec (.mergeCfg d) s = .next (defer s d (keyTier (wordKey (x.w 6)) == 1) (.merge (cfgWords x)))) ∧
    (bit (x.w 6) 31 = true →
      exec (.mergeOff d) s = .next (defer s d (keyTier (wordKey (x.w 6)) == 1) (.merge (cfgWords x))))) ∧
  (∀ (d : Nat) (x : Desc) (s : State), takeDesc s d 0x40 = some x → guardReason s (cfgWords x) = none →
    (bit (x.w 6) 31 = false → exec (.guardCfg d) s = .next (defer s d false (.guard (cfgWords x)))) ∧
    (bit (x.w 6) 31 = true → exec (.guardRemove d) s = .next (defer s d false (.guard (cfgWords x))))) ∧
  (∀ (key : Nat) (o : Int) (x : Merge) (y : Sel) (s : State), merge? s key = some x → sel? s key = some y → x.st = 0 →
    x.delta = some o → iabs o ≤ x.hist → exec (.mergeAlignReached key) s = .next (enterAligned s key y x o)) ∧
  (∀ (key : Nat) (x : Merge) (y : Sel) (s : State), merge? s key = some x → sel? s key = some y →
    x.corr = true → winBlocks s y.working ≤ x.winRun →
    exec (.mergeWindowEnd key) s = .next (if x.st = 0 then windowAcquire s key y { x with winRun := 0 }
      else windowTrack s key y { x with winRun := 0 })) ∧
  (∀ (lane : LaneId) (msg : List Byte) (q : List (List Byte)) (r : Nat) (s t : State), (frm s lane).probeDue = msg :: q →
    t = editFrm s lane (fun f => { f with probeDue := q }) → sdhOn t lane = true → (frm t lane).probeOn = true →
    probeFault msg = some r →
    exec (.leivProbeRx lane) s =
      .next (raiseOnce (probeBad t) lane 0x70 lane (w32 (0x70 + 256 * lane.val)) (w32 r))) ∧
  (∀ (lane : LaneId) (msg : List Byte) (q : List (List Byte)) (l : List Nat) (r s t u : State),
    (frm r lane).probeDue = msg :: q → s = editFrm r lane (fun f => { f with probeDue := q }) → sdhOn s lane = true →
    (frm s lane).probeOn = true → probeFault msg = none →
    l = (((s.sym.guards.filter (fun p => p.2.onLane lane)).filter (fun p => p.2.partner == w32 (msgNat msg 4 4))).map
      (fun p => p.1)) → l ≠ [] → u = l.foldl (fun s g => heardPartner s g ((msg.getD 2 0).getLsbD 7)) s →
    t = (if (msg.getD 2 0).toNat % 16 = 0 ∧ (msg.drop 8).take 4 = List.replicate 4 0 then u else probeBad u) →
    exec (.leivProbeRx lane) r = .next ((List.range 4).foldl (fun s i =>
      rxRecord s lane (w32 (msgNat msg 4 4)) ((msg.drop (12 + 12 * i)).take 12)) t)) ∧
  (∀ (lane : LaneId) (msg : List Byte) (q : List (List Byte)) (r s : State), (frm r lane).probeDue = msg :: q →
    s = editFrm r lane (fun f => { f with probeDue := q }) → sdhOn s lane = true → (frm s lane).probeOn = true →
    probeFault msg = none →
    (s.sym.guards.filter (fun p => p.2.onLane lane)).filter (fun p => p.2.partner == w32 (msgNat msg 4 4)) = [] →
    exec (.leivProbeRx lane) r = .next ((s.sym.guards.filter (fun p => p.2.onLane lane)).foldl (fun s p =>
      raiseOnce s (0x580 + p.1 / 32) 9 p.1 (guardWord p.1 9 false false) (w32 (msgNat msg 4 4))) (probeBad s))) ∧
  (∀ (g : Fin 4096) (x : Guard) (s : State), guard? s g = some x → x.asym = true → 800 ≤ x.asymRun →
    exec (.guardAsymClear g) s =
      .next (guardEvent (setGuard s g { x with asym := false }) g 3 false false (guardAsym s g))) ∧
  (∀ (g : Fin 4096) (x : Guard) (s : State), guard? s g = some x → x.stale = false → 800 ≤ x.silent →
    exec (.partnerLost g) s = .next (guardEvent (setGuard s g { x with stale := true }) g 5 true false x.partner)) ∧
  (∀ (g : Fin 4096) (n sfc : Nat) (x : Guard) (s : State), guard? s g = some x → x.ann = some (n, sfc) →
    s.glb.frame = 0 → frameSfc s = sfc →
    exec (.guardCompStepDue g) s = .next (followTarget (stepComp s g n) g)) ∧
  (∀ (g : Fin 4096) (t : Nat) (x y z : Guard) (a : Word) (s u v : State), guard? s g = some x → x.slew = some t →
    x.stale = false → slewFrames s x ≤ x.slewGap → guardRx s x = some a → 3 ≤ (path s a).adjGap → t ≠ x.cIn →
    y = { x with cIn := if x.cIn < t then x.cIn + 1 else x.cIn - 1, slewGap := 0
                 slew := if (if x.cIn < t then x.cIn + 1 else x.cIn - 1) = t then none else x.slew } →
    z = (if 10000 ≤ iabs ((guardC s y : Int) - x.lastComp) ∨ y.slew = none then queueComp s y else y) →
    u = editPath (setGuard s g z) a (fun p => { p with adjGap := 0 }) →
    v = ((usedOutputs u).filter (fun o => (outGuard u o).map (fun p => p.1) == some g.val)).foldl
      (fun s o => pcount s o (if x.cIn < t then 13 else 14) 1) u →
    exec (.guardSlewUnit g) s =
      .next (guardAlarms (shiftLatency v g ((guardC v z : Int) - (guardC v x : Int))) g)) ∧
  (∀ (g : Fin 4096) (n : Nat) (x : Guard) (s : State), guard? s g = some x → x.holdRun = some n →
    8 * fld (x.w 14) 16 9 ≤ n → exec (.guardPulseHoldEnd g) s = .next (setGuard s g { x with holdRun := none }))

/-- ETH_CTL_WRITE, ETH_LINK_CHANGE, ETH_RX_BUF, ETH_TX, ETH_TX_SENT, ETH_FRAME_RX, PW_CFG, PW_REMOVE, PW_PACKET_TX,
PW_PLAYOUT. -/
def Obligations.EthernetLanesAndPseudowiresCarryTheirFrames : Prop :=
  (∀ (lane : LaneId) (v : Word) (s : State), hostReady s (lane.val / 8) → quadMember s lane = false → 64 ≤ fld v 13 0 →
    fld v 13 0 ≤ 9216 → fld v 27 16 = 0 →
    exec (.ethCtlWrite lane v) s = .next (wr s (Reg.laneEthCtl lane) (v &&& 0x0FFFFFFF))) ∧
  (∀ (lane : LaneId) (block align hiBer lf rf : Bool) (k : Nat) (s t u v : State), ethLane s lane = true →
    t = (if align = true ∧ 6 ≤ laneMode s lane ∧ bget s (Reg.laneEthStatus lane) 1 = false then
      editEth s lane (fun e => { e with deskew := min 2880 k }) else s) →
    u = (if laneLat t lane = laneLat s lane then t else laneEvent t lane 0x37 (laneLat t lane)) →
    v = ethBit (ethBit (ethBit (ethBit (ethBit u lane 0 0x31 block) lane 1 0x35 (align && decide (6 ≤ laneMode s lane)))
      lane 2 0x32 hiBer) lane 3 0x33 lf) lane 4 0x34 rf →
    exec (.ethLinkChange lane block align hiBer lf rf k) s =
      .next (ethStart (rsFollow (rsSends s lane) (followLink v lane) lane) lane)) ∧
  (∀ (d c : Nat) (x : Desc) (s : State), desc? s d = some x → x.op = 0x4B → mayPost s x = true → rangeBad s x = false →
    ethRing s x.ring = some c →
    exec (.ethRxBuf d) s = .next (editEth (editDesc s d (fun x => { x with st := 1, bound := some (0x4B, c) })) c
      (fun q => { q with rxb := q.rxb ++ [d] }))) ∧
  (∀ (d n : Nat) (io : HostIO) (x : Desc) (s t : State), takeInput s d 0x4A = some (t, x) → rangeBad s x = false →
    n = fld (x.w 6) 6 0 → ethLane s n = true → 60 ≤ x.len → x.len + 4 ≤ fget s (Reg.laneEthCtl n) 13 0 →
    (bit (x.w 6) 8 = true → fld (x.w 7) 15 0 + 8 ≤ x.len) →
    exec (.ethTx d io) s = .next (withInput t io x x.len (fun s b =>
      ethStart (editEth (editDesc s d (fun y => { y with st := 1, bound := some (0x4A, n) })) n
        (fun q => { q with txq := q.txq ++ [(d, b)] })) n))) ∧
  (∀ (lane : LaneId) (d : Nat) (f g : List Byte) (r : List (Nat × List Byte)) (p : Nat × Nat) (s t u : State),
    (eth s lane).txq = (d, f) :: r → t = ethStart s lane → (eth t lane).sending = true →
    p = stampForm t lane (((laneLat t lane).toNat / 65536 : Nat) : Int) →
    g = (match desc? t d with
      | some x => if bit (x.w 6) 8 then correct f (fld (x.w 7) 15 0) p.1 p.2 (x.w 8) else f
      | none => f) →
    u = heldLeave (ethSend (editEth t lane (fun e => { e with txq := r, sending := false })) lane g) lane →
    exec (.ethTxSent lane) s = .next (ethStart (completeOk u d (ethTxWord u lane p.2) (w32 p.1)) lane)) ∧
  (∀ (lane : LaneId) (f : EthRx) (io : HostIO) (s t u : State), ethLane s lane = true → laneState s lane = 4 →
    t = ethLoops s lane f.bytes → bget t (Reg.laneEthStatus lane) 0 = true →
    u = (if fecOn t lane then fecCounts t lane f.corr f.uncorr else t) →
    (ethTaken s lane f.bytes = none → exec (.ethFrameRx lane f io) s = .next u) ∧
    (∀ (g b : List Byte), ethTaken s lane f.bytes = some g → b = g.take (g.length - 4) →
      (g.length < 64 ∨ fget u (Reg.laneEthCtl lane) 13 0 < g.length ∨ g.drop (g.length - 4) ≠ ethFcs b →
        exec (.ethFrameRx lane f io) s = .next (count u (Reg.laneEthRxFcs lane) 1)) ∧
      (64 ≤ g.length → g.length ≤ fget u (Reg.laneEthCtl lane) 13 0 → g.drop (g.length - 4) = ethFcs b →
        (frame16 b 12 = 0x8808 → exec (.ethFrameRx lane f io) s = .next (count u (Reg.laneEthRxPause lane) 1)) ∧
        (∀ (v : State), frame16 b 12 ≠ 0x8808 → v = count u (Reg.laneEthRxOk lane) 1 →
          (∀ (k c : Nat) (x : Pw), pwOf v lane b = some (k, x, c) →
            exec (.ethFrameRx lane f io) s = .next (pwReceive v k x b c)) ∧
          (pwOf v lane b = none → exec (.ethFrameRx lane f io) s = .next
            (if hostFrame v lane b then hostDeliver v lane b io
              else count v (Reg.laneEthRxNomatch lane) 1)))))) ∧
  (∀ (d : Nat) (io : HostIO) (x : Desc) (s t : State), takeInput s d 0x48 = some (t, x) → bit (x.w 6) 31 = false →
    rangeBad s x = false → x.len = 0 → pwReason t (cfgWords x) x.len [] = none →
    exec (.pwCfg d io) s = .next (defer t x.id false (.pw (cfgWords x) []))) ∧
  (∀ (d : Nat) (io : HostIO) (x : Desc) (s t : State), takeInput s d 0x48 = some (t, x) → bit (x.w 6) 31 = false →
    rangeBad s x = false → 14 ≤ x.len → x.len ≤ 128 →
    exec (.pwCfg d io) s = .next (withInput t io x x.len (fun u b => match pwReason u (cfgWords x) x.len b with
      | some (r, n) => complete u x.id 3 (w32 r) (w32 n)
      | none => defer u x.id false (.pw (cfgWords x) b)))) ∧
  (∀ (d : Nat) (x : Desc) (s : State), takeDesc s d 0x48 = some x → bit (x.w 6) 31 = true → rangeBad s x = false →
    pwReason s (cfgWords x) x.len [] = none → exec (.pwRemove d) s = .next (defer s x.id false (.pw (cfgWords x) []))) ∧
  (∀ (n : Fin 16384) (x y : Pw) (s : State), pw? s n = some x → (8 * x.payload ≤ x.txBits.length ∨ pwIdle s n x = true) →
    y = { x with
      txBits := x.txBits.drop (8 * x.payload), seqTx := (x.seqTx + 1) % 65536, ipId := (x.ipId + 1) % 65536
      tsTx := (x.tsTx + (if x.ces then x.frames else 8 * x.payload)) % (2 ^ 32 * x.tsUnit) } →
    exec (.pwPacketTx n) s = .next (pwDue (setPw s n y) x.lane
      (n, pwFrame n x (pwL s n x) (fitBytes x.payload (bitsBytes (x.txBits.take (8 * x.payload)))) x.abcd))) ∧
  (∀ (n : Fin 16384) (x : Pw) (s : State), pw? s n = some x → x.st ≠ 2 →
    exec (.pwPlayout n) s = .next (setPw s n x.mute)) ∧
  (∀ (n : Fin 16384) (x z y : Pw) (p : PwPkt) (s : State), pw? s n = some x → x.st = 2 → x.played = true →
    s.hbm.rail4 = true → x.buf.find? (fun p => p.seq == x.e) = some p →
    z = Pw.plays { x with
      e := (x.e + 1) % 65536, freq := iclamp (-200000) 200000 (sgn 32 (freeNow s).toNat)
      buf := x.buf.filter (fun q => q.seq != x.e), playOk := !p.l, missRun := 0 } x.e p.data →
    y = (if p.sig.isEmpty then z else { z with casRx := p.sig }) →
    exec (.pwPlayout n) s = .next (if x.ces = false ∧ y.buf = [] then
      pwEvent (setPw (freeNext s) n y.recentre) n 5 false (w32 y.e) else setPw (freeNext s) n y)) ∧
  (∀ (n : Fin 16384) (x y : Pw) (s : State), pw? s n = some x → x.st = 2 → x.played = true →
    (s.hbm.rail4 = true → x.buf.find? (fun p => p.seq == x.e) = none) →
    y = (Pw.plays { x with
      e := (x.e + 1) % 65536, freq := iclamp (-200000) 200000 (sgn 32 (freeNow s).toNat), playOk := false
      missRun := x.missRun + 1 } x.e x.fill).tally 2 →
    exec (.pwPlayout n) s = .next (if fld x.w10 15 12 ≤ y.missRun then
      refreshConds (pwEvent (setPw (freeNext s) n (({ y with st := 3, buf := [], missRun := 0, inRun := 0 } : Pw).tally 7)) n 1
        true ((({ y with st := 3, buf := [], missRun := 0, inRun := 0 } : Pw).tally 7).cntOf 2))
      else setPw (freeNext s) n y))

/-- REF_MEASURE, REF_ACTIVITY_LOSS, REF_ACTIVITY_REGAIN, REF_WTR_EXPIRY, DPLL_DECISION, DPLL_LOCK_REACHED, LEHR_END,
DPLL_HISTORY_SAMPLE, OSCIN_STOP, OSCIN_RETURN (R267 to R279). -/
def Obligations.CandidatesAreMeasuredAndDpllsChoose : Prop :=
  (∀ (r : Fin 24) (ofs : Int) (s q t u : State), q = thaw s → bget q Reg.timOsc 1 = false → refActive q r = true →
    t = editRef (wr q (Reg.timRefOfs r) (i32 (trimmed q ofs))) r (fun x =>
      { x with samples := (sgn 32 (i32 (trimmed q ofs)).toNat :: x.samples).take 1000 }) →
    u = (if driftValid t r then wr t (Reg.timRefDrift r) (i32 (slope (refSt t r).samples)) else t) →
    exec (.refMeasure r ofs) s = .next (showTim (refStep u r)) ∧
    (refState u r = 1 → iabs (refOfs u r) ≤ tolHard u →
      exec (.refMeasure r ofs) s = .next (showTim (editRef u r (fun x => { x with wtr := x.wtr + 1 }))))) ∧
  (∀ (r : Fin 24) (s : State), r.val < 8 → refActive s r = true →
    exec (.refActivityLoss r) s = .next (showTim (loseRef s r))) ∧
  (∀ (r : Fin 24) (s : State), refOn s r = true → refActive s r = false → refSource s r = true →
    exec (.refActivityRegain r) s = .next (showTim (bset s (Reg.timRefStatus r) 2 true))) ∧
  (∀ (r : Fin 24) (s : State), s.tim.frozen = false → refState s r = 1 →
    fget s Reg.timMonWtr 9 0 ≤ (refSt s r).wtr → exec (.refWtrExpiry r) s = .next (showTim (setRefState s r
      (if decide (tolSoft s < iabs (refOfs s r)) || driftHigh s r then 3 else 2)))) ∧
  (∀ (d : Fin 4) (phase : Int) (s q u : State), q = (List.range 24).foldl refreshQl (takeTim s) →
    u = (if q.tim.frozen then decideFrozen q d else editDpll (decide4 q d phase) d (fun x =>
      { x with modeNew := false, early := false, sinceVol := min 100 (x.sinceVol + b2n (!x.early)) })) →
    exec (.dpllDecision d phase) s = .next (showTim
      (if bget u (Reg.timDpllStatus d) 12 = true ∧ (dpllSt u d).real = true then
        wr u (Reg.timDpllPhase d) (i32 (refShortWay u (dpllRef u d) phase)) else u))) ∧
  (∀ (d : Fin 4) (phase : Int) (s q t u v : State), q = (List.range 24).foldl refreshQl (takeTim s) →
    q.tim.frozen = false → t = editDpll (showVote q d [] []) d (fun x => { x with want := 31, wantRun := 0 }) →
    (dpllMode q d = 1 ∧ refActive t (fget t (Reg.timDpllCtl d) 6 2) = true ∧
        dpllRef t d ≠ fget t (Reg.timDpllCtl d) 6 2 ∧ u = enterRef t d (fget t (Reg.timDpllCtl d) 6 2) 3 phase ∨
      dpllMode q d = 2 ∧ dpllState t d ≠ 1 ∧ u = enterHoldover t d 3 false ∨
      dpllMode q d = 3 ∧ dpllState t d ≠ 0 ∧ u = enterFree t d) →
    v = editDpll u d (fun x =>
      { x with modeNew := false, early := false, sinceVol := min 100 (x.sinceVol + b2n (!x.early)) }) →
    (dpllSt v d).real = false → exec (.dpllDecision d phase) s = .next (showTim v)) ∧
  (∀ (d : Fin 4) (phase : Int) (s q : State), q = (List.range 24).foldl refreshQl (takeTim s) → q.tim.frozen = true →
    (dpllRef q d = 31 ∨ refActive q (dpllRef q d) = true) → bget q (Reg.timDpllStatus d) 12 = false →
    exec (.dpllDecision d phase) s = .next (showTim q)) ∧
  (∀ (d : Fin 4) (s : State), dpllState s d = 2 → bget s (Reg.timDpllStatus d) 12 = false →
    exec (.dpllLockReached d) s =
      .next (timEvent (editDpll (fset s (Reg.timDpllStatus d) 2 0 3) d (fun x => { x with whole := false })) (0x118 + d) 0x10 d (2 ^ 13 * 3) (w32 (dpllRef s d)))) ∧
  (∀ (d : Fin 4) (moved : Int) (s : State), bget s (Reg.timDpllStatus d) 12 = true →
    exec (.lehrEnd d moved) s = .next (timEvent (wr (bset s (Reg.timDpllStatus d) 12 false) (Reg.timDpllPhase d) 0)
      (0x118 + d.val) 0x13 d 0 (i32 (if (dpllSt s d).real then
        refShortWay s (dpllRef s d) moved else iclamp (-50) 50 moved)))) ∧
  (∀ (d : Fin 4) (freq f : Int) (good : Bool) (s t : State), t = thaw s → t.tim.frozen = false →
    f = sampleFreq t d freq → good = (dpllState t d == 3 && dpllRef t d != 31 && refState t (dpllRef t d) == 2) →
    exec (.dpllHistorySample d freq) s = .next (showTim (editDpll (wr t (Reg.timDpllFreq d) (i32 f)) d (fun x =>
      { x with freq := f, whole := good
               hist := if dpllState t d = 0 then []
                 else ((f, good && (dpllSt t d).whole, dpllRef t d) :: x.hist).take 2048 })))) ∧
  (∀ (s t : State), bget s Reg.timOsc 1 = false →
    t = timEvent (bset s Reg.timOsc 1 true) 0x120 0x30 0 (2 ^ 15) 0 →
    exec .oscinStop s = .next (showTim { t with tim := { t.tim with frozen := true } })) ∧
  (∀ (s : State), bget s Reg.timOsc 1 = true →
    exec .oscinReturn s = .next (timEvent (bset s Reg.timOsc 1 false) 0x120 0x30 0 0 0))

/-- TIM_REF_CFG_WRITE, DPLL_CTL_WRITE, FPOUT_CTL_WRITE, FPOUT_REHEEL, HEEL_SOURCE_PULSE, HEEL_LOST, FPOUT_MOVE_END (R266,
R273, R281, R282). -/
def Obligations.TimingWritesAndHeelsTakeEffect : Prop :=
  (∀ (r : Fin 24) (v : Word) (s t : State), hostDeaf s = false → regLocked s = false → replay s = false → refCfgBad s r v = false →
    t = wr s (Reg.timRefCfg r) (v &&& 0x1FFFFF7F) →
    ((v ^^^ rd s (Reg.timRefCfg r)) &&& 0xFFFF7F = 0 → exec (.timRefCfgWrite r v) s = .next (showTim t)) ∧
    ((v ^^^ rd s (Reg.timRefCfg r)) &&& 0xFFFF7F ≠ 0 →
      exec (.timRefCfgWrite r v) s = .next (showTim (loseRef t r)))) ∧
  (∀ (d : Fin 4) (v : Word) (s : State), hostDeaf s = false → regLocked s = false → replay s = false → dpllBad d 0 v = false →
    (fld (v ^^^ rd s (Reg.timDpllCtl d)) 1 0 ≠ 0 ∨ fld v 1 0 = 1 ∧ fld (v ^^^ rd s (Reg.timDpllCtl d)) 6 2 ≠ 0) →
    exec (.dpllCtlWrite d 0 v) s =
      .next (editDpll (wr s (Reg.timDpllCtl d) (v &&& 0x3FFFFF)) d (fun x => { x with modeNew := true }))) ∧
  (∀ (d : Fin 4) (v : Word) (s : State), hostDeaf s = false → regLocked s = false → replay s = false → dpllBad d 1 v = false →
    exec (.dpllCtlWrite d 1 v) s = .next (wr s (Reg.timDpllBw d) (v &&& 0xFFFFF))) ∧
  (∀ (d : Fin 4) (v : Word) (s : State), hostDeaf s = false → regLocked s = false → replay s = false → dpllBad d 2 v = false →
    exec (.dpllCtlWrite d 2 v) s = .next (wr s (Reg.timDpllLehr d) (v &&& 0x7FF))) ∧
  (∀ (d : Fin 4) (v : Word) (s : State), hostDeaf s = false → regLocked s = false → replay s = false →
    exec (.dpllCtlWrite d 3 v) s = .next (wr s (Reg.timDpllPrio0 d) (v &&& 0xFFFFFFFF)) ∧
    exec (.dpllCtlWrite d 4 v) s = .next (wr s (Reg.timDpllPrio1 d) (v &&& 0xFFFFFFFF)) ∧
    exec (.dpllCtlWrite d 5 v) s = .next (wr s (Reg.timDpllPrio2 d) (v &&& 0xFFFFFFFF))) ∧
  (∀ (j : Fin 4) (v old : Word) (at_ : Int) (s t : State), hostDeaf s = false → regLocked s = false → replay s = false → fpBad s v = false →
    old = rd s (Reg.timFpoutCtl j) → t = wr s (Reg.timFpoutCtl j) ((old &&& 0xF00000) ||| (v &&& 0xFFFFF)) →
    (bit v 0 = false → exec (.fpoutCtlWrite j v at_) s = .next (bset t (Reg.timFpoutCtl j) 23 false)) ∧
    (bit v 0 = true → bit old 0 = false →
      exec (.fpoutCtlWrite j v at_) s = .next (takeHeel t j (heelPoint t j at_) true)) ∧
    (bit v 0 = true → bit old 0 = true → bit v 20 = true ∨ fld (v ^^^ old) 9 5 ≠ 0 →
      exec (.fpoutCtlWrite j v at_) s = .next (takeHeel t j (heelPoint t j at_) false))) ∧
  (∀ (j : Fin 4) (at_ : Int) (s : State), hostDeaf s = false → regLocked s = false → replay s = false → bget s (Reg.timFpoutCtl j) 0 = true →
    exec (.fpoutReheel j at_) s = .next (takeHeel s j (heelPoint s j at_) false)) ∧
  (∀ (j : Fin 4) (dev : Int) (s t : State), heelRuns s j = true → t = setHeelLost s j false →
    (bget t (Reg.timFpoutCtl j) 10 = false → exec (.heelSourcePulse j dev) s = .next t) ∧
    (bget t (Reg.timFpoutCtl j) 10 = true → 8 < iabs dev → 2 ≤ (fpSt t j).dev →
      exec (.heelSourcePulse j dev) s = .next (takeHeel t j ((fpSt t j).heel + dev) false))) ∧
  (∀ (j : Fin 4) (s : State), heelRuns s j = true →
    exec (.heelLost j) s = .next (setHeelLost (editFp s j (fun x => { x with dev := 0 })) j true)) ∧
  (∀ (j : Fin 4) (s : State), exec (.fpoutMoveEnd j) s = .next (bset s (Reg.timFpoutCtl j) 23 false))

/-- PPS_TICK, TIME_WRAP, TOD_NS_READ, SERVO_SAMPLE, SERVO_HOLDOVER_TIMEOUT, TOD_LOCK_EXPIRY, TIME_SET_SET, TIME_SET_STEP,
TIME_SET_RATE, TIME_SET_OFFSET, TIME_SET_REACQUIRE, TIME_SET_APPLY (R287 to R297; log entry 1). -/
def Obligations.TimeCounterCountsAndTakesItsCorrections : Prop :=
  (∀ (s t : State), inReset s = false → t = setsPass s →
    (t.glb.second ≠ s.glb.second → exec .ppsTick s = .next t) ∧
    (t.glb.second = s.glb.second → exec .ppsTick s = .next (countOn 3 t (ticksToPps t.tod)) ∧
      (0 < ticksToPps t.tod → ticksToPps t.tod < ticksToWrap t.tod →
        exec .ppsTick s = .next (ppsEffect { t with tod := t.tod.count (ticksToPps t.tod) })))) ∧
  (∀ (s t : State), inReset s = false → t = setsPass s →
    (t.tod.wraps ≠ s.tod.wraps → exec .timeWrap s = .next t) ∧
    (t.tod.wraps = s.tod.wraps → exec .timeWrap s = .next (countOn 7 t (ticksToWrap t.tod)) ∧
      (0 < ticksToWrap t.tod → ticksToWrap t.tod < ticksToPps t.tod →
        exec .timeWrap s = .next (raise { t with tod := t.tod.count (ticksToWrap t.tod) } 0x140 1
          (t.tod.count (ticksToWrap t.tod)).wraps)))) ∧
  (∀ (s : State), hostDeaf s = false → regLocked s = false → replay s = false →
    exec .todNsRead s = .next (readOut { s with tod := { s.tod with
      latFrac := s.tod.acc.extractLsb' 0 32, latSub := w32 s.tod.subsec, latWraps := s.tod.wraps } } Reg.todNs (nsNow s))) ∧
  (∀ (o : Int) (s t : State), s.tod.servo = 1 →
    refPps s (fget s Reg.todPps 2 0) = true → refActive s (fget s Reg.todPps 2 0) = true → o = sampleNow s →
    t = wr { s with tod := { s.tod with sampled := s.tod.ticks } } Reg.todOfs
      (i32 (iclamp (-2147483647) 2147483647 (o / 8))) →
    (servoState t = 2 ∨ servoState t = 3 → exec .servoSample s = .next (trackStep t o)) ∧
    (servoState t = 4 → exec .servoSample s =
      .next (trackStep (setServo { t with tod := { t.tod with okRun := 0, badRun := 0 } } 2) o)) ∧
    (servoState t = 1 → exec .servoSample s = .next (acquireStep t o (extNow s)).1) ∧
    (servoState t = 1 → t.tod.samples = [] →
      exec .servoSample s = .next { t with tod := { t.tod with samples := [(o, extNow s)] } })) ∧
  (∀ (s t : State), s.tod.servo ≠ 0 → (servoState s = 2 ∨ servoState s = 3) → t = elapse s (sampleDue s) →
    exec .servoHoldoverTimeout s = .next (servoHolds t) ∧
    (servoTracks t = true → exec .servoHoldoverTimeout s =
      .next (setServo { t with tod := { t.tod with inc := t.tod.integ, okRun := 0, badRun := 0 } } 4))) ∧
  (∀ (s t : State), s.tod.servo = 0 → servoState s = 3 → t = elapse s s.tod.lockEnd →
    (hostLocked t = true → exec .todLockExpiry s = .next (setServo t 0)) ∧
    (hostLocked t = false → exec .todLockExpiry s = .next t)) ∧
  (∀ (d : Nat) (x : Desc) (s t : State), takeDesc s d 0x50 = some x → setReason s x = none →
    t = setDesc { s with tod := { s.tod with waiting := s.tod.waiting ++ [d] } } d 1 →
    (setKind x = 0 → exec (.timeSetSet d) s = .next t) ∧ (setKind x = 1 → exec (.timeSetStep d) s = .next t) ∧
    (setKind x = 2 → exec (.timeSetRate d) s = .next t) ∧ (setKind x = 3 → exec (.timeSetOffset d) s = .next t) ∧
    (setKind x = 4 → exec (.timeSetReacquire d) s = .next t)) ∧
  (∀ (d : Nat) (r : List Nat) (x : Desc) (s t u : State), s.tod.waiting = d :: r → s.mtx.held = true →
    t = setDesc { s with tod := { s.tod with waiting := r } } d 2 → desc? s d = some x →
    (setKind x = 0 →
      u = stepTo t (BitVec.ofNat 64 ((x.w 7).toNat * 2 ^ 32 + (x.w 9).toNat)) (x.w 8).toNat t.tod.inc.toNat →
      exec .timeSetApply s = .next (completeOk (hostLock (noteStep u) x) d (nsNow t) (nsNow u))) ∧
    (setKind x = 1 → u = stepBy t t.tod.inc.toNat
        (sgn 64 ((x.w 7).toNat + 2 ^ 32 * (x.w 8).toNat) * 2 ^ 32 + ((x.w 9).toNat : Int)) →
      exec .timeSetApply s = .next (completeOk (hostLock (noteStep u) x) d (nsNow t) (nsNow u))) ∧
    (setKind x = 2 → u = setInc (countTicks t 1) (BitVec.ofNat 64 ((x.w 7).toNat + 2 ^ 32 * (x.w 8).toNat)) →
      exec .timeSetApply s = .next (completeOk (hostLock u x) d (nsNow u) 0)) ∧
    (∀ (q : State × Bool), setKind x = 3 → u = countTicks t 1 →
      q = servoStep u (foldOffset (8 * sgn 32 (x.w 7).toNat)) (extNow u - (nsNow u - x.w 8).toNat) →
      exec .timeSetApply s = .next (completeOk q.1 d (w32 (b2n q.2)) (w32 (servoState q.1)))) ∧
    (setKind x = 4 → exec .timeSetApply s = .next (completeOk (acquire (countTicks t 1)) d 0 0)))

/-- RING_CFG_WRITE, RING_ENABLE, RING_DISABLE, RING_DISABLE_DONE, FETCH_ERROR, DOORBELL_PRODUCER, DOORBELL_CONSUMER,
DESCRIPTOR_FETCH, NOP, FENCE, ABORT, BUS_MASTER_ENABLE, BUS_MASTER_DISABLE, PCIE_LINK_UP, MSIX_VECTOR_UNMASK (R305 to R328). -/
def Obligations.RingsFetchAndTakeDoorbells : Prop :=
  (∀ (n : RingId) (v : Word) (s : State), hostDeaf s = false → regLocked s = false → replay s = false → ringEn s n = false → inService s = false →
    exec (.ringCfgWrite n 0 v) s = .next (wr s (Reg.ringBaseLo n) (v &&& 0xFFFFF000)) ∧
    exec (.ringCfgWrite n 1 v) s = .next (wr s (Reg.ringBaseHi n) (v &&& 0xFFFFFFFF)) ∧
    (6 ≤ fld v 4 0 → fld v 4 0 ≤ 16 → fld v 6 5 ≠ 3 → (n.val < 4 → fld v 6 5 = ringClass s n) →
      exec (.ringCfgWrite n 2 v) s = .next (wr s (Reg.ringCfg n) (v &&& 0x1FFFFFFF)))) ∧
  (∀ (n : RingId) (s t u : State), hostDeaf s = false → regLocked s = false → replay s = false → ringEn s n = false →
    enableRefused s n = false →
    t = editRing (wr (wr (wr s (Reg.ringCtl n) 1) (Reg.ringProd n) 0x10000) (Reg.ringCons n) 0) n (fun _ => {}) →
    u = { t with evt := { t.evt with seq := Tab.drop t.evt.seq n, unann := Tab.drop t.evt.unann n } } →
    (ringClass u n ≠ 2 → exec (.ringEnable n) s = .next u) ∧
    (ringClass u n = 2 → exec (.ringEnable n) s = .next (flushEvents u))) ∧
  (∀ (n : RingId) (s t : State), hostDeaf s = false → regLocked s = false → replay s = false →
    ((n.val ≠ 1 ∧ n.val ≠ 3) ∨ (enabledOf s 0).isEmpty = true) → ringEn s n = true → ringBusy s n = false →
    t = wr s (Reg.ringCtl n) 0 →
    (ringClass s n = 2 → exec (.ringDisable n) s =
      .next (flushEvents { t with evt := { s.evt with unann := Tab.drop s.evt.unann n } })) ∧
    (ringClass s n ≠ 2 → disableDone s n = true → exec (.ringDisable n) s = .next t) ∧
    (ringClass s n ≠ 2 → disableDone s n = false → exec (.ringDisable n) s = .next (bset s (Reg.ringCtl n) 1 true))) ∧
  (∀ (n : RingId) (s : State), ringBusy s n = true → disableDone s n = true →
    exec (.ringDisableDone n) s = .next (wr s (Reg.ringCtl n) 0)) ∧
  (∀ (n : RingId) (s : State), mayFetch s = true → ringReady s n = true → exec (.fetchError n) s =
    .next (raise (setFault (wr (disableRing s n) Reg.hifFaultRing (w32 n)) 0) 0x680 3 (w32 n))) ∧
  (∀ (n : RingId) (b : Nat) (w : Word) (s : State), hostDeaf s = false → 4 ≤ b → replay s = true ∨ s.rng.bme = false →
    (ringClass s n = 0 →
      exec (.doorbellProducer n b w) s = .next (editRing s n (fun r => { r with dbs := r.dbs ++ [fld w 15 0] }))) ∧
    (ringClass s n ≠ 0 →
      exec (.doorbellConsumer n b w) s = .next (editRing s n (fun r => { r with dbs := r.dbs ++ [fld w 15 0] })))) ∧
  (∀ (n : RingId) (b : Nat) (w : Word) (s : State), hostDeaf s = false → 4 ≤ b → replay s = false → s.rng.bme = true →
    ringEn s n = true → fld w 15 0 < ringSize s n →
    (ringClass s n = 0 → exec (.doorbellProducer n b w) s = .next (fset s (Reg.ringProd n) 15 0 (fld w 15 0))) ∧
    (∀ (t : State), (fld w 15 0 + ringSize s n - ringCons s n) % ringSize s n ≤ ringUsed s n →
      t = wr s (Reg.ringCons n) (w32 (fld w 15 0)) →
      (ringClass s n ≠ 0 → fld w 15 0 = ringCons s n → exec (.doorbellConsumer n b w) s = .next s) ∧
      (ringClass s n = 1 → ringClass t n = 1 → fld w 15 0 ≠ ringCons s n →
        exec (.doorbellConsumer n b w) s = .next (flushCpl (bset t (Reg.ringCtl n) 2 false))) ∧
      (2 ≤ ringClass s n → ringClass t n ≠ 1 → fld w 15 0 ≠ ringCons s n →
        exec (.doorbellConsumer n b w) s = .next (flushEvents t)))) ∧
  (∀ (n : RingId) (words : List Word) (d : Desc) (s q t : State), mayFetch s = true → passAborted s = s →
    ringReady s n = true → inFlight s < fetchLimit n → ringTurn s n = true →
    d = { id := s.rng.next, ring := n, idx := ringCons s n, words := words, mode := mode s } →
    q = askHost s (ringAddr s n d.idx) 64 → t = addDesc (editRing (passEntry q n) n (fun r => { r with rotate := q.rng.next })) d → fetchReason t d = none →
    t.pwr.st = 2 → exec (.descriptorFetch n words) s = .next t) ∧
  (∀ (d : Nat) (x : Desc) (s : State), takeDesc s d 0 = some x → exec (.nop d) s = .next (completeOk s d 0 0)) ∧
  (∀ (d : Nat) (x : Desc) (s : State), takeDesc s d 1 = some x → exec (.fence d) s = .next (completeOk s d 0 0)) ∧
  (∀ (d : Nat) (entry : List Word) (a t : Desc) (s : State), desc? s d = some a → a.op = 2 → a.st = 0 →
    a.frozen = false → s.mtx.held = true → ringClass s (fld (a.w 6) 11 0) = 0 →
    fld (a.w 6) 31 16 < ringSize s (fld (a.w 6) 11 0) →
    s.rng.descs.find? (fun t => t.ring == fld (a.w 6) 11 0 && t.idx == fld (a.w 6) 31 16 && t.w 1 == a.w 7 &&
      t.op != 2) = some t → t.st < 2 →
    exec (.abort d entry) s = .next (complete (detach (awaitTarget s a.id t.id true) t.id) t.id 1 0 0)) ∧
  (∀ (cfg : PcieCfg) (io : HostIO) (s t : State), s.rng.linkUp = true → s.rng.bme = false →
    t = sendPending (flushEvents (flushCpl (bset { s with rng := { s.rng with
      bme := true, cfg := { cfg with d3 := false } } } Reg.hifStatus 17 true))) →
    (replay t = false → exec (.busMasterEnable cfg io) s = .next (actResumes (actDoorbells t) io)) ∧
    (replay t = true → exec (.busMasterEnable cfg io) s = .next t)) ∧
  (∀ (d3 : Bool) (s : State), exec (.busMasterDisable d3) s =
    .next (bset { s with rng := { s.rng with bme := false, cfg := { s.rng.cfg with d3 := d3 } } } Reg.hifStatus 17 false)) ∧
  (∀ (s : State), s.pwr.st ≠ 0 → exec .pcieLinkUp s = .next { s with rng := { s.rng with linkUp := true } }) ∧
  (∀ (v : Fin 65) (s : State), hostDeaf s = false → regLocked s = false → exec (.msixVectorUnmask v) s =
    .next (sendPending { s with evt := { s.evt with vmask := setDel s.evt.vmask v } }))

/-- XLAT_CONFIG_WRITE, TLB_INVALIDATE, TLB_INV_DONE, RESUME_DOORBELL, KENNEL_TIMEOUT, BULK_CHECKPOINT, ENGINE_TAKE (R335 to
R347). -/
def Obligations.TranslationsKennelAndEnginesAct : Prop :=
  (∀ (v : Word) (s : State), hostDeaf s = false → regLocked s = false → replay s = false → inService s = false →
    exec (.xlatConfigWrite 0 v) s = .next (invalidate (wr s Reg.hifXlatRootLo (v &&& 0xFFFFF000)) 0x80000000) ∧
    exec (.xlatConfigWrite 1 v) s = .next (invalidate (wr s Reg.hifXlatRootHi (v &&& 0xFFFFFFFF)) 0x80000000) ∧
    (9 ≤ fld v 12 8 → fld v 12 8 ≤ 17 →
      exec (.xlatConfigWrite 2 v) s = .next (invalidate (wr s Reg.hifXlatCtl (v &&& 0x1F01)) 0x80000000))) ∧
  (∀ (v : Word) (s : State), hostDeaf s = false → regLocked s = false → replay s = false → s.xlat.inv = none → fld v 31 30 ≠ 3 →
    exec (.tlbInvalidate v) s = .next (bset
      { s with xlat := { s.xlat with tlb := tlbOutside v s.xlat.tlb, inv := some v } } Reg.hifXlatStatus 0 true)) ∧
  (∀ (s : State), s.xlat.inv.isSome = true →
    exec .tlbInvDone s = .next (bset { s with xlat := { s.xlat with inv := none } } Reg.hifXlatStatus 0 false)) ∧
  (∀ (b : Nat) (w : Word) (io : HostIO) (k : Knl) (s : State), hostDeaf s = false → 4 ≤ b → bit w 31 = true →
    ((replay s = true ∨ s.rng.bme = false) → exec (.resumeDoorbell none b w io) s =
      .next { s with rng := { s.rng with resumes := s.rng.resumes ++ [(none, some (fld w 7 0))] } }) ∧
    (replay s = false → s.rng.bme = true → ringEn s 3 = true → Tab.find? s.xlat.knl (fld w 7 0) = some k →
      exec (.resumeDoorbell none b w io) s = .next (resumeSlot s io (fld w 7 0)) ∧
      (k.st ≠ 1 → exec (.resumeDoorbell none b w io) s = .next s) ∧
      (k.st = 1 → xlatEn s = false → k.data.isEmpty = true →
        exec (.resumeDoorbell none b w io) s = .next (knlPut s (fld w 7 0) { k with st := 3 })))) ∧
  (∀ (b c : Nat) (v w : Word) (io : HostIO) (s t : State), hostDeaf s = false → 4 ≤ b → 4 ≤ c → bit w 31 = true →
    ((replay s = true ∨ s.rng.bme = false) → exec (.resumeDoorbell (some (c, v)) b w io) s =
      .next { s with rng := { s.rng with resumes := s.rng.resumes ++ [(some (fld v 15 0), some (fld w 7 0))] } }) ∧
    (replay s = false → s.rng.bme = true → indexKind s 3 (fld v 15 0) = none → t = indexAct s 3 (fld v 15 0) →
      resumeKind t (fld w 7 0) = none →
      exec (.resumeDoorbell (some (c, v)) b w io) s = .next (resumeSlot t io (fld w 7 0)))) ∧
  (∀ (i : Fin 256) (k : Knl) (x : Desc) (s t : State), Tab.find? s.xlat.knl i = some k → k.st = 1 →
    fget s Reg.hifKnlTimeout 15 0 ≠ 0 → t = elapse s (k.since + fget s Reg.hifKnlTimeout 15 0 * 500000) →
    desc? t k.d = some x →
    exec (.kennelTimeout i) s = .next (unresolved (raise (knlDrop t i) 0x682 (w32 (3 + 256 * i.val)) (x.w 1)) k)) ∧
  (∀ (e : Fin 4) (io : HostIO) (g : Eng) (s : State), Tab.find? s.xlat.engs e = some g → frozenDesc s g.d = false →
    ((bulkOf s g.d).atCheck = false → exec (.bulkCheckpoint e io) s = .next (readyUp (runBulk s io g.d))) ∧
    ((bulkOf s g.d).atCheck = true → g.preempt = true → mayPark s = true →
      exec (.bulkCheckpoint e io) s = .next (readyUp (engTake (preempt s e g) io e))) ∧
    ((bulkOf s g.d).atCheck = true → g.preempt = false → exec (.bulkCheckpoint e io) s = .next (readyUp (runBulk
      { s with xlat := { s.xlat with engs := Tab.put s.xlat.engs e { g with preempt := false } } } io g.d)))) ∧
  (∀ (e : Fin 4) (io : HostIO) (d : Nat) (s : State), Tab.find? s.xlat.engs e = none → nextWork s = some d →
    frozenDesc s d = false → exec (.engineTake e io) s = .next (readyUp (engRun s io e d)))

/-- EVT_ROUTE_WRITE, EVT_COAL_WRITE, COALESCE_TIMEOUT, EVT_TEST_FIRE, HELD_RECORD_FLUSH, COUNTER_CARRY, CHAIN_CFG_WRITE,
CHAIN_HI_WRITE, CHAIN_HI_READ, SNAP_SEQ_READ, PMHIST_WRITE (R350 to R364). -/
def Obligations.EventsAnnounceAndCountersChain : Prop :=
  (∀ (n : Fin 2048) (v : Word) (s : State), hostDeaf s = false → regLocked s = false → replay s = false → ringClass s (fld v 11 0) = 2 →
    (bit v 12 = true → exec (.evtRouteWrite n v) s = .next (flushEvents (wr s (Reg.evtRoute n) (v &&& 0xFFFF)))) ∧
    (bit v 12 = false → n.val ≠ 0x681 →
      exec (.evtRouteWrite n v) s = .next (flushEvents (setHeld (wr s (Reg.evtRoute n) (v &&& 0xFFFF)) n [])))) ∧
  (∀ (v : Fin 64) (w : Word) (r : Nat) (s t : State), hostDeaf s = false → regLocked s = false → replay s = false → fld w 7 0 ≠ 0 →
    t = wr s (Reg.evtCoal v) (w &&& 0x3FFFFFF) →
    (vectorRing t v = none → exec (.evtCoalWrite v w) s = .next t) ∧
    (vectorRing t v = some r → coalDue t r w = true → exec (.evtCoalWrite v w) s = .next (signal t r))) ∧
  (∀ (v : Fin 64) (r : Nat) (s t : State), vectorRing s v = some r → fget s (Reg.evtCoal v) 23 8 ≠ 0 →
    (Tab.get s.evt.unann r {}).n ≠ 0 →
    t = elapse s ((Tab.get s.evt.unann r {}).since + fget s (Reg.evtCoal v) 23 8 * 500) →
    (∀ (p : Nat × Nat), coalAt t v = some p → exec (.coalesceTimeout v) s = .next (signal t p.2)) ∧
    (coalAt t v = none → exec (.coalesceTimeout v) s = .next t)) ∧
  (∀ (v : Word) (s : State), hostDeaf s = false → regLocked s = false → replay s = false → bit v 31 = true →
    exec (.evtTestFire v) s = .next (raise s (fld v 10 0) 0xFF 0)) ∧
  (∀ (s : State), exec .heldRecordFlush s = .next (flushEvents s)) ∧
  (∀ (off n : Nat) (s : State), rawCounter off = true → n < 2 ^ 32 → 2 ^ 32 ≤ (rd s off).toNat + n →
    exec (.counterCarry off n) s = .next (carry (wr s off (w32 ((rd s off).toNat + n))) off)) ∧
  (∀ (k : Fin 256) (v : Word) (s t : State), hostDeaf s = false → regLocked s = false → replay s = false → chainRefused s k v = false →
    t = wr s (Reg.pmChainCfg k) (v &&& 0x83FFFFFF) →
    ((bit v 31 = true ∧ bit (rd s (Reg.pmChainCfg k)) 31 = false) ∨
        fld v 25 0 ≠ fld (rd s (Reg.pmChainCfg k)) 25 0 →
      exec (.chainCfgWrite k v) s = .next (bset (wr t (Reg.pmChainHi k) 0) (Reg.pmChainSt k) 0 false)) ∧
    (bit v 31 = false → fld v 25 0 = fld (rd s (Reg.pmChainCfg k)) 25 0 → exec (.chainCfgWrite k v) s = .next t)) ∧
  (∀ (k : Fin 256) (v : Word) (s : State), hostDeaf s = false → regLocked s = false → replay s = false →
    exec (.chainHiWrite k v) s = .next (wr s (Reg.pmChainHi k) v)) ∧
  (∀ (k : Fin 256) (s : State), hostDeaf s = false → regLocked s = false → replay s = false → exec (.chainHiRead k) s = .next (readOut
    (bset s (Reg.pmChainSt k) 1 (bget s (Reg.pmChainSt k) 0)) (Reg.pmChainHi k) (rd s (Reg.pmChainHi k)))) ∧
  (∀ (r : Word × Word × Word) (s : State), hostDeaf s = false → regLocked s = false → replay s = false →
    r = snapRegs s.pm.snap (fget s Reg.pmSnapAddr 25 0) →
    exec .snapSeqRead s = .next (readOut
      { s with pm := { s.pm with latVal := r.1, latHi := r.2.1, latStat := r.2.2 } } Reg.pmSnapSeq (w32 s.pm.seq))) ∧
  (∀ (l : List Snap) (s t : State), s.pm.toWrite = l → t = { s with pm := { s.pm with toWrite := [] } } →
    exec .pmhistWrite s = .next (l.foldl histPut t) ∧
    (∀ (x y : Snap) (n : Nat) (u : State), l = [x] → n = histSlot t → n ≠ 0 → u = regionWritten t 3 (x.seq % 3600 * n) n →
      y = { x.fit (n / 64 - 1) with off := x.seq % 3600 * n, size := n } → exec .pmhistWrite s =
        .next { u with pm := { u.pm with hist := y :: u.pm.hist.filterMap (Snap.under (x.seq % 3600 * n) n) } }))

/-- HEARTBEAT, LEASH_LAPSE, CONTROL_LOST, LEASH_CLAIM, CLAIM_WINDOW_END, PLANNED_HANDOVER, LEASH_RELEASE, HALF_BOOT_DONE,
BOOT_FAIL_TIMEOUT (R365 to R371, R427). -/
def Obligations.LeashPassesBetweenTheHalves : Prop :=
  (∀ (s : State), halfState s (holder s) = 3 → exec (.heartbeat (holder s)) s =
    .next (bset { s with mtx := { s.mtx with beat := some s.tod.ticks } } Reg.mtxHalf 7 false)) ∧
  (∀ (b : Nat) (s t : State), s.mtx.held = true → s.mtx.beat = some b → t = elapse s (b + 5000000) →
    exec .leashLapse s = .next { bset t Reg.mtxHalf 7 true with
      mtx := { t.mtx with held := false, vacant := 1, lapse := t.tod.ticks } }) ∧
  (∀ (s t : State), s.mtx.held = false → s.mtx.vacant = 1 → t = elapse s (s.mtx.lapse + 10000000) →
    exec .controlLost s = .next (raise (setFault t 2) 0x700 4 (epochNow t))) ∧
  (∀ (h : Bool) (e : Word) (s t : State), (halfState s h = 2 ∨ halfState s h = 3) → t = wr s (claimReg h) e →
    (t.mtx.held = false → (epochNow t).toNat < e.toNat → exec (.leashClaim h e) s =
      .next (bset { t with mtx := { t.mtx with claims := t.mtx.claims ++ [(h, e)] } } Reg.mtxClaimRes 3 false)) ∧
    ((t.mtx.held = true ∨ e.toNat ≤ (epochNow t).toNat) → exec (.leashClaim h e) s =
      .next (raise (bset (bset t Reg.mtxClaimRes 3 true) Reg.mtxClaimRes 4 h) 0x700 (w32 (3 + 256 * b2n h)) e))) ∧
  (∀ (w : Bool) (e : Nat) (s t : State), decideClaims s = some (w, e, 1, 0) →
    t = grant (bset (fset s Reg.mtxClaimRes 1 0 1) Reg.mtxClaimRes 2 w) w e false → replay t = false →
    exec .claimWindowEnd s = .next (grantWaits (flushEvents
      { stopAll t false with mtx := { (stopAll t false).mtx with recover := true } }))) ∧
  (∀ (v : Word) (s : State), hostDeaf s = false → regLocked s = false → replay s = false → bit v 3 = true → s.mtx.held = true →
    halfState s (!holder s) = 2 →
    s.mtx.handover = false →
    exec (.plannedHandover v) s = .next { s with mtx := { s.mtx with handover := true } }) ∧
  (∀ (s : State), s.mtx.handover = true → s.mtx.held = true → exec .leashRelease s =
    .next (claim { s with mtx := { s.mtx with held := false, vacant := 2 } } (!holder s) (epochNow s + 1))) ∧
  (∀ (h : Bool) (i : Nat) (c : BootCheck) (s : State), halfState s h = 1 → s.pwr.extFail = false → s.pwr.inForce = true →
    i = fget s Reg.glbBoot 0 0 →
    (slotPasses s c i = true → exec (.halfBootDone h c) s =
      .next (bootServed (setHalf (bset (reloaded s (bootSlot c i)) Reg.mtxCtl (b2n h) true) h 2))) ∧
    (slotPasses s c i = false → exec (.halfBootDone h c) s = .next (bootServed (setHalf s h 4)))) ∧
  (∀ (h fell : Bool) (i : Nat) (c : BootCheck) (s t : State), halfState s h = 1 → s.pwr.extFail = false →
    s.pwr.inForce = false → bootChoice s c = some (i, fell) → t = putInForce s i fell c →
    exec (.halfBootDone h c) s = .next (bootServed (setHalf (bset t Reg.mtxCtl (b2n h) true) h 2))) ∧
  (∀ (s : State), s.pwr.st ≠ 0 → halfState s false = 4 → halfState s true = 4 →
    exec .bootFailTimeout s = .next (setFault (elapse s (s.pwr.ctlAt + 500000000)) 2))

/-- MATRIX_ACCESS, LOCKED_READ, LOCK_TIMEOUT, DEBUG_SESSION_END, MAILBOX_HOST_WRITE, MAILBOX_SUPERVISOR_WRITE (R372 to R382). -/
def Obligations.MatrixServesItsMasters : Prop :=
  (∀ (a : Access) (w : MtxWait) (s t : State),
    t = release (grantWaits (release s (fun w => w.acc.master == a.master))) (fun _ => true) →
    w = { acc := a, lock := false, tgt := targetOf t a.master a.addr.toNat } → matrixOn t a = true →
    (errorKind t w = none → canServe t w = true → exec (.matrixAccess a) s = .next (grantWaits (serve t w))) ∧
    (∀ (k : Nat), errorKind t w = some k → exec (.matrixAccess a) s = .next (grantWaits (refuseAccess t w k))) ∧
    (∀ (u : State), errorKind t w = none → canServe t w = false →
      u = { t with mtx := { t.mtx with waits := t.mtx.waits ++ [w] } } →
      (sleepingStack u w.tgt.1 w.tgt.2 = none → exec (.matrixAccess a) s = .next (grantWaits u)) ∧
      (∀ (i : Nat), sleepingStack u w.tgt.1 w.tgt.2 = some i →
        exec (.matrixAccess a) s = .next (grantWaits (needDomain u (18 + i)))))) ∧
  (∀ (a : Access) (m : Fin 7) (addr : BitVec 64) (n : Nat) (w : MtxWait) (s t : State),
    (m.val = 0 ∨ m.val = 1 ∨ m.val = 6) → a = { master := m, addr := addr, size := n } →
    t = release (grantWaits (release s (fun w => w.acc.master == a.master))) (fun _ => true) →
    w = { acc := a, lock := true, tgt := targetOf t a.master a.addr.toNat } → matrixOn t a = true →
    errorKind t w = none → canServe t w = true →
    exec (.lockedRead m addr n) s = .next (grantWaits (serve t w))) ∧
  (∀ (t : Fin 8) (m : Nat) (s u : State), lockOf s t = some m → u = count (setLock s t 15) Reg.mtxLockToCnt 1 →
    exec (.lockTimeout t) s = .next (grantWaits (raise
      { u with mtx := { u.mtx with lost := setIns u.mtx.lost (m + 8 * t) } } 0x703 (w32 (0x21 + 256 * m + 4096 * t)) 0))) ∧
  (∀ (s : State), s.mtx.dbg = true → exec .debugSessionEnd s =
    .next (grantWaits (resetMaster { s with mtx := { s.mtx with dbg := false } } 6))) ∧
  (∀ (w : MboxWrite) (m : Fin 7) (s : State), s.pwr.st ≠ 0 → m = (if holder s then 1 else 0) →
    ((lockOf s 5).getD m.val = m.val → exec (.mailboxSupervisorWrite w) s =
      .next ((mboxWords w).foldl (fun s i => supSignal (mboxStore s w i) i) s)) ∧
    ((lockOf s 5).getD m.val ≠ m.val → exec (.mailboxSupervisorWrite w) s =
      .next { s with mtx := { s.mtx with waits := s.mtx.waits ++
        [{ acc := { master := m, write := true }, tgt := (5, w.offset), mbox := some w }] } })) ∧
  (∀ (w p : MboxWrite) (s : State), s.pwr.st ≠ 0 → exec (.mailboxHostWrite w (some p)) s =
    .next (((mboxWords p).filter (fun i => !mboxHits w i)).foldl (fun s i => supSignal (mboxStore s p i) i)
      ((mboxWords w).foldl (fun s i => mboxBoth s w p i) s)))

/-- HBM_REGION_WRITE, RESIZE_DONE, HBM_READ_CHECK, ROW_RETIRE, BEAGLE_LEASE_START, BEAGLE_UNIT_END, BGL_REQ_GO, LEASE_REVOKE,
LEASE_RESTORE_DONE, SELFTEST, SELFTEST_DONE, CAPTURE_RECORD, CAPTURE_RECORD_DONE, CAPTURE_READ (R386 to R402). -/
def Obligations.BufferMemoryAndBeagleAct : Prop :=
  (∀ (r : Fin 5) (v : Word) (s : State), hostReady s 18 → regionRefused s r (fld v 7 0) = false →
    exec (.hbmRegionWrite r v) s = .next (bset (wr s (Reg.hbmRegion r) (v &&& 0xFF)) Reg.hbmStatus 12 true)) ∧
  (∀ (p q : List Nat) (s t u : State), resizing s = true →
    t = (if leaseInRegion s then restoreLease (revokeLease s 1 []) 1 else s) → p = t.hbm.placed →
    q = (List.range 5).map (fun r => fget t (Reg.hbmRegion r) 7 0) → u = bset t Reg.hbmStatus 12 false →
    exec .resizeDone s = .next (stackRefresh { u with
      hbm := { u.hbm with
        placed := q, mem := movedMem p q u.hbm.mem, bad := movedBeats p q u.hbm.bad, again := movedBeats p q u.hbm.again
        peak := (List.range 2).map (fun r => min (u.hbm.peak.getD r 0) (regionSize q r * granule)) }
      pm := { u.pm with hist := u.pm.hist.filter (fun x => decide (x.off < regionSize q 3 * granule)) }
      gth := if regionSize q 2 = 0 then { u.gth with jrn := [] } else u.gth })) ∧
  (∀ (a : BitVec 38) (u : HbmUser) (s t v : State), stackOf a.toNat < 4 → domainUp s (18 + stackOf a.toNat) = true →
    v = (if lineUser u then hbmWritten s a.toNat 1 else s) → v.hbm.rail4 = true →
    v.hbm.bad.contains (a.toNat / 32) = false →
    t = { v with hbm := { v.hbm with again := setDel v.hbm.again (a.toNat / 32) } } →
    exec (.hbmReadCheck a 0 u) s = .next t ∧ exec (.hbmReadCheck a 1 u) s = .next (correctedRead t a.toNat)) ∧
  (∀ (a : BitVec 38) (n : Nat) (u : HbmUser) (s v : State), stackOf a.toNat < 4 →
    (s.hbm.rail4 = true → domainUp s (18 + stackOf a.toNat) = true) →
    v = (if lineUser u then hbmWritten s a.toNat 1 else s) →
    (2 ≤ n ∨ v.hbm.rail4 = false ∨ v.hbm.bad.contains (a.toNat / 32) = true) →
    exec (.hbmReadCheck a n u) s = .next (uncorrRead v a.toNat u)) ∧
  (∀ (row i n : Nat) (rest : List Nat) (s t u v : State), s.hbm.due = row :: rest → i = row * 1024 / stackBytes →
    n = fget s (Reg.hbmCullet i) 16 0 → n < 65536 → s.hbm.cullet.contains row = false →
    t = { s with hbm := { s.hbm with due := rest, cullet := setIns s.hbm.cullet row } } →
    u = { fset t (Reg.hbmCullet i) 16 0 (n + 1) with
      hbm := { t.hbm with retired := Tab.put t.hbm.retired i (Tab.get t.hbm.retired i 0 + 1) } } →
    v = (if n + 1 = 58982 then raise u (0x780 + i) 3 (w32 (n + 1)) else u) →
    exec .rowRetire s = .next (if n + 1 = 65536 then raise v (0x780 + i) 4 65536 else v)) ∧
  (∀ (k : Fin 3) (r : Nat × Nat) (s t : State), leaseOf s (k + 1) = none → s.bgl.paused = false → s.pwr.st = 2 →
    (s.bgl.reqs.find? (fun r => r.1 == k.val + 1) = some r →
      t = { s with bgl := { s.bgl with reqs := s.bgl.reqs.erase r } } → unitOk t (k + 1) r.2 = true →
      exec (.beagleLeaseStart k) s = .next (beginLease t (k + 1) r.2 true)) ∧
    (s.bgl.reqs.find? (fun r => r.1 == k.val + 1) = none → sweeps s (k + 1) = true →
      exec (.beagleLeaseStart k) s = .next (sweepLease s (k + 1)))) ∧
  (∀ (k : Fin 3) (bad : List Nat) (l : Lease) (s t u : State), leaseOf s (k + 1) = some l → l.revoked = false →
    t = count (endLease s (k + 1) l) Reg.bglTested 1 →
    u = (if rowsIn (k + 1) l.unit bad = [] then t else unitFailed t (k + 1) l.unit (rowsIn (k + 1) l.unit bad)) →
    exec (.beagleUnitEnd k bad) s = .next (if l.named then u else sweepOn u (k + 1) l.unit)) ∧
  (∀ (v : Word) (s : State), hostReady s 18 → bit v 31 = true → fld v 1 0 ≠ 0 →
    unitOk s (fld v 1 0) (fld v 18 2) = true → exec (.bglReqGo v) s =
      .next { s with bgl := { s.bgl with reqs := s.bgl.reqs ++ [(fld v 1 0, fld v 18 2)] } }) ∧
  (∀ (k : Fin 3) (bad : List Nat) (l : Lease) (s : State), leaseOf s (k + 1) = some l → exec (.leaseRevoke k bad) s =
    .next { s with bgl := { s.bgl with
      leases := Tab.put s.bgl.leases (k + 1) { l with revoked := true, bad := rowsIn (k + 1) l.unit bad } } }) ∧
  (∀ (k : Fin 3) (l : Lease) (s t u v : State), leaseOf s (k + 1) = some l → l.revoked = true →
    t = count (endLease s (k + 1) l) Reg.bglRevoked 1 → u = raiseOnce t 0x784 0x11 0 0x11 (rd t Reg.bglRevoked) →
    v = (if l.bad = [] then u else unitFailed u (k + 1) l.unit l.bad) →
    (l.named = true → exec (.leaseRestoreDone k) s = .next v) ∧
    (l.named = false → exec (.leaseRestoreDone k) s =
      .next { v with bgl := { v.bgl with pos := Tab.put v.bgl.pos (k.val + 1) (l.unit + 1) } })) ∧
  (∀ (d parts : Nat) (x : Desc) (s : State), takeDesc s d 0x60 = some x → parts = fld (x.w 6) 7 0 → parts ≠ 0 →
    s.bgl.test = none → exec (.selftest d) s = .next (testFrom 8 (setDesc s d 2)
      { d := d, run := testParts s parts, status := if 2 ≤ mode s ∧ 16 ≤ parts then 5 else 0 } 0)) ∧
  (∀ (failed : Byte) (rows banks l4 l5 : List Nat) (t : SelfTest) (s : State), s.bgl.test = some t → testEnds t = true →
    l4 = (if t.run.testBit 4 then rows else []) →
    l5 = (if t.run.testBit 5 then banks.filter (fun b => decide (b < 64)) else []) →
    exec (.selftestDone failed rows banks) s =
      .next (complete (partFailures { s with bgl := { s.bgl with test := none } } l4 l5) t.d t.status (w32 t.run)
        (w32 ((failed.toNat % 2 + failed.toNat / 64 * 64 + t.failed % 16 + 16 * b2n (!l4.isEmpty) +
          32 * b2n (!l5.isEmpty)) &&& t.run)))) ∧
  (∀ (d : Nat) (x : Desc) (c : Capture) (s : State), takeDesc s d 0x59 = some x → bit (x.w 6) 0 = false →
    recordOk s x = true →
    c = { d := d, slot := x.w 7, left := (x.w 8).toNat, off := (x.w 9).toNat, bytes := (x.w 8).toNat * frameBytes s (x.w 7),
          size := frameBytes s (x.w 7) } →
    exec (.captureRecord d) s = .next (setDesc { s with bgl := { s.bgl with cap := some c } } d 1)) ∧
  (∀ (c : Capture) (s : State), s.bgl.cap = some c → c.started = true → c.left = 0 → exec .captureRecordDone s =
    .next (completeOk { s with bgl := { s.bgl with cap := none } } c.d (w32 c.bytes) 0)) ∧
  (∀ (d r off : Nat) (io : HostIO) (x : Desc) (s t : State) (bad : List Nat), takeDesc s d 0x59 = some x →
    bit (x.w 6) 0 = true → s.rng.bme = true → rangeBad s x = false → r = fld (x.w 7) 2 0 →
    off = (x.w 8).toNat + 2 ^ 32 * (x.w 9).toNat → r ≤ 4 → off + x.len ≤ regionSize s.hbm.placed r * granule →
    t = (match leaseOf s 1 with
      | some l =>
        if (List.range (x.len / 2 ^ 21 + 2)).any (fun i =>
          regionAddr s.hbm.placed r (min (off + i * 2 ^ 21) (off + x.len - 1)) / 2 ^ 21 == l.unit) then
          claimAddr s (blockAddr l.unit) else s
      | none => s) → bad = badBeats t r off x.len →
    exec (.captureRead d io) s = .next (copyOut (freeBytesNext (setDesc (readBad t bad) d 2)) io x 0
      ((List.range x.len).map (fun i =>
        if bad.contains (regionAddr t.hbm.placed r (off + i) / 32) then 0xFF
        else hbmByte t (regionAddr t.hbm.placed r (off + i)))) (w32 x.len) (w32 bad.length)))

/-- PWR_REQ_STANDBY, PWR_REQ_DORMANT, PWR_REQ_WITHDRAW, POWER_STATE_CHANGE, BOARD_BLOCK_LOADED, BOARD_BLOCK_RETRY, RAIL_GOOD,
RAIL_RAMP_TIMEOUT, RAIL_RETRY, RAIL_OUT_OF_RANGE, DOMAIN_GATE_TIMEOUT, DOMAIN_WAKE_DONE, WAKE_PIN, WAKE_TIMER_EXPIRY,
VDD_AON_DETECTOR, EXTENSION_LOAD_DONE (R406 to R428). -/
def Obligations.PowerStatesAndRailsFollowTheirSequence : Prop :=
  (∀ (v : Word) (s t : State), hostDeaf s = false → regLocked s = false → replay s = false → mode s < 2 → modePending s = false → pwrPending s = false →
    t = bset (wr s Reg.pwrCtl (v &&& 0x33)) Reg.pwrStatus 2 true →
    (fld v 1 0 = 1 → exec (.pwrReqStandby v) s = .next { t with rng := { t.rng with stopped := true } }) ∧
    (fld v 1 0 = 2 → exec (.pwrReqDormant v) s = .next { t with rng := { t.rng with stopped := true } })) ∧
  (∀ (v : Word) (s t : State), hostDeaf s = false → regLocked s = false → replay s = false → pwrPending s = true → fld v 1 0 = 0 →
    pwrPending (wr s Reg.pwrCtl (v &&& 0x33)) = true →
    t = bset (wr s Reg.pwrCtl (v &&& 0x33)) Reg.pwrStatus 2 false →
    exec (.pwrReqWithdraw v) s = .next { t with rng := { t.rng with stopped := false } }) ∧
  (∀ (s : State), pwrPending s = true → s.rng.descs = [] → s.xlat.knl = [] →
    (fget s Reg.pwrCtl 1 0 = 1 → exec .powerStateChange s = .next (toStandby s)) ∧
    (fget s Reg.pwrCtl 1 0 ≠ 1 → exec .powerStateChange s = .next (toDormant s))) ∧
  (∀ (b : List Byte) (s : State), boardAwaited s = true →
    (s.pwr.faultN = true → boardOk b = true → exec (.boardBlockLoaded b) s =
      .next (startBoot { s with pwr := { s.pwr with board := some b, faultN := true } })) ∧
    (s.pwr.faultN = true → boardOk b = false →
      exec (.boardBlockLoaded b) s = .next { s with pwr := { s.pwr with faultN := false, waitFrom := s.tod.ticks } }) ∧
    (∀ (t : State), s.pwr.faultN = false → boardOk b = true → t = elapse s (s.pwr.waitFrom + 500000000) →
      exec (.boardBlockRetry b) s =
        .next (startBoot { t with pwr := { t.pwr with board := some b, faultN := true } }))) ∧
  (∀ (n : Fin 6) (v : BitVec 13) (f : BitVec 16) (s t u : State), s.pwr.rail = some n.val →
    railIsGood s n v.toNat f.toNat = true → t = showRail s n v.toNat f.toNat →
    u = bset { t with pwr := { t.pwr with rail := none } } (Reg.pwrRail n) 1 true →
    u.pwr.lostRails.contains n.val = false → u.pwr.target = 1 →
    (n.val < 3 → exec (.railGood n v f) s = .next (startRail u (n + 1))) ∧
    (3 ≤ n.val → exec (.railGood n v f) s = .next (reachStandby u))) ∧
  (∀ (n : Fin 6) (v : BitVec 13) (f : BitVec 16) (s t u : State), s.pwr.rail = some n.val →
    t = bset (showRail s n v.toNat f.toNat) (Reg.pwrRail n) 2 true → t.pwr.lostRails.contains n.val = false →
    t.pwr.target = 1 → u = railsOff { t with pwr := { t.pwr with rail := none, waitFrom := t.tod.ticks } } [3, 2, 1, 0] →
    u.pwr.target = 1 →
    u.pwr.st = 0 → u.pwr.fails = 0 → exec (.railRampTimeout n v f) s = .next { u with pwr := { u.pwr with
      railRep := u.pwr.railRep ++ [(n.val, f.setWidth 32)], fails := 1, retry := true } }) ∧
  (∀ (s t : State), s.pwr.rail = none → s.pwr.retry = true → t = elapse s (s.pwr.waitFrom + 500000000) →
    exec .railRetry s = .next (startRail { t with pwr := { t.pwr with retry := false } } (firstRail t.pwr.target))) ∧
  (∀ (n : Nat) (l : List Nat) (s : State), s.pwr.rail = none → s.pwr.retry = false → s.pwr.lostRails = n :: l →
    exec .railRetry s = .next (startRail (elapse s (s.pwr.waitFrom + 500000000)) n)) ∧
  (∀ (f : BitVec 16) (s t u : State), railGood s 4 = true →
    t = railFault (bset (fset (bset s (Reg.pwrRail 4) 1 false) (Reg.pwrRail 4) 31 16 f.toNat) (Reg.pwrRail 4) 2 true) 4
      (f.setWidth 32) →
    u = { t with
      pwr := { t.pwr with lostRails := setIns t.pwr.lostRails 4, waitFrom := t.tod.ticks }, hbm := { t.hbm with rail4 := false } } →
    exec (.railOutOfRange 4 f) s =
      .next ((rangeFrom 18 4).foldl (fun s d => bset s Reg.pwrDomain d false) u)) ∧
  (∀ (d : Fin 17) (s t : State), domainUp s d = true → d.val < 16 → litLanes s d = [] →
    t = elapse s (Tab.get s.pwr.idleFrom d 0 + 500000000) → exec (.domainGateTimeout d) s = .next (gateGroup t d)) ∧
  (∀ (s t : State), domainUp s 16 = true → (List.range 64).all (fun p => !bget s (Reg.tribCtl p) 0) = true →
    t = elapse s (Tab.get s.pwr.idleFrom 16 0 + 500000000) → exec (.domainGateTimeout 16) s = .next (gateTrib t)) ∧
  (∀ (d : Fin 22) (s t : State), wakeReady s d = true →
    t = powerUp { s with pwr := { s.pwr with wakes := setDel s.pwr.wakes d } } d →
    (d.val < 16 → exec (.domainWakeDone d) s =
      .next (stackRefresh (grantWaits (doWorks (startLoad (startGroup (idleMark t d) d)))))) ∧
    (d.val = 16 → exec (.domainWakeDone d) s =
      .next (stackRefresh (grantWaits (doWorks (startLoad (startPorts (idleMark t d))))))) ∧
    (17 ≤ d.val → exec (.domainWakeDone d) s = .next (stackRefresh (grantWaits (doWorks (startLoad t)))))) ∧
  (∀ (s : State), s.pwr.dormant = true → s.pwr.fails < 3 →
    (bget s Reg.pwrCtl 4 = true → exec .wakePin s = .next (startBoot (fset s Reg.pwrStatus 5 4 1))) ∧
    (bget s Reg.pwrCtl 5 = true → fget s Reg.pwrWakeTimer 15 0 ≠ 0 → fget s Reg.pwrWakeTimer 15 0 ≤ s.pwr.secs →
      exec .wakeTimerExpiry s = .next (startBoot (fset s Reg.pwrStatus 5 4 2)))) ∧
  (∀ (s : State), s.pwr.aonOk = false → exec (.vddAonDetector true) s =
    .next { s with pwr := { s.pwr with aonOk := true } }) ∧
  (∀ (s : State), s.pwr.aonOk = true → exec (.vddAonDetector false) s =
    .next (coldState (railsOff s [5, 4, 3, 2, 1, 0]) s.pwr.rstLow false)) ∧
  (∀ (s t : State), s.pwr.loading = true → s.mtx.held = true →
    (t = bset { s with pwr := { s.pwr with loading := false } } Reg.pwrStatus 3 true →
      exec (.extensionLoadDone true) s = .next (grantWaits (railDemand t))) ∧
    (s.pwr.otherOk = true → t = { s with
        pwr := { s.pwr with extFail := true, inForce := false }
        mtx := { s.mtx with held := false, vacant := 0, handover := false, claims := [], beat := none } } →
      exec (.extensionLoadDone false) s = .next (grantWaits ([false, true].foldl
        (fun s h => if halfState s h = 4 then s else halfReboot s h) t))))

/-- AVS_READING, VDIFF_CHECK, THERMAL_SAMPLE, CLOCK_PLL_UNLOCK, SVN_COMMIT, FLASH_READ, FLASH_PROGRAM, FLASH_ERASE,
FLASH_CMD_DONE (R415 to R418, R429 to R433). -/
def Obligations.SuppliesClocksAndFlashFollowTheirRules : Prop :=
  (∀ (s : State), coreMv s ≠ 0 → fixedMv s = 0 → s.pwr.vdHold = false →
    exec (.avsReading .less) s = .next (avsLimit (fset s Reg.pwrAvs 9 0 (max 650 (coreMv s - 5))) false) ∧
    exec (.avsReading .keep) s = .next (avsLimit s false) ∧
    exec (.avsReading .more) s =
      .next (avsLimit (fset s Reg.pwrAvs 9 0 (min 850 (coreMv s + 5))) (coreMv s == 850))) ∧
  (∀ (mv : Nat) (s t : State), coreMv s ≠ 0 → 40 < mv → 10 ≤ s.pwr.vdOver → fixedMv s = 0 →
    t = { s with pwr := { s.pwr with vdOver := 0, vdUnder := 0, vdHold := true } } →
    exec (.vdiffCheck mv) s = .next (raise (fset t Reg.pwrAvs 9 0 (min 850 (coreMv t + 10))) 0x7C1 4 (w32 mv))) ∧
  (∀ (x : Int) (s t : State), inReset s = false → x < 105 → x < (fget s Reg.pwrThermLim 7 0 : Int) - 5 →
    t = fset (fset (showTemps s ((List.range 16).map (fun _ => x))) Reg.pwrThermStatus 7 4 0) Reg.pwrThermStatus 15 8 0 →
    bget t Reg.pwrThermStatus 0 = false → bget t Reg.pwrThermStatus 1 = false → bget t Reg.pwrThermStatus 2 = false →
    exec (.thermalSample ((List.range 16).map (fun _ => x))) s = .next { t with
      pwr := { t.pwr with critRun := 0, gradRun := 0 }, bgl := { t.bgl with paused := false } }) ∧
  (∀ (p st : Fin 4) (locked : Bool) (k : Nat) (s : State), k = (if p.val < 3 then p.val else 3 + st.val) →
    s.pwr.pllBad.contains k = locked → exec (.clockPllUnlock p st locked) s =
      .next (raise { s with pwr := { s.pwr with
        pllBad := if locked then setDel s.pwr.pllBad k else setIns s.pwr.pllBad k } } 0x7C3
        (w32 (8 + 2 ^ 15 * b2n (!locked))) (w32 k))) ∧
  (∀ (v : Word) (n : Nat) (s : State), hostDeaf s = false → regLocked s = false → replay s = false → bit v 5 = true → mode s = 0 →
    n = fget s Reg.glbFwSvn 7 0 →
    s.pwr.minSvn < n →
    exec (.svnCommit v) s = .next (fset { s with pwr := { s.pwr with minSvn := n } } Reg.glbFwSvn 15 8 n)) ∧
  (∀ (v : Word) (a : Nat) (s : State), hostDeaf s = false → regLocked s = false → replay s = false → flashBusy s = false → mode s < 2 →
    a = fget s Reg.glbFlashAddr 27 8 * 256 →
    (fld v 1 0 = 1 → exec (.flashRead v) s =
      .next (bootServed (wr { s with pwr := { s.pwr with flash := some (1, a), flashHold := true } } Reg.glbFlashCmd 0x100))) ∧
    (fld v 1 0 = 2 → flashGuarded s a 256 = false → exec (.flashProgram v) s =
      .next (bootServed (wr { s with pwr := { s.pwr with flash := some (2, a), flashHold := true } } Reg.glbFlashCmd 0x100))) ∧
    (fld v 1 0 = 3 → flashGuarded s (a / 65536 * 65536) 65536 = false → exec (.flashErase v) s =
      .next (bootServed (wr { s with pwr := { s.pwr with flash := some (3, a / 65536 * 65536), flashHold := true } }
        Reg.glbFlashCmd 0x100)))) ∧
  (∀ (a : Nat) (s t : State), s.pwr.flashHold = true → halfBoots s = false →
    t = { s with pwr := { s.pwr with flashHold := false } } →
    (s.pwr.flash = some (2, a) → bootServed s = wire t "flash-program" a (flashBuf t)) ∧
    (s.pwr.flash = some (3, a) → bootServed s = wire t "flash-erase" a [])) ∧
  (∀ (page : List Byte) (a : Nat) (s t : State), page.length = 256 → s.pwr.flashHold = false →
    (s.pwr.flash = some (1, a) → t = wr { s with pwr := { s.pwr with flash := none } } Reg.glbFlashCmd 0 →
      exec (.flashCmdDone page) s =
        .next ((List.range 64).foldl (fun s i => wr s (Reg.glbFlashBuf i) (bytesWord (page.drop (4 * i)))) t)) ∧
    (s.pwr.flash = some (2, a) → exec (.flashCmdDone page) s =
      .next (wr { s with pwr := { s.pwr with flash := none } } Reg.glbFlashCmd
        (if page = flashBuf s then 0 else 0x400))))

/-- The front command runs with the queue's rest; with nothing waiting one tick of the time counter passes (the model's choice, log
entry 1; R286). -/
def Obligations.StepRunsTheCommandAtTheFront : Prop :=
  (∀ (c : Instr) (r : List Instr) (s : State), s.pending = c :: r → step s = exec c { s with pending := r }) ∧
  (∀ (s : State), s.pending = [] → step s = .next (idleTick s))

/-- Nothing faults and nothing is refused (log entry 4). -/
def Obligations.EveryCommandEndsInANextState : Prop :=
  (∀ (c : Instr) (s : State), ∃ t, exec c s = .next t) ∧ (∀ (s : State), Runs s)

/-- What reset leaves (R288, R380, R435; log entry 5). -/
def Obligations.ResetHoldsTheValuesOfTheSpec : Prop :=
  (∀ (off : Nat), rd State.reset off = regReset off) ∧
  (mode State.reset = 0) ∧
  (State.reset.tod.acc = 0 ∧ State.reset.tod.subsec = 0 ∧ State.reset.tod.wraps = 0 ∧
    State.reset.tod.inc = 0x0000000200000000) ∧
  (∀ (o : Nat), mboxByte State.reset o = 0) ∧
  (State.reset.pending = [] ∧ State.reset.gth.slots = [] ∧ memWf State.reset = true)

/-- R28. -/
def Obligations.LanesLieInGroupsAndQuads : Prop :=
  (∀ (n : LaneId), laneGroup n.val = n.val / 8 ∧ quadFirst n.val = 4 * (n.val / 4)) ∧
  (∀ (n : LaneId) (q : Fin 32), quadFirst n.val = 4 * q.val ↔ (4 * q.val ≤ n.val ∧ n.val ≤ 4 * q.val + 3)) ∧
  (∀ (n m : LaneId), quadFirst n.val = quadFirst m.val → laneGroup n.val = laneGroup m.val) ∧
  (∀ (n : LaneId) (s : State), laneTemp s n.val = fget s (Reg.pwrTherm (n.val / 8)) 7 0)

/-- R26, R325. -/
def Obligations.WritesDuringReplayAreIgnored : Prop :=
  (∀ (s : State) (off : Nat) (r : RegRow) (v : BitVec 64), hostDeaf s = false → regLocked s = false → replay s = true → off % 4 = 0 → off < 0x3FF0000 →
    regRow? off = some r → exec (.registerWrite off 4 v) s = .next (ignoredWrite s off)) ∧
  (∀ (s : State) (v : Word), hostDeaf s = false → regLocked s = false → replay s = true →
    exec (.glbModeWrite v) s = .next (ignoredWrite s Reg.glbMode)) ∧
  (∀ (s : State) (v : Word), hostDeaf s = false → regLocked s = false → replay s = true → exec (.svnCommit v) s = .next (ignoredWrite s Reg.glbBoot)) ∧
  (∀ (s : State) (v : Word), hostDeaf s = false → regLocked s = false → replay s = true →
    exec (.plannedHandover v) s = .next (ignoredWrite s Reg.mtxCtl)) ∧
  (∀ (s : State) (n : LaneId) (v : Word), hostDeaf s = false → regLocked s = false → replay s = true →
    exec (.laneCtlWrite n v) s = .next (ignoredWrite s (Reg.laneCtl n.val))) ∧
  (∀ (s : State) (n : Fin 2048) (v : Word), hostDeaf s = false → regLocked s = false → replay s = true →
    exec (.evtRouteWrite n v) s = .next (ignoredWrite s (Reg.evtRoute n.val))) ∧
  (∀ (s : State) (n : Fin 64) (v : Word), hostDeaf s = false → regLocked s = false → replay s = true →
    exec (.evtCoalWrite n v) s = .next (ignoredWrite s (Reg.evtCoal n.val))) ∧
  (∀ (s : State) (v : Word), hostDeaf s = false → regLocked s = false → replay s = true →
    exec (.evtTestFire v) s = .next (ignoredWrite s Reg.evtTest)) ∧
  (∀ (s : State) (k : Fin 256) (v : Word), hostDeaf s = false → regLocked s = false → replay s = true →
    exec (.chainCfgWrite k v) s = .next (ignoredWrite s (Reg.pmChainCfg k.val))) ∧
  (∀ (s : State) (k : Fin 256) (v : Word), hostDeaf s = false → regLocked s = false → replay s = true →
    exec (.chainHiWrite k v) s = .next (ignoredWrite s (Reg.pmChainHi k.val))) ∧
  (∀ (s : State) (n : RingId), hostDeaf s = false → regLocked s = false → replay s = true →
    exec (.ringEnable n) s = .next (ignoredWrite s (Reg.ringCtl n.val)) ∧
    exec (.ringDisable n) s = .next (ignoredWrite s (Reg.ringCtl n.val))) ∧
  (∀ (s : State) (n : Fin 64) (v : Word), hostDeaf s = false → regLocked s = false → replay s = true →
    exec (.tribCtlWrite n v) s = .next (ignoredWrite s (Reg.tribCtl n.val)) ∧
    exec (.tribFrmWrite n v) s = .next (ignoredWrite s (Reg.tribFrm n.val))) ∧
  (∀ (s : State) (off : Nat), replay s = true → off < 0x3FF0000 → readBar0 s off =
    (if off = Reg.glbStatus then readReg s Reg.glbStatus else 0xFFFFFFFF)) ∧
  (∀ (s t : State), replay s = true → exec .todNsRead s = .next t → t.tod = s.tod)

/-- R382. -/
def Obligations.SignalWordsInterruptTheOtherSide : Prop :=
  (∀ (w : MboxWrite) (p : Option MboxWrite) (s t : State), s.pwr.st ≠ 0 → exec (.mailboxHostWrite w p) s = .next t →
    (∀ (o : Nat), o < 65536 → mboxByte t o =
      ((mboxLane w o).or (p.bind (fun p => mboxLane p o))).getD (mboxByte s o)) ∧
    t.mtx.irq = s.mtx.irq + (if mboxHits w 8190 then 1 else 0)) ∧
  (∀ (w : MboxWrite) (s t : State), s.pwr.st ≠ 0 → exec (.mailboxHostWrite w none) s = .next t →
    t.evt = s.evt ∧ t.out = s.out ∧ t.regs = s.regs) ∧
  (∀ (w : MboxWrite) (m : Fin 7) (s : State), m = (if holder s then 1 else 0) → (lockOf s 5).getD m.val = m.val →
    s.pwr.st ≠ 0 → mboxHits w 8191 = true →
    ∃ u, exec (.mailboxSupervisorWrite w) s = .next (raise u 0x704 0x31 (mboxLow u 8191)) ∧
      (∀ (o : Nat), o < 65536 → mboxByte u o = (mboxLane w o).getD (mboxByte s o)) ∧
      u.mtx.irq = s.mtx.irq ∧ u.evt = s.evt ∧ u.out = s.out ∧ u.regs = s.regs) ∧
  (∀ (w : MboxWrite) (m : Fin 7) (s t : State), m = (if holder s then 1 else 0) → (lockOf s 5).getD m.val = m.val →
    s.pwr.st ≠ 0 → mboxHits w 8191 = false → exec (.mailboxSupervisorWrite w) s = .next t →
    (∀ (o : Nat), o < 65536 → mboxByte t o = (mboxLane w o).getD (mboxByte s o)) ∧
    t.mtx.irq = s.mtx.irq ∧ t.evt = s.evt ∧ t.out = s.out ∧ t.regs = s.regs) ∧
  (∀ (w : MboxWrite) (m : Fin 7) (s : State), m = (if holder s then 1 else 0) → (lockOf s 5).getD m.val ≠ m.val →
    s.pwr.st ≠ 0 → ∃ x, exec (.mailboxSupervisorWrite w) s = .next { s with mtx := { s.mtx with waits := s.mtx.waits ++ [x] } } ∧
      x.mbox = some w ∧ x.acc.master = m) ∧
  (∀ (w p : MboxWrite) (s u : State), s.pwr.st ≠ 0 → mboxWords w = [8191] → mboxWords p = [8191] →
    u = mboxColl (mboxStore (mboxStore s p 8191) w 8191) 8191 →
    exec (.mailboxHostWrite w (some p)) s = .next (raise u 0x704 0x31 (mboxLow u 8191)))

/-- R374, R377. -/
def Obligations.RefusedMatrixAccessesPerformNothing : Prop :=
  (∀ (a : Access) (k : Nat) (s t : State), s.mtx.waits = [] → matrixOn s a = true →
    errorKind s { acc := a, lock := false, tgt := targetOf s a.master a.addr.toNat } = some k → exec (.matrixAccess a) s = .next t →
    t.hbm = s.hbm ∧ t.bgl = s.bgl ∧ t.map = s.map ∧ t.gth = s.gth ∧ t.pwr = s.pwr ∧ t.tod = s.tod ∧ t.rng = s.rng ∧
      { t.mtx with lost := [] } = { s.mtx with lost := [] } ∧ rd t Reg.mtxErrCnt = rd s Reg.mtxErrCnt + 1) ∧
  (∀ (m : Fin 7) (a : BitVec 64) (n k : Nat) (s t : State), s.mtx.waits = [] → [0, 1, 6].contains m.val = true →
    matrixOn s { master := m, addr := a, size := n } = true →
    errorKind s { acc := { master := m, addr := a, size := n }, lock := true, tgt := targetOf s m a.toNat } = some k →
    exec (.lockedRead m a n) s = .next t →
    t.hbm = s.hbm ∧ t.bgl = s.bgl ∧ t.map = s.map ∧ t.gth = s.gth ∧ t.pwr = s.pwr ∧ t.tod = s.tod ∧ t.rng = s.rng ∧
      { t.mtx with lost := [] } = { s.mtx with lost := [] } ∧ rd t Reg.mtxErrCnt = rd s Reg.mtxErrCnt + 1)

/-- R349 to R354. -/
def Obligations.EventsChangeOnlyTheirRing : Prop :=
  (∀ (s : State) (src : Nat) (d0 d1 : Word),
    { raise s src d0 d1 with regs := [], evt := {}, out := [] } = { s with regs := [], evt := {}, out := [] }) ∧
  (∀ (s : State) (src o : Nat) (d0 d1 : Word), (∀ n < 4096, o ≠ Reg.ringProd n) → rd (raise s src d0 d1) o = rd s o) ∧
  (∀ (s : State) (src : Nat) (d0 d1 : Word), s.evt.held = [] →
    ∃ n < 4096, ∀ (o : Nat), o ≠ Reg.ringProd n → rd (raise s src d0 d1) o = rd s o) ∧
  (∀ (s : State) (src n : Nat) (d0 d1 : Word), (heldBy s n).length ≤ 4 →
    (heldBy (raise s src d0 d1) n).length ≤ 4) ∧
  (∀ (s : State) (src : Nat) (d0 d1 : Word), src ≠ 0x681 → bget s (Reg.evtRoute src) 12 = false → raise s src d0 d1 = s) ∧
  (∀ (s t : State) (src : Nat) (d0 d1 : Word), src = 0x681 ∨ bget s (Reg.evtRoute src) 12 = true → eventBlocked s src = true →
    t = raise s src d0 d1 → t.regs = s.regs ∧ t.out = s.out ∧ (∀ n ≠ src, heldBy t n = heldBy s n) ∧
      ∃ r, r.d0 = d0 ∧ r.d1 = d1 ∧ r.src = src ∧ r.ns = nsNow s ∧
        ((heldBy s src).length < 4 → heldBy t src = heldBy s src ++ [r] ∧ r.held = 0) ∧
        (∀ (l : List EvRec) (o : EvRec), heldBy s src = l ++ [o] → l.length = 3 → heldBy t src = l ++ [r] ∧
          r.held = min 65535 (o.held + 1) ∧ r.old = o.old))

/-- R325. -/
def Obligations.IgnoredSequencesChangeNothingElse : Prop :=
  (∀ (s : State) (k r a : Nat), { ignored s k r a with regs := [] } = { s with regs := [] }) ∧
  (∀ (s : State) (k r a o : Nat), o ≠ Reg.hifIgnoredCnt → o ≠ Reg.hifIgnoredLast → o ≠ Reg.hifIgnoredAddr →
    (∀ j < 256, o ≠ Reg.pmChainHi j ∧ o ≠ Reg.pmChainSt j) → rd (ignored s k r a) o = rd s o) ∧
  (∀ (s : State) (k r a o : Nat), o ≠ Reg.hifIgnoredCnt → o ≠ Reg.hifIgnoredLast → o ≠ Reg.hifIgnoredAddr →
    (∀ j < 256, chained s j Reg.hifIgnoredCnt = false) → rd (ignored s k r a) o = rd s o) ∧
  (∀ (s : State) (k r a : Nat), rd (ignored s k r a) Reg.hifIgnoredCnt = rd s Reg.hifIgnoredCnt + 1 ∧
    fget (ignored s k r a) Reg.hifIgnoredLast 2 0 = k % 8 ∧
    rd (ignored s k r a) Reg.hifIgnoredAddr = w32 (a % 2 ^ 26) ∧
    fget (ignored s k r a) Reg.hifIgnoredLast 15 4 = if 2 ≤ k ∧ k ≤ 6 then r % 4096 else 0)

/-- R355, R357. -/
def Obligations.ChainPairsCountAsOneValue : Prop :=
  (∀ (s : State) (k off n : Nat), k < 256 → n < 2 ^ 32 → chained s k off = true →
    (∀ j < 256, off ≠ Reg.pmChainHi j ∧ off ≠ Reg.pmChainSt j ∧ off ≠ Reg.pmChainCfg j) →
    (rd (count s off n) (Reg.pmChainHi k)).toNat * 2 ^ 32 + (rd (count s off n) off).toNat =
      ((rd s (Reg.pmChainHi k)).toNat * 2 ^ 32 + (rd s off).toNat + n) % 2 ^ 64) ∧
  (∀ (s : State) (k off n : Nat), k < 256 → n < 2 ^ 32 → chained s k off = true →
    (∀ j < 256, off ≠ Reg.pmChainHi j ∧ off ≠ Reg.pmChainSt j ∧ off ≠ Reg.pmChainCfg j) →
    bget (count s off n) (Reg.pmChainSt k) 0 =
      (bget s (Reg.pmChainSt k) 0 != decide (2 ^ 32 ≤ (rd s off).toNat + n))) ∧
  (∀ (s : State) (k off n : Nat), k < 256 → chained s k off = false →
    (∀ j < 256, off ≠ Reg.pmChainHi j ∧ off ≠ Reg.pmChainSt j ∧ off ≠ Reg.pmChainCfg j) →
    rd (count s off n) (Reg.pmChainHi k) = rd s (Reg.pmChainHi k) ∧
    rd (count s off n) (Reg.pmChainSt k) = rd s (Reg.pmChainSt k))

/-- R5 to R7, R438. -/
def Obligations.LockedRegistersIgnoreWritesInService : Prop :=
  (∀ (s t : State) (off : Nat) (r : RegRow) (v : Word), hostDeaf s = false → regLocked s = false → replay s = false → inService s = true → off % 4 = 0 →
    off < 0x3FF0000 → regRow? off = some r → r.writable = true → accMask r .rw = 0 → accMask r .rwl ≠ 0 → accMask r .w1c = 0 →
    mixedLock off = false → regDomain off = none → off / 0x10000 ≠ 0x8 →
    [Reg.hifKnlSel, Reg.mapPeekSlot, Reg.protPeekSel, Reg.mrgPeekSel, Reg.symPeekSel, Reg.cemPeekSel].contains off = false →
    ownWrite s off v = none →
    exec (.registerWrite off 4 (v.setWidth 64)) s = .next t →
    (∀ (o : Nat), rd t o = rd (ignoredWrite s off) o) ∧ { t with regs := [] } = { s with regs := [] }) ∧
  (∀ (s : State) (off : Nat) (r : RegRow) (v : Word), hostDeaf s = false → regLocked s = false → replay s = false → inService s = false → off % 4 = 0 →
    off < 0x3FF0000 → regRow? off = some r → r.writable = true → accMask r .w1c = 0 → regDomain off = none →
    off / 0x10000 ≠ 0x8 → [Reg.hifKnlSel, Reg.mapPeekSlot, Reg.protPeekSel, Reg.mrgPeekSel, Reg.symPeekSel, Reg.cemPeekSel].contains off = false → ownWrite s off v = none → badValue off v = false →
    exec (.registerWrite off 4 (v.setWidth 64)) s = .next (wr s off
      ((rd s off &&& ~~~ (accMask r .rw ||| accMask r .rwl)) ||| (v &&& (accMask r .rw ||| accMask r .rwl)))))

/-- R367, R368. -/
def Obligations.ClaimWindowsGoToTheHighestEpoch : Prop :=
  (∀ (s : State), s.mtx.claims ≠ [] → ∃ w e res lost, decideClaims s = some (w, e, res, lost) ∧
    (∃ c ∈ s.mtx.claims, c.1 = w ∧ c.2.toNat = e) ∧ (∀ c ∈ s.mtx.claims, c.2.toNat ≤ e) ∧
    (∀ c ∈ s.mtx.claims, c.2.toNat = e → c.1 = false → w = false) ∧
    (res = 1 ↔ ∀ c ∈ s.mtx.claims, c.1 = w) ∧
    (res = 3 ↔ (∃ c ∈ s.mtx.claims, c.1 = false ∧ c.2.toNat = e) ∧ (∃ c ∈ s.mtx.claims, c.1 = true ∧ c.2.toNat = e))) ∧
  (∀ (s : State), s.mtx.claims = [] → decideClaims s = none) ∧
  (∀ (s t : State) (h : Bool) (e : Word), halfState s h = 2 ∨ halfState s h = 3 → s.mtx.held = false →
    (epochNow s).toNat < e.toNat → exec (.leashClaim h e) s = .next t → t.mtx.claims = s.mtx.claims ++ [(h, e)]) ∧
  (∀ (s t : State) (h : Bool) (e : Word), s.mtx.held = true ∨ e.toNat ≤ (epochNow s).toNat →
    exec (.leashClaim h e) s = .next t → t.mtx.claims = s.mtx.claims)

/-- R186, R187, R189. -/
def Obligations.SelectorsFollowTheHighestRequest : Prop :=
  (∀ (x : Sel), x.cmd ≤ 6 → 2 ≤ (decideSel x).1.req ∧ (decideSel x).1.req ≤ 11) ∧
  (∀ (x y : Sel), y = (decideSel x).1 → y.condRank = x.condRank ∧ y.condRank ≤ y.req ∧ selCmdRank y.cmd ≤ y.req ∧
    (y.wtr.isSome = true → 5 ≤ y.req) ∧ (y.dnr = true → 3 ≤ y.req) ∧
    (y.req = y.condRank ∨ y.req = selCmdRank y.cmd ∨ (y.wtr.isSome = true ∧ y.req = 5) ∨ (y.dnr = true ∧ y.req = 3) ∨
      y.req = 2)) ∧
  (∀ (x y : Sel), y = (decideSel x).1 → x.cmd ≤ 6 →
    (y.req = 11 ∨ y.req = 10 ∨ y.req = 2 → y.want = false) ∧ (y.req = 8 ∨ y.req = 5 ∨ y.req = 3 → y.want = true) ∧
    (y.req = 9 → y.want = decide (y.cmd = 2)) ∧ (y.req = 6 → y.want = decide (y.cmd = 4)) ∧ (y.req = 4 → y.want = x.want) ∧
    (y.req = 7 → y.want = if x.w.isSd && x.p.isSd then x.want else x.w.isSd)) ∧
  (∀ (x : Sel), (decideSel x).2 ≠ 0 → (decideSel x).2 = x.cmd ∧ (decideSel x).1.cmd = 0 ∧
    selCmdRank x.cmd < (decideSel x).1.req) ∧
  (∀ (x : Sel), (decideSel x).2 = 0 → (decideSel x).1.cmd = x.cmd)

/-- R286 to R289; log entry 1. -/
def Obligations.OneTickAddsTheIncrement : Prop :=
  (∀ (s : State), s.pending = [] → inReset s = false → s.tod.waiting = [] → ∃ t, step s = .next t ∧
    t.tod.acc = s.tod.acc + s.tod.inc ∧ t.tod.inc = s.tod.inc ∧
    t.tod.latFrac = s.tod.latFrac ∧ t.tod.latSub = s.tod.latSub ∧ t.tod.latWraps = s.tod.latWraps ∧
    t.tod.wraps = (if 2 ^ 64 ≤ s.tod.acc.toNat + s.tod.inc.toNat then s.tod.wraps + 1 else s.tod.wraps) ∧
    t.hbm.mem = s.hbm.mem ∧ t.mtx.mailbox = s.mtx.mailbox ∧ t.mtx.scratch = s.mtx.scratch ∧ t.pending = []) ∧
  (∀ (s : State) (d : Nat), s.tod.subsec < 1000000000 → s.pending = [] → inReset s = false → s.tod.waiting = [] →
    d = (s.tod.acc.toNat + s.tod.inc.toNat) / 2 ^ 32 - s.tod.acc.toNat / 2 ^ 32 → d < 1000000000 →
    ∃ t, step s = .next t ∧ t.tod.subsec = (s.tod.subsec + d) % 1000000000) ∧
  (∀ (s : State), s.pending = [] → inReset s = false → s.tod.waiting ≠ [] → s.mtx.held = true → step s = exec .timeSetApply s) ∧
  (∀ (s : State), s.pending = [] → inReset s = false → s.mtx.held = false → ∃ t, step s = .next t ∧
    t.tod.acc = s.tod.acc + s.tod.inc ∧ t.tod.waiting = s.tod.waiting) ∧
  (∀ (s : State), s.pending = [] → inReset s = true → step s = .next s)

/-- R305, R311, R313, R316, R324. -/
def Obligations.CompletionsChangeOnlyTheirRings : Prop :=
  (∀ (s : State) (id st : Nat) (r0 r1 : Word), { complete s id st r0 r1 with regs := [], rng := {}, evt := {}, out := [] } =
    { s with regs := [], rng := {}, evt := {}, out := [] }) ∧
  (∀ (s : State) (id st o : Nat) (r0 r1 : Word), (∀ n < 4096, o ≠ Reg.ringProd n ∧ o ≠ Reg.ringCtl n) →
    rd (complete s id st r0 r1) o = rd s o) ∧
  (∀ (s : State) (id st : Nat) (r0 r1 : Word), desc? s id = none → complete s id st r0 r1 = s) ∧
  (∀ (s : State) (d : Desc) (st : Nat) (r0 r1 : Word), desc? s d.id = some d → st ≠ 0 →
    s.rng.bme = false ∨ s.mtx.held = false ∨ replay s = true →
    (complete s d.id st r0 r1).rng.cplWait = s.rng.cplWait ++ [cplOf s d st r0 r1])

/-- R429. -/
def Obligations.SvnCommitRaisesTheFuse : Prop :=
  (∀ (v : Word) (s : State), hostDeaf s = false → regLocked s = false → replay s = false → mode s = 0 → bit v 5 = true →
    s.pwr.minSvn < fget s Reg.glbFwSvn 7 0 →
    exec (.svnCommit v) s = .next (fset { s with pwr := { s.pwr with minSvn := fget s Reg.glbFwSvn 7 0 } }
      Reg.glbFwSvn 15 8 (fget s Reg.glbFwSvn 7 0))) ∧
  (∀ (c : Instr) (s t : State), exec c s = .next t → s.pwr.minSvn ≤ t.pwr.minSvn) ∧
  (∀ (s t : State), step s = .next t → s.pwr.minSvn ≤ t.pwr.minSvn) ∧
  (∀ (v : Word) (s : State), hostDeaf s = false → regLocked s = false → bit v 5 = true → (mode s ≠ 0 ∨ s.pwr.minSvn = fget s Reg.glbFwSvn 7 0) →
    exec (.svnCommit v) s = .next (ignoredWrite s Reg.glbBoot))

/-- The queue is first in, first out. -/
def Obligations.CommandsAreTakenInOrder : Prop :=
  (∀ (c : Instr) (s t : State), exec c s = .next t → t.pending = s.pending) ∧
  (∀ (s t : State), step s = .next t → t.pending = s.pending.tail)

/-- Equal memories stay equal data. -/
def Obligations.MemoriesKeepTheirForm : Prop :=
  (∀ (c : Instr) (s t : State), memWf s = true → exec c s = .next t → memWf t = true) ∧
  (∀ (s t : State), memWf s = true → step s = .next t → memWf t = true)

/-- The frame of every command that is none of memory's. -/
def Obligations.OnlyMemoryCommandsChangeMemory : Prop :=
  ∀ (c : Instr) (s t : State), writesMemory c = false → exec c s = .next t →
    t.hbm.mem = s.hbm.mem ∧ t.mtx.mailbox = s.mtx.mailbox ∧ t.mtx.mapWin = s.mtx.mapWin ∧
    t.mtx.scratch = s.mtx.scratch ∧ t.mtx.fw = s.mtx.fw ∧
    (∀ (o : Nat), mboxByte t o = mboxByte s o) ∧ (∀ (o : Nat), scratchByte t o = scratchByte s o)
end

