-- ==== Sys2Proof/Laws/Kept.lean ====
section
/-! SUPPORT. What the commands that write no memory keep: the memories, the fuse and the commands that wait. -/

namespace Sys2Proof.Machine

/-- The memories of the block, its fuse and the commands that wait. -/
structure Kept where
  /-- Buffer memory. -/
  mem : List Host.Cell
  /-- The mailbox. -/
  mailbox : Tab Byte
  /-- The map-memory window. -/
  mapWin : Tab Byte
  /-- The scratchpad. -/
  scratch : Tab Byte
  /-- The loads that filled the scratchpad. -/
  fw : List Nat
  /-- The fused MIN_SVN. -/
  minSvn : Nat
  /-- The commands that wait. -/
  pending : List Instr

/-- What `s` holds of them. -/
def kept (s : State) : Kept :=
  { mem := s.hbm.mem, mailbox := s.mtx.mailbox, mapWin := s.mtx.mapWin, scratch := s.mtx.scratch, fw := s.mtx.fw,
    minSvn := s.pwr.minSvn, pending := s.pending }

theorem kept_mk (regs lanes groups frms dccs ohp cfgs paths tribs ports termFr fab seeds outs map gth prot mrg sym eths cem tim tod
    rng xlat evt pm mtx hbm bgl pwr glb deferred out pending) :
    kept (State.mk regs lanes groups frms dccs ohp cfgs paths tribs ports termFr fab seeds outs map gth prot mrg sym eths cem tim
      tod rng xlat evt pm mtx hbm bgl pwr glb deferred out pending) =
    { mem := hbm.mem, mailbox := mtx.mailbox, mapWin := mtx.mapWin, scratch := mtx.scratch, fw := mtx.fw,
      minSvn := pwr.minSvn, pending := pending } := rfl

theorem kept_fold (s : State) : Kept.mk s.hbm.mem s.mtx.mailbox s.mtx.mapWin s.mtx.scratch s.mtx.fw s.pwr.minSvn s.pending =
    kept s := rfl

theorem kept_ite {c : Prop} [Decidable c] (a b : State) : kept (if c then a else b) = if c then kept a else kept b := by
  split <;> rfl

theorem kept_foldl {α : Type} (f : State → α → State) (l : List α) (s : State) (h : ∀ t x, kept (f t x) = kept t) :
    kept (l.foldl f s) = kept s := by
  induction l generalizing s with
  | nil => rfl
  | cons a r ih => rw [List.foldl_cons, ih, h]

theorem kept_tod (s : State) (t : TodSt) : kept { s with tod := t } = kept s := rfl

theorem kept_retry (s : State) (b : Bool) : kept { s with pwr := { s.pwr with retry := b } } = kept s := rfl

end Sys2Proof.Machine
end

