-- ==== Sys2Proof/Laws/KeptBase.lean ====
section
/-! SUPPORT. What the shared operations keep: the memories, the fuse and the commands that wait (`kept`). -/

set_option linter.unusedSimpArgs false
set_option linter.unusedTactic false
set_option linter.unreachableTactic false
set_option linter.unusedVariables false
set_option linter.unnecessarySeqFocus false

namespace Sys2Proof.Machine

theorem kept_wr (s : State) (off : Nat) (v : Word) : kept (wr s off v) = kept s := (rfl)

theorem kept_fset (s : State) (off hi lo v : Nat) : kept (fset s off hi lo v) = kept s := by
  simp only [fset, kept_wr]

theorem kept_bset (s : State) (off i : Nat) (b : Bool) : kept (bset s off i b) = kept s := by
  simp only [bset, kept_wr]

theorem kept_carry (s : State) (off : Nat) : kept (carry s off) = kept s := by
  unfold carry
  try simp only [kept_mk, kept_fold, kept_ite, ite_self, eq_self, implies_true, kept_wr, kept_bset]
  all_goals (repeat' (first | split | with_reducible refine (kept_foldl _ _ _ fun t x => ?_).trans ?_))
  all_goals try simp only [kept_mk, kept_fold, kept_ite, ite_self, eq_self, implies_true, kept_wr, kept_bset]
  all_goals (repeat' (first | split | with_reducible refine (kept_foldl _ _ _ fun t x => ?_).trans ?_))
  all_goals first | with_reducible rfl | (simp only [kept_mk, kept_fold, kept_ite, ite_self, eq_self, implies_true, kept_wr, kept_bset, kept_foldl]; done) | rfl

theorem kept_count (s : State) (off n : Nat) : kept (count s off n) = kept s := by
  unfold count
  try simp only [kept_mk, kept_fold, kept_ite, ite_self, eq_self, implies_true, kept_wr, kept_carry]
  all_goals (repeat' (first | split | with_reducible refine (kept_foldl _ _ _ fun t x => ?_).trans ?_))
  all_goals try simp only [kept_mk, kept_fold, kept_ite, ite_self, eq_self, implies_true, kept_wr, kept_carry]
  all_goals (repeat' (first | split | with_reducible refine (kept_foldl _ _ _ fun t x => ?_).trans ?_))
  all_goals first | with_reducible rfl | (simp only [kept_mk, kept_fold, kept_ite, ite_self, eq_self, implies_true, kept_wr, kept_carry]; done) | rfl

theorem kept_freeNext (s : State) : kept (freeNext s) = kept s := (rfl)

theorem kept_emit (s : State) (o : Output) : kept (emit s o) = kept s := (rfl)

theorem kept_wire (s : State) (kind : String) (inst : Nat) (b : List Byte) : kept (wire s kind inst b) = kept s := by
  simp only [wire, kept_emit]

theorem kept_ignored (s : State) (kind ring off : Nat) : kept (ignored s kind ring off) = kept s := by
  simp only [ignored, kept_wr, kept_count]

theorem kept_ignoredWrite (s : State) (off : Nat) : kept (ignoredWrite s off) = kept s := by
  simp only [ignoredWrite, kept_ignored]

theorem kept_advance (s : State) (n : Nat) : kept (advance s n) = kept s := by
  unfold advance
  try simp only [kept_mk, kept_fold, kept_ite, ite_self, eq_self, implies_true, kept_wr]
  all_goals (repeat' (first | split | with_reducible refine (kept_foldl _ _ _ fun t x => ?_).trans ?_))
  all_goals try simp only [kept_mk, kept_fold, kept_ite, ite_self, eq_self, implies_true, kept_wr]
  all_goals (repeat' (first | split | with_reducible refine (kept_foldl _ _ _ fun t x => ?_).trans ?_))
  all_goals first | with_reducible rfl | (simp only [kept_mk, kept_fold, kept_ite, ite_self, eq_self, implies_true, kept_wr]; done) | rfl

theorem kept_msix (s : State) (v : Nat) : kept (msix s v) = kept s := by
  unfold msix
  (repeat' split) <;> simp only [kept_mk, kept_fold, kept_emit]

theorem kept_signal (s : State) (r : Nat) : kept (signal s r) = kept s := by
  simp only [signal, kept_mk, kept_fold, kept_msix]

theorem kept_announce (s : State) (r sev src : Nat) : kept (announce s r sev src) = kept s := by
  unfold announce
  try simp only [kept_mk, kept_fold, kept_ite, ite_self, eq_self, implies_true, kept_signal]
  all_goals (repeat' (first | split | with_reducible refine (kept_foldl _ _ _ fun t x => ?_).trans ?_))
  all_goals try simp only [kept_mk, kept_fold, kept_ite, ite_self, eq_self, implies_true, kept_signal]
  all_goals (repeat' (first | split | with_reducible refine (kept_foldl _ _ _ fun t x => ?_).trans ?_))
  all_goals first | with_reducible rfl | (simp only [kept_mk, kept_fold, kept_ite, ite_self, eq_self, implies_true, kept_signal]; done) | rfl

theorem kept_setFault (s : State) (i : Nat) : kept (setFault s i) = kept s := by
  unfold setFault
  (repeat' split) <;> first | with_reducible rfl | (simp only [kept_bset, kept_msix]; done) | (with_reducible exact rfl)

theorem kept_lockedWrite (s : State) (off : Nat) (v : Word) : kept (lockedWrite s off v) = kept s := by
  unfold lockedWrite
  (repeat' split) <;> first | with_reducible rfl | (simp only [kept_ignoredWrite]; done) | (with_reducible exact rfl)

theorem kept_setHeld (s : State) (src : Nat) (l : List EvRec) : kept (setHeld s src l) = kept s := (rfl)

theorem kept_writeEvent (s : State) (n : Nat) (r : EvRec) : kept (writeEvent s n r) = kept s := by
  simp only [writeEvent, kept_mk, kept_fold, kept_emit, kept_advance, kept_announce]

theorem kept_flushHeld (fuel : Nat) (s : State) : kept (flushHeld fuel s) = kept s := by
  induction fuel generalizing s with
  | zero => rfl
  | succ n ih =>
    unfold flushHeld
    (repeat' split) <;> simp only [ih, kept_writeEvent, kept_setHeld]

theorem kept_flushEvents (s : State) : kept (flushEvents s) = kept s := by
  simp only [flushEvents, kept_flushHeld]

theorem kept_raiseFrom (s : State) (src : Nat) : kept (raiseFrom s src) = kept s := by
  unfold raiseFrom
  (repeat' split) <;> first | with_reducible rfl | (simp only [kept_flushEvents]; done) | (with_reducible exact rfl)

theorem kept_raise (s : State) (src : Nat) (d0 d1 : Word) : kept (raise s src d0 d1) = kept s := by
  simp only [raise, kept_mk, kept_fold, kept_ite, ite_self, eq_self, implies_true, kept_setHeld, kept_writeEvent, kept_raiseFrom]
  (repeat' split) <;> simp only [kept_mk, kept_fold, kept_ite, ite_self, eq_self, implies_true, kept_setHeld, kept_writeEvent, kept_raiseFrom]

theorem kept_raiseOnce (s : State) (src cause inst : Nat) (d0 d1 : Word) : kept (raiseOnce s src cause inst d0 d1) = kept s := by
  unfold raiseOnce
  (repeat' split) <;> simp only [kept_mk, kept_fold, kept_raise]

theorem kept_editDesc (s : State) (id : Nat) (f : Desc → Desc) : kept (editDesc s id f) = kept s := (rfl)

theorem kept_setDesc (s : State) (id st : Nat) : kept (setDesc s id st) = kept s := by
  simp only [setDesc, kept_editDesc]

theorem kept_dropDesc (s : State) (id : Nat) : kept (dropDesc s id) = kept s := (rfl)

theorem kept_writeCpl (s : State) (c : Cpl) : kept (writeCpl s c) = kept s := by
  unfold writeCpl
  try simp only [kept_mk, kept_fold, kept_ite, ite_self, eq_self, implies_true, kept_emit, kept_advance, kept_announce, kept_dropDesc]
  all_goals (repeat' (first | split | with_reducible refine (kept_foldl _ _ _ fun t x => ?_).trans ?_))
  all_goals try simp only [kept_mk, kept_fold, kept_ite, ite_self, eq_self, implies_true, kept_emit, kept_advance, kept_announce, kept_dropDesc]
  all_goals (repeat' (first | split | with_reducible refine (kept_foldl _ _ _ fun t x => ?_).trans ?_))
  all_goals first | with_reducible rfl | (simp only [kept_mk, kept_fold, kept_ite, ite_self, eq_self, implies_true, kept_emit, kept_advance, kept_announce, kept_dropDesc]; done) | rfl

theorem kept_stall (s : State) (ring : Nat) : kept (stall s ring) = kept s := by
  unfold stall
  (repeat' split) <;> first | with_reducible rfl | (simp only [kept_bset, kept_raise]; done) | (with_reducible exact rfl)

theorem kept_postCpl0 (s : State) (c : Cpl) : kept (postCpl0 s c) = kept s := by
  unfold postCpl0
  (repeat' split) <;> simp only [kept_mk, kept_fold, kept_writeCpl, kept_stall]

theorem kept_endWaiter (s : State) (w : Nat × Nat × Bool) (status : Nat) : kept (endWaiter s w status) = kept s := by
  simp only [endWaiter, kept_mk, kept_fold, kept_ite, ite_self, eq_self, implies_true, kept_setDesc, kept_postCpl0]
  (repeat' split) <;> simp only [kept_mk, kept_fold, kept_ite, ite_self, eq_self, implies_true, kept_setDesc, kept_postCpl0]

theorem kept_endWaiters (s : State) (target status : Nat) : kept (endWaiters s target status) = kept s := by
  unfold endWaiters
  try simp only [kept_mk, kept_fold, kept_ite, ite_self, eq_self, implies_true, kept_endWaiter]
  all_goals (repeat' (first | split | with_reducible refine (kept_foldl _ _ _ fun t x => ?_).trans ?_))
  all_goals try simp only [kept_mk, kept_fold, kept_ite, ite_self, eq_self, implies_true, kept_endWaiter]
  all_goals (repeat' (first | split | with_reducible refine (kept_foldl _ _ _ fun t x => ?_).trans ?_))
  all_goals first | with_reducible rfl | (simp only [kept_mk, kept_fold, kept_ite, ite_self, eq_self, implies_true, kept_endWaiter, kept_foldl]; done) | rfl

theorem kept_postCpl (s : State) (c : Cpl) : kept (postCpl s c) = kept s := by
  unfold postCpl
  try simp only [kept_mk, kept_fold, kept_ite, ite_self, eq_self, implies_true, kept_postCpl0, kept_endWaiters]
  all_goals (repeat' (first | split | with_reducible refine (kept_foldl _ _ _ fun t x => ?_).trans ?_))
  all_goals try simp only [kept_mk, kept_fold, kept_ite, ite_self, eq_self, implies_true, kept_postCpl0, kept_endWaiters]
  all_goals (repeat' (first | split | with_reducible refine (kept_foldl _ _ _ fun t x => ?_).trans ?_))
  all_goals first | with_reducible rfl | (simp only [kept_mk, kept_fold, kept_ite, ite_self, eq_self, implies_true, kept_postCpl0, kept_endWaiters]; done) | rfl

theorem kept_flushCpl (s : State) : kept (flushCpl s) = kept s := by
  unfold flushCpl
  try simp only [kept_mk, kept_fold, kept_ite, ite_self, eq_self, implies_true, kept_postCpl]
  all_goals (repeat' (first | split | with_reducible refine (kept_foldl _ _ _ fun t x => ?_).trans ?_))
  all_goals try simp only [kept_mk, kept_fold, kept_ite, ite_self, eq_self, implies_true, kept_postCpl]
  all_goals (repeat' (first | split | with_reducible refine (kept_foldl _ _ _ fun t x => ?_).trans ?_))
  all_goals first | with_reducible rfl | (simp only [kept_mk, kept_fold, kept_ite, ite_self, eq_self, implies_true, kept_postCpl, kept_foldl]; done) | rfl

theorem kept_complete (s : State) (id status : Nat) (r0 r1 : Word) : kept (complete s id status r0 r1) = kept s := by
  unfold complete
  (repeat' split) <;> first | with_reducible rfl | (simp only [kept_setDesc, kept_dropDesc, kept_endWaiters, kept_postCpl]; done) | (with_reducible exact rfl)

theorem kept_completeOk (s : State) (id : Nat) (r0 r1 : Word) : kept (completeOk s id r0 r1) = kept s := by
  simp only [completeOk, kept_complete]

theorem kept_invalid (s : State) (id reason : Nat) : kept (invalid s id reason) = kept s := by
  simp only [invalid, kept_complete]

theorem kept_invalidOpen (s : State) (id : Nat) : kept (invalidOpen s id) = kept s := by
  simp only [invalidOpen, kept_freeNext, kept_complete]

theorem kept_hostWait (s : State) (off size : Nat) (write : Bool) (b : List Byte) : kept (hostWait s off size write b) = kept s := (rfl)

theorem kept_hostWrite (s : State) (off : Nat) (v : Word) (f : State → State) (h : ∀ t, kept (f t) = kept t) :
    kept (hostWrite s off v f) = kept s := by
  unfold hostWrite
  split
  · rfl
  · split
    · rfl
    · split
      · exact kept_ignoredWrite s off
      · exact h s

theorem kept_setPower (s : State) (st : Nat) : kept (setPower s st) = kept s := by
  unfold setPower
  try simp only [kept_mk, kept_fold, kept_ite, ite_self, eq_self, implies_true, kept_fset, kept_raise]
  all_goals (repeat' (first | split | with_reducible refine (kept_foldl _ _ _ fun t x => ?_).trans ?_))
  all_goals try simp only [kept_mk, kept_fold, kept_ite, ite_self, eq_self, implies_true, kept_fset, kept_raise]
  all_goals (repeat' (first | split | with_reducible refine (kept_foldl _ _ _ fun t x => ?_).trans ?_))
  all_goals first | with_reducible rfl | (simp only [kept_mk, kept_fold, kept_ite, ite_self, eq_self, implies_true, kept_fset, kept_raise]; done) | rfl

theorem kept_pmbus (s : State) (n : Nat) (cmd : String) (data : List Byte) : kept (pmbus s n cmd data) = kept s := by
  unfold pmbus
  (repeat' split) <;> first | with_reducible rfl | (simp only [kept_wire]; done) | (with_reducible exact rfl)

theorem kept_startRail (s : State) (n : Nat) : kept (startRail s n) = kept s := by
  unfold startRail
  (repeat' split) <;> simp only [kept_mk, kept_fold, kept_fset, kept_bset, kept_pmbus]

theorem kept_railDemand (s : State) : kept (railDemand s) = kept s := by
  unfold railDemand
  (repeat' split) <;> simp only [kept_mk, kept_fold, kept_startRail]

theorem kept_enterActive (s : State) : kept (enterActive s) = kept s := by
  simp only [enterActive, kept_mk, kept_fold, kept_setPower]

theorem kept_needDomain (s : State) (dom : Nat) : kept (needDomain s dom) = kept s := by
  unfold needDomain
  try simp only [kept_mk, kept_fold, kept_ite, ite_self, eq_self, implies_true, kept_railDemand, kept_enterActive]
  all_goals (repeat' (first | split | with_reducible refine (kept_foldl _ _ _ fun t x => ?_).trans ?_))
  all_goals try simp only [kept_mk, kept_fold, kept_ite, ite_self, eq_self, implies_true, kept_railDemand, kept_enterActive]
  all_goals (repeat' (first | split | with_reducible refine (kept_foldl _ _ _ fun t x => ?_).trans ?_))
  all_goals first | with_reducible rfl | (simp only [kept_mk, kept_fold, kept_ite, ite_self, eq_self, implies_true, kept_railDemand, kept_enterActive]; done) | rfl

theorem kept_idleMark (s : State) (dom : Nat) : kept (idleMark s dom) = kept s := (rfl)

theorem kept_holdWrite (s : State) (dom off : Nat) (v : Word) : kept (holdWrite s dom off v) = kept s := by
  simp only [holdWrite, kept_mk, kept_fold, kept_needDomain]

theorem kept_domainWrite (s : State) (dom off : Nat) (v : Word) (f : State → State) (h : ∀ t, kept (f t) = kept t) :
    kept (domainWrite s dom off v f) = kept s := by
  unfold domainWrite
  refine kept_hostWrite s off v _ fun t => ?_
  split
  · exact h t
  · exact kept_holdWrite t dom off v

theorem kept_editLane (s : State) (n : Nat) (f : LaneSt → LaneSt) : kept (editLane s n f) = kept s := (rfl)

theorem kept_editGroup (s : State) (g : Nat) (f : GroupSt → GroupSt) : kept (editGroup s g f) = kept s := (rfl)

theorem kept_editFrm (s : State) (n : Nat) (f : FrmSt → FrmSt) : kept (editFrm s n f) = kept s := (rfl)

theorem kept_editPath (s : State) (a : Word) (f : PathSt → PathSt) : kept (editPath s a f) = kept s := (rfl)

theorem kept_setSel (s : State) (k : Nat) (v : Sel) : kept (setSel s k v) = kept s := (rfl)

theorem kept_setGrp (s : State) (g : Nat) (v : Grp) : kept (setGrp s g v) = kept s := (rfl)



theorem kept_mapChanged (s : State) : kept (mapChanged s) = kept s := by
  simp only [mapChanged, kept_wr]

theorem kept_orphanCheck (before s : State) : kept (orphanCheck before s) = kept s := by
  unfold orphanCheck
  try simp only [kept_mk, kept_fold, kept_ite, ite_self, eq_self, implies_true, kept_raise]
  all_goals (repeat' (first | split | with_reducible refine (kept_foldl _ _ _ fun t x => ?_).trans ?_))
  all_goals try simp only [kept_mk, kept_fold, kept_ite, ite_self, eq_self, implies_true, kept_raise]
  all_goals (repeat' (first | split | with_reducible refine (kept_foldl _ _ _ fun t x => ?_).trans ?_))
  all_goals first | with_reducible rfl | (simp only [kept_mk, kept_fold, kept_ite, ite_self, eq_self, implies_true, kept_raise]; done) | rfl

theorem kept_dropEntries (s : State) : kept (dropEntries s) = kept s := (rfl)

theorem kept_laneMapChange (s : State) (olds : List (Nat × Word)) : kept (laneMapChange s olds) = kept s := by
  unfold laneMapChange
  (repeat' split) <;> first | with_reducible rfl | (simp only [kept_mapChanged, kept_dropEntries]; done) | (with_reducible exact rfl)

theorem kept_selEvent (s : State) (k cause more hi : Nat) : kept (selEvent s k cause more hi) = kept s := by
  simp only [selEvent, kept_raise]

theorem kept_selAbsorbed (s : State) (k : Nat) (prot : Bool) : kept (selAbsorbed s k prot) = kept s := by
  simp only [selAbsorbed, kept_raiseOnce]

theorem kept_grpEvent (s : State) (g cause : Nat) (state : Bool) (d1 : Word) : kept (grpEvent s g cause state d1) = kept s := by
  simp only [grpEvent, kept_raise]

theorem kept_editMerge (s : State) (k : Nat) (f : Merge → Merge) : kept (editMerge s k f) = kept s := by
  simp only [editMerge, kept_mk, kept_fold, kept_ite, ite_self, eq_self, implies_true]
  (repeat' split) <;> simp only [kept_mk, kept_fold, kept_ite, ite_self, eq_self, implies_true]

theorem kept_unverify (s : State) (k : Nat) (c : Bool) : kept (unverify s k c) = kept s := by
  unfold unverify
  (repeat' split) <;> simp only [kept_mk, kept_fold, kept_editMerge]

theorem kept_mergeHit (s : State) (k : Nat) (c : Bool) : kept (mergeHit s k c) = kept s := by
  simp only [mergeHit, kept_editMerge]

theorem kept_refreshSel (s : State) (k : Nat) : kept (refreshSel s k) = kept s := by
  simp only [refreshSel, kept_mk, kept_fold, kept_ite, ite_self, eq_self, implies_true, kept_setSel, kept_selAbsorbed, kept_mergeHit]
  (repeat' split) <;> simp only [kept_mk, kept_fold, kept_ite, ite_self, eq_self, implies_true, kept_setSel, kept_selAbsorbed, kept_mergeHit]

theorem kept_refreshGrp (s : State) (g : Nat) : kept (refreshGrp s g) = kept s := by
  simp only [refreshGrp, kept_mk, kept_fold, kept_ite, ite_self, eq_self, implies_true, kept_raiseOnce, kept_setGrp]
  (repeat' split) <;> simp only [kept_mk, kept_fold, kept_ite, ite_self, eq_self, implies_true, kept_raiseOnce, kept_setGrp]

theorem kept_unverifyMoved (before s : State) : kept (unverifyMoved before s) = kept s := by
  unfold unverifyMoved
  try simp only [kept_mk, kept_fold, kept_ite, ite_self, eq_self, implies_true, kept_unverify]
  all_goals (repeat' (first | split | with_reducible refine (kept_foldl _ _ _ fun t x => ?_).trans ?_))
  all_goals try simp only [kept_mk, kept_fold, kept_ite, ite_self, eq_self, implies_true, kept_unverify]
  all_goals (repeat' (first | split | with_reducible refine (kept_foldl _ _ _ fun t x => ?_).trans ?_))
  all_goals first | with_reducible rfl | (simp only [kept_mk, kept_fold, kept_ite, ite_self, eq_self, implies_true, kept_unverify, kept_foldl]; done) | rfl

theorem kept_unverifyPath (s : State) (a : Word) : kept (unverifyPath s a) = kept s := by
  unfold unverifyPath
  try simp only [kept_mk, kept_fold, kept_ite, ite_self, eq_self, implies_true, kept_mergeHit]
  all_goals (repeat' (first | split | with_reducible refine (kept_foldl _ _ _ fun t x => ?_).trans ?_))
  all_goals try simp only [kept_mk, kept_fold, kept_ite, ite_self, eq_self, implies_true, kept_mergeHit]
  all_goals (repeat' (first | split | with_reducible refine (kept_foldl _ _ _ fun t x => ?_).trans ?_))
  all_goals first | with_reducible rfl | (simp only [kept_mk, kept_fold, kept_ite, ite_self, eq_self, implies_true, kept_mergeHit, kept_foldl]; done) | rfl

theorem kept_refreshConds (s : State) : kept (refreshConds s) = kept s := by
  unfold refreshConds
  try simp only [kept_mk, kept_fold, kept_ite, ite_self, eq_self, implies_true, kept_refreshSel, kept_refreshGrp]
  all_goals (repeat' (first | split | with_reducible refine (kept_foldl _ _ _ fun t x => ?_).trans ?_))
  all_goals try simp only [kept_mk, kept_fold, kept_ite, ite_self, eq_self, implies_true, kept_refreshSel, kept_refreshGrp]
  all_goals (repeat' (first | split | with_reducible refine (kept_foldl _ _ _ fun t x => ?_).trans ?_))
  all_goals first | with_reducible rfl | (simp only [kept_mk, kept_fold, kept_ite, ite_self, eq_self, implies_true, kept_refreshSel, kept_refreshGrp, kept_foldl]; done) | rfl

theorem kept_pathEvent (s : State) (a : Word) (cause : Nat) (st : Bool) : kept (pathEvent s a cause st) = kept s := by
  simp only [pathEvent, kept_raise]

theorem kept_dropLock (s : State) (a : Word) : kept (dropLock s a) = kept s := by
  unfold dropLock
  try simp only [kept_mk, kept_fold, kept_ite, ite_self, eq_self, implies_true, kept_editPath, kept_pathEvent]
  all_goals (repeat' (first | split | with_reducible refine (kept_foldl _ _ _ fun t x => ?_).trans ?_))
  all_goals try simp only [kept_mk, kept_fold, kept_ite, ite_self, eq_self, implies_true, kept_editPath, kept_pathEvent]
  all_goals (repeat' (first | split | with_reducible refine (kept_foldl _ _ _ fun t x => ?_).trans ?_))
  all_goals first | with_reducible rfl | (simp only [kept_mk, kept_fold, kept_ite, ite_self, eq_self, implies_true, kept_editPath, kept_pathEvent]; done) | rfl

theorem kept_notePath (s : State) (a : Word) : kept (notePath s a) = kept s := by
  simp only [notePath, kept_editPath]

theorem kept_refreshPath (s : State) (a : Word) : kept (refreshPath s a) = kept s := by
  unfold refreshPath
  try simp only [kept_mk, kept_fold, kept_ite, ite_self, eq_self, implies_true, kept_editPath, kept_pathEvent, kept_notePath]
  all_goals (repeat' (first | split | with_reducible refine (kept_foldl _ _ _ fun t x => ?_).trans ?_))
  all_goals try simp only [kept_mk, kept_fold, kept_ite, ite_self, eq_self, implies_true, kept_editPath, kept_pathEvent, kept_notePath]
  all_goals (repeat' (first | split | with_reducible refine (kept_foldl _ _ _ fun t x => ?_).trans ?_))
  all_goals first | with_reducible rfl | (simp only [kept_mk, kept_fold, kept_ite, ite_self, eq_self, implies_true, kept_editPath, kept_pathEvent, kept_notePath, kept_foldl]; done) | rfl

theorem kept_refreshLanePaths (s : State) (n : Nat) : kept (refreshLanePaths s n) = kept s := by
  unfold refreshLanePaths
  try simp only [kept_mk, kept_fold, kept_ite, ite_self, eq_self, implies_true, kept_refreshPath]
  all_goals (repeat' (first | split | with_reducible refine (kept_foldl _ _ _ fun t x => ?_).trans ?_))
  all_goals try simp only [kept_mk, kept_fold, kept_ite, ite_self, eq_self, implies_true, kept_refreshPath]
  all_goals (repeat' (first | split | with_reducible refine (kept_foldl _ _ _ fun t x => ?_).trans ?_))
  all_goals first | with_reducible rfl | (simp only [kept_mk, kept_fold, kept_ite, ite_self, eq_self, implies_true, kept_refreshPath, kept_foldl]; done) | rfl

theorem kept_freshLane (s : State) (n : Nat) : kept (freshLane s n) = kept s := by
  unfold freshLane
  try simp only [kept_mk, kept_fold, kept_ite, ite_self, eq_self, implies_true, kept_dropLock, kept_refreshLanePaths]
  all_goals (repeat' (first | split | with_reducible refine (kept_foldl _ _ _ fun t x => ?_).trans ?_))
  all_goals try simp only [kept_mk, kept_fold, kept_ite, ite_self, eq_self, implies_true, kept_dropLock, kept_refreshLanePaths]
  all_goals (repeat' (first | split | with_reducible refine (kept_foldl _ _ _ fun t x => ?_).trans ?_))
  all_goals first | with_reducible rfl | (simp only [kept_mk, kept_fold, kept_ite, ite_self, eq_self, implies_true, kept_dropLock, kept_refreshLanePaths, kept_foldl]; done) | rfl

end Sys2Proof.Machine
end

