-- ==== Sys2Proof/Laws/KeptLine.lean ====
section
/-! SUPPORT. What the lanes and the framers keep: the memories, the fuse and the commands that wait (`kept`). -/

set_option linter.unusedSimpArgs false
set_option linter.unusedTactic false
set_option linter.unreachableTactic false
set_option linter.unusedVariables false
set_option linter.unnecessarySeqFocus false

namespace Sys2Proof.Machine

theorem kept_setLaneBit (s : State) (n i : Nat) (b : Bool) : kept (setLaneBit s n i b) = kept s := by
  simp only [setLaneBit, kept_bset]

theorem kept_laneEvent (s : State) (n cause : Nat) (d1 : Word) : kept (laneEvent s n cause d1) = kept s := by
  simp only [laneEvent, kept_raise]

theorem kept_editEth (s : State) (n : Nat) (f : EthSt → EthSt) : kept (editEth s n f) = kept s := (rfl)

theorem kept_ethBit (s : State) (n i cause : Nat) (b : Bool) : kept (ethBit s n i cause b) = kept s := by
  unfold ethBit
  (repeat' split) <;> first | with_reducible rfl | (simp only [kept_bset, kept_laneEvent]; done) | (with_reducible exact rfl)

theorem kept_followLink (s : State) (n : Nat) : kept (followLink s n) = kept s := by
  simp only [followLink, kept_ethBit]

theorem kept_pcsDown (s : State) (n : Nat) : kept (pcsDown s n) = kept s := by
  unfold pcsDown
  try simp only [kept_mk, kept_fold, kept_ite, ite_self, eq_self, implies_true, kept_ethBit, kept_followLink]
  all_goals (repeat' (first | split | with_reducible refine (kept_foldl _ _ _ fun t x => ?_).trans ?_))
  all_goals try simp only [kept_mk, kept_fold, kept_ite, ite_self, eq_self, implies_true, kept_ethBit, kept_followLink]
  all_goals (repeat' (first | split | with_reducible refine (kept_foldl _ _ _ fun t x => ?_).trans ?_))
  all_goals first | with_reducible rfl | (simp only [kept_mk, kept_fold, kept_ite, ite_self, eq_self, implies_true, kept_ethBit, kept_followLink, kept_foldl]; done) | rfl

theorem kept_setLaneState (s : State) (n st : Nat) : kept (setLaneState s n st) = kept s := by
  simp only [setLaneState, kept_fset, kept_followLink]

theorem kept_setPllLost (s : State) (g : Nat) (eth b : Bool) : kept (setPllLost s g eth b) = kept s := by
  simp only [setPllLost, kept_editGroup]

theorem kept_showLocks (s : State) (g : Nat) : kept (showLocks s g) = kept s := by
  unfold showLocks
  try simp only [kept_mk, kept_fold, kept_ite, ite_self, eq_self, implies_true, kept_setLaneBit]
  all_goals (repeat' (first | split | with_reducible refine (kept_foldl _ _ _ fun t x => ?_).trans ?_))
  all_goals try simp only [kept_mk, kept_fold, kept_ite, ite_self, eq_self, implies_true, kept_setLaneBit]
  all_goals (repeat' (first | split | with_reducible refine (kept_foldl _ _ _ fun t x => ?_).trans ?_))
  all_goals first | with_reducible rfl | (simp only [kept_mk, kept_fold, kept_ite, ite_self, eq_self, implies_true, kept_setLaneBit, kept_foldl]; done) | rfl

theorem kept_setPlls (s : State) (g : Nat) : kept (setPlls s g) = kept s := by
  unfold setPlls
  try simp only [kept_mk, kept_fold, kept_ite, ite_self, eq_self, implies_true, kept_wr, kept_setPllLost, kept_showLocks]
  all_goals (repeat' (first | split | with_reducible refine (kept_foldl _ _ _ fun t x => ?_).trans ?_))
  all_goals try simp only [kept_mk, kept_fold, kept_ite, ite_self, eq_self, implies_true, kept_wr, kept_setPllLost, kept_showLocks]
  all_goals (repeat' (first | split | with_reducible refine (kept_foldl _ _ _ fun t x => ?_).trans ?_))
  all_goals first | with_reducible rfl | (simp only [kept_mk, kept_fold, kept_ite, ite_self, eq_self, implies_true, kept_wr, kept_setPllLost, kept_showLocks]; done) | rfl

theorem kept_abortEye (s : State) (n : Nat) : kept (abortEye s n) = kept s := by
  unfold abortEye
  (repeat' split) <;> first | with_reducible rfl | (simp only [kept_wr, kept_editLane]; done) | (with_reducible exact rfl)

theorem kept_beginCal (s : State) (n : Nat) (d : Option Nat) : kept (beginCal s n d) = kept s := by
  unfold beginCal
  try simp only [kept_mk, kept_fold, kept_ite, ite_self, eq_self, implies_true, kept_editLane, kept_setLaneBit, kept_laneEvent, kept_setLaneState, kept_abortEye]
  all_goals (repeat' (first | split | with_reducible refine (kept_foldl _ _ _ fun t x => ?_).trans ?_))
  all_goals try simp only [kept_mk, kept_fold, kept_ite, ite_self, eq_self, implies_true, kept_editLane, kept_setLaneBit, kept_laneEvent, kept_setLaneState, kept_abortEye]
  all_goals (repeat' (first | split | with_reducible refine (kept_foldl _ _ _ fun t x => ?_).trans ?_))
  all_goals first | with_reducible rfl | (simp only [kept_mk, kept_fold, kept_ite, ite_self, eq_self, implies_true, kept_editLane, kept_setLaneBit, kept_laneEvent, kept_setLaneState, kept_abortEye]; done) | rfl

theorem kept_startLane (s : State) (n : Nat) : kept (startLane s n) = kept s := by
  unfold startLane
  try simp only [kept_mk, kept_fold, kept_ite, ite_self, eq_self, implies_true, kept_editLane, kept_setLaneBit, kept_pcsDown, kept_setLaneState, kept_beginCal]
  all_goals (repeat' (first | split | with_reducible refine (kept_foldl _ _ _ fun t x => ?_).trans ?_))
  all_goals try simp only [kept_mk, kept_fold, kept_ite, ite_self, eq_self, implies_true, kept_editLane, kept_setLaneBit, kept_pcsDown, kept_setLaneState, kept_beginCal]
  all_goals (repeat' (first | split | with_reducible refine (kept_foldl _ _ _ fun t x => ?_).trans ?_))
  all_goals first | with_reducible rfl | (simp only [kept_mk, kept_fold, kept_ite, ite_self, eq_self, implies_true, kept_editLane, kept_setLaneBit, kept_pcsDown, kept_setLaneState, kept_beginCal]; done) | rfl

theorem kept_startRetrim (s : State) (n : Nat) (d : Option Nat) : kept (startRetrim s n d) = kept s := by
  unfold startRetrim
  (repeat' split) <;> first | with_reducible rfl | (simp only [kept_fset, kept_setDesc, kept_editLane, kept_editGroup, kept_setLaneBit, kept_laneEvent]; done) | (with_reducible exact rfl)

theorem kept_serveRetrim (s : State) (g : Nat) : kept (serveRetrim s g) = kept s := by
  unfold serveRetrim
  (repeat' split) <;> first | with_reducible rfl | (simp only [kept_editGroup, kept_startRetrim]; done) | (with_reducible exact rfl)

theorem kept_dueRetrim (s : State) (n : Nat) (d : Option Nat) : kept (dueRetrim s n d) = kept s := by
  unfold dueRetrim
  try simp only [kept_mk, kept_fold, kept_ite, ite_self, eq_self, implies_true, kept_editGroup, kept_startRetrim]
  all_goals (repeat' (first | split | with_reducible refine (kept_foldl _ _ _ fun t x => ?_).trans ?_))
  all_goals try simp only [kept_mk, kept_fold, kept_ite, ite_self, eq_self, implies_true, kept_editGroup, kept_startRetrim]
  all_goals (repeat' (first | split | with_reducible refine (kept_foldl _ _ _ fun t x => ?_).trans ?_))
  all_goals first | with_reducible rfl | (simp only [kept_mk, kept_fold, kept_ite, ite_self, eq_self, implies_true, kept_editGroup, kept_startRetrim]; done) | rfl

theorem kept_endRetrim (s : State) (g n us : Nat) : kept (endRetrim s g n us) = kept s := by
  simp only [endRetrim, kept_mk, kept_fold, kept_ite, ite_self, eq_self, implies_true, kept_completeOk, kept_editLane, kept_editGroup, kept_setLaneBit, kept_beginCal, kept_serveRetrim]
  (repeat' split) <;> simp only [kept_mk, kept_fold, kept_ite, ite_self, eq_self, implies_true, kept_completeOk, kept_editLane, kept_editGroup, kept_setLaneBit, kept_beginCal, kept_serveRetrim]

theorem kept_stopLane (s : State) (n : Nat) : kept (stopLane s n) = kept s := by
  simp only [stopLane, kept_mk, kept_fold, kept_ite, ite_self, eq_self, implies_true, kept_wr, kept_completeOk, kept_invalidOpen, kept_editLane, kept_editGroup, kept_pcsDown, kept_abortEye, kept_endRetrim, kept_foldl]
  (repeat' split) <;> simp only [kept_mk, kept_fold, kept_ite, ite_self, eq_self, implies_true, kept_wr, kept_completeOk, kept_invalidOpen, kept_editLane, kept_editGroup, kept_pcsDown, kept_abortEye, kept_endRetrim, kept_foldl]

theorem kept_forcedOps (s : State) (n : Nat) (old v : Word) : kept (forcedOps s n old v) = kept s := by
  unfold forcedOps
  try simp only [kept_mk, kept_fold, kept_ite, ite_self, eq_self, implies_true, kept_laneEvent]
  all_goals (repeat' (first | split | with_reducible refine (kept_foldl _ _ _ fun t x => ?_).trans ?_))
  all_goals try simp only [kept_mk, kept_fold, kept_ite, ite_self, eq_self, implies_true, kept_laneEvent]
  all_goals (repeat' (first | split | with_reducible refine (kept_foldl _ _ _ fun t x => ?_).trans ?_))
  all_goals first | with_reducible rfl | (simp only [kept_mk, kept_fold, kept_ite, ite_self, eq_self, implies_true, kept_laneEvent]; done) | rfl

theorem kept_followCtl (s : State) (n : Nat) (old : Word) : kept (followCtl s n old) = kept s := by
  unfold followCtl
  try simp only [kept_mk, kept_fold, kept_ite, ite_self, eq_self, implies_true, kept_freshLane, kept_startLane, kept_stopLane]
  all_goals (repeat' (first | split | with_reducible refine (kept_foldl _ _ _ fun t x => ?_).trans ?_))
  all_goals try simp only [kept_mk, kept_fold, kept_ite, ite_self, eq_self, implies_true, kept_freshLane, kept_startLane, kept_stopLane]
  all_goals (repeat' (first | split | with_reducible refine (kept_foldl _ _ _ fun t x => ?_).trans ?_))
  all_goals first | with_reducible rfl | (simp only [kept_mk, kept_fold, kept_ite, ite_self, eq_self, implies_true, kept_freshLane, kept_startLane, kept_stopLane]; done) | rfl

theorem kept_followQuad (s : State) (n : Nat) (old v : Word) : kept (followQuad s n old v) = kept s := by
  unfold followQuad
  try simp only [kept_mk, kept_fold, kept_ite, ite_self, eq_self, implies_true, kept_wr]
  all_goals (repeat' (first | split | with_reducible refine (kept_foldl _ _ _ fun t x => ?_).trans ?_))
  all_goals try simp only [kept_mk, kept_fold, kept_ite, ite_self, eq_self, implies_true, kept_wr]
  all_goals (repeat' (first | split | with_reducible refine (kept_foldl _ _ _ fun t x => ?_).trans ?_))
  all_goals first | with_reducible rfl | (simp only [kept_mk, kept_fold, kept_ite, ite_self, eq_self, implies_true, kept_wr, kept_foldl]; done) | rfl

theorem kept_groupIdles (s : State) (n : Nat) (olds : List (Nat × Word)) : kept (groupIdles s n olds) = kept s := by
  unfold groupIdles
  (repeat' split) <;> first | with_reducible rfl | (simp only [kept_idleMark]; done) | (with_reducible exact rfl)

theorem kept_acceptCtl (s : State) (n : Nat) (v : Word) : kept (acceptCtl s n v) = kept s := by
  unfold acceptCtl
  try simp only [kept_mk, kept_fold, kept_ite, ite_self, eq_self, implies_true, kept_wr, kept_orphanCheck, kept_laneMapChange, kept_laneEvent, kept_setPlls, kept_forcedOps, kept_followCtl, kept_followQuad, kept_groupIdles]
  all_goals (repeat' (first | split | with_reducible refine (kept_foldl _ _ _ fun t x => ?_).trans ?_))
  all_goals try simp only [kept_mk, kept_fold, kept_ite, ite_self, eq_self, implies_true, kept_wr, kept_orphanCheck, kept_laneMapChange, kept_laneEvent, kept_setPlls, kept_forcedOps, kept_followCtl, kept_followQuad, kept_groupIdles]
  all_goals (repeat' (first | split | with_reducible refine (kept_foldl _ _ _ fun t x => ?_).trans ?_))
  all_goals first | with_reducible rfl | (simp only [kept_mk, kept_fold, kept_ite, ite_self, eq_self, implies_true, kept_wr, kept_orphanCheck, kept_laneMapChange, kept_laneEvent, kept_setPlls, kept_forcedOps, kept_followCtl, kept_followQuad, kept_groupIdles, kept_foldl]; done) | rfl

theorem kept_memberCtl (s : State) (n : Nat) (v : Word) : kept (memberCtl s n v) = kept s := by
  unfold memberCtl
  try simp only [kept_mk, kept_fold, kept_ite, ite_self, eq_self, implies_true, kept_ignoredWrite, kept_acceptCtl]
  all_goals (repeat' (first | split | with_reducible refine (kept_foldl _ _ _ fun t x => ?_).trans ?_))
  all_goals try simp only [kept_mk, kept_fold, kept_ite, ite_self, eq_self, implies_true, kept_ignoredWrite, kept_acceptCtl]
  all_goals (repeat' (first | split | with_reducible refine (kept_foldl _ _ _ fun t x => ?_).trans ?_))
  all_goals first | with_reducible rfl | (simp only [kept_mk, kept_fold, kept_ite, ite_self, eq_self, implies_true, kept_ignoredWrite, kept_acceptCtl]; done) | rfl

theorem kept_applyCtl (s : State) (n : Nat) (v : Word) : kept (applyCtl s n v) = kept s := by
  unfold applyCtl
  (repeat' split) <;> first | with_reducible rfl | (simp only [kept_ignoredWrite, kept_acceptCtl, kept_memberCtl]; done) | (with_reducible exact rfl)

theorem kept_ctlWrite (s : State) (n : Nat) (v : Word) : kept (ctlWrite s n v) = kept s := by
  unfold ctlWrite
  (repeat' split) <;> first | with_reducible rfl | (simp only [kept_editLane, kept_applyCtl]; done) | (with_reducible exact rfl)

theorem kept_execLaneCtlWrite (lane : LaneId) (v : Word) (s : State) (dflt : State) : kept ((execLaneCtlWrite lane v s).or dflt) = kept s := by
  unfold execLaneCtlWrite
  try simp only [kept_mk, kept_fold, kept_ite, ite_self, eq_self, implies_true, kept_domainWrite, kept_ctlWrite, Out.or]
  all_goals (repeat' (first | split | with_reducible refine (kept_foldl _ _ _ fun t x => ?_).trans ?_))
  all_goals try simp only [kept_mk, kept_fold, kept_ite, ite_self, eq_self, implies_true, kept_domainWrite, kept_ctlWrite, Out.or]
  all_goals (repeat' (first | split | with_reducible refine (kept_foldl _ _ _ fun t x => ?_).trans ?_))
  all_goals first | with_reducible rfl | (simp only [kept_mk, kept_fold, kept_ite, ite_self, eq_self, implies_true, kept_domainWrite, kept_ctlWrite, Out.or]; done) | rfl

theorem kept_execLaneCtlHeldRelease (lane : LaneId) (s : State) (dflt : State) : kept ((execLaneCtlHeldRelease lane s).or dflt) = kept s := by
  unfold execLaneCtlHeldRelease
  (repeat' split) <;> first | with_reducible rfl | (simp only [kept_editLane, kept_applyCtl, Out.or]; done) | (with_reducible exact rfl)

theorem kept_execLanePllLocked (lane : LaneId) (s : State) (dflt : State) : kept ((execLanePllLocked lane s).or dflt) = kept s := by
  unfold execLanePllLocked
  try simp only [kept_mk, kept_fold, kept_ite, ite_self, eq_self, implies_true, kept_bset, kept_editLane, kept_setLaneState, kept_showLocks, kept_beginCal, Out.or]
  all_goals (repeat' (first | split | with_reducible refine (kept_foldl _ _ _ fun t x => ?_).trans ?_))
  all_goals try simp only [kept_mk, kept_fold, kept_ite, ite_self, eq_self, implies_true, kept_bset, kept_editLane, kept_setLaneState, kept_showLocks, kept_beginCal, Out.or]
  all_goals (repeat' (first | split | with_reducible refine (kept_foldl _ _ _ fun t x => ?_).trans ?_))
  all_goals first | with_reducible rfl | (simp only [kept_mk, kept_fold, kept_ite, ite_self, eq_self, implies_true, kept_bset, kept_editLane, kept_setLaneState, kept_showLocks, kept_beginCal, Out.or]; done) | rfl

theorem kept_setEq (s : State) (n : Nat) (eq : Word) : kept (setEq s n eq) = kept s := by
  simp only [setEq, kept_wr, kept_editLane]

theorem kept_execLaneCalEnd (lane : LaneId) (fail : Option (Fin 5)) (eq us : Word) (sig : Bool) (s : State) (dflt : State) : kept ((execLaneCalEnd lane fail eq us sig s).or dflt) = kept s := by
  simp only [execLaneCalEnd, kept_mk, kept_fold, kept_ite, ite_self, eq_self, implies_true, kept_fset, kept_completeOk, kept_editLane, kept_editGroup, kept_setLaneBit, kept_laneEvent, kept_setLaneState, kept_serveRetrim, kept_setEq, Out.or]
  (repeat' split) <;> simp only [kept_mk, kept_fold, kept_ite, ite_self, eq_self, implies_true, kept_fset, kept_completeOk, kept_editLane, kept_editGroup, kept_setLaneBit, kept_laneEvent, kept_setLaneState, kept_serveRetrim, kept_setEq, Out.or]

theorem kept_execLaneCdrLock (lane : LaneId) (s : State) (dflt : State) : kept ((execLaneCdrLock lane s).or dflt) = kept s := by
  unfold execLaneCdrLock
  (repeat' split) <;> first | with_reducible rfl | (simp only [kept_setLaneBit, kept_laneEvent, kept_setLaneState, Out.or]; done) | (with_reducible exact rfl)

theorem kept_execLaneCdrUnlock (lane : LaneId) (sig : Bool) (s : State) (dflt : State) : kept ((execLaneCdrUnlock lane sig s).or dflt) = kept s := by
  unfold execLaneCdrUnlock
  (repeat' split) <;> first | with_reducible rfl | (simp only [kept_setLaneBit, kept_laneEvent, kept_setLaneState, Out.or]; done) | (with_reducible exact rfl)

theorem kept_execAdaptConverged (lane : LaneId) (eq : Word) (s : State) (dflt : State) : kept ((execAdaptConverged lane eq s).or dflt) = kept s := by
  unfold execAdaptConverged
  (repeat' split) <;> first | with_reducible rfl | (simp only [kept_setLaneBit, kept_setEq, Out.or]; done) | (with_reducible exact rfl)

theorem kept_execAdaptLimit (lane : LaneId) (value : Fin 6) (eq : Word) (s : State) (dflt : State) : kept ((execAdaptLimit lane value eq s).or dflt) = kept s := by
  unfold execAdaptLimit
  try simp only [kept_mk, kept_fold, kept_ite, ite_self, eq_self, implies_true, kept_editLane, kept_laneEvent, kept_setEq, Out.or]
  all_goals (repeat' (first | split | with_reducible refine (kept_foldl _ _ _ fun t x => ?_).trans ?_))
  all_goals try simp only [kept_mk, kept_fold, kept_ite, ite_self, eq_self, implies_true, kept_editLane, kept_laneEvent, kept_setEq, Out.or]
  all_goals (repeat' (first | split | with_reducible refine (kept_foldl _ _ _ fun t x => ?_).trans ?_))
  all_goals first | with_reducible rfl | (simp only [kept_mk, kept_fold, kept_ite, ite_self, eq_self, implies_true, kept_editLane, kept_laneEvent, kept_setEq, Out.or]; done) | rfl

theorem kept_execLaneTempCheck (lane : LaneId) (s : State) (dflt : State) : kept ((execLaneTempCheck lane s).or dflt) = kept s := by
  unfold execLaneTempCheck
  try simp only [kept_mk, kept_fold, kept_ite, ite_self, eq_self, implies_true, kept_dueRetrim, Out.or]
  all_goals (repeat' (first | split | with_reducible refine (kept_foldl _ _ _ fun t x => ?_).trans ?_))
  all_goals try simp only [kept_mk, kept_fold, kept_ite, ite_self, eq_self, implies_true, kept_dueRetrim, Out.or]
  all_goals (repeat' (first | split | with_reducible refine (kept_foldl _ _ _ fun t x => ?_).trans ?_))
  all_goals first | with_reducible rfl | (simp only [kept_mk, kept_fold, kept_ite, ite_self, eq_self, implies_true, kept_dueRetrim, Out.or]; done) | rfl

theorem kept_execRetrimEnd (lane : LaneId) (us : Word) (s : State) (dflt : State) : kept ((execRetrimEnd lane us s).or dflt) = kept s := by
  unfold execRetrimEnd
  (repeat' split) <;> first | with_reducible rfl | (simp only [kept_endRetrim, Out.or]; done) | (with_reducible exact rfl)

theorem kept_execLaneFofsMeasure (lane : LaneId) (ofs : BitVec 16) (sig : Bool) (s : State) (dflt : State) : kept ((execLaneFofsMeasure lane ofs sig s).or dflt) = kept s := by
  unfold execLaneFofsMeasure
  try simp only [kept_mk, kept_fold, kept_ite, ite_self, eq_self, implies_true, kept_wr, kept_setLaneBit, kept_laneEvent, Out.or]
  all_goals (repeat' (first | split | with_reducible refine (kept_foldl _ _ _ fun t x => ?_).trans ?_))
  all_goals try simp only [kept_mk, kept_fold, kept_ite, ite_self, eq_self, implies_true, kept_wr, kept_setLaneBit, kept_laneEvent, Out.or]
  all_goals (repeat' (first | split | with_reducible refine (kept_foldl _ _ _ fun t x => ?_).trans ?_))
  all_goals first | with_reducible rfl | (simp only [kept_mk, kept_fold, kept_ite, ite_self, eq_self, implies_true, kept_wr, kept_setLaneBit, kept_laneEvent, Out.or]; done) | rfl

theorem kept_execFofsOff (lane : LaneId) (s : State) (dflt : State) : kept ((execFofsOff lane s).or dflt) = kept s := by
  unfold execFofsOff
  try simp only [kept_mk, kept_fold, kept_ite, ite_self, eq_self, implies_true, kept_setLaneBit, kept_laneEvent, Out.or]
  all_goals (repeat' (first | split | with_reducible refine (kept_foldl _ _ _ fun t x => ?_).trans ?_))
  all_goals try simp only [kept_mk, kept_fold, kept_ite, ite_self, eq_self, implies_true, kept_setLaneBit, kept_laneEvent, Out.or]
  all_goals (repeat' (first | split | with_reducible refine (kept_foldl _ _ _ fun t x => ?_).trans ?_))
  all_goals first | with_reducible rfl | (simp only [kept_mk, kept_fold, kept_ite, ite_self, eq_self, implies_true, kept_setLaneBit, kept_laneEvent, Out.or]; done) | rfl

theorem kept_execGroupPllUnlock (group : GroupId) (eth : Bool) (s : State) (dflt : State) : kept ((execGroupPllUnlock group eth s).or dflt) = kept s := by
  unfold execGroupPllUnlock
  try simp only [kept_mk, kept_fold, kept_ite, ite_self, eq_self, implies_true, kept_bset, kept_laneEvent, kept_setPllLost, kept_showLocks, Out.or]
  all_goals (repeat' (first | split | with_reducible refine (kept_foldl _ _ _ fun t x => ?_).trans ?_))
  all_goals try simp only [kept_mk, kept_fold, kept_ite, ite_self, eq_self, implies_true, kept_bset, kept_laneEvent, kept_setPllLost, kept_showLocks, Out.or]
  all_goals (repeat' (first | split | with_reducible refine (kept_foldl _ _ _ fun t x => ?_).trans ?_))
  all_goals first | with_reducible rfl | (simp only [kept_mk, kept_fold, kept_ite, ite_self, eq_self, implies_true, kept_bset, kept_laneEvent, kept_setPllLost, kept_showLocks, kept_foldl, Out.or]; done) | rfl

theorem kept_execPllRelockTimeout (group : GroupId) (eth : Bool) (s : State) (dflt : State) : kept ((execPllRelockTimeout group eth s).or dflt) = kept s := by
  unfold execPllRelockTimeout
  try simp only [kept_mk, kept_fold, kept_ite, ite_self, eq_self, implies_true, kept_editLane, kept_setLaneBit, kept_setLaneState, Out.or]
  all_goals (repeat' (first | split | with_reducible refine (kept_foldl _ _ _ fun t x => ?_).trans ?_))
  all_goals try simp only [kept_mk, kept_fold, kept_ite, ite_self, eq_self, implies_true, kept_editLane, kept_setLaneBit, kept_setLaneState, Out.or]
  all_goals (repeat' (first | split | with_reducible refine (kept_foldl _ _ _ fun t x => ?_).trans ?_))
  all_goals first | with_reducible rfl | (simp only [kept_mk, kept_fold, kept_ite, ite_self, eq_self, implies_true, kept_editLane, kept_setLaneBit, kept_setLaneState, kept_foldl, Out.or]; done) | rfl

theorem kept_execGroupPllRelock (group : GroupId) (eth : Bool) (s : State) (dflt : State) : kept ((execGroupPllRelock group eth s).or dflt) = kept s := by
  unfold execGroupPllRelock
  try simp only [kept_mk, kept_fold, kept_ite, ite_self, eq_self, implies_true, kept_bset, kept_editLane, kept_setLaneState, kept_setPllLost, kept_showLocks, Out.or]
  all_goals (repeat' (first | split | with_reducible refine (kept_foldl _ _ _ fun t x => ?_).trans ?_))
  all_goals try simp only [kept_mk, kept_fold, kept_ite, ite_self, eq_self, implies_true, kept_bset, kept_editLane, kept_setLaneState, kept_setPllLost, kept_showLocks, Out.or]
  all_goals (repeat' (first | split | with_reducible refine (kept_foldl _ _ _ fun t x => ?_).trans ?_))
  all_goals first | with_reducible rfl | (simp only [kept_mk, kept_fold, kept_ite, ite_self, eq_self, implies_true, kept_bset, kept_editLane, kept_setLaneState, kept_setPllLost, kept_showLocks, kept_foldl, Out.or]; done) | rfl

theorem kept_takeCal (s : State) (id kind : Nat) (run : State → Desc → Nat → State)
    (h : ∀ t x n, kept (run t x n) = kept t) : kept (takeCal s id kind run) = kept s := by
  unfold takeCal
  split
  · rfl
  · dsimp only
    (repeat' split) <;> first | rfl | simp only [h, kept_invalidOpen]

theorem kept_execLaneCalFull (d : Nat) (s : State) (dflt : State) : kept ((execLaneCalFull d s).or dflt) = kept s := by
  unfold execLaneCalFull
  try simp only [kept_mk, kept_fold, kept_ite, ite_self, eq_self, implies_true, kept_setDesc, kept_complete, kept_beginCal, kept_takeCal, Out.or]
  all_goals (repeat' (first | split | with_reducible refine (kept_foldl _ _ _ fun t x => ?_).trans ?_))
  all_goals try simp only [kept_mk, kept_fold, kept_ite, ite_self, eq_self, implies_true, kept_setDesc, kept_complete, kept_beginCal, kept_takeCal, Out.or]
  all_goals (repeat' (first | split | with_reducible refine (kept_foldl _ _ _ fun t x => ?_).trans ?_))
  all_goals first | with_reducible rfl | (simp only [kept_mk, kept_fold, kept_ite, ite_self, eq_self, implies_true, kept_setDesc, kept_complete, kept_beginCal, kept_takeCal, Out.or]; done) | rfl

theorem kept_execLaneCalAdapt (d : Nat) (s : State) (dflt : State) : kept ((execLaneCalAdapt d s).or dflt) = kept s := by
  unfold execLaneCalAdapt
  try simp only [kept_mk, kept_fold, kept_ite, ite_self, eq_self, implies_true, kept_setDesc, kept_editLane, kept_takeCal, Out.or]
  all_goals (repeat' (first | split | with_reducible refine (kept_foldl _ _ _ fun t x => ?_).trans ?_))
  all_goals try simp only [kept_mk, kept_fold, kept_ite, ite_self, eq_self, implies_true, kept_setDesc, kept_editLane, kept_takeCal, Out.or]
  all_goals (repeat' (first | split | with_reducible refine (kept_foldl _ _ _ fun t x => ?_).trans ?_))
  all_goals first | with_reducible rfl | (simp only [kept_mk, kept_fold, kept_ite, ite_self, eq_self, implies_true, kept_setDesc, kept_editLane, kept_takeCal, Out.or]; done) | rfl

theorem kept_execAdaptBoostEnd (lane : LaneId) (us : Word) (s : State) (dflt : State) : kept ((execAdaptBoostEnd lane us s).or dflt) = kept s := by
  unfold execAdaptBoostEnd
  (repeat' split) <;> first | with_reducible rfl | (simp only [kept_completeOk, kept_editLane, Out.or]; done) | (with_reducible exact rfl)

theorem kept_execLaneCalRetrim (d : Nat) (s : State) (dflt : State) : kept ((execLaneCalRetrim d s).or dflt) = kept s := by
  unfold execLaneCalRetrim
  try simp only [kept_mk, kept_fold, kept_ite, ite_self, eq_self, implies_true, kept_setDesc, kept_dueRetrim, kept_takeCal, Out.or]
  all_goals (repeat' (first | split | with_reducible refine (kept_foldl _ _ _ fun t x => ?_).trans ?_))
  all_goals try simp only [kept_mk, kept_fold, kept_ite, ite_self, eq_self, implies_true, kept_setDesc, kept_dueRetrim, kept_takeCal, Out.or]
  all_goals (repeat' (first | split | with_reducible refine (kept_foldl _ _ _ fun t x => ?_).trans ?_))
  all_goals first | with_reducible rfl | (simp only [kept_mk, kept_fold, kept_ite, ite_self, eq_self, implies_true, kept_setDesc, kept_dueRetrim, kept_takeCal, Out.or]; done) | rfl

theorem kept_prbsWrite (s : State) (n : Nat) (v : Word) : kept (prbsWrite s n v) = kept s := by
  unfold prbsWrite
  try simp only [kept_mk, kept_fold, kept_ite, ite_self, eq_self, implies_true, kept_wr, kept_ignoredWrite, kept_editLane, kept_laneEvent]
  all_goals (repeat' (first | split | with_reducible refine (kept_foldl _ _ _ fun t x => ?_).trans ?_))
  all_goals try simp only [kept_mk, kept_fold, kept_ite, ite_self, eq_self, implies_true, kept_wr, kept_ignoredWrite, kept_editLane, kept_laneEvent]
  all_goals (repeat' (first | split | with_reducible refine (kept_foldl _ _ _ fun t x => ?_).trans ?_))
  all_goals first | with_reducible rfl | (simp only [kept_mk, kept_fold, kept_ite, ite_self, eq_self, implies_true, kept_wr, kept_ignoredWrite, kept_editLane, kept_laneEvent]; done) | rfl

theorem kept_execPrbsErrInj (lane : LaneId) (v : Word) (s : State) (dflt : State) : kept ((execPrbsErrInj lane v s).or dflt) = kept s := by
  unfold execPrbsErrInj
  try simp only [kept_mk, kept_fold, kept_ite, ite_self, eq_self, implies_true, kept_domainWrite, kept_prbsWrite, Out.or]
  all_goals (repeat' (first | split | with_reducible refine (kept_foldl _ _ _ fun t x => ?_).trans ?_))
  all_goals try simp only [kept_mk, kept_fold, kept_ite, ite_self, eq_self, implies_true, kept_domainWrite, kept_prbsWrite, Out.or]
  all_goals (repeat' (first | split | with_reducible refine (kept_foldl _ _ _ fun t x => ?_).trans ?_))
  all_goals first | with_reducible rfl | (simp only [kept_mk, kept_fold, kept_ite, ite_self, eq_self, implies_true, kept_domainWrite, kept_prbsWrite, Out.or]; done) | rfl

theorem kept_execPrbsLockChange (lane : LaneId) (balls : List Byte) (s : State) (dflt : State) : kept ((execPrbsLockChange lane balls s).or dflt) = kept s := by
  unfold execPrbsLockChange
  try simp only [kept_mk, kept_fold, kept_ite, ite_self, eq_self, implies_true, kept_bset, kept_count, kept_editLane, Out.or]
  all_goals (repeat' (first | split | with_reducible refine (kept_foldl _ _ _ fun t x => ?_).trans ?_))
  all_goals try simp only [kept_mk, kept_fold, kept_ite, ite_self, eq_self, implies_true, kept_bset, kept_count, kept_editLane, Out.or]
  all_goals (repeat' (first | split | with_reducible refine (kept_foldl _ _ _ fun t x => ?_).trans ?_))
  all_goals first | with_reducible rfl | (simp only [kept_mk, kept_fold, kept_ite, ite_self, eq_self, implies_true, kept_bset, kept_count, kept_editLane, Out.or]; done) | rfl

theorem kept_eyeWrite (s : State) (n : Nat) (v : Word) : kept (eyeWrite s n v) = kept s := by
  unfold eyeWrite
  try simp only [kept_mk, kept_fold, kept_ite, ite_self, eq_self, implies_true, kept_wr, kept_ignoredWrite, kept_editLane]
  all_goals (repeat' (first | split | with_reducible refine (kept_foldl _ _ _ fun t x => ?_).trans ?_))
  all_goals try simp only [kept_mk, kept_fold, kept_ite, ite_self, eq_self, implies_true, kept_wr, kept_ignoredWrite, kept_editLane]
  all_goals (repeat' (first | split | with_reducible refine (kept_foldl _ _ _ fun t x => ?_).trans ?_))
  all_goals first | with_reducible rfl | (simp only [kept_mk, kept_fold, kept_ite, ite_self, eq_self, implies_true, kept_wr, kept_ignoredWrite, kept_editLane]; done) | rfl

theorem kept_execEyeScanStart (lane : LaneId) (v : Word) (s : State) (dflt : State) : kept ((execEyeScanStart lane v s).or dflt) = kept s := by
  unfold execEyeScanStart
  try simp only [kept_mk, kept_fold, kept_ite, ite_self, eq_self, implies_true, kept_domainWrite, kept_eyeWrite, Out.or]
  all_goals (repeat' (first | split | with_reducible refine (kept_foldl _ _ _ fun t x => ?_).trans ?_))
  all_goals try simp only [kept_mk, kept_fold, kept_ite, ite_self, eq_self, implies_true, kept_domainWrite, kept_eyeWrite, Out.or]
  all_goals (repeat' (first | split | with_reducible refine (kept_foldl _ _ _ fun t x => ?_).trans ?_))
  all_goals first | with_reducible rfl | (simp only [kept_mk, kept_fold, kept_ite, ite_self, eq_self, implies_true, kept_domainWrite, kept_eyeWrite, Out.or]; done) | rfl

theorem kept_execEyeScanDone (lane : LaneId) (errs : Nat) (s : State) (dflt : State) : kept ((execEyeScanDone lane errs s).or dflt) = kept s := by
  unfold execEyeScanDone
  (repeat' split) <;> first | with_reducible rfl | (simp only [kept_wr, kept_editLane, Out.or]; done) | (with_reducible exact rfl)

theorem kept_execEyeSumRefresh (lane : LaneId) (height : BitVec 8) (width : BitVec 7) (s : State) (dflt : State) : kept ((execEyeSumRefresh lane height width s).or dflt) = kept s := by
  unfold execEyeSumRefresh
  (repeat' split) <;> first | with_reducible rfl | (simp only [kept_wr, Out.or]; done) | (with_reducible exact rfl)

theorem kept_txfirWrite (s : State) (n : Nat) (v : Word) : kept (txfirWrite s n v) = kept s := by
  unfold txfirWrite
  (repeat' split) <;> first | with_reducible rfl | (simp only [kept_wr, kept_ignoredWrite]; done) | (with_reducible exact rfl)

theorem kept_editDcc (s : State) (c : Nat) (f : DccSt → DccSt) : kept (editDcc s c f) = kept s := (rfl)

theorem kept_dccReceive (s : State) (n : Nat) (oh : List Byte) : kept (dccReceive s n oh) = kept s := by
  unfold dccReceive
  try simp only [kept_mk, kept_fold, kept_ite, ite_self, eq_self, implies_true, kept_editDcc]
  all_goals (repeat' (first | split | with_reducible refine (kept_foldl _ _ _ fun t x => ?_).trans ?_))
  all_goals try simp only [kept_mk, kept_fold, kept_ite, ite_self, eq_self, implies_true, kept_editDcc]
  all_goals (repeat' (first | split | with_reducible refine (kept_foldl _ _ _ fun t x => ?_).trans ?_))
  all_goals first | with_reducible rfl | (simp only [kept_mk, kept_fold, kept_ite, ite_self, eq_self, implies_true, kept_editDcc, kept_foldl]; done) | rfl

theorem kept_dccLost (s : State) (n : Nat) : kept (dccLost s n) = kept s := by
  unfold dccLost
  try simp only [kept_mk, kept_fold, kept_ite, ite_self, eq_self, implies_true, kept_editDcc]
  all_goals (repeat' (first | split | with_reducible refine (kept_foldl _ _ _ fun t x => ?_).trans ?_))
  all_goals try simp only [kept_mk, kept_fold, kept_ite, ite_self, eq_self, implies_true, kept_editDcc]
  all_goals (repeat' (first | split | with_reducible refine (kept_foldl _ _ _ fun t x => ?_).trans ?_))
  all_goals first | with_reducible rfl | (simp only [kept_mk, kept_fold, kept_ite, ite_self, eq_self, implies_true, kept_editDcc, kept_foldl]; done) | rfl

theorem kept_showFrm (s : State) (n : Nat) : kept (showFrm s n) = kept s := by
  simp only [showFrm, kept_wr, kept_foldl]

theorem kept_noteSecond (s : State) (n : Nat) : kept (noteSecond s n) = kept s := by
  simp only [noteSecond, kept_editFrm]

theorem kept_defectEvents (s : State) (n : Nat) (a b : Defects) : kept (defectEvents s n a b) = kept s := by
  unfold defectEvents
  try simp only [kept_mk, kept_fold, kept_ite, ite_self, eq_self, implies_true, kept_laneEvent]
  all_goals (repeat' (first | split | with_reducible refine (kept_foldl _ _ _ fun t x => ?_).trans ?_))
  all_goals try simp only [kept_mk, kept_fold, kept_ite, ite_self, eq_self, implies_true, kept_laneEvent]
  all_goals (repeat' (first | split | with_reducible refine (kept_foldl _ _ _ fun t x => ?_).trans ?_))
  all_goals first | with_reducible rfl | (simp only [kept_mk, kept_fold, kept_ite, ite_self, eq_self, implies_true, kept_laneEvent, kept_foldl]; done) | rfl

theorem kept_setDefects (s : State) (n : Nat) (b : Defects) : kept (setDefects s n b) = kept s := by
  unfold setDefects
  try simp only [kept_mk, kept_fold, kept_ite, ite_self, eq_self, implies_true, kept_editFrm, kept_refreshConds, kept_refreshLanePaths, kept_showFrm, kept_noteSecond, kept_defectEvents]
  all_goals (repeat' (first | split | with_reducible refine (kept_foldl _ _ _ fun t x => ?_).trans ?_))
  all_goals try simp only [kept_mk, kept_fold, kept_ite, ite_self, eq_self, implies_true, kept_editFrm, kept_refreshConds, kept_refreshLanePaths, kept_showFrm, kept_noteSecond, kept_defectEvents]
  all_goals (repeat' (first | split | with_reducible refine (kept_foldl _ _ _ fun t x => ?_).trans ?_))
  all_goals first | with_reducible rfl | (simp only [kept_mk, kept_fold, kept_ite, ite_self, eq_self, implies_true, kept_editFrm, kept_refreshConds, kept_refreshLanePaths, kept_showFrm, kept_noteSecond, kept_defectEvents]; done) | rfl

theorem kept_showOof (s : State) (n : Nat) (oof : Bool) : kept (showOof s n oof) = kept s := by
  simp only [showOof, kept_fset, kept_bset, kept_noteSecond]

theorem kept_execLineDefectChange (lane : LaneId) (defect : LineDefect) (present : Bool) (s : State) (dflt : State) : kept ((execLineDefectChange lane defect present s).or dflt) = kept s := by
  unfold execLineDefectChange
  (repeat' split) <;> first | with_reducible rfl | (simp only [kept_editFrm, kept_dccLost, kept_setDefects, Out.or]; done) | (with_reducible exact rfl)

theorem kept_execBerStepEnd (lane : LaneId) (deg : Bool) (s : State) (dflt : State) : kept ((execBerStepEnd lane deg s).or dflt) = kept s := by
  unfold execBerStepEnd
  (repeat' split) <;> first | with_reducible rfl | (simp only [kept_editFrm, kept_setDefects, Out.or]; done) | (with_reducible exact rfl)

theorem kept_setCands (s : State) (n : Nat) (l : List Cand) : kept (setCands s n l) = kept s := by
  unfold setCands
  (repeat' split) <;> first | with_reducible rfl | (simp only [kept_editFrm, kept_showOof]; done) | (with_reducible exact rfl)

theorem kept_execFramePatternMatch (lane : LaneId) (t : Nat) (s : State) (dflt : State) : kept ((execFramePatternMatch lane t s).or dflt) = kept s := by
  unfold execFramePatternMatch
  try simp only [kept_mk, kept_fold, kept_ite, ite_self, eq_self, implies_true, kept_setCands, Out.or]
  all_goals (repeat' (first | split | with_reducible refine (kept_foldl _ _ _ fun t x => ?_).trans ?_))
  all_goals try simp only [kept_mk, kept_fold, kept_ite, ite_self, eq_self, implies_true, kept_setCands, Out.or]
  all_goals (repeat' (first | split | with_reducible refine (kept_foldl _ _ _ fun t x => ?_).trans ?_))
  all_goals first | with_reducible rfl | (simp only [kept_mk, kept_fold, kept_ite, ite_self, eq_self, implies_true, kept_setCands, Out.or]; done) | rfl

theorem kept_putTrace (s : State) (base : Nat → Nat) (n : Nat) (msg : List Byte) : kept (putTrace s base n msg) = kept s := by
  unfold putTrace
  try simp only [kept_mk, kept_fold, kept_ite, ite_self, eq_self, implies_true, kept_wr]
  all_goals (repeat' (first | split | with_reducible refine (kept_foldl _ _ _ fun t x => ?_).trans ?_))
  all_goals try simp only [kept_mk, kept_fold, kept_ite, ite_self, eq_self, implies_true, kept_wr]
  all_goals (repeat' (first | split | with_reducible refine (kept_foldl _ _ _ fun t x => ?_).trans ?_))
  all_goals first | with_reducible rfl | (simp only [kept_mk, kept_fold, kept_ite, ite_self, eq_self, implies_true, kept_wr, kept_foldl]; done) | rfl

theorem kept_patternStep (s : State) (n : Nat) (ok : Bool) : kept (patternStep s n ok) = kept s := by
  unfold patternStep
  (repeat' split) <;> first | with_reducible rfl | (simp only [kept_count, kept_editFrm, kept_showOof]; done) | (with_reducible exact rfl)

theorem kept_oofFrame (s : State) (n : Nat) : kept (oofFrame s n) = kept s := by
  unfold oofFrame
  try simp only [kept_mk, kept_fold, kept_ite, ite_self, eq_self, implies_true, kept_editFrm, kept_setCands, kept_patternStep]
  all_goals (repeat' (first | split | with_reducible refine (kept_foldl _ _ _ fun t x => ?_).trans ?_))
  all_goals try simp only [kept_mk, kept_fold, kept_ite, ite_self, eq_self, implies_true, kept_editFrm, kept_setCands, kept_patternStep]
  all_goals (repeat' (first | split | with_reducible refine (kept_foldl _ _ _ fun t x => ?_).trans ?_))
  all_goals first | with_reducible rfl | (simp only [kept_mk, kept_fold, kept_ite, ite_self, eq_self, implies_true, kept_editFrm, kept_setCands, kept_patternStep]; done) | rfl

theorem kept_inFrameStep (s : State) (n : Nat) : kept (inFrameStep s n) = kept s := by
  simp only [inFrameStep, kept_editFrm]

theorem kept_b1Step (s : State) (n : Nat) (bip b1 : Byte) : kept (b1Step s n bip b1) = kept s := by
  unfold b1Step
  try simp only [kept_mk, kept_fold, kept_ite, ite_self, eq_self, implies_true, kept_count, kept_editFrm]
  all_goals (repeat' (first | split | with_reducible refine (kept_foldl _ _ _ fun t x => ?_).trans ?_))
  all_goals try simp only [kept_mk, kept_fold, kept_ite, ite_self, eq_self, implies_true, kept_count, kept_editFrm]
  all_goals (repeat' (first | split | with_reducible refine (kept_foldl _ _ _ fun t x => ?_).trans ?_))
  all_goals first | with_reducible rfl | (simp only [kept_mk, kept_fold, kept_ite, ite_self, eq_self, implies_true, kept_count, kept_editFrm]; done) | rfl

theorem kept_b2Step (s : State) (n : Nat) (bip b2 : List Byte) : kept (b2Step s n bip b2) = kept s := by
  unfold b2Step
  try simp only [kept_mk, kept_fold, kept_ite, ite_self, eq_self, implies_true, kept_count, kept_editFrm]
  all_goals (repeat' (first | split | with_reducible refine (kept_foldl _ _ _ fun t x => ?_).trans ?_))
  all_goals try simp only [kept_mk, kept_fold, kept_ite, ite_self, eq_self, implies_true, kept_count, kept_editFrm]
  all_goals (repeat' (first | split | with_reducible refine (kept_foldl _ _ _ fun t x => ?_).trans ?_))
  all_goals first | with_reducible rfl | (simp only [kept_mk, kept_fold, kept_ite, ite_self, eq_self, implies_true, kept_count, kept_editFrm]; done) | rfl

theorem kept_m1Step (s : State) (n : Nat) (m1 : Nat) : kept (m1Step s n m1) = kept s := by
  unfold m1Step
  try simp only [kept_mk, kept_fold, kept_ite, ite_self, eq_self, implies_true, kept_count, kept_editFrm]
  all_goals (repeat' (first | split | with_reducible refine (kept_foldl _ _ _ fun t x => ?_).trans ?_))
  all_goals try simp only [kept_mk, kept_fold, kept_ite, ite_self, eq_self, implies_true, kept_count, kept_editFrm]
  all_goals (repeat' (first | split | with_reducible refine (kept_foldl _ _ _ fun t x => ?_).trans ?_))
  all_goals first | with_reducible rfl | (simp only [kept_mk, kept_fold, kept_ite, ite_self, eq_self, implies_true, kept_count, kept_editFrm]; done) | rfl

theorem kept_s1Step (s : State) (n : Nat) (v : Nat) : kept (s1Step s n v) = kept s := by
  unfold s1Step
  try simp only [kept_mk, kept_fold, kept_ite, ite_self, eq_self, implies_true, kept_wr, kept_fset, kept_editFrm, kept_laneEvent]
  all_goals (repeat' (first | split | with_reducible refine (kept_foldl _ _ _ fun t x => ?_).trans ?_))
  all_goals try simp only [kept_mk, kept_fold, kept_ite, ite_self, eq_self, implies_true, kept_wr, kept_fset, kept_editFrm, kept_laneEvent]
  all_goals (repeat' (first | split | with_reducible refine (kept_foldl _ _ _ fun t x => ?_).trans ?_))
  all_goals first | with_reducible rfl | (simp only [kept_mk, kept_fold, kept_ite, ite_self, eq_self, implies_true, kept_wr, kept_fset, kept_editFrm, kept_laneEvent]; done) | rfl

theorem kept_kStep (s : State) (n : Nat) (k1 k2 : Nat) : kept (kStep s n k1 k2) = kept s := by
  unfold kStep
  try simp only [kept_mk, kept_fold, kept_ite, ite_self, eq_self, implies_true, kept_wr, kept_fset, kept_editFrm, kept_laneEvent]
  all_goals (repeat' (first | split | with_reducible refine (kept_foldl _ _ _ fun t x => ?_).trans ?_))
  all_goals try simp only [kept_mk, kept_fold, kept_ite, ite_self, eq_self, implies_true, kept_wr, kept_fset, kept_editFrm, kept_laneEvent]
  all_goals (repeat' (first | split | with_reducible refine (kept_foldl _ _ _ fun t x => ?_).trans ?_))
  all_goals first | with_reducible rfl | (simp only [kept_mk, kept_fold, kept_ite, ite_self, eq_self, implies_true, kept_wr, kept_fset, kept_editFrm, kept_laneEvent]; done) | rfl

theorem kept_j0Step (s : State) (n : Nat) (b : Byte) : kept (j0Step s n b) = kept s := by
  simp only [j0Step, kept_editFrm]

theorem kept_probeStep (s : State) (n : Nat) (l : List Byte) : kept (probeStep s n l) = kept s := by
  unfold probeStep
  (repeat' split) <;> first | with_reducible rfl | (simp only [kept_editFrm, kept_foldl]; done) | (with_reducible exact rfl)

theorem kept_frameInFrame (s : State) (n : Nat) (bytes : List Byte) : kept (frameInFrame s n bytes) = kept s := by
  simp only [frameInFrame, kept_editFrm, kept_dccReceive, kept_patternStep, kept_inFrameStep, kept_b1Step, kept_b2Step, kept_m1Step, kept_s1Step, kept_kStep, kept_j0Step, kept_probeStep]

theorem kept_execLaneFrameRx (lane : LaneId) (t : Nat) (balls : List Byte) (s : State) (dflt : State) : kept ((execLaneFrameRx lane t balls s).or dflt) = kept s := by
  unfold execLaneFrameRx
  try simp only [kept_mk, kept_fold, kept_ite, ite_self, eq_self, implies_true, kept_wire, kept_setCands, kept_frameInFrame, Out.or]
  all_goals (repeat' (first | split | with_reducible refine (kept_foldl _ _ _ fun t x => ?_).trans ?_))
  all_goals try simp only [kept_mk, kept_fold, kept_ite, ite_self, eq_self, implies_true, kept_wire, kept_setCands, kept_frameInFrame, Out.or]
  all_goals (repeat' (first | split | with_reducible refine (kept_foldl _ _ _ fun t x => ?_).trans ?_))
  all_goals first | with_reducible rfl | (simp only [kept_mk, kept_fold, kept_ite, ite_self, eq_self, implies_true, kept_wire, kept_setCands, kept_frameInFrame, Out.or]; done) | rfl

theorem kept_execJ0MessageRx (lane : LaneId) (s : State) (dflt : State) : kept ((execJ0MessageRx lane s).or dflt) = kept s := by
  unfold execJ0MessageRx
  try simp only [kept_mk, kept_fold, kept_ite, ite_self, eq_self, implies_true, kept_editFrm, kept_laneEvent, kept_setDefects, kept_putTrace, Out.or]
  all_goals (repeat' (first | split | with_reducible refine (kept_foldl _ _ _ fun t x => ?_).trans ?_))
  all_goals try simp only [kept_mk, kept_fold, kept_ite, ite_self, eq_self, implies_true, kept_editFrm, kept_laneEvent, kept_setDefects, kept_putTrace, Out.or]
  all_goals (repeat' (first | split | with_reducible refine (kept_foldl _ _ _ fun t x => ?_).trans ?_))
  all_goals first | with_reducible rfl | (simp only [kept_mk, kept_fold, kept_ite, ite_self, eq_self, implies_true, kept_editFrm, kept_laneEvent, kept_setDefects, kept_putTrace, Out.or]; done) | rfl

theorem kept_frmWrite (s : State) (n : Nat) (v : Word) : kept (frmWrite s n v) = kept s := by
  unfold frmWrite
  try simp only [kept_mk, kept_fold, kept_ite, ite_self, eq_self, implies_true, kept_wr, kept_ignoredWrite, kept_editFrm, kept_refreshConds, kept_refreshLanePaths, kept_laneEvent, kept_showFrm, kept_noteSecond, kept_setDefects]
  all_goals (repeat' (first | split | with_reducible refine (kept_foldl _ _ _ fun t x => ?_).trans ?_))
  all_goals try simp only [kept_mk, kept_fold, kept_ite, ite_self, eq_self, implies_true, kept_wr, kept_ignoredWrite, kept_editFrm, kept_refreshConds, kept_refreshLanePaths, kept_laneEvent, kept_showFrm, kept_noteSecond, kept_setDefects]
  all_goals (repeat' (first | split | with_reducible refine (kept_foldl _ _ _ fun t x => ?_).trans ?_))
  all_goals first | with_reducible rfl | (simp only [kept_mk, kept_fold, kept_ite, ite_self, eq_self, implies_true, kept_wr, kept_ignoredWrite, kept_editFrm, kept_refreshConds, kept_refreshLanePaths, kept_laneEvent, kept_showFrm, kept_noteSecond, kept_setDefects]; done) | rfl

theorem kept_execLaneFrmCtlWrite (lane : LaneId) (v : Word) (s : State) (dflt : State) : kept ((execLaneFrmCtlWrite lane v s).or dflt) = kept s := by
  unfold execLaneFrmCtlWrite
  try simp only [kept_mk, kept_fold, kept_ite, ite_self, eq_self, implies_true, kept_domainWrite, kept_frmWrite, Out.or]
  all_goals (repeat' (first | split | with_reducible refine (kept_foldl _ _ _ fun t x => ?_).trans ?_))
  all_goals try simp only [kept_mk, kept_fold, kept_ite, ite_self, eq_self, implies_true, kept_domainWrite, kept_frmWrite, Out.or]
  all_goals (repeat' (first | split | with_reducible refine (kept_foldl _ _ _ fun t x => ?_).trans ?_))
  all_goals first | with_reducible rfl | (simp only [kept_mk, kept_fold, kept_ite, ite_self, eq_self, implies_true, kept_domainWrite, kept_frmWrite, Out.or]; done) | rfl

theorem kept_execB1Inj (lane : LaneId) (v : Word) (s : State) (dflt : State) : kept ((execB1Inj lane v s).or dflt) = kept s := by
  unfold execB1Inj
  try simp only [kept_mk, kept_fold, kept_ite, ite_self, eq_self, implies_true, kept_domainWrite, kept_frmWrite, Out.or]
  all_goals (repeat' (first | split | with_reducible refine (kept_foldl _ _ _ fun t x => ?_).trans ?_))
  all_goals try simp only [kept_mk, kept_fold, kept_ite, ite_self, eq_self, implies_true, kept_domainWrite, kept_frmWrite, Out.or]
  all_goals (repeat' (first | split | with_reducible refine (kept_foldl _ _ _ fun t x => ?_).trans ?_))
  all_goals first | with_reducible rfl | (simp only [kept_mk, kept_fold, kept_ite, ite_self, eq_self, implies_true, kept_domainWrite, kept_frmWrite, Out.or]; done) | rfl

theorem kept_execB2Inj (lane : LaneId) (v : Word) (s : State) (dflt : State) : kept ((execB2Inj lane v s).or dflt) = kept s := by
  unfold execB2Inj
  try simp only [kept_mk, kept_fold, kept_ite, ite_self, eq_self, implies_true, kept_domainWrite, kept_frmWrite, Out.or]
  all_goals (repeat' (first | split | with_reducible refine (kept_foldl _ _ _ fun t x => ?_).trans ?_))
  all_goals try simp only [kept_mk, kept_fold, kept_ite, ite_self, eq_self, implies_true, kept_domainWrite, kept_frmWrite, Out.or]
  all_goals (repeat' (first | split | with_reducible refine (kept_foldl _ _ _ fun t x => ?_).trans ?_))
  all_goals first | with_reducible rfl | (simp only [kept_mk, kept_fold, kept_ite, ite_self, eq_self, implies_true, kept_domainWrite, kept_frmWrite, Out.or]; done) | rfl

theorem kept_countIf (s : State) (b : Bool) (off : Nat) : kept (countIf s b off) = kept s := by
  unfold countIf
  (repeat' split) <;> first | with_reducible rfl | (simp only [kept_count]; done) | (with_reducible exact rfl)

theorem kept_classifyLane (s : State) (n : Nat) : kept (classifyLane s n) = kept s := by
  simp only [classifyLane, kept_mk, kept_fold, kept_ite, ite_self, eq_self, implies_true, kept_editFrm, kept_countIf]
  (repeat' split) <;> simp only [kept_mk, kept_fold, kept_ite, ite_self, eq_self, implies_true, kept_editFrm, kept_countIf]

theorem kept_endLaneSecond (s : State) (n : Nat) : kept (endLaneSecond s n) = kept s := by
  simp only [endLaneSecond, kept_editFrm, kept_noteSecond]

end Sys2Proof.Machine
end

