-- ==== Sys2Proof/Laws/KeptHost.lean ====
section
/-! SUPPORT. What translation, rings and events keep: the memories, the fuse and the commands that wait (`kept`). -/

set_option linter.unusedSimpArgs false
set_option linter.unusedTactic false
set_option linter.unreachableTactic false
set_option linter.unusedVariables false
set_option linter.unnecessarySeqFocus false

namespace Sys2Proof.Machine

theorem kept_tlbAdd (s : State) (t : TlbEnt) : kept (tlbAdd s t) = kept s := (rfl)

theorem kept_translate (s : State) (io : HostIO) (write : Bool) (va : Nat) : kept (translate s io write va).1 = kept s := by
  simp only [translate, kept_mk, kept_fold, kept_ite, ite_self, eq_self, implies_true, kept_count, kept_tlbAdd]
  (repeat' split) <;> simp only [kept_mk, kept_fold, kept_ite, ite_self, eq_self, implies_true, kept_count, kept_tlbAdd]

theorem kept_translateAll (s : State) (io : HostIO) (write : Bool) (l : List Nat) : kept (translateAll s io write l).1 = kept s := by
  induction l generalizing s with
  | nil => rfl
  | cons va r ih =>
    have e := kept_translate s io write va
    unfold translateAll
    split <;> rename_i h <;> rw [h] at e
    · exact e
    · have e2 := ih (s := (translate s io write va).1)
      rw [h] at e2
      split <;> rename_i g <;> rw [g] at e2 <;> exact e2.trans e

theorem kept_putHost (s : State) (a : Nat) (b : List Byte) : kept (putHost s a b) = kept s := by
  unfold putHost
  try simp only [kept_mk, kept_fold, kept_ite, ite_self, eq_self, implies_true, kept_emit]
  all_goals (repeat' (first | split | with_reducible refine (kept_foldl _ _ _ fun t x => ?_).trans ?_))
  all_goals try simp only [kept_mk, kept_fold, kept_ite, ite_self, eq_self, implies_true, kept_emit]
  all_goals (repeat' (first | split | with_reducible refine (kept_foldl _ _ _ fun t x => ?_).trans ?_))
  all_goals first | with_reducible rfl | (simp only [kept_mk, kept_fold, kept_ite, ite_self, eq_self, implies_true, kept_emit, kept_foldl]; done) | rfl

theorem kept_askHost (s : State) (a n : Nat) : kept (askHost s a n) = kept s := by
  unfold askHost
  try simp only [kept_mk, kept_fold, kept_ite, ite_self, eq_self, implies_true, kept_emit]
  all_goals (repeat' (first | split | with_reducible refine (kept_foldl _ _ _ fun t x => ?_).trans ?_))
  all_goals try simp only [kept_mk, kept_fold, kept_ite, ite_self, eq_self, implies_true, kept_emit]
  all_goals (repeat' (first | split | with_reducible refine (kept_foldl _ _ _ fun t x => ?_).trans ?_))
  all_goals first | with_reducible rfl | (simp only [kept_mk, kept_fold, kept_ite, ite_self, eq_self, implies_true, kept_emit, kept_foldl]; done) | rfl

theorem kept_writeHost (s : State) (io : HostIO) (addr : Nat) (bytes : List Byte) : kept (writeHost s io addr bytes).1 = kept s := by
  have e := kept_translateAll s io true (pagesOf addr bytes.length)
  unfold writeHost
  split <;> rename_i h <;> rw [h] at e
  · exact e
  · exact (kept_foldl _ _ _ fun t x => kept_putHost t _ _).trans e

theorem kept_writeHost_eq {s : State} {io : HostIO} {addr : Nat} {bytes : List Byte} {so ro} (h : writeHost s io addr bytes = (so, ro)) : kept so = kept s := by
  have e := kept_writeHost s io addr bytes
  rw [h] at e
  exact e

theorem kept_writePages (s : State) (io : HostIO) (addr : Nat) (bytes : List Byte) (l : List Nat) :
    kept (writePages s io addr bytes l).1 = kept s := by
  induction l generalizing s with
  | nil => rfl
  | cons va r ih =>
    have e := kept_translate s io true va
    unfold writePages
    split <;> rename_i h <;> rw [h] at e
    · exact e
    · rw [ih, kept_putHost]; exact e

theorem kept_writePages_eq {s : State} {io : HostIO} {addr : Nat} {bytes : List Byte} {l : List Nat} {so ro} (h : writePages s io addr bytes l = (so, ro)) : kept so = kept s := by
  have e := kept_writePages s io addr bytes l
  rw [h] at e
  exact e

theorem kept_askPages (s : State) (io : HostIO) (last : Nat) (l : List Nat) : kept (askPages s io last l).1 = kept s := by
  induction l generalizing s with
  | nil => rfl
  | cons va r ih =>
    have e := kept_translate s io false va
    unfold askPages
    split <;> rename_i h <;> rw [h] at e
    · exact e
    · rw [ih, kept_askHost]; exact e

theorem kept_askPages_eq {s : State} {io : HostIO} {last : Nat} {l : List Nat} {so ro} (h : askPages s io last l = (so, ro)) : kept so = kept s := by
  have e := kept_askPages s io last l
  rw [h] at e
  exact e

theorem kept_readHost (s : State) (io : HostIO) (addr len : Nat) : kept (readHost s io addr len).1 = kept s := by
  unfold readHost
  try simp only [kept_mk, kept_fold, kept_ite, ite_self, eq_self, implies_true, kept_askPages]
  all_goals (repeat' (first | split | with_reducible refine (kept_foldl _ _ _ fun t x => ?_).trans ?_))
  all_goals try simp only [kept_mk, kept_fold, kept_ite, ite_self, eq_self, implies_true, kept_askPages]
  all_goals (repeat' (first | split | with_reducible refine (kept_foldl _ _ _ fun t x => ?_).trans ?_))
  all_goals first | with_reducible rfl | exact kept_askPages_eq ‹_› | (simp only [kept_mk, kept_fold, kept_ite, ite_self, eq_self, implies_true, kept_askPages]; done) | (simp only [kept_mk, kept_fold, kept_ite, ite_self, eq_self, implies_true, kept_askPages]; exact kept_askPages_eq ‹_›) | rfl

theorem kept_readHost_eq {s : State} {io : HostIO} {addr len : Nat} {so ro} (h : readHost s io addr len = (so, ro)) : kept so = kept s := by
  have e := kept_readHost s io addr len
  rw [h] at e
  exact e

theorem kept_knlDrop (s : State) (i : Nat) : kept (knlDrop s i) = kept s := (rfl)

theorem kept_knlPut (s : State) (i : Nat) (k : Knl) : kept (knlPut s i k) = kept s := (rfl)

theorem kept_pageReq (s : State) (i : Nat) (k : Knl) : kept (pageReq s i k) = kept s := by
  simp only [pageReq, kept_raise]

theorem kept_engFree (s : State) (d : Nat) : kept (engFree s d) = kept s := (rfl)

theorem kept_setBulk (s : State) (d : Nat) (b : Bulk) : kept (setBulk s d b) = kept s := (rfl)

theorem kept_bulkDrop (s : State) (d : Nat) : kept (bulkDrop s d) = kept s := (rfl)

theorem kept_dropFrame (s : State) (b : Option (Nat × Nat)) : kept (dropFrame s b) = kept s := by
  unfold dropFrame
  (repeat' split) <;> first | with_reducible rfl | (simp only [kept_count, kept_raiseOnce]; done) | (with_reducible exact rfl)

theorem kept_unresolved (s : State) (k : Knl) : kept (unresolved s k) = kept s := by
  unfold unresolved
  (repeat' split) <;> first | with_reducible rfl | (simp only [kept_complete, kept_bulkDrop, kept_dropFrame]; done) | (with_reducible exact rfl)

theorem kept_parkFault (s : State) (d kind : Nat) (write : Bool) (va moved : Nat) (data : List Byte) (r0 r1 : Word) : kept (parkFault s d kind write va moved data r0 r1) = kept s := by
  simp only [parkFault, kept_mk, kept_fold, kept_ite, ite_self, eq_self, implies_true, kept_count, kept_raiseOnce, kept_knlPut, kept_pageReq, kept_engFree, kept_unresolved]
  (repeat' split) <;> simp only [kept_mk, kept_fold, kept_ite, ite_self, eq_self, implies_true, kept_count, kept_raiseOnce, kept_knlPut, kept_pageReq, kept_engFree, kept_unresolved]

theorem kept_unpark_eq {s : State} {d : Nat} {t} (h : unpark s d = some t) : kept t = kept s := by
  unfold unpark at h
  (repeat' split at h) <;> (try cases h) <;> first | with_reducible rfl | (simp only [kept_mk, kept_fold, kept_ite, ite_self, eq_self, implies_true, kept_knlDrop]; done) | rfl

theorem kept_withInput (s : State) (io : HostIO) (d : Desc) (len : Nat) (go : State → List Byte → State)
    (h : ∀ t b, kept (go t b) = kept t) : kept (withInput s io d len go) = kept s := by
  unfold withInput
  have e := kept_readHost s io (d.addr + d.got.length) (len - d.got.length)
  dsimp only
  split
  · rfl
  split <;> rename_i g <;> rw [g] at e
  · simp only [kept_parkFault, kept_editDesc]; exact e
  · simp only [h]; exact e

theorem kept_deliver (s : State) (io : HostIO) (d : Desc) (bytes : List Byte) (r0 r1 : Word) : kept (deliver s io d bytes r0 r1) = kept s := by
  unfold deliver
  try simp only [kept_mk, kept_fold, kept_ite, ite_self, eq_self, implies_true, kept_completeOk, kept_writeHost, kept_parkFault]
  all_goals (repeat' (first | split | with_reducible refine (kept_foldl _ _ _ fun t x => ?_).trans ?_))
  all_goals try simp only [kept_mk, kept_fold, kept_ite, ite_self, eq_self, implies_true, kept_completeOk, kept_writeHost, kept_parkFault]
  all_goals (repeat' (first | split | with_reducible refine (kept_foldl _ _ _ fun t x => ?_).trans ?_))
  all_goals first | with_reducible rfl | exact kept_writeHost_eq ‹_› | (simp only [kept_mk, kept_fold, kept_ite, ite_self, eq_self, implies_true, kept_completeOk, kept_writeHost, kept_parkFault]; done) | (simp only [kept_mk, kept_fold, kept_ite, ite_self, eq_self, implies_true, kept_completeOk, kept_writeHost, kept_parkFault]; exact kept_writeHost_eq ‹_›) | rfl

theorem kept_copyOut (s : State) (io : HostIO) (d : Desc) (k : Nat) (bytes : List Byte) (r0 r1 : Word) : kept (copyOut s io d k bytes r0 r1) = kept s := by
  unfold copyOut
  try simp only [kept_mk, kept_fold, kept_ite, ite_self, eq_self, implies_true, kept_completeOk, kept_writePages, kept_parkFault]
  all_goals (repeat' (first | split | with_reducible refine (kept_foldl _ _ _ fun t x => ?_).trans ?_))
  all_goals try simp only [kept_mk, kept_fold, kept_ite, ite_self, eq_self, implies_true, kept_completeOk, kept_writePages, kept_parkFault]
  all_goals (repeat' (first | split | with_reducible refine (kept_foldl _ _ _ fun t x => ?_).trans ?_))
  all_goals first | with_reducible rfl | exact kept_writePages_eq ‹_› | (simp only [kept_mk, kept_fold, kept_ite, ite_self, eq_self, implies_true, kept_completeOk, kept_writePages, kept_parkFault]; done) | (simp only [kept_mk, kept_fold, kept_ite, ite_self, eq_self, implies_true, kept_completeOk, kept_writePages, kept_parkFault]; exact kept_writePages_eq ‹_›) | rfl

theorem kept_resumeSlot (s : State) (io : HostIO) (i : Nat) : kept (resumeSlot s io i) = kept s := by
  simp only [resumeSlot, kept_mk, kept_fold, kept_ite, ite_self, eq_self, implies_true, kept_count, kept_ignored, kept_tlbAdd, kept_knlDrop, kept_knlPut, kept_pageReq, kept_deliver, kept_copyOut]
  (repeat' split) <;> simp only [kept_mk, kept_fold, kept_ite, ite_self, eq_self, implies_true, kept_count, kept_ignored, kept_tlbAdd, kept_knlDrop, kept_knlPut, kept_pageReq, kept_deliver, kept_copyOut]

theorem kept_invalidate (s : State) (w : Word) : kept (invalidate s w) = kept s := by
  simp only [invalidate, kept_mk, kept_fold, kept_bset]

theorem kept_execTlbInvalidate (v : Word) (s : State) (dflt : State) : kept ((execTlbInvalidate v s).or dflt) = kept s := by
  unfold execTlbInvalidate
  try simp only [kept_mk, kept_fold, kept_ite, ite_self, eq_self, implies_true, kept_ignoredWrite, kept_hostWrite, kept_invalidate, Out.or]
  all_goals (repeat' (first | split | with_reducible refine (kept_foldl _ _ _ fun t x => ?_).trans ?_))
  all_goals try simp only [kept_mk, kept_fold, kept_ite, ite_self, eq_self, implies_true, kept_ignoredWrite, kept_hostWrite, kept_invalidate, Out.or]
  all_goals (repeat' (first | split | with_reducible refine (kept_foldl _ _ _ fun t x => ?_).trans ?_))
  all_goals first | with_reducible rfl | (simp only [kept_mk, kept_fold, kept_ite, ite_self, eq_self, implies_true, kept_ignoredWrite, kept_hostWrite, kept_invalidate, Out.or]; done) | rfl

theorem kept_execTlbInvDone (s : State) (dflt : State) : kept ((execTlbInvDone s).or dflt) = kept s := by
  unfold execTlbInvDone
  (repeat' split) <;> simp only [kept_mk, kept_fold, kept_bset, Out.or]

theorem kept_execXlatConfigWrite (reg : Fin 3) (v : Word) (s : State) (dflt : State) : kept ((execXlatConfigWrite reg v s).or dflt) = kept s := by
  unfold execXlatConfigWrite
  try simp only [kept_mk, kept_fold, kept_ite, ite_self, eq_self, implies_true, kept_wr, kept_ignoredWrite, kept_lockedWrite, kept_hostWrite, kept_invalidate, Out.or]
  all_goals (repeat' (first | split | with_reducible refine (kept_foldl _ _ _ fun t x => ?_).trans ?_))
  all_goals try simp only [kept_mk, kept_fold, kept_ite, ite_self, eq_self, implies_true, kept_wr, kept_ignoredWrite, kept_lockedWrite, kept_hostWrite, kept_invalidate, Out.or]
  all_goals (repeat' (first | split | with_reducible refine (kept_foldl _ _ _ fun t x => ?_).trans ?_))
  all_goals first | with_reducible rfl | (simp only [kept_mk, kept_fold, kept_ite, ite_self, eq_self, implies_true, kept_wr, kept_ignoredWrite, kept_lockedWrite, kept_hostWrite, kept_invalidate, Out.or]; done) | rfl

theorem kept_editRing (s : State) (n : Nat) (f : RingSt → RingSt) : kept (editRing s n f) = kept s := (rfl)

theorem kept_passEntry (s : State) (n : Nat) : kept (passEntry s n) = kept s := by
  simp only [passEntry, kept_wr, kept_editRing]

theorem kept_passSkipped (fuel : Nat) (s : State) (n : Nat) : kept (passSkipped fuel s n) = kept s := by
  induction fuel generalizing s with
  | zero => rfl
  | succ k ih =>
    unfold passSkipped
    split
    · rw [ih, kept_passEntry]
    · rfl

theorem kept_passAborted (s : State) : kept (passAborted s) = kept s := by
  unfold passAborted
  try simp only [kept_mk, kept_fold, kept_ite, ite_self, eq_self, implies_true, kept_passSkipped]
  all_goals (repeat' (first | split | with_reducible refine (kept_foldl _ _ _ fun t x => ?_).trans ?_))
  all_goals try simp only [kept_mk, kept_fold, kept_ite, ite_self, eq_self, implies_true, kept_passSkipped]
  all_goals (repeat' (first | split | with_reducible refine (kept_foldl _ _ _ fun t x => ?_).trans ?_))
  all_goals first | with_reducible rfl | (simp only [kept_mk, kept_fold, kept_ite, ite_self, eq_self, implies_true, kept_passSkipped, kept_foldl]; done) | rfl

theorem kept_addDesc (s : State) (d : Desc) : kept (addDesc s d) = kept s := (rfl)

theorem kept_acceptDesc (s : State) (d : Desc) : kept (acceptDesc s d) = kept s := by
  simp only [acceptDesc, kept_mk, kept_fold, kept_ite, ite_self, eq_self, implies_true, kept_setDesc, kept_postCpl, kept_needDomain, kept_addDesc]
  (repeat' split) <;> simp only [kept_mk, kept_fold, kept_ite, ite_self, eq_self, implies_true, kept_setDesc, kept_postCpl, kept_needDomain, kept_addDesc]

theorem kept_execDescriptorFetch (ring : RingId) (words : List Word) (s : State) (dflt : State) : kept ((execDescriptorFetch ring words s).or dflt) = kept s := by
  unfold execDescriptorFetch
  try simp only [kept_mk, kept_fold, kept_ite, ite_self, eq_self, implies_true, kept_raiseOnce, kept_askHost, kept_editRing, kept_passEntry, kept_passAborted, kept_acceptDesc, Out.or]
  all_goals (repeat' (first | split | with_reducible refine (kept_foldl _ _ _ fun t x => ?_).trans ?_))
  all_goals try simp only [kept_mk, kept_fold, kept_ite, ite_self, eq_self, implies_true, kept_raiseOnce, kept_askHost, kept_editRing, kept_passEntry, kept_passAborted, kept_acceptDesc, Out.or]
  all_goals (repeat' (first | split | with_reducible refine (kept_foldl _ _ _ fun t x => ?_).trans ?_))
  all_goals first | with_reducible rfl | (simp only [kept_mk, kept_fold, kept_ite, ite_self, eq_self, implies_true, kept_raiseOnce, kept_askHost, kept_editRing, kept_passEntry, kept_passAborted, kept_acceptDesc, Out.or]; done) | rfl

theorem kept_execRingEnable (ring : RingId) (s : State) (dflt : State) : kept ((execRingEnable ring s).or dflt) = kept s := by
  unfold execRingEnable
  try simp only [kept_mk, kept_fold, kept_ite, ite_self, eq_self, implies_true, kept_wr, kept_ignoredWrite, kept_flushEvents, kept_hostWrite, kept_editRing, Out.or]
  all_goals (repeat' (first | split | with_reducible refine (kept_foldl _ _ _ fun t x => ?_).trans ?_))
  all_goals try simp only [kept_mk, kept_fold, kept_ite, ite_self, eq_self, implies_true, kept_wr, kept_ignoredWrite, kept_flushEvents, kept_hostWrite, kept_editRing, Out.or]
  all_goals (repeat' (first | split | with_reducible refine (kept_foldl _ _ _ fun t x => ?_).trans ?_))
  all_goals first | with_reducible rfl | (simp only [kept_mk, kept_fold, kept_ite, ite_self, eq_self, implies_true, kept_wr, kept_ignoredWrite, kept_flushEvents, kept_hostWrite, kept_editRing, Out.or]; done) | rfl

theorem kept_endDisable (s : State) (n : Nat) : kept (endDisable s n) = kept s := by
  simp only [endDisable, kept_wr]

theorem kept_disableRing (s : State) (n : Nat) : kept (disableRing s n) = kept s := by
  unfold disableRing
  (repeat' split) <;> simp only [kept_mk, kept_fold, kept_bset, kept_flushEvents, kept_endDisable]

theorem kept_execRingDisable (ring : RingId) (s : State) (dflt : State) : kept ((execRingDisable ring s).or dflt) = kept s := by
  unfold execRingDisable
  try simp only [kept_mk, kept_fold, kept_ite, ite_self, eq_self, implies_true, kept_ignoredWrite, kept_hostWrite, kept_disableRing, Out.or]
  all_goals (repeat' (first | split | with_reducible refine (kept_foldl _ _ _ fun t x => ?_).trans ?_))
  all_goals try simp only [kept_mk, kept_fold, kept_ite, ite_self, eq_self, implies_true, kept_ignoredWrite, kept_hostWrite, kept_disableRing, Out.or]
  all_goals (repeat' (first | split | with_reducible refine (kept_foldl _ _ _ fun t x => ?_).trans ?_))
  all_goals first | with_reducible rfl | (simp only [kept_mk, kept_fold, kept_ite, ite_self, eq_self, implies_true, kept_ignoredWrite, kept_hostWrite, kept_disableRing, Out.or]; done) | rfl

theorem kept_execRingDisableDone (ring : RingId) (s : State) (dflt : State) : kept ((execRingDisableDone ring s).or dflt) = kept s := by
  unfold execRingDisableDone
  (repeat' split) <;> first | with_reducible rfl | (simp only [kept_endDisable, Out.or]; done) | (with_reducible exact rfl)

theorem kept_execFetchError (ring : RingId) (s : State) (dflt : State) : kept ((execFetchError ring s).or dflt) = kept s := by
  unfold execFetchError
  try simp only [kept_mk, kept_fold, kept_ite, ite_self, eq_self, implies_true, kept_wr, kept_setFault, kept_raise, kept_disableRing, Out.or]
  all_goals (repeat' (first | split | with_reducible refine (kept_foldl _ _ _ fun t x => ?_).trans ?_))
  all_goals try simp only [kept_mk, kept_fold, kept_ite, ite_self, eq_self, implies_true, kept_wr, kept_setFault, kept_raise, kept_disableRing, Out.or]
  all_goals (repeat' (first | split | with_reducible refine (kept_foldl _ _ _ fun t x => ?_).trans ?_))
  all_goals first | with_reducible rfl | (simp only [kept_mk, kept_fold, kept_ite, ite_self, eq_self, implies_true, kept_wr, kept_setFault, kept_raise, kept_disableRing, Out.or]; done) | rfl

theorem kept_execRingCfgWrite (ring : RingId) (reg : Fin 3) (v : Word) (s : State) (dflt : State) : kept ((execRingCfgWrite ring reg v s).or dflt) = kept s := by
  unfold execRingCfgWrite
  try simp only [kept_mk, kept_fold, kept_ite, ite_self, eq_self, implies_true, kept_wr, kept_ignoredWrite, kept_lockedWrite, kept_hostWrite, Out.or]
  all_goals (repeat' (first | split | with_reducible refine (kept_foldl _ _ _ fun t x => ?_).trans ?_))
  all_goals try simp only [kept_mk, kept_fold, kept_ite, ite_self, eq_self, implies_true, kept_wr, kept_ignoredWrite, kept_lockedWrite, kept_hostWrite, Out.or]
  all_goals (repeat' (first | split | with_reducible refine (kept_foldl _ _ _ fun t x => ?_).trans ?_))
  all_goals first | with_reducible rfl | (simp only [kept_mk, kept_fold, kept_ite, ite_self, eq_self, implies_true, kept_wr, kept_ignoredWrite, kept_lockedWrite, kept_hostWrite, Out.or]; done) | rfl

theorem kept_indexAct (s : State) (n i : Nat) : kept (indexAct s n i) = kept s := by
  unfold indexAct
  try simp only [kept_mk, kept_fold, kept_ite, ite_self, eq_self, implies_true, kept_wr, kept_fset, kept_bset, kept_flushEvents, kept_flushCpl]
  all_goals (repeat' (first | split | with_reducible refine (kept_foldl _ _ _ fun t x => ?_).trans ?_))
  all_goals try simp only [kept_mk, kept_fold, kept_ite, ite_self, eq_self, implies_true, kept_wr, kept_fset, kept_bset, kept_flushEvents, kept_flushCpl]
  all_goals (repeat' (first | split | with_reducible refine (kept_foldl _ _ _ fun t x => ?_).trans ?_))
  all_goals first | with_reducible rfl | (simp only [kept_mk, kept_fold, kept_ite, ite_self, eq_self, implies_true, kept_wr, kept_fset, kept_bset, kept_flushEvents, kept_flushCpl]; done) | rfl

theorem kept_doorbell (s : State) (n i : Nat) : kept (doorbell s n i) = kept s := by
  unfold doorbell
  try simp only [kept_mk, kept_fold, kept_ite, ite_self, eq_self, implies_true, kept_ignored, kept_indexAct]
  all_goals (repeat' (first | split | with_reducible refine (kept_foldl _ _ _ fun t x => ?_).trans ?_))
  all_goals try simp only [kept_mk, kept_fold, kept_ite, ite_self, eq_self, implies_true, kept_ignored, kept_indexAct]
  all_goals (repeat' (first | split | with_reducible refine (kept_foldl _ _ _ fun t x => ?_).trans ?_))
  all_goals first | with_reducible rfl | (simp only [kept_mk, kept_fold, kept_ite, ite_self, eq_self, implies_true, kept_ignored, kept_indexAct]; done) | rfl

theorem kept_doorbellWrite (s : State) (n bytes : Nat) (w0 : Word) : kept (doorbellWrite s n bytes w0) = kept s := by
  unfold doorbellWrite
  (repeat' split) <;> first | with_reducible rfl | (simp only [kept_ignored, kept_editRing, kept_doorbell]; done) | (with_reducible exact rfl)

theorem kept_actDoorbells (s : State) : kept (actDoorbells s) = kept s := by
  unfold actDoorbells
  try simp only [kept_mk, kept_fold, kept_ite, ite_self, eq_self, implies_true, kept_editRing, kept_doorbell]
  all_goals (repeat' (first | split | with_reducible refine (kept_foldl _ _ _ fun t x => ?_).trans ?_))
  all_goals try simp only [kept_mk, kept_fold, kept_ite, ite_self, eq_self, implies_true, kept_editRing, kept_doorbell]
  all_goals (repeat' (first | split | with_reducible refine (kept_foldl _ _ _ fun t x => ?_).trans ?_))
  all_goals first | with_reducible rfl | (simp only [kept_mk, kept_fold, kept_ite, ite_self, eq_self, implies_true, kept_editRing, kept_doorbell, kept_foldl]; done) | rfl

theorem kept_ringThree (s : State) (io : HostIO) (i0 i1 : Option Nat) (part : List (Nat × Nat)) : kept (ringThree s io i0 i1 part) = kept s := by
  simp only [ringThree, kept_mk, kept_fold, kept_ite, ite_self, eq_self, implies_true, kept_ignored, kept_resumeSlot, kept_indexAct]
  (repeat' split) <;> simp only [kept_mk, kept_fold, kept_ite, ite_self, eq_self, implies_true, kept_ignored, kept_resumeSlot, kept_indexAct]

theorem kept_execResumeDoorbell (w0 : Option (Nat × Word)) (bytes : Nat) (w1 : Word) (io : HostIO) (s : State) (dflt : State) : kept ((execResumeDoorbell w0 bytes w1 io s).or dflt) = kept s := by
  unfold execResumeDoorbell
  try simp only [kept_mk, kept_fold, kept_ite, ite_self, eq_self, implies_true, kept_ringThree, Out.or]
  all_goals (repeat' (first | split | with_reducible refine (kept_foldl _ _ _ fun t x => ?_).trans ?_))
  all_goals try simp only [kept_mk, kept_fold, kept_ite, ite_self, eq_self, implies_true, kept_ringThree, Out.or]
  all_goals (repeat' (first | split | with_reducible refine (kept_foldl _ _ _ fun t x => ?_).trans ?_))
  all_goals first | with_reducible rfl | (simp only [kept_mk, kept_fold, kept_ite, ite_self, eq_self, implies_true, kept_ringThree, Out.or]; done) | rfl

theorem kept_actResumes (s : State) (io : HostIO) : kept (actResumes s io) = kept s := by
  unfold actResumes
  try simp only [kept_mk, kept_fold, kept_ite, ite_self, eq_self, implies_true, kept_ringThree]
  all_goals (repeat' (first | split | with_reducible refine (kept_foldl _ _ _ fun t x => ?_).trans ?_))
  all_goals try simp only [kept_mk, kept_fold, kept_ite, ite_self, eq_self, implies_true, kept_ringThree]
  all_goals (repeat' (first | split | with_reducible refine (kept_foldl _ _ _ fun t x => ?_).trans ?_))
  all_goals first | with_reducible rfl | (simp only [kept_mk, kept_fold, kept_ite, ite_self, eq_self, implies_true, kept_ringThree, kept_foldl]; done) | rfl

theorem kept_execDoorbellProducer (ring : RingId) (bytes : Nat) (w0 : Word) (s : State) (dflt : State) : kept ((execDoorbellProducer ring bytes w0 s).or dflt) = kept s := by
  unfold execDoorbellProducer
  (repeat' split) <;> first | with_reducible rfl | (simp only [kept_doorbellWrite, Out.or]; done) | (with_reducible exact rfl)

theorem kept_execDoorbellConsumer (ring : RingId) (bytes : Nat) (w0 : Word) (s : State) (dflt : State) : kept ((execDoorbellConsumer ring bytes w0 s).or dflt) = kept s := by
  unfold execDoorbellConsumer
  (repeat' split) <;> first | with_reducible rfl | (simp only [kept_doorbellWrite, Out.or]; done) | (with_reducible exact rfl)

theorem kept_execNop (d : Nat) (s : State) (dflt : State) : kept ((execNop d s).or dflt) = kept s := by
  unfold execNop
  (repeat' split) <;> first | with_reducible rfl | (simp only [kept_completeOk, Out.or]; done) | (with_reducible exact rfl)

theorem kept_execFence (d : Nat) (s : State) (dflt : State) : kept ((execFence d s).or dflt) = kept s := by
  unfold execFence
  (repeat' split) <;> first | with_reducible rfl | (simp only [kept_completeOk, Out.or]; done) | (with_reducible exact rfl)

theorem kept_sendPending (s : State) : kept (sendPending s) = kept s := by
  unfold sendPending
  try simp only [kept_mk, kept_fold, kept_ite, ite_self, eq_self, implies_true, kept_emit, kept_msix]
  all_goals (repeat' (first | split | with_reducible refine (kept_foldl _ _ _ fun t x => ?_).trans ?_))
  all_goals try simp only [kept_mk, kept_fold, kept_ite, ite_self, eq_self, implies_true, kept_emit, kept_msix]
  all_goals (repeat' (first | split | with_reducible refine (kept_foldl _ _ _ fun t x => ?_).trans ?_))
  all_goals first | with_reducible rfl | (simp only [kept_mk, kept_fold, kept_ite, ite_self, eq_self, implies_true, kept_emit, kept_msix, kept_foldl]; done) | rfl

theorem kept_execBusMasterEnable (cfg : PcieCfg) (io : HostIO) (s : State) (dflt : State) : kept ((execBusMasterEnable cfg io s).or dflt) = kept s := by
  unfold execBusMasterEnable
  try simp only [kept_mk, kept_fold, kept_ite, ite_self, eq_self, implies_true, kept_bset, kept_flushEvents, kept_flushCpl, kept_actDoorbells, kept_actResumes, kept_sendPending, Out.or]
  all_goals (repeat' (first | split | with_reducible refine (kept_foldl _ _ _ fun t x => ?_).trans ?_))
  all_goals try simp only [kept_mk, kept_fold, kept_ite, ite_self, eq_self, implies_true, kept_bset, kept_flushEvents, kept_flushCpl, kept_actDoorbells, kept_actResumes, kept_sendPending, Out.or]
  all_goals (repeat' (first | split | with_reducible refine (kept_foldl _ _ _ fun t x => ?_).trans ?_))
  all_goals first | with_reducible rfl | (simp only [kept_mk, kept_fold, kept_ite, ite_self, eq_self, implies_true, kept_bset, kept_flushEvents, kept_flushCpl, kept_actDoorbells, kept_actResumes, kept_sendPending, Out.or]; done) | rfl

theorem kept_execBusMasterDisable (d3 : Bool) (s : State) (dflt : State) : kept ((execBusMasterDisable d3 s).or dflt) = kept s := by
  simp only [execBusMasterDisable, kept_mk, kept_fold, kept_bset, Out.or]

theorem kept_hotReset (s : State) : kept (hotReset s) = kept s := by
  simp only [hotReset, kept_mk, kept_fold, kept_bset, kept_setFault]

theorem kept_execPcieLinkUp (s : State) (dflt : State) : kept ((execPcieLinkUp s).or dflt) = kept s := by
  unfold execPcieLinkUp
  (repeat' split) <;> simp only [kept_mk, kept_fold, Out.or]

theorem kept_execMsixVectorUnmask (v : Fin 65) (s : State) (dflt : State) : kept ((execMsixVectorUnmask v s).or dflt) = kept s := by
  unfold execMsixVectorUnmask
  try simp only [kept_mk, kept_fold, kept_ite, ite_self, eq_self, implies_true, kept_hostWait, kept_sendPending, Out.or]
  all_goals (repeat' (first | split | with_reducible refine (kept_foldl _ _ _ fun t x => ?_).trans ?_))
  all_goals try simp only [kept_mk, kept_fold, kept_ite, ite_self, eq_self, implies_true, kept_hostWait, kept_sendPending, Out.or]
  all_goals (repeat' (first | split | with_reducible refine (kept_foldl _ _ _ fun t x => ?_).trans ?_))
  all_goals first | with_reducible rfl | (simp only [kept_mk, kept_fold, kept_ite, ite_self, eq_self, implies_true, kept_hostWait, kept_sendPending, Out.or]; done) | rfl

theorem kept_execCounterCarry (off n : Nat) (s : State) (dflt : State) : kept ((execCounterCarry off n s).or dflt) = kept s := by
  unfold execCounterCarry
  (repeat' split) <;> first | with_reducible rfl | (simp only [kept_count, Out.or]; done) | (with_reducible exact rfl)

theorem kept_execChainCfgWrite (k : Fin 256) (v : Word) (s : State) (dflt : State) : kept ((execChainCfgWrite k v s).or dflt) = kept s := by
  unfold execChainCfgWrite
  try simp only [kept_mk, kept_fold, kept_ite, ite_self, eq_self, implies_true, kept_wr, kept_bset, kept_ignoredWrite, kept_hostWrite, Out.or]
  all_goals (repeat' (first | split | with_reducible refine (kept_foldl _ _ _ fun t x => ?_).trans ?_))
  all_goals try simp only [kept_mk, kept_fold, kept_ite, ite_self, eq_self, implies_true, kept_wr, kept_bset, kept_ignoredWrite, kept_hostWrite, Out.or]
  all_goals (repeat' (first | split | with_reducible refine (kept_foldl _ _ _ fun t x => ?_).trans ?_))
  all_goals first | with_reducible rfl | (simp only [kept_mk, kept_fold, kept_ite, ite_self, eq_self, implies_true, kept_wr, kept_bset, kept_ignoredWrite, kept_hostWrite, Out.or]; done) | rfl

theorem kept_execChainHiWrite (k : Fin 256) (v : Word) (s : State) (dflt : State) : kept ((execChainHiWrite k v s).or dflt) = kept s := by
  unfold execChainHiWrite
  try simp only [kept_mk, kept_fold, kept_ite, ite_self, eq_self, implies_true, kept_wr, kept_hostWrite, Out.or]
  all_goals (repeat' (first | split | with_reducible refine (kept_foldl _ _ _ fun t x => ?_).trans ?_))
  all_goals try simp only [kept_mk, kept_fold, kept_ite, ite_self, eq_self, implies_true, kept_wr, kept_hostWrite, Out.or]
  all_goals (repeat' (first | split | with_reducible refine (kept_foldl _ _ _ fun t x => ?_).trans ?_))
  all_goals first | with_reducible rfl | (simp only [kept_mk, kept_fold, kept_ite, ite_self, eq_self, implies_true, kept_wr, kept_hostWrite, Out.or]; done) | rfl

theorem kept_readOut (s : State) (off : Nat) (v : Word) : kept (readOut s off v) = kept s := by
  simp only [readOut, kept_wire]

theorem kept_execChainHiRead (k : Fin 256) (s : State) (dflt : State) : kept ((execChainHiRead k s).or dflt) = kept s := by
  unfold execChainHiRead
  (repeat' split) <;> first | with_reducible rfl | (simp only [kept_bset, kept_hostWait, kept_readOut, Out.or]; done) | (with_reducible exact rfl)

theorem kept_execSnapSeqRead (s : State) (dflt : State) : kept ((execSnapSeqRead s).or dflt) = kept s := by
  unfold execSnapSeqRead
  (repeat' split) <;> simp only [kept_mk, kept_fold, kept_hostWait, kept_readOut, Out.or]

theorem kept_execHeldRecordFlush (s : State) (dflt : State) : kept ((execHeldRecordFlush s).or dflt) = kept s := by
  simp only [execHeldRecordFlush, kept_flushEvents, Out.or]

theorem kept_execEvtRouteWrite (n : Fin 2048) (v : Word) (s : State) (dflt : State) : kept ((execEvtRouteWrite n v s).or dflt) = kept s := by
  unfold execEvtRouteWrite
  try simp only [kept_mk, kept_fold, kept_ite, ite_self, eq_self, implies_true, kept_wr, kept_ignoredWrite, kept_setHeld, kept_flushEvents, kept_hostWrite, Out.or]
  all_goals (repeat' (first | split | with_reducible refine (kept_foldl _ _ _ fun t x => ?_).trans ?_))
  all_goals try simp only [kept_mk, kept_fold, kept_ite, ite_self, eq_self, implies_true, kept_wr, kept_ignoredWrite, kept_setHeld, kept_flushEvents, kept_hostWrite, Out.or]
  all_goals (repeat' (first | split | with_reducible refine (kept_foldl _ _ _ fun t x => ?_).trans ?_))
  all_goals first | with_reducible rfl | (simp only [kept_mk, kept_fold, kept_ite, ite_self, eq_self, implies_true, kept_wr, kept_ignoredWrite, kept_setHeld, kept_flushEvents, kept_hostWrite, Out.or]; done) | rfl

theorem kept_execEvtCoalWrite (v : Fin 64) (w : Word) (s : State) (dflt : State) :
    kept ((execEvtCoalWrite v w s).or dflt) = kept s := by
  unfold execEvtCoalWrite
  simp only [Out.or]
  refine kept_hostWrite _ _ _ _ fun t => ?_
  (repeat' split) <;> simp only [kept_ignoredWrite, kept_signal, kept_wr]

theorem kept_execEvtTestFire (v : Word) (s : State) (dflt : State) : kept ((execEvtTestFire v s).or dflt) = kept s := by
  unfold execEvtTestFire
  try simp only [kept_mk, kept_fold, kept_ite, ite_self, eq_self, implies_true, kept_raise, kept_hostWrite, Out.or]
  all_goals (repeat' (first | split | with_reducible refine (kept_foldl _ _ _ fun t x => ?_).trans ?_))
  all_goals try simp only [kept_mk, kept_fold, kept_ite, ite_self, eq_self, implies_true, kept_raise, kept_hostWrite, Out.or]
  all_goals (repeat' (first | split | with_reducible refine (kept_foldl _ _ _ fun t x => ?_).trans ?_))
  all_goals first | with_reducible rfl | (simp only [kept_mk, kept_fold, kept_ite, ite_self, eq_self, implies_true, kept_raise, kept_hostWrite, Out.or]; done) | rfl

end Sys2Proof.Machine
end

