-- ==== Sys2Proof/Laws/KeptPath.lean ====
section
/-! SUPPORT. What channels, paths and tributaries keep: the memories, the fuse and the commands that wait (`kept`). -/

set_option linter.unusedSimpArgs false
set_option linter.unusedTactic false
set_option linter.unreachableTactic false
set_option linter.unusedVariables false
set_option linter.unnecessarySeqFocus false

namespace Sys2Proof.Machine

theorem kept_execDccCtlWrite (c : Fin 256) (v : Word) (s : State) (dflt : State) : kept ((execDccCtlWrite c v s).or dflt) = kept s := by
  unfold execDccCtlWrite
  try simp only [kept_mk, kept_fold, kept_ite, ite_self, eq_self, implies_true, kept_wr, kept_ignoredWrite, kept_domainWrite, Out.or]
  all_goals (repeat' (first | split | with_reducible refine (kept_foldl _ _ _ fun t x => ?_).trans ?_))
  all_goals try simp only [kept_mk, kept_fold, kept_ite, ite_self, eq_self, implies_true, kept_wr, kept_ignoredWrite, kept_domainWrite, Out.or]
  all_goals (repeat' (first | split | with_reducible refine (kept_foldl _ _ _ fun t x => ?_).trans ?_))
  all_goals first | with_reducible rfl | (simp only [kept_mk, kept_fold, kept_ite, ite_self, eq_self, implies_true, kept_wr, kept_ignoredWrite, kept_domainWrite, Out.or]; done) | rfl

theorem kept_execOspCtlWrite (p : Fin 8) (v : Word) (s : State) (dflt : State) : kept ((execOspCtlWrite p v s).or dflt) = kept s := by
  unfold execOspCtlWrite
  try simp only [kept_mk, kept_fold, kept_ite, ite_self, eq_self, implies_true, kept_wr, kept_ignoredWrite, kept_domainWrite, Out.or]
  all_goals (repeat' (first | split | with_reducible refine (kept_foldl _ _ _ fun t x => ?_).trans ?_))
  all_goals try simp only [kept_mk, kept_fold, kept_ite, ite_self, eq_self, implies_true, kept_wr, kept_ignoredWrite, kept_domainWrite, Out.or]
  all_goals (repeat' (first | split | with_reducible refine (kept_foldl _ _ _ fun t x => ?_).trans ?_))
  all_goals first | with_reducible rfl | (simp only [kept_mk, kept_fold, kept_ite, ite_self, eq_self, implies_true, kept_wr, kept_ignoredWrite, kept_domainWrite, Out.or]; done) | rfl

theorem kept_execOspOwWrite (i : Fin 96) (v : Word) (s : State) (dflt : State) : kept ((execOspOwWrite i v s).or dflt) = kept s := by
  unfold execOspOwWrite
  try simp only [kept_mk, kept_fold, kept_ite, ite_self, eq_self, implies_true, kept_wr, kept_ignoredWrite, kept_domainWrite, Out.or]
  all_goals (repeat' (first | split | with_reducible refine (kept_foldl _ _ _ fun t x => ?_).trans ?_))
  all_goals try simp only [kept_mk, kept_fold, kept_ite, ite_self, eq_self, implies_true, kept_wr, kept_ignoredWrite, kept_domainWrite, Out.or]
  all_goals (repeat' (first | split | with_reducible refine (kept_foldl _ _ _ fun t x => ?_).trans ?_))
  all_goals first | with_reducible rfl | (simp only [kept_mk, kept_fold, kept_ite, ite_self, eq_self, implies_true, kept_wr, kept_ignoredWrite, kept_domainWrite, Out.or]; done) | rfl

theorem kept_putOverhead (s : State) (n i : Nat) (b : List Byte) : kept (putOverhead s n i b) = kept s := by
  simp only [putOverhead, kept_editFrm]

theorem kept_fieldIn (s : State) (p f : Nat) (di : List Byte) : kept (fieldIn s p f di) = kept s := by
  unfold fieldIn
  (repeat' split) <;> first | with_reducible rfl | (simp only [kept_putOverhead]; done) | (with_reducible exact rfl)

theorem kept_tripleIn (s : State) (p fields k : Nat) (di : List Byte) : kept (tripleIn s p fields k di) = kept s := by
  unfold tripleIn
  try simp only [kept_mk, kept_fold, kept_ite, ite_self, eq_self, implies_true, kept_putOverhead]
  all_goals (repeat' (first | split | with_reducible refine (kept_foldl _ _ _ fun t x => ?_).trans ?_))
  all_goals try simp only [kept_mk, kept_fold, kept_ite, ite_self, eq_self, implies_true, kept_putOverhead]
  all_goals (repeat' (first | split | with_reducible refine (kept_foldl _ _ _ fun t x => ?_).trans ?_))
  all_goals first | with_reducible rfl | (simp only [kept_mk, kept_fold, kept_ite, ite_self, eq_self, implies_true, kept_putOverhead]; done) | rfl

theorem kept_execOspFrame (p : Fin 8) (di : List Byte) (s : State) (dflt : State) : kept ((execOspFrame p di s).or dflt) = kept s := by
  unfold execOspFrame
  try simp only [kept_mk, kept_fold, kept_ite, ite_self, eq_self, implies_true, kept_wire, kept_fieldIn, kept_tripleIn, Out.or]
  all_goals (repeat' (first | split | with_reducible refine (kept_foldl _ _ _ fun t x => ?_).trans ?_))
  all_goals try simp only [kept_mk, kept_fold, kept_ite, ite_self, eq_self, implies_true, kept_wire, kept_fieldIn, kept_tripleIn, Out.or]
  all_goals (repeat' (first | split | with_reducible refine (kept_foldl _ _ _ fun t x => ?_).trans ?_))
  all_goals first | with_reducible rfl | (simp only [kept_mk, kept_fold, kept_ite, ite_self, eq_self, implies_true, kept_wire, kept_fieldIn, kept_tripleIn, kept_foldl, Out.or]; done) | rfl

theorem kept_execDccRxBuf (d : Nat) (s : State) (dflt : State) : kept ((execDccRxBuf d s).or dflt) = kept s := by
  unfold execDccRxBuf
  (repeat' split) <;> first | with_reducible rfl | (simp only [kept_editDesc, kept_invalid, kept_editDcc, Out.or]; done) | (with_reducible exact rfl)

theorem kept_execDccFrameRx (c : Fin 256) (io : HostIO) (s : State) (dflt : State) : kept ((execDccFrameRx c io s).or dflt) = kept s := by
  simp only [execDccFrameRx, kept_mk, kept_fold, kept_ite, ite_self, eq_self, implies_true, kept_count, kept_setDesc, kept_editDcc, kept_dropFrame, kept_deliver, Out.or]
  (repeat' split) <;> simp only [kept_mk, kept_fold, kept_ite, ite_self, eq_self, implies_true, kept_count, kept_setDesc, kept_editDcc, kept_dropFrame, kept_deliver, Out.or]

theorem kept_takeInput_eq {s : State} {id op : Nat} {t r} (h : takeInput s id op = some (t, r)) : kept t = kept s := by
  unfold takeInput at h
  split at h
  · cases h
  · cases g : unpark s id with
    | none => rw [g] at h; cases h
    | some u =>
      rw [g] at h
      cases h
      exact kept_unpark_eq g

theorem kept_execDccTx (d : Nat) (io : HostIO) (s : State) (dflt : State) :
    kept ((execDccTx d io s).or dflt) = kept s := by
  unfold execDccTx
  simp only [Out.or]
  split
  · rfl
  · rename_i h
    (repeat' split) <;> first
      | rfl
      | (simp only [kept_invalid, kept_invalidOpen]; exact kept_takeInput_eq h)
      | exact (kept_withInput _ _ _ _ _ fun t b => by simp only [kept_editDcc, kept_editDesc]).trans (kept_takeInput_eq h)

theorem kept_dccOpen (s : State) (c : Nat) : kept (dccOpen s c) = kept s := by
  simp only [dccOpen, kept_mk, kept_fold, kept_ite, ite_self, eq_self, implies_true, kept_setDesc, kept_editDcc, kept_putOverhead]
  (repeat' split) <;> simp only [kept_mk, kept_fold, kept_ite, ite_self, eq_self, implies_true, kept_setDesc, kept_editDcc, kept_putOverhead]

theorem kept_execDccTxSent (c : Fin 256) (s : State) (dflt : State) : kept ((execDccTxSent c s).or dflt) = kept s := by
  unfold execDccTxSent
  (repeat' split) <;> first | with_reducible rfl | (simp only [kept_completeOk, kept_editDcc, Out.or]; done) | (with_reducible exact rfl)

theorem kept_pcount (s : State) (a : Word) (i n : Nat) : kept (pcount s a i n) = kept s := by
  simp only [pcount, kept_editPath]

theorem kept_justify (s : State) (a : Word) (pos : Bool) : kept (justify s a pos) = kept s := by
  unfold justify
  try simp only [kept_mk, kept_fold, kept_ite, ite_self, eq_self, implies_true, kept_editPath, kept_pcount]
  all_goals (repeat' (first | split | with_reducible refine (kept_foldl _ _ _ fun t x => ?_).trans ?_))
  all_goals try simp only [kept_mk, kept_fold, kept_ite, ite_self, eq_self, implies_true, kept_editPath, kept_pcount]
  all_goals (repeat' (first | split | with_reducible refine (kept_foldl _ _ _ fun t x => ?_).trans ?_))
  all_goals first | with_reducible rfl | (simp only [kept_mk, kept_fold, kept_ite, ite_self, eq_self, implies_true, kept_editPath, kept_pcount, kept_foldl]; done) | rfl

theorem kept_tusAis (s : State) (h : Word) : kept (tusAis s h) = kept s := by
  unfold tusAis
  try simp only [kept_mk, kept_fold, kept_ite, ite_self, eq_self, implies_true, kept_editPath]
  all_goals (repeat' (first | split | with_reducible refine (kept_foldl _ _ _ fun t x => ?_).trans ?_))
  all_goals try simp only [kept_mk, kept_fold, kept_ite, ite_self, eq_self, implies_true, kept_editPath]
  all_goals (repeat' (first | split | with_reducible refine (kept_foldl _ _ _ fun t x => ?_).trans ?_))
  all_goals first | with_reducible rfl | (simp only [kept_mk, kept_fold, kept_ite, ite_self, eq_self, implies_true, kept_editPath, kept_foldl]; done) | rfl

theorem kept_followPath (s : State) (a : Word) : kept (followPath s a) = kept s := by
  unfold followPath
  try simp only [kept_mk, kept_fold, kept_ite, ite_self, eq_self, implies_true, kept_refreshConds, kept_refreshPath]
  all_goals (repeat' (first | split | with_reducible refine (kept_foldl _ _ _ fun t x => ?_).trans ?_))
  all_goals try simp only [kept_mk, kept_fold, kept_ite, ite_self, eq_self, implies_true, kept_refreshConds, kept_refreshPath]
  all_goals (repeat' (first | split | with_reducible refine (kept_foldl _ _ _ fun t x => ?_).trans ?_))
  all_goals first | with_reducible rfl | (simp only [kept_mk, kept_fold, kept_ite, ite_self, eq_self, implies_true, kept_refreshConds, kept_refreshPath, kept_foldl]; done) | rfl

theorem kept_pointerStep (s : State) (a : Word) (m : Nat) (b0 b1 : Byte) : kept (pointerStep s a m b0 b1) = kept s := by
  unfold pointerStep
  try simp only [kept_mk, kept_fold, kept_ite, ite_self, eq_self, implies_true, kept_editPath, kept_unverifyPath, kept_justify, kept_tusAis, kept_followPath]
  all_goals (repeat' (first | split | with_reducible refine (kept_foldl _ _ _ fun t x => ?_).trans ?_))
  all_goals try simp only [kept_mk, kept_fold, kept_ite, ite_self, eq_self, implies_true, kept_editPath, kept_unverifyPath, kept_justify, kept_tusAis, kept_followPath]
  all_goals (repeat' (first | split | with_reducible refine (kept_foldl _ _ _ fun t x => ?_).trans ?_))
  all_goals first | with_reducible rfl | (simp only [kept_mk, kept_fold, kept_ite, ite_self, eq_self, implies_true, kept_editPath, kept_unverifyPath, kept_justify, kept_tusAis, kept_followPath]; done) | rfl

theorem kept_execPointerRx (path : Word) (member : Nat) (b0 b1 : Byte) (s : State) (dflt : State) : kept ((execPointerRx path member b0 b1 s).or dflt) = kept s := by
  unfold execPointerRx
  (repeat' split) <;> first | with_reducible rfl | (simp only [kept_pointerStep, Out.or]; done) | (with_reducible exact rfl)

theorem kept_execLomChange (path : Word) (h4 : Byte) (s : State) (dflt : State) : kept ((execLomChange path h4 s).or dflt) = kept s := by
  unfold execLomChange
  try simp only [kept_mk, kept_fold, kept_ite, ite_self, eq_self, implies_true, kept_editPath, kept_tusAis, kept_followPath, Out.or]
  all_goals (repeat' (first | split | with_reducible refine (kept_foldl _ _ _ fun t x => ?_).trans ?_))
  all_goals try simp only [kept_mk, kept_fold, kept_ite, ite_self, eq_self, implies_true, kept_editPath, kept_tusAis, kept_followPath, Out.or]
  all_goals (repeat' (first | split | with_reducible refine (kept_foldl _ _ _ fun t x => ?_).trans ?_))
  all_goals first | with_reducible rfl | (simp only [kept_mk, kept_fold, kept_ite, ite_self, eq_self, implies_true, kept_editPath, kept_tusAis, kept_followPath, kept_foldl, Out.or]; done) | rfl

theorem kept_evalPath (s : State) (a : Word) : kept (evalPath s a) = kept s := by
  simp only [evalPath, kept_editPath]

theorem kept_pohStep (s : State) (a : Word) (data : List Byte) : kept (pohStep s a data) = kept s := by
  unfold pohStep
  try simp only [kept_mk, kept_fold, kept_ite, ite_self, eq_self, implies_true, kept_editPath, kept_pcount, kept_followPath, kept_evalPath]
  all_goals (repeat' (first | split | with_reducible refine (kept_foldl _ _ _ fun t x => ?_).trans ?_))
  all_goals try simp only [kept_mk, kept_fold, kept_ite, ite_self, eq_self, implies_true, kept_editPath, kept_pcount, kept_followPath, kept_evalPath]
  all_goals (repeat' (first | split | with_reducible refine (kept_foldl _ _ _ fun t x => ?_).trans ?_))
  all_goals first | with_reducible rfl | (simp only [kept_mk, kept_fold, kept_ite, ite_self, eq_self, implies_true, kept_editPath, kept_pcount, kept_followPath, kept_evalPath]; done) | rfl

theorem kept_execPathSecondEval (path : Word) (s : State) (dflt : State) : kept ((execPathSecondEval path s).or dflt) = kept s := by
  unfold execPathSecondEval
  try simp only [kept_mk, kept_fold, kept_ite, ite_self, eq_self, implies_true, kept_editPath, kept_followPath, Out.or]
  all_goals (repeat' (first | split | with_reducible refine (kept_foldl _ _ _ fun t x => ?_).trans ?_))
  all_goals try simp only [kept_mk, kept_fold, kept_ite, ite_self, eq_self, implies_true, kept_editPath, kept_followPath, Out.or]
  all_goals (repeat' (first | split | with_reducible refine (kept_foldl _ _ _ fun t x => ?_).trans ?_))
  all_goals first | with_reducible rfl | (simp only [kept_mk, kept_fold, kept_ite, ite_self, eq_self, implies_true, kept_editPath, kept_followPath, Out.or]; done) | rfl

theorem kept_feedMonitors (s : State) (a : Word) (b : List Byte) : kept (feedMonitors s a b) = kept s := by
  unfold feedMonitors
  try simp only [kept_mk, kept_fold, kept_ite, ite_self, eq_self, implies_true]
  all_goals (repeat' (first | split | with_reducible refine (kept_foldl _ _ _ fun t x => ?_).trans ?_))
  all_goals try simp only [kept_mk, kept_fold, kept_ite, ite_self, eq_self, implies_true]
  all_goals (repeat' (first | split | with_reducible refine (kept_foldl _ _ _ fun t x => ?_).trans ?_))
  all_goals first | with_reducible rfl | (simp only [kept_mk, kept_fold, kept_ite, ite_self, eq_self, implies_true, kept_foldl]; done) | rfl

theorem kept_storeData (s : State) (a : Word) (data : List Byte) : kept (storeData s a data) = kept s := by
  unfold storeData
  (repeat' split) <;> first | with_reducible rfl | (simp only [kept_editPath, kept_feedMonitors]; done) | (with_reducible exact rfl)

theorem kept_markUnit (s : State) (a : Word) (u : Byte) : kept (markUnit s a u).1 = kept s := by
  have h (c b : Bool) (r : PathSt) :
      kept (if c then pathEvent (editPath s a fun _ => r) a 0x5B b else editPath s a fun _ => r) = kept s := by
    split <;> simp only [kept_pathEvent, kept_editPath]
  exact h _ _ _

theorem kept_execPohRx (path : Word) (data : List Byte) (s : State) (dflt : State) : kept ((execPohRx path data s).or dflt) = kept s := by
  unfold execPohRx
  try simp only [kept_mk, kept_fold, kept_ite, ite_self, eq_self, implies_true, kept_editPath, kept_pohStep, kept_storeData, Out.or]
  all_goals (repeat' (first | split | with_reducible refine (kept_foldl _ _ _ fun t x => ?_).trans ?_))
  all_goals try simp only [kept_mk, kept_fold, kept_ite, ite_self, eq_self, implies_true, kept_editPath, kept_pohStep, kept_storeData, Out.or]
  all_goals (repeat' (first | split | with_reducible refine (kept_foldl _ _ _ fun t x => ?_).trans ?_))
  all_goals first | with_reducible rfl | (simp only [kept_mk, kept_fold, kept_ite, ite_self, eq_self, implies_true, kept_editPath, kept_pohStep, kept_storeData, Out.or]; done) | rfl

theorem kept_desyncBand (s : State) (a : Word) : kept (desyncBand s a) = kept s := by
  unfold desyncBand
  try simp only [kept_mk, kept_fold, kept_ite, ite_self, eq_self, implies_true, kept_editPath, kept_pathEvent, kept_pcount]
  all_goals (repeat' (first | split | with_reducible refine (kept_foldl _ _ _ fun t x => ?_).trans ?_))
  all_goals try simp only [kept_mk, kept_fold, kept_ite, ite_self, eq_self, implies_true, kept_editPath, kept_pathEvent, kept_pcount]
  all_goals (repeat' (first | split | with_reducible refine (kept_foldl _ _ _ fun t x => ?_).trans ?_))
  all_goals first | with_reducible rfl | (simp only [kept_mk, kept_fold, kept_ite, ite_self, eq_self, implies_true, kept_editPath, kept_pathEvent, kept_pcount]; done) | rfl

theorem kept_desyncMove (s : State) (a : Word) (n : Int) : kept (desyncMove s a n) = kept s := by
  simp only [desyncMove, kept_editPath, kept_desyncBand]

theorem kept_demapInto (s : State) (r a : Word) (bytes : List Byte) (read : Nat) : kept (demapInto s r a bytes read) = kept s := by
  simp only [demapInto, kept_editPath, kept_desyncMove]

theorem kept_execDemapMultiframe (path : Word) (bytes : List Byte) (read : Nat) (s : State) (dflt : State) : kept ((execDemapMultiframe path bytes read s).or dflt) = kept s := by
  unfold execDemapMultiframe
  try simp only [kept_mk, kept_fold, kept_ite, ite_self, eq_self, implies_true, kept_demapInto, Out.or]
  all_goals (repeat' (first | split | with_reducible refine (kept_foldl _ _ _ fun t x => ?_).trans ?_))
  all_goals try simp only [kept_mk, kept_fold, kept_ite, ite_self, eq_self, implies_true, kept_demapInto, Out.or]
  all_goals (repeat' (first | split | with_reducible refine (kept_foldl _ _ _ fun t x => ?_).trans ?_))
  all_goals first | with_reducible rfl | (simp only [kept_mk, kept_fold, kept_ite, ite_self, eq_self, implies_true, kept_demapInto, kept_foldl, Out.or]; done) | rfl

theorem kept_execLeakRelease (path : Word) (s : State) (dflt : State) : kept ((execLeakRelease path s).or dflt) = kept s := by
  unfold execLeakRelease
  try simp only [kept_mk, kept_fold, kept_ite, ite_self, eq_self, implies_true, kept_editPath, kept_desyncMove, Out.or]
  all_goals (repeat' (first | split | with_reducible refine (kept_foldl _ _ _ fun t x => ?_).trans ?_))
  all_goals try simp only [kept_mk, kept_fold, kept_ite, ite_self, eq_self, implies_true, kept_editPath, kept_desyncMove, Out.or]
  all_goals (repeat' (first | split | with_reducible refine (kept_foldl _ _ _ fun t x => ?_).trans ?_))
  all_goals first | with_reducible rfl | (simp only [kept_mk, kept_fold, kept_ite, ite_self, eq_self, implies_true, kept_editPath, kept_desyncMove, Out.or]; done) | rfl

theorem kept_leakFrame (s : State) (a : Word) : kept (leakFrame s a) = kept s := by
  unfold leakFrame
  (repeat' split) <;> first | with_reducible rfl | (simp only [kept_editPath]; done) | (with_reducible exact rfl)

theorem kept_storeSlip (s : State) (a : Word) : kept (storeSlip s a) = kept s := by
  unfold storeSlip
  try simp only [kept_mk, kept_fold, kept_ite, ite_self, eq_self, implies_true, kept_pathEvent, kept_pcount]
  all_goals (repeat' (first | split | with_reducible refine (kept_foldl _ _ _ fun t x => ?_).trans ?_))
  all_goals try simp only [kept_mk, kept_fold, kept_ite, ite_self, eq_self, implies_true, kept_pathEvent, kept_pcount]
  all_goals (repeat' (first | split | with_reducible refine (kept_foldl _ _ _ fun t x => ?_).trans ?_))
  all_goals first | with_reducible rfl | (simp only [kept_mk, kept_fold, kept_ite, ite_self, eq_self, implies_true, kept_pathEvent, kept_pcount]; done) | rfl

theorem kept_storeAdjust (s : State) (a : Word) (pos : Bool) : kept (storeAdjust s a pos) = kept s := by
  unfold storeAdjust
  try simp only [kept_mk, kept_fold, kept_ite, ite_self, eq_self, implies_true, kept_editPath, kept_pcount]
  all_goals (repeat' (first | split | with_reducible refine (kept_foldl _ _ _ fun t x => ?_).trans ?_))
  all_goals try simp only [kept_mk, kept_fold, kept_ite, ite_self, eq_self, implies_true, kept_editPath, kept_pcount]
  all_goals (repeat' (first | split | with_reducible refine (kept_foldl _ _ _ fun t x => ?_).trans ?_))
  all_goals first | with_reducible rfl | (simp only [kept_mk, kept_fold, kept_ite, ite_self, eq_self, implies_true, kept_editPath, kept_pcount, kept_foldl]; done) | rfl

theorem kept_storePeriod (s : State) (a : Word) : kept (storePeriod s a) = kept s := by
  unfold storePeriod
  try simp only [kept_mk, kept_fold, kept_ite, ite_self, eq_self, implies_true, kept_editPath, kept_storeSlip, kept_storeAdjust]
  all_goals (repeat' (first | split | with_reducible refine (kept_foldl _ _ _ fun t x => ?_).trans ?_))
  all_goals try simp only [kept_mk, kept_fold, kept_ite, ite_self, eq_self, implies_true, kept_editPath, kept_storeSlip, kept_storeAdjust]
  all_goals (repeat' (first | split | with_reducible refine (kept_foldl _ _ _ fun t x => ?_).trans ?_))
  all_goals first | with_reducible rfl | (simp only [kept_mk, kept_fold, kept_ite, ite_self, eq_self, implies_true, kept_editPath, kept_storeSlip, kept_storeAdjust]; done) | rfl

theorem kept_putCfg (s : State) (w : Words) (buf : List Byte) : kept (putCfg s w buf) = kept s := (rfl)

theorem kept_putWaiting (s : State) : kept (putWaiting s) = kept s := by
  unfold putWaiting
  try simp only [kept_mk, kept_fold, kept_ite, ite_self, eq_self, implies_true, kept_putCfg]
  all_goals (repeat' (first | split | with_reducible refine (kept_foldl _ _ _ fun t x => ?_).trans ?_))
  all_goals try simp only [kept_mk, kept_fold, kept_ite, ite_self, eq_self, implies_true, kept_putCfg]
  all_goals (repeat' (first | split | with_reducible refine (kept_foldl _ _ _ fun t x => ?_).trans ?_))
  all_goals first | with_reducible rfl | (simp only [kept_mk, kept_fold, kept_ite, ite_self, eq_self, implies_true, kept_putCfg, kept_foldl]; done) | rfl

theorem kept_freshPaths (s : State) (w : Words) : kept (freshPaths s w) = kept s := by
  unfold freshPaths
  try simp only [kept_mk, kept_fold, kept_ite, ite_self, eq_self, implies_true, kept_dropLock]
  all_goals (repeat' (first | split | with_reducible refine (kept_foldl _ _ _ fun t x => ?_).trans ?_))
  all_goals try simp only [kept_mk, kept_fold, kept_ite, ite_self, eq_self, implies_true, kept_dropLock]
  all_goals (repeat' (first | split | with_reducible refine (kept_foldl _ _ _ fun t x => ?_).trans ?_))
  all_goals first | with_reducible rfl | (simp only [kept_mk, kept_fold, kept_ite, ite_self, eq_self, implies_true, kept_dropLock, kept_foldl]; done) | rfl

theorem kept_applyPathCfg (s : State) (w : Words) (buf : List Byte) : kept (applyPathCfg s w buf) = kept s := by
  unfold applyPathCfg
  try simp only [kept_mk, kept_fold, kept_ite, ite_self, eq_self, implies_true, kept_editPath, kept_mapChanged, kept_orphanCheck, kept_dropEntries, kept_dropLock, kept_followPath, kept_evalPath, kept_putCfg, kept_freshPaths]
  all_goals (repeat' (first | split | with_reducible refine (kept_foldl _ _ _ fun t x => ?_).trans ?_))
  all_goals try simp only [kept_mk, kept_fold, kept_ite, ite_self, eq_self, implies_true, kept_editPath, kept_mapChanged, kept_orphanCheck, kept_dropEntries, kept_dropLock, kept_followPath, kept_evalPath, kept_putCfg, kept_freshPaths]
  all_goals (repeat' (first | split | with_reducible refine (kept_foldl _ _ _ fun t x => ?_).trans ?_))
  all_goals first | with_reducible rfl | (simp only [kept_mk, kept_fold, kept_ite, ite_self, eq_self, implies_true, kept_editPath, kept_mapChanged, kept_orphanCheck, kept_dropEntries, kept_dropLock, kept_followPath, kept_evalPath, kept_putCfg, kept_freshPaths]; done) | rfl

theorem kept_execPathCfg (d : Nat) (io : HostIO) (s : State) (dflt : State) :
    kept ((execPathCfg d io s).or dflt) = kept s := by
  unfold execPathCfg
  simp only [Out.or]
  split
  · rfl
  · rename_i h
    (repeat' split) <;> first
      | (simp only [kept_invalid, kept_mk, kept_fold, kept_setDesc]; exact kept_takeInput_eq h)
      | exact (kept_withInput _ _ _ _ _ fun t b => by simp only [kept_mk, kept_fold, kept_setDesc]).trans (kept_takeInput_eq h)

theorem kept_pcountIf (s : State) (b : Bool) (a : Word) (i : Nat) : kept (pcountIf s b a i) = kept s := by
  unfold pcountIf
  (repeat' split) <;> first | with_reducible rfl | (simp only [kept_pcount]; done) | (with_reducible exact rfl)

theorem kept_classifyPath (s : State) (a : Word) : kept (classifyPath s a) = kept s := by
  simp only [classifyPath, kept_mk, kept_fold, kept_ite, ite_self, eq_self, implies_true, kept_editPath, kept_pcountIf]
  (repeat' split) <;> simp only [kept_mk, kept_fold, kept_ite, ite_self, eq_self, implies_true, kept_editPath, kept_pcountIf]

theorem kept_endPathSecond (s : State) (a : Word) : kept (endPathSecond s a) = kept s := by
  simp only [endPathSecond, kept_editPath, kept_notePath]

theorem kept_editPdh (s : State) (u : PdhUnit) (f : PdhSt → PdhSt) : kept (editPdh s u f) = kept s := by
  simp only [editPdh, kept_mk, kept_fold, kept_ite, ite_self, eq_self, implies_true]
  (repeat' split) <;> simp only [kept_mk, kept_fold, kept_ite, ite_self, eq_self, implies_true]

theorem kept_editTrib (s : State) (p : Nat) (f : TribSt → TribSt) : kept (editTrib s p f) = kept s := (rfl)

theorem kept_setPortState (s : State) (p st : Nat) : kept (setPortState s p st) = kept s := by
  simp only [setPortState, kept_fset]

theorem kept_pdhCount (s : State) (u : PdhUnit) (i n : Nat) : kept (pdhCount s u i n) = kept s := by
  unfold pdhCount
  (repeat' split) <;> first | with_reducible rfl | (simp only [kept_count, kept_editPdh]; done) | (with_reducible exact rfl)

theorem kept_pdhEvent (s : State) (u : PdhUnit) (cause : Nat) (st : Bool) (d1 : Word) : kept (pdhEvent s u cause st d1) = kept s := by
  unfold pdhEvent
  (repeat' split) <;> first | with_reducible rfl | (simp only [kept_raise]; done) | (with_reducible exact rfl)

theorem kept_showPort (s : State) (p : PortId) : kept (showPort s p) = kept s := by
  simp only [showPort, kept_wr, kept_foldl]

theorem kept_showPdh (s : State) (u : PdhUnit) : kept (showPdh s u) = kept s := by
  unfold showPdh
  (repeat' split) <;> first | with_reducible rfl | (simp only [kept_showPort]; done) | (with_reducible exact rfl)

theorem kept_notePdh (s : State) (u : PdhUnit) : kept (notePdh s u) = kept s := by
  simp only [notePdh, kept_editPdh]

theorem kept_followPdh (s : State) (u : PdhUnit) : kept (followPdh s u) = kept s := by
  simp only [followPdh, kept_refreshConds, kept_showPdh, kept_notePdh]

theorem kept_raiBoundary (s : State) (u : PdhUnit) : kept (raiBoundary s u) = kept s := by
  unfold raiBoundary
  try simp only [kept_mk, kept_fold, kept_ite, ite_self, eq_self, implies_true, kept_editPdh]
  all_goals (repeat' (first | split | with_reducible refine (kept_foldl _ _ _ fun t x => ?_).trans ?_))
  all_goals try simp only [kept_mk, kept_fold, kept_ite, ite_self, eq_self, implies_true, kept_editPdh]
  all_goals (repeat' (first | split | with_reducible refine (kept_foldl _ _ _ fun t x => ?_).trans ?_))
  all_goals first | with_reducible rfl | (simp only [kept_mk, kept_fold, kept_ite, ite_self, eq_self, implies_true, kept_editPdh]; done) | rfl

theorem kept_setPdhDet (s : State) (u : PdhUnit) (b : PdhDefects) : kept (setPdhDet s u b) = kept s := by
  unfold setPdhDet
  try simp only [kept_mk, kept_fold, kept_ite, ite_self, eq_self, implies_true, kept_editPdh, kept_pdhEvent, kept_followPdh]
  all_goals (repeat' (first | split | with_reducible refine (kept_foldl _ _ _ fun t x => ?_).trans ?_))
  all_goals try simp only [kept_mk, kept_fold, kept_ite, ite_self, eq_self, implies_true, kept_editPdh, kept_pdhEvent, kept_followPdh]
  all_goals (repeat' (first | split | with_reducible refine (kept_foldl _ _ _ fun t x => ?_).trans ?_))
  all_goals first | with_reducible rfl | (simp only [kept_mk, kept_fold, kept_ite, ite_self, eq_self, implies_true, kept_editPdh, kept_pdhEvent, kept_followPdh, kept_foldl]; done) | rfl

theorem kept_execPdhDefectChange (u : PdhUnit) (defect : PdhDefect) (present : Bool) (s : State) (dflt : State) : kept ((execPdhDefectChange u defect present s).or dflt) = kept s := by
  simp only [execPdhDefectChange, kept_mk, kept_fold, kept_ite, ite_self, eq_self, implies_true, kept_editPdh, kept_setPortState, kept_setPdhDet, Out.or]
  (repeat' split) <;> simp only [kept_mk, kept_fold, kept_ite, ite_self, eq_self, implies_true, kept_editPdh, kept_setPortState, kept_setPdhDet, Out.or]

theorem kept_enterOof (s : State) (u : PdhUnit) (left : List PdhCand) (keepFirst : Bool) : kept (enterOof s u left keepFirst) = kept s := by
  simp only [enterOof, kept_mk, kept_fold, kept_ite, ite_self, eq_self, implies_true, kept_editPdh, kept_setPortState, kept_pdhCount, kept_pdhEvent, kept_followPdh]
  (repeat' split) <;> simp only [kept_mk, kept_fold, kept_ite, ite_self, eq_self, implies_true, kept_editPdh, kept_setPortState, kept_pdhCount, kept_pdhEvent, kept_followPdh]

theorem kept_alignFrames (s : State) (u : PdhUnit) : kept (alignFrames s u) = kept s := by
  unfold alignFrames
  (repeat' split) <;> simp only [kept_mk, kept_fold, kept_editPath]

theorem kept_takeAlign (s : State) (u : PdhUnit) (pos : Nat) : kept (takeAlign s u pos) = kept s := by
  unfold takeAlign
  (repeat' split) <;> first | with_reducible rfl | (simp only [kept_editPdh, kept_setPortState, kept_followPdh, kept_alignFrames]; done) | (with_reducible exact rfl)

theorem kept_reachMfa (s : State) (u : PdhUnit) (pos : Nat) : kept (reachMfa s u pos) = kept s := by
  unfold reachMfa
  try simp only [kept_mk, kept_fold, kept_ite, ite_self, eq_self, implies_true, kept_editPdh, kept_pdhCount, kept_followPdh, kept_alignFrames]
  all_goals (repeat' (first | split | with_reducible refine (kept_foldl _ _ _ fun t x => ?_).trans ?_))
  all_goals try simp only [kept_mk, kept_fold, kept_ite, ite_self, eq_self, implies_true, kept_editPdh, kept_pdhCount, kept_followPdh, kept_alignFrames]
  all_goals (repeat' (first | split | with_reducible refine (kept_foldl _ _ _ fun t x => ?_).trans ?_))
  all_goals first | with_reducible rfl | (simp only [kept_mk, kept_fold, kept_ite, ite_self, eq_self, implies_true, kept_editPdh, kept_pdhCount, kept_followPdh, kept_alignFrames]; done) | rfl

theorem kept_settle (s : State) (u : PdhUnit) (pos t : Nat) (qual : Option Bool) : kept (settle s u pos t qual) = kept s := by
  unfold settle
  try simp only [kept_mk, kept_fold, kept_ite, ite_self, eq_self, implies_true, kept_editPdh, kept_followPdh, kept_takeAlign, kept_reachMfa]
  all_goals (repeat' (first | split | with_reducible refine (kept_foldl _ _ _ fun t x => ?_).trans ?_))
  all_goals try simp only [kept_mk, kept_fold, kept_ite, ite_self, eq_self, implies_true, kept_editPdh, kept_followPdh, kept_takeAlign, kept_reachMfa]
  all_goals (repeat' (first | split | with_reducible refine (kept_foldl _ _ _ fun t x => ?_).trans ?_))
  all_goals first | with_reducible rfl | (simp only [kept_mk, kept_fold, kept_ite, ite_self, eq_self, implies_true, kept_editPdh, kept_followPdh, kept_takeAlign, kept_reachMfa]; done) | rfl

theorem kept_execPdhFramePattern (u : PdhUnit) (pos t : Nat) (qual : Option Bool) (s : State) (dflt : State) : kept ((execPdhFramePattern u pos t qual s).or dflt) = kept s := by
  unfold execPdhFramePattern
  try simp only [kept_mk, kept_fold, kept_ite, ite_self, eq_self, implies_true, kept_editPdh, kept_settle, Out.or]
  all_goals (repeat' (first | split | with_reducible refine (kept_foldl _ _ _ fun t x => ?_).trans ?_))
  all_goals try simp only [kept_mk, kept_fold, kept_ite, ite_self, eq_self, implies_true, kept_editPdh, kept_settle, Out.or]
  all_goals (repeat' (first | split | with_reducible refine (kept_foldl _ _ _ fun t x => ?_).trans ?_))
  all_goals first | with_reducible rfl | (simp only [kept_mk, kept_fold, kept_ite, ite_self, eq_self, implies_true, kept_editPdh, kept_settle, Out.or]; done) | rfl

theorem kept_execMfaTimeout (u : PdhUnit) (s : State) (dflt : State) : kept ((execMfaTimeout u s).or dflt) = kept s := by
  unfold execMfaTimeout
  try simp only [kept_mk, kept_fold, kept_ite, ite_self, eq_self, implies_true, kept_editPdh, kept_enterOof, Out.or]
  all_goals (repeat' (first | split | with_reducible refine (kept_foldl _ _ _ fun t x => ?_).trans ?_))
  all_goals try simp only [kept_mk, kept_fold, kept_ite, ite_self, eq_self, implies_true, kept_editPdh, kept_enterOof, Out.or]
  all_goals (repeat' (first | split | with_reducible refine (kept_foldl _ _ _ fun t x => ?_).trans ?_))
  all_goals first | with_reducible rfl | (simp only [kept_mk, kept_fold, kept_ite, ite_self, eq_self, implies_true, kept_editPdh, kept_enterOof, Out.or]; done) | rfl

theorem kept_execInterworkTimeout (u : PdhUnit) (s : State) (dflt : State) : kept ((execInterworkTimeout u s).or dflt) = kept s := by
  unfold execInterworkTimeout
  try simp only [kept_mk, kept_fold, kept_ite, ite_self, eq_self, implies_true, kept_editPdh, kept_pdhEvent, kept_followPdh, Out.or]
  all_goals (repeat' (first | split | with_reducible refine (kept_foldl _ _ _ fun t x => ?_).trans ?_))
  all_goals try simp only [kept_mk, kept_fold, kept_ite, ite_self, eq_self, implies_true, kept_editPdh, kept_pdhEvent, kept_followPdh, Out.or]
  all_goals (repeat' (first | split | with_reducible refine (kept_foldl _ _ _ fun t x => ?_).trans ?_))
  all_goals first | with_reducible rfl | (simp only [kept_mk, kept_fold, kept_ite, ite_self, eq_self, implies_true, kept_editPdh, kept_pdhEvent, kept_followPdh, Out.or]; done) | rfl

theorem kept_wordStep (s : State) (u : PdhUnit) (k : Nat) (bad : Bool) : kept (wordStep s u k bad) = kept s := by
  unfold wordStep
  try simp only [kept_mk, kept_fold, kept_ite, ite_self, eq_self, implies_true, kept_editPdh, kept_pdhCount, kept_enterOof]
  all_goals (repeat' (first | split | with_reducible refine (kept_foldl _ _ _ fun t x => ?_).trans ?_))
  all_goals try simp only [kept_mk, kept_fold, kept_ite, ite_self, eq_self, implies_true, kept_editPdh, kept_pdhCount, kept_enterOof]
  all_goals (repeat' (first | split | with_reducible refine (kept_foldl _ _ _ fun t x => ?_).trans ?_))
  all_goals first | with_reducible rfl | (simp only [kept_mk, kept_fold, kept_ite, ite_self, eq_self, implies_true, kept_editPdh, kept_pdhCount, kept_enterOof]; done) | rfl

theorem kept_blockStep (s : State) (u : PdhUnit) (f : PdhRx) (word : Option Bool) : kept (blockStep s u f word) = kept s := by
  simp only [blockStep, kept_mk, kept_fold, kept_ite, ite_self, eq_self, implies_true, kept_editPdh, kept_pdhCount, kept_enterOof]
  (repeat' split) <;> simp only [kept_mk, kept_fold, kept_ite, ite_self, eq_self, implies_true, kept_editPdh, kept_pdhCount, kept_enterOof]

theorem kept_overheadStep (s : State) (u : PdhUnit) (f : PdhRx) : kept (overheadStep s u f) = kept s := by
  simp only [overheadStep, kept_mk, kept_fold, kept_ite, ite_self, eq_self, implies_true, kept_fset, kept_editPdh, kept_pdhCount]
  (repeat' split) <;> simp only [kept_mk, kept_fold, kept_ite, ite_self, eq_self, implies_true, kept_fset, kept_editPdh, kept_pdhCount]

theorem kept_slip (s : State) (u : PdhUnit) (tx neg : Bool) : kept (slip s u tx neg) = kept s := by
  simp only [slip, kept_mk, kept_fold, kept_ite, ite_self, eq_self, implies_true, kept_raiseOnce, kept_pdhCount, kept_pdhEvent]
  (repeat' split) <;> simp only [kept_mk, kept_fold, kept_ite, ite_self, eq_self, implies_true, kept_raiseOnce, kept_pdhCount, kept_pdhEvent]

theorem kept_slipWrite (s : State) (u : PdhUnit) (b : List Byte) : kept (slipWrite s u b) = kept s := by
  unfold slipWrite
  try simp only [kept_mk, kept_fold, kept_ite, ite_self, eq_self, implies_true, kept_editPdh, kept_slip]
  all_goals (repeat' (first | split | with_reducible refine (kept_foldl _ _ _ fun t x => ?_).trans ?_))
  all_goals try simp only [kept_mk, kept_fold, kept_ite, ite_self, eq_self, implies_true, kept_editPdh, kept_slip]
  all_goals (repeat' (first | split | with_reducible refine (kept_foldl _ _ _ fun t x => ?_).trans ?_))
  all_goals first | with_reducible rfl | (simp only [kept_mk, kept_fold, kept_ite, ite_self, eq_self, implies_true, kept_editPdh, kept_slip]; done) | rfl

theorem kept_testNext (s : State) (b : List Byte) : kept (testNext s b) = kept s := by
  unfold testNext
  try simp only [kept_mk, kept_fold, kept_ite, ite_self, eq_self, implies_true]
  all_goals (repeat' (first | split | with_reducible refine (kept_foldl _ _ _ fun t x => ?_).trans ?_))
  all_goals try simp only [kept_mk, kept_fold, kept_ite, ite_self, eq_self, implies_true]
  all_goals (repeat' (first | split | with_reducible refine (kept_foldl _ _ _ fun t x => ?_).trans ?_))
  all_goals first | with_reducible rfl | (simp only [kept_mk, kept_fold, kept_ite, ite_self, eq_self, implies_true]; done) | rfl

theorem kept_portTransmit (s : State) (p : PortId) (own : List Byte) : kept (portTransmit s p own) = kept s := by
  unfold portTransmit
  try simp only [kept_mk, kept_fold, kept_ite, ite_self, eq_self, implies_true, kept_wire, kept_editPdh, kept_testNext]
  all_goals (repeat' (first | split | with_reducible refine (kept_foldl _ _ _ fun t x => ?_).trans ?_))
  all_goals try simp only [kept_mk, kept_fold, kept_ite, ite_self, eq_self, implies_true, kept_wire, kept_editPdh, kept_testNext]
  all_goals (repeat' (first | split | with_reducible refine (kept_foldl _ _ _ fun t x => ?_).trans ?_))
  all_goals first | with_reducible rfl | (simp only [kept_mk, kept_fold, kept_ite, ite_self, eq_self, implies_true, kept_wire, kept_editPdh, kept_testNext]; done) | rfl

theorem kept_slipTxRead (s : State) (u : PdhUnit) : kept (slipTxRead s u) = kept s := by
  unfold slipTxRead
  (repeat' split) <;> first | with_reducible rfl | (simp only [kept_editPdh, kept_slip, kept_portTransmit]; done) | (with_reducible exact rfl)

theorem kept_portFrame (s : State) (p : PortId) (b : List Byte) : kept (portFrame s p b) = kept s := by
  unfold portFrame
  try simp only [kept_mk, kept_fold, kept_ite, ite_self, eq_self, implies_true, kept_editPdh, kept_slip, kept_portTransmit]
  all_goals (repeat' (first | split | with_reducible refine (kept_foldl _ _ _ fun t x => ?_).trans ?_))
  all_goals try simp only [kept_mk, kept_fold, kept_ite, ite_self, eq_self, implies_true, kept_editPdh, kept_slip, kept_portTransmit]
  all_goals (repeat' (first | split | with_reducible refine (kept_foldl _ _ _ fun t x => ?_).trans ?_))
  all_goals first | with_reducible rfl | (simp only [kept_mk, kept_fold, kept_ite, ite_self, eq_self, implies_true, kept_editPdh, kept_slip, kept_portTransmit]; done) | rfl

theorem kept_takeFrame_eq {s : State} {u : PdhUnit} {f : PdhRx} {so ro} (h : takeFrame s u f = some (so, ro)) : kept so = kept s := by
  simp only [takeFrame] at h
  (repeat' split at h) <;> (try cases h) <;> first | with_reducible rfl | (simp only [kept_mk, kept_fold, kept_ite, ite_self, eq_self, implies_true, kept_editPath]; done) | rfl

theorem kept_portReturns (s : State) (u : PdhUnit) (f : PdhRx) : kept (portReturns s u f) = kept s := by
  unfold portReturns
  (repeat' split) <;> first | with_reducible rfl | (simp only [kept_wire]; done) | (with_reducible exact rfl)

theorem kept_pdhReceive (s : State) (u : PdhUnit) (k : Nat) (f : PdhRx) : kept (pdhReceive s u k f) = kept s := by
  simp only [pdhReceive, kept_mk, kept_fold, kept_ite, ite_self, eq_self, implies_true, kept_editPdh, kept_pdhCount, kept_followPdh, kept_wordStep, kept_blockStep, kept_overheadStep, kept_slipWrite, kept_slipTxRead, kept_portReturns]
  (repeat' split) <;> simp only [kept_mk, kept_fold, kept_ite, ite_self, eq_self, implies_true, kept_editPdh, kept_pdhCount, kept_followPdh, kept_wordStep, kept_blockStep, kept_overheadStep, kept_slipWrite, kept_slipTxRead, kept_portReturns]

theorem kept_execPdhFrameRx (u : PdhUnit) (f : PdhRx) (s : State) (dflt : State) :
    kept ((execPdhFrameRx u f s).or dflt) = kept s := by
  simp only [execPdhFrameRx, Out.or]
  split <;> rename_i h
  · split at h
    · exact (kept_pdhReceive _ _ _ _).trans (kept_takeFrame_eq h)
    · cases h
  · rfl

theorem kept_slipRead (s : State) (u : PdhUnit) : kept (slipRead s u) = kept s := by
  simp only [slipRead, kept_mk, kept_fold, kept_ite, ite_self, eq_self, implies_true, kept_editPdh, kept_slip]
  (repeat' split) <;> simp only [kept_mk, kept_fold, kept_ite, ite_self, eq_self, implies_true, kept_editPdh, kept_slip]

theorem kept_endInterwork (s : State) (u : PdhUnit) : kept (endInterwork s u) = kept s := by
  unfold endInterwork
  (repeat' split) <;> first | with_reducible rfl | (simp only [kept_editPdh, kept_pdhEvent]; done) | (with_reducible exact rfl)

theorem kept_restartSearch (s : State) (u : PdhUnit) : kept (restartSearch s u) = kept s := by
  simp only [restartSearch, kept_mk, kept_fold, kept_ite, ite_self, eq_self, implies_true, kept_editPdh, kept_setPortState, kept_followPdh, kept_setPdhDet, kept_endInterwork]
  (repeat' split) <;> simp only [kept_mk, kept_fold, kept_ite, ite_self, eq_self, implies_true, kept_editPdh, kept_setPortState, kept_followPdh, kept_setPdhDet, kept_endInterwork]

theorem kept_portStart (s : State) (p : PortId) : kept (portStart s p) = kept s := by
  unfold portStart
  try simp only [kept_mk, kept_fold, kept_ite, ite_self, eq_self, implies_true, kept_wr, kept_editPdh, kept_editTrib, kept_setPortState, kept_followPdh, kept_setPdhDet]
  all_goals (repeat' (first | split | with_reducible refine (kept_foldl _ _ _ fun t x => ?_).trans ?_))
  all_goals try simp only [kept_mk, kept_fold, kept_ite, ite_self, eq_self, implies_true, kept_wr, kept_editPdh, kept_editTrib, kept_setPortState, kept_followPdh, kept_setPdhDet]
  all_goals (repeat' (first | split | with_reducible refine (kept_foldl _ _ _ fun t x => ?_).trans ?_))
  all_goals first | with_reducible rfl | (simp only [kept_mk, kept_fold, kept_ite, ite_self, eq_self, implies_true, kept_wr, kept_editPdh, kept_editTrib, kept_setPortState, kept_followPdh, kept_setPdhDet]; done) | rfl

theorem kept_portStop (s : State) (p : PortId) : kept (portStop s p) = kept s := by
  simp only [portStop, kept_wr, kept_editPdh, kept_editTrib, kept_setPdhDet, kept_endInterwork]

theorem kept_portForced (s : State) (p : Nat) (old v : Word) : kept (portForced s p old v) = kept s := by
  unfold portForced
  try simp only [kept_mk, kept_fold, kept_ite, ite_self, eq_self, implies_true, kept_freeNext, kept_raise]
  all_goals (repeat' (first | split | with_reducible refine (kept_foldl _ _ _ fun t x => ?_).trans ?_))
  all_goals try simp only [kept_mk, kept_fold, kept_ite, ite_self, eq_self, implies_true, kept_freeNext, kept_raise]
  all_goals (repeat' (first | split | with_reducible refine (kept_foldl _ _ _ fun t x => ?_).trans ?_))
  all_goals first | with_reducible rfl | (simp only [kept_mk, kept_fold, kept_ite, ite_self, eq_self, implies_true, kept_freeNext, kept_raise]; done) | rfl

theorem kept_putPort (s : State) (p : PortId) (ctl frm : Word) : kept (putPort s p ctl frm) = kept s := by
  unfold putPort
  try simp only [kept_mk, kept_fold, kept_ite, ite_self, eq_self, implies_true, kept_idleMark, kept_orphanCheck, kept_dropEntries, kept_editTrib, kept_followPdh, kept_restartSearch, kept_portStart, kept_portStop]
  all_goals (repeat' (first | split | with_reducible refine (kept_foldl _ _ _ fun t x => ?_).trans ?_))
  all_goals try simp only [kept_mk, kept_fold, kept_ite, ite_self, eq_self, implies_true, kept_idleMark, kept_orphanCheck, kept_dropEntries, kept_editTrib, kept_followPdh, kept_restartSearch, kept_portStart, kept_portStop]
  all_goals (repeat' (first | split | with_reducible refine (kept_foldl _ _ _ fun t x => ?_).trans ?_))
  all_goals first | with_reducible rfl | (simp only [kept_mk, kept_fold, kept_ite, ite_self, eq_self, implies_true, kept_idleMark, kept_orphanCheck, kept_dropEntries, kept_editTrib, kept_followPdh, kept_restartSearch, kept_portStart, kept_portStop]; done) | rfl

theorem kept_execTribCtlWrite (p : PortId) (v : Word) (s : State) (dflt : State) : kept ((execTribCtlWrite p v s).or dflt) = kept s := by
  unfold execTribCtlWrite
  try simp only [kept_mk, kept_fold, kept_ite, ite_self, eq_self, implies_true, kept_wr, kept_ignoredWrite, kept_domainWrite, kept_portForced, kept_putPort, Out.or]
  all_goals (repeat' (first | split | with_reducible refine (kept_foldl _ _ _ fun t x => ?_).trans ?_))
  all_goals try simp only [kept_mk, kept_fold, kept_ite, ite_self, eq_self, implies_true, kept_wr, kept_ignoredWrite, kept_domainWrite, kept_portForced, kept_putPort, Out.or]
  all_goals (repeat' (first | split | with_reducible refine (kept_foldl _ _ _ fun t x => ?_).trans ?_))
  all_goals first | with_reducible rfl | (simp only [kept_mk, kept_fold, kept_ite, ite_self, eq_self, implies_true, kept_wr, kept_ignoredWrite, kept_domainWrite, kept_portForced, kept_putPort, Out.or]; done) | rfl

theorem kept_execTribFrmWrite (p : PortId) (v : Word) (s : State) (dflt : State) : kept ((execTribFrmWrite p v s).or dflt) = kept s := by
  unfold execTribFrmWrite
  try simp only [kept_mk, kept_fold, kept_ite, ite_self, eq_self, implies_true, kept_wr, kept_ignoredWrite, kept_raise, kept_domainWrite, Out.or]
  all_goals (repeat' (first | split | with_reducible refine (kept_foldl _ _ _ fun t x => ?_).trans ?_))
  all_goals try simp only [kept_mk, kept_fold, kept_ite, ite_self, eq_self, implies_true, kept_wr, kept_ignoredWrite, kept_raise, kept_domainWrite, Out.or]
  all_goals (repeat' (first | split | with_reducible refine (kept_foldl _ _ _ fun t x => ?_).trans ?_))
  all_goals first | with_reducible rfl | (simp only [kept_mk, kept_fold, kept_ite, ite_self, eq_self, implies_true, kept_wr, kept_ignoredWrite, kept_raise, kept_domainWrite, Out.or]; done) | rfl

theorem kept_portBoundary (s : State) (p : PortId) : kept (portBoundary s p) = kept s := by
  unfold portBoundary
  try simp only [kept_mk, kept_fold, kept_ite, ite_self, eq_self, implies_true, kept_putPort]
  all_goals (repeat' (first | split | with_reducible refine (kept_foldl _ _ _ fun t x => ?_).trans ?_))
  all_goals try simp only [kept_mk, kept_fold, kept_ite, ite_self, eq_self, implies_true, kept_putPort]
  all_goals (repeat' (first | split | with_reducible refine (kept_foldl _ _ _ fun t x => ?_).trans ?_))
  all_goals first | with_reducible rfl | (simp only [kept_mk, kept_fold, kept_ite, ite_self, eq_self, implies_true, kept_putPort]; done) | rfl

theorem kept_execTribTrimDone (p : PortId) (trim : BitVec 5) (s : State) (dflt : State) : kept ((execTribTrimDone p trim s).or dflt) = kept s := by
  unfold execTribTrimDone
  (repeat' split) <;> first | with_reducible rfl | (simp only [kept_fset, kept_setPortState, Out.or]; done) | (with_reducible exact rfl)

theorem kept_execTribLiuAdjust (p : PortId) (what : LiuAdjust) (s : State) (dflt : State) : kept ((execTribLiuAdjust p what s).or dflt) = kept s := by
  unfold execTribLiuAdjust
  (repeat' split) <;> first | with_reducible rfl | (simp only [kept_fset, kept_editTrib, Out.or]; done) | (with_reducible exact rfl)

theorem kept_execLossHigh (p : PortId) (high : Bool) (s : State) (dflt : State) : kept ((execLossHigh p high s).or dflt) = kept s := by
  unfold execLossHigh
  try simp only [kept_mk, kept_fold, kept_ite, ite_self, eq_self, implies_true, kept_editTrib, kept_pdhEvent, Out.or]
  all_goals (repeat' (first | split | with_reducible refine (kept_foldl _ _ _ fun t x => ?_).trans ?_))
  all_goals try simp only [kept_mk, kept_fold, kept_ite, ite_self, eq_self, implies_true, kept_editTrib, kept_pdhEvent, Out.or]
  all_goals (repeat' (first | split | with_reducible refine (kept_foldl _ _ _ fun t x => ?_).trans ?_))
  all_goals first | with_reducible rfl | (simp only [kept_mk, kept_fold, kept_ite, ite_self, eq_self, implies_true, kept_editTrib, kept_pdhEvent, Out.or]; done) | rfl

theorem kept_execTribTxFaultChange (p : PortId) (fault : Bool) (s : State) (dflt : State) : kept ((execTribTxFaultChange p fault s).or dflt) = kept s := by
  unfold execTribTxFaultChange
  (repeat' split) <;> first | with_reducible rfl | (simp only [kept_bset, kept_pdhEvent, Out.or]; done) | (with_reducible exact rfl)

theorem kept_pdhCountIf (s : State) (b : Bool) (u : PdhUnit) (i : Nat) : kept (pdhCountIf s b u i) = kept s := by
  unfold pdhCountIf
  (repeat' split) <;> first | with_reducible rfl | (simp only [kept_pdhCount]; done) | (with_reducible exact rfl)

theorem kept_classifyPdh (s : State) (u : PdhUnit) : kept (classifyPdh s u) = kept s := by
  simp only [classifyPdh, kept_mk, kept_fold, kept_ite, ite_self, eq_self, implies_true, kept_editPdh, kept_pdhCountIf]
  (repeat' split) <;> simp only [kept_mk, kept_fold, kept_ite, ite_self, eq_self, implies_true, kept_editPdh, kept_pdhCountIf]

theorem kept_endPdhSecond (s : State) (u : PdhUnit) : kept (endPdhSecond s u) = kept s := by
  simp only [endPdhSecond, kept_editPdh, kept_notePdh]

theorem kept_execPmSecondClassify (unit : PmUnit) (s : State) (dflt : State) : kept ((execPmSecondClassify unit s).or dflt) = kept s := by
  unfold execPmSecondClassify
  (repeat' split) <;> first | with_reducible rfl | (simp only [kept_classifyLane, kept_classifyPath, kept_classifyPdh, Out.or]; done) | (with_reducible exact rfl)

end Sys2Proof.Machine
end

