-- ==== Sys2Proof/Laws/KeptMap.lean ====
section
/-! SUPPORT. What the fabric, the map and the gathers keep: the memories, the fuse and the commands that wait (`kept`). -/

set_option linter.unusedSimpArgs false
set_option linter.unusedTactic false
set_option linter.unreachableTactic false
set_option linter.unusedVariables false
set_option linter.unnecessarySeqFocus false

namespace Sys2Proof.Machine

theorem kept_editFab (s : State) (f : FabSt → FabSt) : kept (editFab s f) = kept s := (rfl)

theorem kept_takeStorage (s : State) (c : Nat × Word) : kept (takeStorage s c) = kept s := by
  unfold takeStorage
  (repeat' split) <;> first | with_reducible rfl | (simp only [kept_bset, kept_editFab]; done) | (with_reducible exact rfl)

theorem kept_takeSources (s : State) (l : List Word) : kept (takeSources s l) = kept s := by
  unfold takeSources
  try simp only [kept_mk, kept_fold, kept_ite, ite_self, eq_self, implies_true, kept_takeStorage]
  all_goals (repeat' (first | split | with_reducible refine (kept_foldl _ _ _ fun t x => ?_).trans ?_))
  all_goals try simp only [kept_mk, kept_fold, kept_ite, ite_self, eq_self, implies_true, kept_takeStorage]
  all_goals (repeat' (first | split | with_reducible refine (kept_foldl _ _ _ fun t x => ?_).trans ?_))
  all_goals first | with_reducible rfl | (simp only [kept_mk, kept_fold, kept_ite, ite_self, eq_self, implies_true, kept_takeStorage, kept_foldl]; done) | rfl

theorem kept_freeStorage (s : State) : kept (freeStorage s) = kept s := by
  simp only [freeStorage, kept_editFab]

theorem kept_syncStorage (s : State) : kept (syncStorage s) = kept s := by
  unfold syncStorage
  try simp only [kept_mk, kept_fold, kept_ite, ite_self, eq_self, implies_true, kept_takeStorage]
  all_goals (repeat' (first | split | with_reducible refine (kept_foldl _ _ _ fun t x => ?_).trans ?_))
  all_goals try simp only [kept_mk, kept_fold, kept_ite, ite_self, eq_self, implies_true, kept_takeStorage]
  all_goals (repeat' (first | split | with_reducible refine (kept_foldl _ _ _ fun t x => ?_).trans ?_))
  all_goals first | with_reducible rfl | (simp only [kept_mk, kept_fold, kept_ite, ite_self, eq_self, implies_true, kept_takeStorage, kept_foldl]; done) | rfl

theorem kept_pairsFrame (s : State) : kept (pairsFrame s) = kept s := by
  simp only [pairsFrame, kept_editFab]

theorem kept_execPairGateOff (pair : Fin 32) (s : State) (dflt : State) : kept ((execPairGateOff pair s).or dflt) = kept s := by
  unfold execPairGateOff
  (repeat' split) <;> first | with_reducible rfl | (simp only [kept_bset, Out.or]; done) | (with_reducible exact rfl)

theorem kept_markUnrec (s : State) (slots : List (Word × Nat)) : kept (markUnrec s slots) = kept s := by
  simp only [markUnrec, kept_editFab, kept_foldl]

theorem kept_recovered (s : State) (pair loc : Nat) (mask : Word) : kept (recovered s pair loc mask) = kept s := by
  unfold recovered
  try simp only [kept_mk, kept_fold, kept_ite, ite_self, eq_self, implies_true, kept_count, kept_raiseOnce, kept_editFab]
  all_goals (repeat' (first | split | with_reducible refine (kept_foldl _ _ _ fun t x => ?_).trans ?_))
  all_goals try simp only [kept_mk, kept_fold, kept_ite, ite_self, eq_self, implies_true, kept_count, kept_raiseOnce, kept_editFab]
  all_goals (repeat' (first | split | with_reducible refine (kept_foldl _ _ _ fun t x => ?_).trans ?_))
  all_goals first | with_reducible rfl | (simp only [kept_mk, kept_fold, kept_ite, ite_self, eq_self, implies_true, kept_count, kept_raiseOnce, kept_editFab]; done) | rfl

theorem kept_revokePair (s : State) (pair : Nat) : kept (revokePair s pair) = kept s := by
  simp only [revokePair, kept_mk, kept_fold, kept_ite, ite_self, eq_self, implies_true]
  (repeat' split) <;> simp only [kept_mk, kept_fold, kept_ite, ite_self, eq_self, implies_true]

theorem kept_unrecovered (s : State) (pair bank loc : Nat) (mask : Word) : kept (unrecovered s pair bank loc mask) = kept s := by
  simp only [unrecovered, kept_count, kept_raise, kept_markUnrec, kept_revokePair]

theorem kept_readWord (s : State) (p l : Nat) (upPrim upRepl : Word) : kept (readWord s p l upPrim upRepl) = kept s := by
  unfold readWord
  try simp only [kept_mk, kept_fold, kept_ite, ite_self, eq_self, implies_true, kept_editFab, kept_recovered, kept_unrecovered]
  all_goals (repeat' (first | split | with_reducible refine (kept_foldl _ _ _ fun t x => ?_).trans ?_))
  all_goals try simp only [kept_mk, kept_fold, kept_ite, ite_self, eq_self, implies_true, kept_editFab, kept_recovered, kept_unrecovered]
  all_goals (repeat' (first | split | with_reducible refine (kept_foldl _ _ _ fun t x => ?_).trans ?_))
  all_goals first | with_reducible rfl | (simp only [kept_mk, kept_fold, kept_ite, ite_self, eq_self, implies_true, kept_editFab, kept_recovered, kept_unrecovered]; done) | rfl

theorem kept_execFabricWordRead (r : WordRead) (s : State) (dflt : State) : kept ((execFabricWordRead r s).or dflt) = kept s := by
  unfold execFabricWordRead
  try simp only [kept_mk, kept_fold, kept_ite, ite_self, eq_self, implies_true, kept_readWord, Out.or]
  all_goals (repeat' (first | split | with_reducible refine (kept_foldl _ _ _ fun t x => ?_).trans ?_))
  all_goals try simp only [kept_mk, kept_fold, kept_ite, ite_self, eq_self, implies_true, kept_readWord, Out.or]
  all_goals (repeat' (first | split | with_reducible refine (kept_foldl _ _ _ fun t x => ?_).trans ?_))
  all_goals first | with_reducible rfl | (simp only [kept_mk, kept_fold, kept_ite, ite_self, eq_self, implies_true, kept_readWord, Out.or]; done) | rfl

theorem kept_execParityInjectArm (v : Word) (s : State) (dflt : State) : kept ((execParityInjectArm v s).or dflt) = kept s := by
  unfold execParityInjectArm
  try simp only [kept_mk, kept_fold, kept_ite, ite_self, eq_self, implies_true, kept_ignoredWrite, kept_domainWrite, kept_editFab, Out.or]
  all_goals (repeat' (first | split | with_reducible refine (kept_foldl _ _ _ fun t x => ?_).trans ?_))
  all_goals try simp only [kept_mk, kept_fold, kept_ite, ite_self, eq_self, implies_true, kept_ignoredWrite, kept_domainWrite, kept_editFab, Out.or]
  all_goals (repeat' (first | split | with_reducible refine (kept_foldl _ _ _ fun t x => ?_).trans ?_))
  all_goals first | with_reducible rfl | (simp only [kept_mk, kept_fold, kept_ite, ite_self, eq_self, implies_true, kept_ignoredWrite, kept_domainWrite, kept_editFab, Out.or]; done) | rfl

theorem kept_storeFrame (s : State) : kept (storeFrame s) = kept s := by
  simp only [storeFrame, kept_editFab, kept_foldl]

theorem kept_monitorReads (s : State) : kept (monitorReads s) = kept s := by
  unfold monitorReads
  try simp only [kept_mk, kept_fold, kept_ite, ite_self, eq_self, implies_true, kept_readWord]
  all_goals (repeat' (first | split | with_reducible refine (kept_foldl _ _ _ fun t x => ?_).trans ?_))
  all_goals try simp only [kept_mk, kept_fold, kept_ite, ite_self, eq_self, implies_true, kept_readWord]
  all_goals (repeat' (first | split | with_reducible refine (kept_foldl _ _ _ fun t x => ?_).trans ?_))
  all_goals first | with_reducible rfl | (simp only [kept_mk, kept_fold, kept_ite, ite_self, eq_self, implies_true, kept_readWord, kept_foldl]; done) | rfl

theorem kept_pmonEvent (s : State) (m : Nat) (lock : Bool) (errs : Word) : kept (pmonEvent s m lock errs) = kept s := by
  simp only [pmonEvent, kept_raise]

theorem kept_pmonRestart (s : State) (m : Nat) : kept (pmonRestart s m) = kept s := by
  unfold pmonRestart
  try simp only [kept_mk, kept_fold, kept_ite, ite_self, eq_self, implies_true, kept_bset, kept_editFab, kept_pmonEvent]
  all_goals (repeat' (first | split | with_reducible refine (kept_foldl _ _ _ fun t x => ?_).trans ?_))
  all_goals try simp only [kept_mk, kept_fold, kept_ite, ite_self, eq_self, implies_true, kept_bset, kept_editFab, kept_pmonEvent]
  all_goals (repeat' (first | split | with_reducible refine (kept_foldl _ _ _ fun t x => ?_).trans ?_))
  all_goals first | with_reducible rfl | (simp only [kept_mk, kept_fold, kept_ite, ite_self, eq_self, implies_true, kept_bset, kept_editFab, kept_pmonEvent]; done) | rfl

theorem kept_execPmonCtlWrite (m : Fin 8) (slotReg : Bool) (v : Word) (s : State) (dflt : State) : kept ((execPmonCtlWrite m slotReg v s).or dflt) = kept s := by
  unfold execPmonCtlWrite
  try simp only [kept_mk, kept_fold, kept_ite, ite_self, eq_self, implies_true, kept_wr, kept_ignoredWrite, kept_domainWrite, kept_pmonRestart, Out.or]
  all_goals (repeat' (first | split | with_reducible refine (kept_foldl _ _ _ fun t x => ?_).trans ?_))
  all_goals try simp only [kept_mk, kept_fold, kept_ite, ite_self, eq_self, implies_true, kept_wr, kept_ignoredWrite, kept_domainWrite, kept_pmonRestart, Out.or]
  all_goals (repeat' (first | split | with_reducible refine (kept_foldl _ _ _ fun t x => ?_).trans ?_))
  all_goals first | with_reducible rfl | (simp only [kept_mk, kept_fold, kept_ite, ite_self, eq_self, implies_true, kept_wr, kept_ignoredWrite, kept_domainWrite, kept_pmonRestart, Out.or]; done) | rfl

theorem kept_execPmonLockChange (m : Fin 8) (s : State) (dflt : State) : kept ((execPmonLockChange m s).or dflt) = kept s := by
  unfold execPmonLockChange
  try simp only [kept_mk, kept_fold, kept_ite, ite_self, eq_self, implies_true, kept_bset, kept_count, kept_editFab, kept_pmonEvent, Out.or]
  all_goals (repeat' (first | split | with_reducible refine (kept_foldl _ _ _ fun t x => ?_).trans ?_))
  all_goals try simp only [kept_mk, kept_fold, kept_ite, ite_self, eq_self, implies_true, kept_bset, kept_count, kept_editFab, kept_pmonEvent, Out.or]
  all_goals (repeat' (first | split | with_reducible refine (kept_foldl _ _ _ fun t x => ?_).trans ?_))
  all_goals first | with_reducible rfl | (simp only [kept_mk, kept_fold, kept_ite, ite_self, eq_self, implies_true, kept_bset, kept_count, kept_editFab, kept_pmonEvent, kept_foldl, Out.or]; done) | rfl

theorem kept_fabControls (s : State) : kept (fabControls s) = kept s := by
  simp only [fabControls, kept_editFab]

theorem kept_execLatencyMeasure (out : Word) (ns : Nat) (s : State) (dflt : State) : kept ((execLatencyMeasure out ns s).or dflt) = kept s := by
  unfold execLatencyMeasure
  (repeat' split) <;> first | with_reducible rfl | (simp only [kept_editFab, Out.or]; done) | (with_reducible exact rfl)

theorem kept_dropLatencies (s : State) : kept (dropLatencies s) = kept s := by
  simp only [dropLatencies, kept_editFab]

theorem kept_runGenerators (s : State) : kept (runGenerators s) = kept s := (rfl)

theorem kept_genBytes (s : State) (o : Word) (pat n : Nat) : kept (genBytes s o pat n).2 = kept s := by
  simp only [genBytes, kept_mk, kept_fold, kept_ite, ite_self, eq_self, implies_true]
  (repeat' split) <;> simp only [kept_mk, kept_fold, kept_ite, ite_self, eq_self, implies_true]

theorem kept_fabricFrame (s : State) : kept (fabricFrame s) = kept s := by
  simp only [fabricFrame, kept_editFab, kept_syncStorage, kept_pairsFrame, kept_storeFrame, kept_monitorReads, kept_dropLatencies, kept_runGenerators]

theorem kept_putEdit (s : State) (r : EditRec) : kept (putEdit s r) = kept s := (rfl)

theorem kept_putTerm (s : State) (w : CfgWords) : kept (putTerm s w) = kept s := by
  unfold putTerm
  (repeat' split) <;> simp only [kept_mk, kept_fold, kept_dropEntries]

theorem kept_putCC (s : State) (w : CfgWords) : kept (putCC s w) = kept s := (rfl)

theorem kept_putStruct (s : State) (x : Staged) : kept (putStruct s x) = kept s := by
  cases x <;> simp only [putStruct, kept_putTerm, kept_putCC]

theorem kept_putEdits (s : State) (x : Staged) : kept (putEdits s x) = kept s := by
  cases x
  · exact kept_foldl _ _ _ fun t x => kept_putEdit t x
  · rfl
  · rfl

theorem kept_putItems (s : State) (l : List Staged) : kept (putItems s l) = kept s := by
  unfold putItems
  dsimp only
  rw [kept_foldl _ _ _ fun t x => kept_putEdits t x, kept_foldl _ _ _ fun t x => kept_putStruct t x,
    kept_foldl _ _ _ fun t x => kept_putStruct t x]

theorem kept_withScheduled (s : State) : kept (withScheduled s) = kept s := by
  unfold withScheduled
  try simp only [kept_mk, kept_fold, kept_ite, ite_self, eq_self, implies_true, kept_putItems]
  all_goals (repeat' (first | split | with_reducible refine (kept_foldl _ _ _ fun t x => ?_).trans ?_))
  all_goals try simp only [kept_mk, kept_fold, kept_ite, ite_self, eq_self, implies_true, kept_putItems]
  all_goals (repeat' (first | split | with_reducible refine (kept_foldl _ _ _ fun t x => ?_).trans ?_))
  all_goals first | with_reducible rfl | (simp only [kept_mk, kept_fold, kept_ite, ite_self, eq_self, implies_true, kept_putItems, kept_foldl]; done) | rfl

theorem kept_withReserved (s : State) : kept (withReserved s) = kept s := by
  unfold withReserved
  try simp only [kept_mk, kept_fold, kept_ite, ite_self, eq_self, implies_true, kept_putItems]
  all_goals (repeat' (first | split | with_reducible refine (kept_foldl _ _ _ fun t x => ?_).trans ?_))
  all_goals try simp only [kept_mk, kept_fold, kept_ite, ite_self, eq_self, implies_true, kept_putItems]
  all_goals (repeat' (first | split | with_reducible refine (kept_foldl _ _ _ fun t x => ?_).trans ?_))
  all_goals first | with_reducible rfl | (simp only [kept_mk, kept_fold, kept_ite, ite_self, eq_self, implies_true, kept_putItems, kept_foldl]; done) | rfl

theorem kept_defer (s : State) (d : Nat) (tu : Bool) (act : DefAct) : kept (defer s d tu act) = kept s := by
  simp only [defer, kept_mk, kept_fold, kept_setDesc, kept_takeSources]

theorem kept_endDirect (s : State) (d : Desc) (l : List EditRec) : kept (endDirect s d l) = kept s := by
  unfold endDirect
  (repeat' split) <;> first | with_reducible rfl | (simp only [kept_complete, kept_defer]; done) | (with_reducible exact rfl)

theorem kept_directDone (s : State) (d : Nat) (r0 : State → Word) : kept (directDone s d r0) = kept s := by
  simp only [directDone, kept_raise, kept_completeOk, kept_mapChanged]

theorem kept_applyEdits (s : State) (l : List EditRec) (d : Nat) : kept (applyEdits s l d) = kept s := by
  unfold applyEdits
  try simp only [kept_mk, kept_fold, kept_ite, ite_self, eq_self, implies_true, kept_putEdit, kept_directDone]
  all_goals (repeat' (first | split | with_reducible refine (kept_foldl _ _ _ fun t x => ?_).trans ?_))
  all_goals try simp only [kept_mk, kept_fold, kept_ite, ite_self, eq_self, implies_true, kept_putEdit, kept_directDone]
  all_goals (repeat' (first | split | with_reducible refine (kept_foldl _ _ _ fun t x => ?_).trans ?_))
  all_goals first | with_reducible rfl | (simp only [kept_mk, kept_fold, kept_ite, ite_self, eq_self, implies_true, kept_putEdit, kept_directDone, kept_foldl]; done) | rfl

theorem kept_applyTerm (s : State) (w : CfgWords) (d : Nat) : kept (applyTerm s w d) = kept s := by
  simp only [applyTerm, kept_putTerm, kept_directDone]

theorem kept_applyCC (s : State) (w : CfgWords) (d : Nat) : kept (applyCC s w d) = kept s := by
  simp only [applyCC, kept_putCC, kept_directDone]

theorem kept_direct (s : State) (d : Desc) (i : Staged) (reason : Option Nat) (act : DefAct) : kept (direct s d i reason act) = kept s := by
  unfold direct
  (repeat' split) <;> first | with_reducible rfl | (simp only [kept_invalid, kept_defer]; done) | (with_reducible exact rfl)

theorem kept_execTermCfg (d : Nat) (s : State) (dflt : State) : kept ((execTermCfg d s).or dflt) = kept s := by
  simp only [execTermCfg, kept_mk, kept_fold, kept_ite, ite_self, eq_self, implies_true, kept_direct, Out.or]
  (repeat' split) <;> simp only [kept_mk, kept_fold, kept_ite, ite_self, eq_self, implies_true, kept_direct, Out.or]

theorem kept_execTermRelease (d : Nat) (s : State) (dflt : State) : kept ((execTermRelease d s).or dflt) = kept s := by
  simp only [execTermRelease, kept_mk, kept_fold, kept_ite, ite_self, eq_self, implies_true, kept_direct, Out.or]
  (repeat' split) <;> simp only [kept_mk, kept_fold, kept_ite, ite_self, eq_self, implies_true, kept_direct, Out.or]

theorem kept_execCcCfg (d : Nat) (s : State) (dflt : State) : kept ((execCcCfg d s).or dflt) = kept s := by
  simp only [execCcCfg, kept_mk, kept_fold, kept_ite, ite_self, eq_self, implies_true, kept_direct, Out.or]
  (repeat' split) <;> simp only [kept_mk, kept_fold, kept_ite, ite_self, eq_self, implies_true, kept_direct, Out.or]

theorem kept_execCcRelease (d : Nat) (s : State) (dflt : State) : kept ((execCcRelease d s).or dflt) = kept s := by
  simp only [execCcRelease, kept_mk, kept_fold, kept_ite, ite_self, eq_self, implies_true, kept_direct, Out.or]
  (repeat' split) <;> simp only [kept_mk, kept_fold, kept_ite, ite_self, eq_self, implies_true, kept_direct, Out.or]

theorem kept_mapPeek (s : State) : kept (mapPeek s) = kept s := by
  simp only [mapPeek, kept_wr]

theorem kept_hbmWritten (s : State) (a n : Nat) : kept (hbmWritten s a n) = kept s := (rfl)

theorem kept_mainWritten (s : State) (k : Nat) : kept (mainWritten s k) = kept s := by
  simp only [mainWritten, kept_hbmWritten]

theorem kept_mirrorWritten (s : State) (k : Nat) : kept (mirrorWritten s k) = kept s := by
  simp only [mirrorWritten, kept_hbmWritten]

theorem kept_editGth (s : State) (f : GthSt → GthSt) : kept (editGth s f) = kept s := (rfl)

theorem kept_setGslot (s : State) (i : Nat) (g : GSlot) : kept (setGslot s i g) = kept s := by
  simp only [setGslot, kept_editGth]

theorem kept_gthEvent (s : State) (i gid cause : Nat) (d1 : Word) : kept (gthEvent s i gid cause d1) = kept s := by
  simp only [gthEvent, kept_raise]

theorem kept_dequeue (s : State) (i : Nat) : kept (dequeue s i) = kept s := by
  simp only [dequeue, kept_editGth]

theorem kept_jrnWrap (s : State) : kept (jrnWrap s) = kept s := by
  unfold jrnWrap
  try simp only [kept_mk, kept_fold, kept_ite, ite_self, eq_self, implies_true, kept_raise, kept_editGth]
  all_goals (repeat' (first | split | with_reducible refine (kept_foldl _ _ _ fun t x => ?_).trans ?_))
  all_goals try simp only [kept_mk, kept_fold, kept_ite, ite_self, eq_self, implies_true, kept_raise, kept_editGth]
  all_goals (repeat' (first | split | with_reducible refine (kept_foldl _ _ _ fun t x => ?_).trans ?_))
  all_goals first | with_reducible rfl | (simp only [kept_mk, kept_fold, kept_ite, ite_self, eq_self, implies_true, kept_raise, kept_editGth]; done) | rfl

theorem kept_journal (s : State) (words : List Word) (held : Bool) : kept (journal s words held) = kept s := by
  unfold journal
  (repeat' split) <;> first | with_reducible rfl | (simp only [kept_wr, kept_mainWritten, kept_mirrorWritten, kept_editGth, kept_jrnWrap]; done) | (with_reducible exact rfl)

theorem kept_dropUnheld (s : State) (i : Nat) : kept (dropUnheld s i) = kept s := by
  unfold dropUnheld
  (repeat' split) <;> first | with_reducible rfl | (simp only [kept_wr, kept_editGth]; done) | (with_reducible exact rfl)

theorem kept_holdRecord (s : State) (i : Nat) : kept (holdRecord s i) = kept s := by
  unfold holdRecord
  (repeat' split) <;> first | with_reducible rfl | (simp only [kept_mirrorWritten, kept_editGth]; done) | (with_reducible exact rfl)

theorem kept_freeSlot (s : State) (i : Nat) : kept (freeSlot s i) = kept s := by
  simp only [freeSlot, kept_setGslot, kept_dequeue, kept_dropUnheld]

theorem kept_reopen (s : State) (i : Nat) : kept (reopen s i) = kept s := by
  simp only [reopen, kept_setGslot, kept_dequeue, kept_dropUnheld]

theorem kept_discardGather (s : State) (i : Nat) : kept (discardGather s i) = kept s := by
  simp only [discardGather, kept_gthEvent, kept_journal, kept_freeSlot]

theorem kept_fail10 (s : State) (d : Desc) : kept (fail10 s d) = kept s := by
  simp only [fail10, kept_ignored, kept_invalid]

theorem kept_execGatherOpen (d : Nat) (s : State) (dflt : State) : kept ((execGatherOpen d s).or dflt) = kept s := by
  unfold execGatherOpen
  (repeat' split) <;> first | with_reducible rfl | (simp only [kept_completeOk, kept_invalid, kept_setGslot, kept_fail10, Out.or]; done) | (with_reducible exact rfl)

theorem kept_stage (s : State) (d : Desc) (i : Staged) : kept (stage s d i) = kept s := by
  simp only [stage, kept_mk, kept_fold, kept_ite, ite_self, eq_self, implies_true, kept_completeOk, kept_invalid, kept_setGslot, kept_fail10]
  (repeat' split) <;> simp only [kept_mk, kept_fold, kept_ite, ite_self, eq_self, implies_true, kept_completeOk, kept_invalid, kept_setGslot, kept_fail10]

theorem kept_execTermCfgStage (d : Nat) (s : State) (dflt : State) : kept ((execTermCfgStage d s).or dflt) = kept s := by
  unfold execTermCfgStage
  (repeat' split) <;> first | with_reducible rfl | (simp only [kept_stage, Out.or]; done) | (with_reducible exact rfl)

theorem kept_execCcCfgStage (d : Nat) (s : State) (dflt : State) : kept ((execCcCfgStage d s).or dflt) = kept s := by
  unfold execCcCfgStage
  (repeat' split) <;> first | with_reducible rfl | (simp only [kept_stage, Out.or]; done) | (with_reducible exact rfl)

theorem kept_execGatherCommit (d : Nat) (s : State) (dflt : State) : kept ((execGatherCommit d s).or dflt) = kept s := by
  unfold execGatherCommit
  (repeat' split) <;> first | with_reducible rfl | (simp only [kept_editDesc, kept_editGth, kept_setGslot, kept_fail10, Out.or]; done) | (with_reducible exact rfl)

theorem kept_execGatherAbort (d : Nat) (s : State) (dflt : State) : kept ((execGatherAbort d s).or dflt) = kept s := by
  simp only [execGatherAbort, kept_mk, kept_fold, kept_ite, ite_self, eq_self, implies_true, kept_complete, kept_completeOk, kept_gthEvent, kept_journal, kept_freeSlot, kept_fail10, Out.or]
  (repeat' split) <;> simp only [kept_mk, kept_fold, kept_ite, ite_self, eq_self, implies_true, kept_complete, kept_completeOk, kept_gthEvent, kept_journal, kept_freeSlot, kept_fail10, Out.or]

theorem kept_execGatherValidationStart (slot : Fin 16) (s : State) (dflt : State) : kept ((execGatherValidationStart slot s).or dflt) = kept s := by
  unfold execGatherValidationStart
  (repeat' split) <;> first | with_reducible rfl | (simp only [kept_editGth, Out.or]; done) | (with_reducible exact rfl)

theorem kept_checkStructs (outs : List Word) (l : List (Nat × Staged)) (b : State) (f : Option (Nat × Nat)) :
    kept (checkStructs outs l b f).1 = kept b := by
  induction l generalizing b f with
  | nil => rfl
  | cons a r ih =>
    unfold checkStructs
    split <;> simp only [ih, kept_putStruct]

theorem kept_reject (s : State) (i : Nat) (x : Nat × Nat) : kept (reject s i x) = kept s := by
  simp only [reject, kept_mk, kept_fold, kept_ite, ite_self, eq_self, implies_true, kept_complete, kept_gthEvent, kept_journal, kept_freeSlot]
  (repeat' split) <;> simp only [kept_mk, kept_fold, kept_ite, ite_self, eq_self, implies_true, kept_complete, kept_gthEvent, kept_journal, kept_freeSlot]

theorem kept_beginRecord (s : State) (i : Nat) : kept (beginRecord s i) = kept s := by
  simp only [beginRecord, kept_setGslot, kept_journal]

theorem kept_execGatherValidationEnd (slot : Fin 16) (s : State) (dflt : State) : kept ((execGatherValidationEnd slot s).or dflt) = kept s := by
  simp only [execGatherValidationEnd, kept_mk, kept_fold, kept_ite, ite_self, eq_self, implies_true, kept_takeSources, kept_editGth, kept_setGslot, kept_reject, kept_beginRecord, Out.or]
  (repeat' split) <;> simp only [kept_mk, kept_fold, kept_ite, ite_self, eq_self, implies_true, kept_takeSources, kept_editGth, kept_setGslot, kept_reject, kept_beginRecord, Out.or]

theorem kept_execCommitRecordHeld (slot : Fin 16) (uncorr : Bool) (s : State) (dflt : State) : kept ((execCommitRecordHeld slot uncorr s).or dflt) = kept s := by
  simp only [execCommitRecordHeld, kept_mk, kept_fold, kept_ite, ite_self, eq_self, implies_true, kept_raise, kept_setDesc, kept_completeOk, kept_setGslot, kept_gthEvent, kept_holdRecord, kept_beginRecord, Out.or]
  (repeat' split) <;> simp only [kept_mk, kept_fold, kept_ite, ite_self, eq_self, implies_true, kept_raise, kept_setDesc, kept_completeOk, kept_setGslot, kept_gthEvent, kept_holdRecord, kept_beginRecord, Out.or]

theorem kept_startBridges (s : State) : kept (startBridges s) = kept s := by
  simp only [startBridges, kept_editGth]

theorem kept_execBridgeReady (slot : Fin 16) (s : State) (dflt : State) : kept ((execBridgeReady slot s).or dflt) = kept s := by
  unfold execBridgeReady
  (repeat' split) <;> first | with_reducible rfl | (simp only [kept_setGslot, Out.or]; done) | (with_reducible exact rfl)

end Sys2Proof.Machine
end

