-- ==== Sys2Proof/Laws/KeptProt.lean ====
section
/-! SUPPORT. What protection, merging and the guards keep: the memories, the fuse and the commands that wait (`kept`). -/

set_option linter.unusedSimpArgs false
set_option linter.unusedTactic false
set_option linter.unreachableTactic false
set_option linter.unusedVariables false
set_option linter.unnecessarySeqFocus false

namespace Sys2Proof.Machine

theorem kept_decide' (s : State) (k : Nat) : kept (decide' s k) = kept s := by
  simp only [decide', kept_mk, kept_fold, kept_ite, ite_self, eq_self, implies_true, kept_setSel, kept_selEvent]
  (repeat' split) <;> simp only [kept_mk, kept_fold, kept_ite, ite_self, eq_self, implies_true, kept_setSel, kept_selEvent]

theorem kept_applySelections (s : State) (tu : Bool) : kept (applySelections s tu) = kept s := by
  unfold applySelections
  try simp only [kept_mk, kept_fold, kept_ite, ite_self, eq_self, implies_true, kept_setSel, kept_selEvent]
  all_goals (repeat' (first | split | with_reducible refine (kept_foldl _ _ _ fun t x => ?_).trans ?_))
  all_goals try simp only [kept_mk, kept_fold, kept_ite, ite_self, eq_self, implies_true, kept_setSel, kept_selEvent]
  all_goals (repeat' (first | split | with_reducible refine (kept_foldl _ _ _ fun t x => ?_).trans ?_))
  all_goals first | with_reducible rfl | (simp only [kept_mk, kept_fold, kept_ite, ite_self, eq_self, implies_true, kept_setSel, kept_selEvent, kept_foldl]; done) | rfl


theorem kept_decideGroup (s : State) (i : Nat) : kept (decideGroup s i) = kept s := by
  simp only [decideGroup, kept_mk, kept_fold, kept_ite, ite_self, eq_self, implies_true, kept_setGrp, kept_grpEvent]
  (repeat' split) <;> simp only [kept_mk, kept_fold, kept_ite, ite_self, eq_self, implies_true, kept_setGrp, kept_grpEvent]

theorem kept_setFop (s : State) (i n : Nat) (b : Bool) (d1 : Word) : kept (setFop s i n b d1) = kept s := by
  unfold setFop
  (repeat' split) <;> first | with_reducible rfl | (simp only [kept_setGrp, kept_grpEvent]; done) | (with_reducible exact rfl)

theorem kept_groupFrame (s : State) (i : Nat) : kept (groupFrame s i) = kept s := by
  simp only [groupFrame, kept_mk, kept_fold, kept_ite, ite_self, eq_self, implies_true, kept_count, kept_setGrp, kept_grpEvent, kept_unverifyMoved, kept_decideGroup, kept_setFop]
  (repeat' split) <;> simp only [kept_mk, kept_fold, kept_ite, ite_self, eq_self, implies_true, kept_count, kept_setGrp, kept_grpEvent, kept_unverifyMoved, kept_decideGroup, kept_setFop]

theorem kept_groupsFrame (s : State) : kept (groupsFrame s) = kept s := by
  unfold groupsFrame
  try simp only [kept_mk, kept_fold, kept_ite, ite_self, eq_self, implies_true, kept_groupFrame]
  all_goals (repeat' (first | split | with_reducible refine (kept_foldl _ _ _ fun t x => ?_).trans ?_))
  all_goals try simp only [kept_mk, kept_fold, kept_ite, ite_self, eq_self, implies_true, kept_groupFrame]
  all_goals (repeat' (first | split | with_reducible refine (kept_foldl _ _ _ fun t x => ?_).trans ?_))
  all_goals first | with_reducible rfl | (simp only [kept_mk, kept_fold, kept_ite, ite_self, eq_self, implies_true, kept_groupFrame, kept_foldl]; done) | rfl

theorem kept_countTimers (s : State) : kept (countTimers s) = kept s := (rfl)

theorem kept_execHoldoffExpiry (t : ProtTarget) (copy : Nat) (s : State) (dflt : State) : kept ((execHoldoffExpiry t copy s).or dflt) = kept s := by
  unfold execHoldoffExpiry
  (repeat' split) <;> first | with_reducible rfl | (simp only [kept_setSel, kept_setGrp, Out.or]; done) | (with_reducible exact rfl)

theorem kept_execProtectionDecision (t : ProtTarget) (s : State) (dflt : State) : kept ((execProtectionDecision t s).or dflt) = kept s := by
  unfold execProtectionDecision
  (repeat' split) <;> first | with_reducible rfl | (simp only [kept_decide', kept_decideGroup, Out.or]; done) | (with_reducible exact rfl)

theorem kept_execWtrExpiry (t : ProtTarget) (s : State) (dflt : State) : kept ((execWtrExpiry t s).or dflt) = kept s := by
  unfold execWtrExpiry
  (repeat' split) <;> first | with_reducible rfl | (simp only [kept_setSel, kept_setGrp, Out.or]; done) | (with_reducible exact rfl)

theorem kept_applySel (s : State) (w : List Word) (d : Nat) : kept (applySel s w d) = kept s := by
  simp only [applySel, kept_mk, kept_fold, kept_ite, ite_self, eq_self, implies_true, kept_completeOk, kept_setSel, kept_refreshSel]
  (repeat' split) <;> simp only [kept_mk, kept_fold, kept_ite, ite_self, eq_self, implies_true, kept_completeOk, kept_setSel, kept_refreshSel]

theorem kept_selCfg (d : Nat) (remove : Bool) (s : State) : kept (selCfg d remove s) = kept s := by
  unfold selCfg
  (repeat' split) <;> first | with_reducible rfl | (simp only [kept_invalid, kept_defer]; done) | (with_reducible exact rfl)

theorem kept_execSelCfg (d : Nat) (s : State) (dflt : State) : kept ((execSelCfg d s).or dflt) = kept s := by
  simp only [execSelCfg, kept_selCfg, Out.or]

theorem kept_execSelRemove (d : Nat) (s : State) (dflt : State) : kept ((execSelRemove d s).or dflt) = kept s := by
  simp only [execSelRemove, kept_selCfg, Out.or]

theorem kept_cmdDone (s : State) (d outcome : Nat) (frame : Word) : kept (cmdDone s d outcome frame) = kept s := by
  simp only [cmdDone, kept_completeOk]

theorem kept_selCommand (s : State) (d k c : Nat) : kept (selCommand s d k c) = kept s := by
  unfold selCommand
  (repeat' split) <;> first | with_reducible rfl | (simp only [kept_setDesc, kept_invalid, kept_setSel, kept_decide', kept_cmdDone]; done) | (with_reducible exact rfl)

theorem kept_grpCommand (s : State) (d i c ch : Nat) : kept (grpCommand s d i c ch) = kept s := by
  unfold grpCommand
  (repeat' split) <;> first | with_reducible rfl | (simp only [kept_setDesc, kept_invalid, kept_setGrp, kept_decideGroup, kept_cmdDone]; done) | (with_reducible exact rfl)

theorem kept_selCmd (c d : Nat) (s : State) : kept (selCmd c d s) = kept s := by
  simp only [selCmd, kept_mk, kept_fold, kept_ite, ite_self, eq_self, implies_true, kept_invalid, kept_selCommand, kept_grpCommand]
  (repeat' split) <;> simp only [kept_mk, kept_fold, kept_ite, ite_self, eq_self, implies_true, kept_invalid, kept_selCommand, kept_grpCommand]

theorem kept_execSelCmdClear (d : Nat) (s : State) (dflt : State) : kept ((execSelCmdClear d s).or dflt) = kept s := by
  simp only [execSelCmdClear, kept_selCmd, Out.or]

theorem kept_execSelCmdLockout (d : Nat) (s : State) (dflt : State) : kept ((execSelCmdLockout d s).or dflt) = kept s := by
  simp only [execSelCmdLockout, kept_selCmd, Out.or]

theorem kept_execSelCmdFs (d : Nat) (s : State) (dflt : State) : kept ((execSelCmdFs d s).or dflt) = kept s := by
  simp only [execSelCmdFs, kept_selCmd, Out.or]

theorem kept_execSelCmdFsW (d : Nat) (s : State) (dflt : State) : kept ((execSelCmdFsW d s).or dflt) = kept s := by
  simp only [execSelCmdFsW, kept_selCmd, Out.or]

theorem kept_execSelCmdMs (d : Nat) (s : State) (dflt : State) : kept ((execSelCmdMs d s).or dflt) = kept s := by
  simp only [execSelCmdMs, kept_selCmd, Out.or]

theorem kept_execSelCmdMsW (d : Nat) (s : State) (dflt : State) : kept ((execSelCmdMsW d s).or dflt) = kept s := by
  simp only [execSelCmdMsW, kept_selCmd, Out.or]

theorem kept_execSelCmdExer (d : Nat) (s : State) (dflt : State) : kept ((execSelCmdExer d s).or dflt) = kept s := by
  simp only [execSelCmdExer, kept_selCmd, Out.or]

theorem kept_execSelExerEnd (key : Nat) (s : State) (dflt : State) : kept ((execSelExerEnd key s).or dflt) = kept s := by
  unfold execSelExerEnd
  (repeat' split) <;> first | with_reducible rfl | (simp only [kept_setSel, kept_selEvent, kept_decide', Out.or]; done) | (with_reducible exact rfl)

theorem kept_execApsExerEnd (g : Fin 64) (s : State) (dflt : State) : kept ((execApsExerEnd g s).or dflt) = kept s := by
  unfold execApsExerEnd
  (repeat' split) <;> first | with_reducible rfl | (simp only [kept_setGrp, kept_grpEvent, kept_decideGroup, Out.or]; done) | (with_reducible exact rfl)

theorem kept_dropGrp (s : State) (i : Nat) : kept (dropGrp s i) = kept s := by
  unfold dropGrp
  (repeat' split) <;> simp only [kept_mk, kept_fold, kept_count, kept_grpEvent, kept_unverifyMoved]

theorem kept_applyAps (s : State) (w : List Word) (d : Nat) : kept (applyAps s w d) = kept s := by
  simp only [applyAps, kept_mk, kept_fold, kept_ite, ite_self, eq_self, implies_true, kept_completeOk, kept_setGrp, kept_refreshGrp, kept_dropGrp]
  (repeat' split) <;> simp only [kept_mk, kept_fold, kept_ite, ite_self, eq_self, implies_true, kept_completeOk, kept_setGrp, kept_refreshGrp, kept_dropGrp]

theorem kept_apsCfg (d : Nat) (remove : Bool) (s : State) : kept (apsCfg d remove s) = kept s := by
  unfold apsCfg
  (repeat' split) <;> first | with_reducible rfl | (simp only [kept_invalid, kept_defer]; done) | (with_reducible exact rfl)

theorem kept_execApsCfg (d : Nat) (s : State) (dflt : State) : kept ((execApsCfg d s).or dflt) = kept s := by
  simp only [execApsCfg, kept_apsCfg, Out.or]

theorem kept_execApsRemove (d : Nat) (s : State) (dflt : State) : kept ((execApsRemove d s).or dflt) = kept s := by
  simp only [execApsRemove, kept_apsCfg, Out.or]

theorem kept_execApsKAccept (g : Fin 64) (s : State) (dflt : State) : kept ((execApsKAccept g s).or dflt) = kept s := by
  unfold execApsKAccept
  (repeat' split) <;> first | with_reducible rfl | (simp only [kept_setGrp, kept_setFop, Out.or]; done) | (with_reducible exact rfl)

theorem kept_execFopArch (g : Fin 64) (s : State) (dflt : State) : kept ((execFopArch g s).or dflt) = kept s := by
  unfold execFopArch
  (repeat' split) <;> first | with_reducible rfl | (simp only [kept_setGrp, kept_setFop, Out.or]; done) | (with_reducible exact rfl)

theorem kept_execFopMode (g : Fin 64) (s : State) (dflt : State) : kept ((execFopMode g s).or dflt) = kept s := by
  unfold execFopMode
  (repeat' split) <;> first | with_reducible rfl | (simp only [kept_setGrp, kept_setFop, Out.or]; done) | (with_reducible exact rfl)

theorem kept_execFopNoresp (g : Fin 64) (s : State) (dflt : State) : kept ((execFopNoresp g s).or dflt) = kept s := by
  unfold execFopNoresp
  (repeat' split) <;> first | with_reducible rfl | (simp only [kept_setFop, Out.or]; done) | (with_reducible exact rfl)

theorem kept_execFopFlap (g : Fin 64) (s : State) (dflt : State) : kept ((execFopFlap g s).or dflt) = kept s := by
  unfold execFopFlap
  (repeat' split) <;> first | with_reducible rfl | (simp only [kept_setFop, Out.or]; done) | (with_reducible exact rfl)

theorem kept_execFopFlapClear (g : Fin 64) (s : State) (dflt : State) : kept ((execFopFlapClear g s).or dflt) = kept s := by
  unfold execFopFlapClear
  (repeat' split) <;> first | with_reducible rfl | (simp only [kept_setFop, Out.or]; done) | (with_reducible exact rfl)

theorem kept_protPeek (s : State) : kept (protPeek s) = kept s := by
  simp only [protPeek, kept_wr]

theorem kept_setMerge (s : State) (k : Nat) (x : Merge) : kept (setMerge s k x) = kept s := by
  simp only [setMerge, kept_mk, kept_fold, kept_ite, ite_self, eq_self, implies_true, kept_raise]
  (repeat' split) <;> simp only [kept_mk, kept_fold, kept_ite, ite_self, eq_self, implies_true, kept_raise]

theorem kept_timingStep (s : State) (k : Nat) (n : Int) : kept (timingStep s k n) = kept s := by
  unfold timingStep
  (repeat' split) <;> first | with_reducible rfl | (simp only [kept_raise, kept_setMerge]; done) | (with_reducible exact rfl)

theorem kept_enterHold (s : State) (k : Nat) (c : Bool) (n : Int) : kept (enterHold s k c n) = kept s := by
  unfold enterHold
  (repeat' split) <;> first | with_reducible rfl | (simp only [kept_setMerge]; done) | (with_reducible exact rfl)

theorem kept_enterAligned (s : State) (k : Nat) (y : Sel) (x : Merge) (o : Int) : kept (enterAligned s k y x o) = kept s := by
  simp only [enterAligned, kept_setMerge, kept_timingStep]

theorem kept_execMergeAlignReached (key : Nat) (s : State) (dflt : State) : kept ((execMergeAlignReached key s).or dflt) = kept s := by
  unfold execMergeAlignReached
  (repeat' split) <;> first | with_reducible rfl | (simp only [kept_setMerge, kept_timingStep, kept_enterAligned, Out.or]; done) | (with_reducible exact rfl)

theorem kept_markerPair (s : State) (k : Nat) (y : Sel) (x : Merge) (m tw tp : Nat) : kept (markerPair s k y x m tw tp) = kept s := by
  simp only [markerPair, kept_mk, kept_fold, kept_ite, ite_self, eq_self, implies_true, kept_setMerge, kept_enterHold]
  (repeat' split) <;> simp only [kept_mk, kept_fold, kept_ite, ite_self, eq_self, implies_true, kept_setMerge, kept_enterHold]

theorem kept_mergeMarker (s : State) (k : Nat) (c : Bool) (m t : Nat) : kept (mergeMarker s k c m t) = kept s := by
  simp only [mergeMarker, kept_mk, kept_fold, kept_ite, ite_self, eq_self, implies_true, kept_setMerge, kept_markerPair]
  (repeat' split) <;> simp only [kept_mk, kept_fold, kept_ite, ite_self, eq_self, implies_true, kept_setMerge, kept_markerPair]

theorem kept_mergeMarkers (s : State) (a : Word) (m t : Nat) : kept (mergeMarkers s a m t) = kept s := by
  unfold mergeMarkers
  try simp only [kept_mk, kept_fold, kept_ite, ite_self, eq_self, implies_true, kept_mergeMarker]
  all_goals (repeat' (first | split | with_reducible refine (kept_foldl _ _ _ fun t x => ?_).trans ?_))
  all_goals try simp only [kept_mk, kept_fold, kept_ite, ite_self, eq_self, implies_true, kept_mergeMarker]
  all_goals (repeat' (first | split | with_reducible refine (kept_foldl _ _ _ fun t x => ?_).trans ?_))
  all_goals first | with_reducible rfl | (simp only [kept_mk, kept_fold, kept_ite, ite_self, eq_self, implies_true, kept_mergeMarker, kept_foldl]; done) | rfl

theorem kept_windowAcquire (s : State) (k : Nat) (y : Sel) (x : Merge) : kept (windowAcquire s k y x) = kept s := by
  simp only [windowAcquire, kept_mk, kept_fold, kept_ite, ite_self, eq_self, implies_true, kept_setMerge]
  (repeat' split) <;> simp only [kept_mk, kept_fold, kept_ite, ite_self, eq_self, implies_true, kept_setMerge]

theorem kept_windowTrack (s : State) (k : Nat) (y : Sel) (x : Merge) : kept (windowTrack s k y x) = kept s := by
  simp only [windowTrack, kept_mk, kept_fold, kept_ite, ite_self, eq_self, implies_true, kept_unverify, kept_setMerge, kept_enterHold]
  (repeat' split) <;> simp only [kept_mk, kept_fold, kept_ite, ite_self, eq_self, implies_true, kept_unverify, kept_setMerge, kept_enterHold]

theorem kept_execMergeWindowEnd (key : Nat) (s : State) (dflt : State) : kept ((execMergeWindowEnd key s).or dflt) = kept s := by
  simp only [execMergeWindowEnd, kept_mk, kept_fold, kept_ite, ite_self, eq_self, implies_true, kept_windowAcquire, kept_windowTrack, Out.or]
  (repeat' split) <;> simp only [kept_mk, kept_fold, kept_ite, ite_self, eq_self, implies_true, kept_windowAcquire, kept_windowTrack, Out.or]

theorem kept_guardsHold (s : State) (tu : Bool) : kept (guardsHold s tu) = kept s := (rfl)

theorem kept_mergeBlock (s : State) (k : Nat) : kept (mergeBlock s k) = kept s := by
  simp only [mergeBlock, kept_mk, kept_fold, kept_ite, ite_self, eq_self, implies_true, kept_raiseOnce, kept_setMerge]
  (repeat' split) <;> simp only [kept_mk, kept_fold, kept_ite, ite_self, eq_self, implies_true, kept_raiseOnce, kept_setMerge]

theorem kept_mergeFrame (s : State) (k : Nat) : kept (mergeFrame s k) = kept s := by
  unfold mergeFrame
  split
  · exact kept_setMerge _ _ _
  · rfl

theorem kept_mergesFrame (s : State) : kept (mergesFrame s) = kept s := by
  refine (kept_foldl _ _ _ fun t k => ?_).trans rfl
  dsimp only
  (repeat' split) <;> simp only [kept_mergeBlock, kept_mergeFrame]

theorem kept_mergesMultiframe (s : State) : kept (mergesMultiframe s) = kept s := by
  unfold mergesMultiframe
  try simp only [kept_mk, kept_fold, kept_ite, ite_self, eq_self, implies_true, kept_mergeBlock]
  all_goals (repeat' (first | split | with_reducible refine (kept_foldl _ _ _ fun t x => ?_).trans ?_))
  all_goals try simp only [kept_mk, kept_fold, kept_ite, ite_self, eq_self, implies_true, kept_mergeBlock]
  all_goals (repeat' (first | split | with_reducible refine (kept_foldl _ _ _ fun t x => ?_).trans ?_))
  all_goals first | with_reducible rfl | (simp only [kept_mk, kept_fold, kept_ite, ite_self, eq_self, implies_true, kept_mergeBlock, kept_foldl]; done) | rfl

theorem kept_applyMerge (s : State) (w : List Word) (d : Nat) : kept (applyMerge s w d) = kept s := by
  simp only [applyMerge, kept_mk, kept_fold, kept_ite, ite_self, eq_self, implies_true, kept_raise, kept_completeOk, kept_setMerge, kept_mergeFrame]
  (repeat' split) <;> simp only [kept_mk, kept_fold, kept_ite, ite_self, eq_self, implies_true, kept_raise, kept_completeOk, kept_setMerge, kept_mergeFrame]

theorem kept_mergeCfg (d : Nat) (off : Bool) (s : State) : kept (mergeCfg d off s) = kept s := by
  unfold mergeCfg
  (repeat' split) <;> first | with_reducible rfl | (simp only [kept_complete, kept_defer]; done) | (with_reducible exact rfl)

theorem kept_execMergeCfg (d : Nat) (s : State) (dflt : State) : kept ((execMergeCfg d s).or dflt) = kept s := by
  simp only [execMergeCfg, kept_mergeCfg, Out.or]

theorem kept_execMergeOff (d : Nat) (s : State) (dflt : State) : kept ((execMergeOff d s).or dflt) = kept s := by
  simp only [execMergeOff, kept_mergeCfg, Out.or]

theorem kept_mrgPeek (s : State) : kept (mrgPeek s) = kept s := by
  simp only [mrgPeek, kept_wr]

theorem kept_mrgPeekAt (s : State) (tu : Bool) : kept (mrgPeekAt s tu) = kept s := by
  unfold mrgPeekAt
  (repeat' split) <;> first | with_reducible rfl | (simp only [kept_mrgPeek]; done) | (with_reducible exact rfl)

theorem kept_setGuard (s : State) (g : Nat) (x : Guard) : kept (setGuard s g x) = kept s := (rfl)

theorem kept_guardEvent (s : State) (g cause : Nat) (st b21 : Bool) (d1 : Word) : kept (guardEvent s g cause st b21 d1) = kept s := by
  simp only [guardEvent, kept_raise]

theorem kept_guardAlarms (s : State) (g : Nat) : kept (guardAlarms s g) = kept s := by
  simp only [guardAlarms, kept_mk, kept_fold, kept_ite, ite_self, eq_self, implies_true, kept_setGuard, kept_guardEvent]
  (repeat' split) <;> simp only [kept_mk, kept_fold, kept_ite, ite_self, eq_self, implies_true, kept_setGuard, kept_guardEvent]

theorem kept_announceStep (s : State) (g : Nat) (x : Guard) (t : Nat) : kept (announceStep s g x t) = kept s := by
  simp only [announceStep, kept_setGuard, kept_guardEvent]

theorem kept_followTarget (s : State) (g : Nat) : kept (followTarget s g) = kept s := by
  simp only [followTarget, kept_mk, kept_fold, kept_ite, ite_self, eq_self, implies_true, kept_setGuard, kept_announceStep]
  (repeat' split) <;> simp only [kept_mk, kept_fold, kept_ite, ite_self, eq_self, implies_true, kept_setGuard, kept_announceStep]

theorem kept_settleGuard (s : State) (g : Nat) : kept (settleGuard s g) = kept s := by
  simp only [settleGuard, kept_guardAlarms, kept_followTarget]

theorem kept_rttStep (s : State) (g : Nat) (old x : Guard) : kept (rttStep s g old x) = kept s := by
  unfold rttStep
  (repeat' split) <;> first | with_reducible rfl | (simp only [kept_guardEvent]; done) | (with_reducible exact rfl)

theorem kept_declareStep (s : State) (g : Nat) (x : Guard) (d n : Int) : kept (declareStep s g x d n) = kept s := by
  simp only [declareStep, kept_setGuard, kept_guardEvent, kept_settleGuard, kept_rttStep]

theorem kept_guardStamp (s : State) (g : Nat) (x : Guard) (m t : Nat) (steady : Bool) : kept (guardStamp s g x m t steady) = kept s := by
  simp only [guardStamp, kept_mk, kept_fold, kept_ite, ite_self, eq_self, implies_true, kept_count, kept_setGuard, kept_settleGuard, kept_declareStep]
  (repeat' split) <;> simp only [kept_mk, kept_fold, kept_ite, ite_self, eq_self, implies_true, kept_count, kept_setGuard, kept_settleGuard, kept_declareStep]

theorem kept_guardUnit (s : State) (g : Nat) (a : Word) (u : Byte) (t : Nat) : kept (guardUnit s g a u t) = kept s := by
  simp only [guardUnit, kept_mk, kept_fold, kept_ite, ite_self, eq_self, implies_true, kept_setGuard, kept_guardStamp]
  (repeat' split) <;> simp only [kept_mk, kept_fold, kept_ite, ite_self, eq_self, implies_true, kept_setGuard, kept_guardStamp]

theorem kept_execMarkerGroupRx (path : Word) (unit : Byte) (s : State) (dflt : State) : kept ((execMarkerGroupRx path unit s).or dflt) = kept s := by
  simp only [execMarkerGroupRx, kept_mk, kept_fold, kept_ite, ite_self, eq_self, implies_true, kept_markUnit, kept_mergeMarkers, kept_guardUnit, kept_foldl, Out.or]
  (repeat' split) <;> simp only [kept_mk, kept_fold, kept_ite, ite_self, eq_self, implies_true, kept_markUnit, kept_mergeMarkers, kept_guardUnit, kept_foldl, Out.or]

theorem kept_probeBad (s : State) : kept (probeBad s) = kept s := by
  simp only [probeBad, kept_count]

theorem kept_rxTxStamp (s : State) (g : Nat) (x : Guard) (m t : Nat) : kept (rxTxStamp s g x m t) = kept s := by
  simp only [rxTxStamp, kept_mk, kept_fold, kept_ite, ite_self, eq_self, implies_true, kept_setGuard, kept_probeBad]
  (repeat' split) <;> simp only [kept_mk, kept_fold, kept_ite, ite_self, eq_self, implies_true, kept_setGuard, kept_probeBad]

theorem kept_rxRxStamp (s : State) (g : Nat) (x : Guard) (m t : Nat) : kept (rxRxStamp s g x m t) = kept s := by
  simp only [rxRxStamp, kept_mk, kept_fold, kept_ite, ite_self, eq_self, implies_true, kept_setGuard, kept_probeBad]
  (repeat' split) <;> simp only [kept_mk, kept_fold, kept_ite, ite_self, eq_self, implies_true, kept_setGuard, kept_probeBad]

theorem kept_rxStepRec (s : State) (g : Nat) (x : Guard) (n : Int) : kept (rxStepRec s g x n) = kept s := by
  simp only [rxStepRec, kept_setGuard, kept_guardEvent, kept_rttStep]

theorem kept_rxRecord (s : State) (l : Nat) (node : Word) (r : List Byte) : kept (rxRecord s l node r) = kept s := by
  simp only [rxRecord, kept_mk, kept_fold, kept_ite, ite_self, eq_self, implies_true, kept_setGuard, kept_settleGuard, kept_probeBad, kept_rxTxStamp, kept_rxRxStamp, kept_rxStepRec]
  (repeat' split) <;> simp only [kept_mk, kept_fold, kept_ite, ite_self, eq_self, implies_true, kept_setGuard, kept_settleGuard, kept_probeBad, kept_rxTxStamp, kept_rxRxStamp, kept_rxStepRec]

theorem kept_heardPartner (s : State) (g : Nat) (common : Bool) : kept (heardPartner s g common) = kept s := by
  unfold heardPartner
  (repeat' split) <;> first | with_reducible rfl | (simp only [kept_setGuard, kept_guardEvent, kept_settleGuard]; done) | (with_reducible exact rfl)

theorem kept_probeTake (s : State) (l : Nat) (msg : List Byte) : kept (probeTake s l msg) = kept s := by
  simp only [probeTake, kept_mk, kept_fold, kept_ite, ite_self, eq_self, implies_true, kept_raiseOnce, kept_probeBad, kept_rxRecord, kept_heardPartner, kept_foldl]
  (repeat' split) <;> simp only [kept_mk, kept_fold, kept_ite, ite_self, eq_self, implies_true, kept_raiseOnce, kept_probeBad, kept_rxRecord, kept_heardPartner, kept_foldl]

theorem kept_execLeivProbeRx (lane : LaneId) (s : State) (dflt : State) : kept ((execLeivProbeRx lane s).or dflt) = kept s := by
  simp only [execLeivProbeRx, kept_mk, kept_fold, kept_ite, ite_self, eq_self, implies_true, kept_editFrm, kept_probeTake, Out.or]
  (repeat' split) <;> simp only [kept_mk, kept_fold, kept_ite, ite_self, eq_self, implies_true, kept_editFrm, kept_probeTake, Out.or]

theorem kept_takeRecords (s : State) (l : Nat) (gs : List Nat) : kept (takeRecords s l gs).1 = kept s := by
  refine kept_foldl _ _ _ fun t g => ?_
  split
  · exact kept_setGuard _ _ _
  · rfl

theorem kept_probeMessage (s : State) (l : Nat) : kept (probeMessage s l) = kept s := by
  unfold probeMessage
  (repeat' split) <;> simp only [kept_mk, kept_fold, kept_editFrm, kept_takeRecords]

theorem kept_probesSuperframe (s : State) : kept (probesSuperframe s) = kept s := by
  unfold probesSuperframe
  try simp only [kept_mk, kept_fold, kept_ite, ite_self, eq_self, implies_true, kept_editFrm, kept_probeMessage]
  all_goals (repeat' (first | split | with_reducible refine (kept_foldl _ _ _ fun t x => ?_).trans ?_))
  all_goals try simp only [kept_mk, kept_fold, kept_ite, ite_self, eq_self, implies_true, kept_editFrm, kept_probeMessage]
  all_goals (repeat' (first | split | with_reducible refine (kept_foldl _ _ _ fun t x => ?_).trans ?_))
  all_goals first | with_reducible rfl | (simp only [kept_mk, kept_fold, kept_ite, ite_self, eq_self, implies_true, kept_editFrm, kept_probeMessage, kept_foldl]; done) | rfl

theorem kept_shiftLatency (s : State) (g : Nat) (d : Int) : kept (shiftLatency s g d) = kept s := by
  simp only [shiftLatency, kept_editFab]

theorem kept_execGuardAsymClear (g : Fin 4096) (s : State) (dflt : State) : kept ((execGuardAsymClear g s).or dflt) = kept s := by
  unfold execGuardAsymClear
  (repeat' split) <;> first | with_reducible rfl | (simp only [kept_setGuard, kept_guardEvent, Out.or]; done) | (with_reducible exact rfl)

theorem kept_execPartnerLost (g : Fin 4096) (s : State) (dflt : State) : kept ((execPartnerLost g s).or dflt) = kept s := by
  unfold execPartnerLost
  (repeat' split) <;> first | with_reducible rfl | (simp only [kept_setGuard, kept_guardEvent, Out.or]; done) | (with_reducible exact rfl)

theorem kept_stepComp (s : State) (g n : Nat) : kept (stepComp s g n) = kept s := by
  simp only [stepComp, kept_mk, kept_fold, kept_ite, ite_self, eq_self, implies_true, kept_setGuard, kept_guardEvent, kept_guardAlarms, kept_shiftLatency]
  (repeat' split) <;> simp only [kept_mk, kept_fold, kept_ite, ite_self, eq_self, implies_true, kept_setGuard, kept_guardEvent, kept_guardAlarms, kept_shiftLatency]

theorem kept_execGuardCompStepDue (g : Fin 4096) (s : State) (dflt : State) : kept ((execGuardCompStepDue g s).or dflt) = kept s := by
  unfold execGuardCompStepDue
  (repeat' split) <;> first | with_reducible rfl | (simp only [kept_followTarget, kept_stepComp, Out.or]; done) | (with_reducible exact rfl)

theorem kept_execGuardSlewUnit (g : Fin 4096) (s : State) (dflt : State) : kept ((execGuardSlewUnit g s).or dflt) = kept s := by
  simp only [execGuardSlewUnit, kept_mk, kept_fold, kept_ite, ite_self, eq_self, implies_true, kept_editPath, kept_pcount, kept_setGuard, kept_guardAlarms, kept_shiftLatency, kept_foldl, Out.or]
  (repeat' split) <;> simp only [kept_mk, kept_fold, kept_ite, ite_self, eq_self, implies_true, kept_editPath, kept_pcount, kept_setGuard, kept_guardAlarms, kept_shiftLatency, kept_foldl, Out.or]

theorem kept_execGuardPulseHoldEnd (g : Fin 4096) (s : State) (dflt : State) : kept ((execGuardPulseHoldEnd g s).or dflt) = kept s := by
  unfold execGuardPulseHoldEnd
  (repeat' split) <;> first | with_reducible rfl | (simp only [kept_setGuard, Out.or]; done) | (with_reducible exact rfl)

theorem kept_guardsFrame (s : State) : kept (guardsFrame s) = kept s := (rfl)

theorem kept_applyGuard (s : State) (w : List Word) (d : Nat) : kept (applyGuard s w d) = kept s := by
  simp only [applyGuard, kept_mk, kept_fold, kept_ite, ite_self, eq_self, implies_true, kept_completeOk, kept_setGuard, kept_guardEvent, kept_settleGuard, kept_shiftLatency, kept_stepComp]
  (repeat' split) <;> simp only [kept_mk, kept_fold, kept_ite, ite_self, eq_self, implies_true, kept_completeOk, kept_setGuard, kept_guardEvent, kept_settleGuard, kept_shiftLatency, kept_stepComp]

theorem kept_guardCfg (d : Nat) (remove : Bool) (s : State) : kept (guardCfg d remove s) = kept s := by
  unfold guardCfg
  (repeat' split) <;> first | with_reducible rfl | (simp only [kept_complete, kept_defer]; done) | (with_reducible exact rfl)

theorem kept_execGuardCfg (d : Nat) (s : State) (dflt : State) : kept ((execGuardCfg d s).or dflt) = kept s := by
  simp only [execGuardCfg, kept_guardCfg, Out.or]

theorem kept_execGuardRemove (d : Nat) (s : State) (dflt : State) : kept ((execGuardRemove d s).or dflt) = kept s := by
  simp only [execGuardRemove, kept_guardCfg, Out.or]

theorem kept_symPeek (s : State) : kept (symPeek s) = kept s := by
  simp only [symPeek, kept_wr]

end Sys2Proof.Machine
end

