-- ==== Sys2Proof/Laws/KeptCem.lean ====
section
/-! SUPPORT. What Ethernet and pseudowires keep: the memories, the fuse and the commands that wait (`kept`). -/

set_option linter.unusedSimpArgs false
set_option linter.unusedTactic false
set_option linter.unreachableTactic false
set_option linter.unusedVariables false
set_option linter.unnecessarySeqFocus false

namespace Sys2Proof.Machine

theorem kept_ethStart (s : State) (n : Nat) : kept (ethStart s n) = kept s := by
  unfold ethStart
  (repeat' split) <;> first | with_reducible rfl | (simp only [kept_setDesc, kept_editEth]; done) | (with_reducible exact rfl)

theorem kept_rsFollow (old : List Byte) (s : State) (n : Nat) : kept (rsFollow old s n) = kept s := by
  unfold rsFollow
  (repeat' split) <;> first | with_reducible rfl | (simp only [kept_wire]; done) | (with_reducible exact rfl)

theorem kept_execEthLinkChange (lane : LaneId) (block align hiBer localF remoteF : Bool) (deskew : Nat) (s : State) (dflt : State) : kept ((execEthLinkChange lane block align hiBer localF remoteF deskew s).or dflt) = kept s := by
  unfold execEthLinkChange
  try simp only [kept_mk, kept_fold, kept_ite, ite_self, eq_self, implies_true, kept_laneEvent, kept_editEth, kept_ethBit, kept_followLink, kept_ethStart, kept_rsFollow, Out.or]
  all_goals (repeat' (first | split | with_reducible refine (kept_foldl _ _ _ fun t x => ?_).trans ?_))
  all_goals try simp only [kept_mk, kept_fold, kept_ite, ite_self, eq_self, implies_true, kept_laneEvent, kept_editEth, kept_ethBit, kept_followLink, kept_ethStart, kept_rsFollow, Out.or]
  all_goals (repeat' (first | split | with_reducible refine (kept_foldl _ _ _ fun t x => ?_).trans ?_))
  all_goals first | with_reducible rfl | (simp only [kept_mk, kept_fold, kept_ite, ite_self, eq_self, implies_true, kept_laneEvent, kept_editEth, kept_ethBit, kept_followLink, kept_ethStart, kept_rsFollow, Out.or]; done) | rfl

theorem kept_execEthCtlWrite (lane : LaneId) (v : Word) (s : State) (dflt : State) : kept ((execEthCtlWrite lane v s).or dflt) = kept s := by
  unfold execEthCtlWrite
  try simp only [kept_mk, kept_fold, kept_ite, ite_self, eq_self, implies_true, kept_wr, kept_ignoredWrite, kept_domainWrite, Out.or]
  all_goals (repeat' (first | split | with_reducible refine (kept_foldl _ _ _ fun t x => ?_).trans ?_))
  all_goals try simp only [kept_mk, kept_fold, kept_ite, ite_self, eq_self, implies_true, kept_wr, kept_ignoredWrite, kept_domainWrite, Out.or]
  all_goals (repeat' (first | split | with_reducible refine (kept_foldl _ _ _ fun t x => ?_).trans ?_))
  all_goals first | with_reducible rfl | (simp only [kept_mk, kept_fold, kept_ite, ite_self, eq_self, implies_true, kept_wr, kept_ignoredWrite, kept_domainWrite, Out.or]; done) | rfl

theorem kept_setPw (s : State) (n : Nat) (x : Pw) : kept (setPw s n x) = kept s := (rfl)

theorem kept_hostDeliver (s : State) (n : Nat) (f : List Byte) (io : HostIO) : kept (hostDeliver s n f io) = kept s := by
  unfold hostDeliver
  (repeat' split) <;> first | with_reducible rfl | (simp only [kept_setDesc, kept_editEth, kept_dropFrame, kept_deliver]; done) | (with_reducible exact rfl)

theorem kept_execEthRxBuf (d : Nat) (s : State) (dflt : State) : kept ((execEthRxBuf d s).or dflt) = kept s := by
  unfold execEthRxBuf
  (repeat' split) <;> first | with_reducible rfl | (simp only [kept_editDesc, kept_invalid, kept_editEth, Out.or]; done) | (with_reducible exact rfl)

theorem kept_execEthTx (d : Nat) (io : HostIO) (s : State) (dflt : State) :
    kept ((execEthTx d io s).or dflt) = kept s := by
  unfold execEthTx
  simp only [Out.or]
  split
  · rfl
  · rename_i h
    (repeat' split) <;> first
      | (simp only [kept_invalid, kept_invalidOpen]; exact kept_takeInput_eq h)
      | exact (kept_withInput _ _ _ _ _ fun t b => by simp only [kept_ethStart, kept_editEth, kept_editDesc]).trans
          (kept_takeInput_eq h)

theorem kept_ethSend (s : State) (n : Nat) (f : List Byte) : kept (ethSend s n f) = kept s := by
  unfold ethSend
  try simp only [kept_mk, kept_fold, kept_ite, ite_self, eq_self, implies_true, kept_count, kept_wire, kept_editEth]
  all_goals (repeat' (first | split | with_reducible refine (kept_foldl _ _ _ fun t x => ?_).trans ?_))
  all_goals try simp only [kept_mk, kept_fold, kept_ite, ite_self, eq_self, implies_true, kept_count, kept_wire, kept_editEth]
  all_goals (repeat' (first | split | with_reducible refine (kept_foldl _ _ _ fun t x => ?_).trans ?_))
  all_goals first | with_reducible rfl | (simp only [kept_mk, kept_fold, kept_ite, ite_self, eq_self, implies_true, kept_count, kept_wire, kept_editEth]; done) | rfl

theorem kept_pwSend (s : State) (n : Nat) (p : Nat × List Byte) : kept (pwSend s n p) = kept s := by
  unfold pwSend
  (repeat' split) <;> first | with_reducible rfl | (simp only [kept_count, kept_setPw, kept_ethSend]; done) | (with_reducible exact rfl)

theorem kept_pwDue (s : State) (n : Nat) (p : Nat × List Byte) : kept (pwDue s n p) = kept s := by
  unfold pwDue
  (repeat' split) <;> first | with_reducible rfl | (simp only [kept_editEth, kept_pwSend]; done) | (with_reducible exact rfl)

theorem kept_heldLeave (s : State) (n : Nat) : kept (heldLeave s n) = kept s := by
  unfold heldLeave
  try simp only [kept_mk, kept_fold, kept_ite, ite_self, eq_self, implies_true, kept_editEth, kept_pwSend]
  all_goals (repeat' (first | split | with_reducible refine (kept_foldl _ _ _ fun t x => ?_).trans ?_))
  all_goals try simp only [kept_mk, kept_fold, kept_ite, ite_self, eq_self, implies_true, kept_editEth, kept_pwSend]
  all_goals (repeat' (first | split | with_reducible refine (kept_foldl _ _ _ fun t x => ?_).trans ?_))
  all_goals first | with_reducible rfl | (simp only [kept_mk, kept_fold, kept_ite, ite_self, eq_self, implies_true, kept_editEth, kept_pwSend, kept_foldl]; done) | rfl

theorem kept_execEthTxSent (lane : LaneId) (s : State) (dflt : State) : kept ((execEthTxSent lane s).or dflt) = kept s := by
  simp only [execEthTxSent, kept_mk, kept_fold, kept_ite, ite_self, eq_self, implies_true, kept_completeOk, kept_editEth, kept_ethStart, kept_ethSend, kept_heldLeave, Out.or]
  (repeat' split) <;> simp only [kept_mk, kept_fold, kept_ite, ite_self, eq_self, implies_true, kept_completeOk, kept_editEth, kept_ethStart, kept_ethSend, kept_heldLeave, Out.or]

theorem kept_pwEvent (s : State) (n cause : Nat) (st : Bool) (d1 : Word) : kept (pwEvent s n cause st d1) = kept s := by
  simp only [pwEvent, kept_raise]

theorem kept_execPwPacketTx (n : Fin 16384) (s : State) (dflt : State) : kept ((execPwPacketTx n s).or dflt) = kept s := by
  unfold execPwPacketTx
  (repeat' split) <;> first | with_reducible rfl | (simp only [kept_setPw, kept_pwDue, Out.or]; done) | (with_reducible exact rfl)

theorem kept_pwSlip (s : State) (n : Nat) (del : Bool) : kept (pwSlip s n del) = kept s := by
  unfold pwSlip
  (repeat' split) <;> first | with_reducible rfl | (simp only [kept_raiseOnce, kept_setPw]; done) | (with_reducible exact rfl)

theorem kept_placePacket (s : State) (n : Nat) (p : PwPkt) : kept (placePacket s n p) = kept s := by
  simp only [placePacket, kept_mk, kept_fold, kept_ite, ite_self, eq_self, implies_true, kept_refreshConds, kept_setPw, kept_pwEvent, kept_pwSlip]
  (repeat' split) <;> simp only [kept_mk, kept_fold, kept_ite, ite_self, eq_self, implies_true, kept_refreshConds, kept_setPw, kept_pwEvent, kept_pwSlip]

theorem kept_malformed (s : State) (n : Nat) (x : Pw) : kept (malformed s n x) = kept s := by
  simp only [malformed, kept_raiseOnce, kept_setPw]

theorem kept_pwBit (s : State) (n cause : Nat) (b : Bool) : kept (pwBit s n cause b) = kept s := by
  simp only [pwBit, kept_mk, kept_fold, kept_ite, ite_self, eq_self, implies_true, kept_refreshConds, kept_setPw, kept_pwEvent]
  (repeat' split) <;> simp only [kept_mk, kept_fold, kept_ite, ite_self, eq_self, implies_true, kept_refreshConds, kept_setPw, kept_pwEvent]

theorem kept_pwReceive (s : State) (n : Nat) (x : Pw) (f : List Byte) (c : Nat) : kept (pwReceive s n x f c) = kept s := by
  unfold pwReceive
  try simp only [kept_mk, kept_fold, kept_ite, ite_self, eq_self, implies_true, kept_setPw, kept_placePacket, kept_malformed, kept_pwBit]
  all_goals (repeat' (first | split | with_reducible refine (kept_foldl _ _ _ fun t x => ?_).trans ?_))
  all_goals try simp only [kept_mk, kept_fold, kept_ite, ite_self, eq_self, implies_true, kept_setPw, kept_placePacket, kept_malformed, kept_pwBit]
  all_goals (repeat' (first | split | with_reducible refine (kept_foldl _ _ _ fun t x => ?_).trans ?_))
  all_goals first | with_reducible rfl | (simp only [kept_mk, kept_fold, kept_ite, ite_self, eq_self, implies_true, kept_setPw, kept_placePacket, kept_malformed, kept_pwBit]; done) | rfl

theorem kept_ethLoops (s : State) (n : Nat) (balls : List Byte) : kept (ethLoops s n balls) = kept s := by
  unfold ethLoops
  try simp only [kept_mk, kept_fold, kept_ite, ite_self, eq_self, implies_true, kept_wire, kept_editEth]
  all_goals (repeat' (first | split | with_reducible refine (kept_foldl _ _ _ fun t x => ?_).trans ?_))
  all_goals try simp only [kept_mk, kept_fold, kept_ite, ite_self, eq_self, implies_true, kept_wire, kept_editEth]
  all_goals (repeat' (first | split | with_reducible refine (kept_foldl _ _ _ fun t x => ?_).trans ?_))
  all_goals first | with_reducible rfl | (simp only [kept_mk, kept_fold, kept_ite, ite_self, eq_self, implies_true, kept_wire, kept_editEth]; done) | rfl

theorem kept_fecCounts (s : State) (n corr uncorr : Nat) : kept (fecCounts s n corr uncorr) = kept s := by
  unfold fecCounts
  (repeat' split) <;> first | with_reducible rfl | (simp only [kept_count, kept_raiseOnce, kept_editEth]; done) | (with_reducible exact rfl)

theorem kept_macReceive (s : State) (n : Nat) (f : List Byte) (io : HostIO) : kept (macReceive s n f io) = kept s := by
  simp only [macReceive, kept_mk, kept_fold, kept_ite, ite_self, eq_self, implies_true, kept_count, kept_hostDeliver, kept_pwReceive]
  (repeat' split) <;> simp only [kept_mk, kept_fold, kept_ite, ite_self, eq_self, implies_true, kept_count, kept_hostDeliver, kept_pwReceive]

theorem kept_execEthFrameRx (lane : LaneId) (f : EthRx) (io : HostIO) (s : State) (dflt : State) : kept ((execEthFrameRx lane f io s).or dflt) = kept s := by
  simp only [execEthFrameRx, kept_mk, kept_fold, kept_ite, ite_self, eq_self, implies_true, kept_ethLoops, kept_fecCounts, kept_macReceive, Out.or]
  (repeat' split) <;> simp only [kept_mk, kept_fold, kept_ite, ite_self, eq_self, implies_true, kept_ethLoops, kept_fecCounts, kept_macReceive, Out.or]

theorem kept_execPwPlayout (n : Fin 16384) (s : State) (dflt : State) : kept ((execPwPlayout n s).or dflt) = kept s := by
  simp only [execPwPlayout, kept_mk, kept_fold, kept_ite, ite_self, eq_self, implies_true, kept_freeNext, kept_refreshConds, kept_setPw, kept_pwEvent, Out.or]
  (repeat' split) <;> simp only [kept_mk, kept_fold, kept_ite, ite_self, eq_self, implies_true, kept_freeNext, kept_refreshConds, kept_setPw, kept_pwEvent, Out.or]

theorem kept_applyPw (s : State) (w : List Word) (buf : List Byte) (d : Nat) : kept (applyPw s w buf d) = kept s := by
  simp only [applyPw, kept_mk, kept_fold, kept_ite, ite_self, eq_self, implies_true, kept_completeOk, kept_orphanCheck, kept_dropEntries, kept_refreshConds, kept_setPw, kept_pwEvent]
  (repeat' split) <;> simp only [kept_mk, kept_fold, kept_ite, ite_self, eq_self, implies_true, kept_completeOk, kept_orphanCheck, kept_dropEntries, kept_refreshConds, kept_setPw, kept_pwEvent]

theorem kept_pwCfg (s : State) (x : Desc) (buf : List Byte) : kept (pwCfg s x buf) = kept s := by
  unfold pwCfg
  (repeat' split) <;> first | with_reducible rfl | (simp only [kept_complete, kept_defer]; done) | (with_reducible exact rfl)

theorem kept_execPwCfg (d : Nat) (io : HostIO) (s : State) (dflt : State) :
    kept ((execPwCfg d io s).or dflt) = kept s := by
  unfold execPwCfg
  simp only [Out.or]
  split
  · rfl
  · rename_i h
    (repeat' split) <;> first
      | rfl
      | (simp only [kept_invalid, kept_complete, kept_pwCfg]; exact kept_takeInput_eq h)
      | exact (kept_withInput _ _ _ _ _ fun t b => kept_pwCfg t _ b).trans (kept_takeInput_eq h)

theorem kept_execPwRemove (d : Nat) (s : State) (dflt : State) : kept ((execPwRemove d s).or dflt) = kept s := by
  unfold execPwRemove
  (repeat' split) <;> first | with_reducible rfl | (simp only [kept_invalid, kept_pwCfg, Out.or]; done) | (with_reducible exact rfl)

theorem kept_cemPeek (s : State) : kept (cemPeek s) = kept s := by
  simp only [cemPeek, kept_wr]

theorem kept_setOut (s : State) (o : Word) (x : OutSt) : kept (setOut s o x) = kept s := (rfl)

theorem kept_patternContainer (s : State) (o : Word) (pat : Nat) : kept (patternContainer s o pat).2 = kept s := by
  simp only [patternContainer, kept_genBytes]

theorem kept_mapCentre (s : State) (a : Word) (n : Nat) : kept (mapCentre s a n) = kept s := by
  unfold mapCentre
  (repeat' split) <;> first | with_reducible rfl | (simp only [kept_editPath]; done) | (with_reducible exact rfl)

theorem kept_mapTu (s : State) (a : Word) : kept (mapTu s a).2 = kept s := by
  unfold mapTu
  (repeat' split) <;> first | with_reducible rfl | (simp only [kept_editPath, kept_mapCentre]; done) | (with_reducible exact rfl)

theorem kept_carriedOf (s : State) (o : Word) : kept (carriedOf s o).2 = kept s := by
  simp only [carriedOf, kept_mk, kept_fold, kept_ite, ite_self, eq_self, implies_true, kept_patternContainer, kept_mapTu]
  (repeat' split) <;> simp only [kept_mk, kept_fold, kept_ite, ite_self, eq_self, implies_true, kept_patternContainer, kept_mapTu]

theorem kept_stampMarker (s : State) (o : Word) (v : Nat) : kept (stampMarker s o v) = kept s := by
  simp only [stampMarker, kept_mk, kept_fold, kept_ite, ite_self, eq_self, implies_true]
  (repeat' split) <;> simp only [kept_mk, kept_fold, kept_ite, ite_self, eq_self, implies_true]

theorem kept_sendPeriod (s : State) (o : Word) (b : Option LineBlk) (prev data tr : List Byte) : kept (sendPeriod s o b prev data tr) = kept s := by
  simp only [sendPeriod, kept_mk, kept_fold, kept_ite, ite_self, eq_self, implies_true, kept_carry, kept_editPath, kept_setOut, kept_stampMarker]
  (repeat' split) <;> simp only [kept_mk, kept_fold, kept_ite, ite_self, eq_self, implies_true, kept_carry, kept_editPath, kept_setOut, kept_stampMarker]

theorem kept_sendOnes (s : State) (o : Word) (b : Option LineBlk) : kept (sendOnes s o b) = kept s := by
  simp only [sendOnes, kept_carry, kept_setOut]

theorem kept_periodOut (s : State) (o : Word) : kept (periodOut s o) = kept s := by
  simp only [periodOut, kept_mk, kept_fold, kept_ite, ite_self, eq_self, implies_true, kept_setOut, kept_carriedOf, kept_sendPeriod, kept_sendOnes]
  (repeat' split) <;> simp only [kept_mk, kept_fold, kept_ite, ite_self, eq_self, implies_true, kept_setOut, kept_carriedOf, kept_sendPeriod, kept_sendOnes]

theorem kept_multiframeOuts (s : State) : kept (multiframeOuts s) = kept s := by
  unfold multiframeOuts
  try simp only [kept_mk, kept_fold, kept_ite, ite_self, eq_self, implies_true, kept_periodOut]
  all_goals (repeat' (first | split | with_reducible refine (kept_foldl _ _ _ fun t x => ?_).trans ?_))
  all_goals try simp only [kept_mk, kept_fold, kept_ite, ite_self, eq_self, implies_true, kept_periodOut]
  all_goals (repeat' (first | split | with_reducible refine (kept_foldl _ _ _ fun t x => ?_).trans ?_))
  all_goals first | with_reducible rfl | (simp only [kept_mk, kept_fold, kept_ite, ite_self, eq_self, implies_true, kept_periodOut, kept_foldl]; done) | rfl

theorem kept_frameOuts (s : State) : kept (frameOuts s) = kept s := by
  unfold frameOuts
  try simp only [kept_mk, kept_fold, kept_ite, ite_self, eq_self, implies_true, kept_periodOut]
  all_goals (repeat' (first | split | with_reducible refine (kept_foldl _ _ _ fun t x => ?_).trans ?_))
  all_goals try simp only [kept_mk, kept_fold, kept_ite, ite_self, eq_self, implies_true, kept_periodOut]
  all_goals (repeat' (first | split | with_reducible refine (kept_foldl _ _ _ fun t x => ?_).trans ?_))
  all_goals first | with_reducible rfl | (simp only [kept_mk, kept_fold, kept_ite, ite_self, eq_self, implies_true, kept_periodOut, kept_foldl]; done) | rfl

theorem kept_ds0Out (s : State) (o : Word) : kept (ds0Out s o).2 = kept s := by
  unfold ds0Out
  (repeat' split) <;> first | with_reducible rfl | (simp only [kept_genBytes]; done) | (with_reducible exact rfl)

theorem kept_ds0Outs (s : State) (l : List Word) : kept (ds0Outs s l).2 = kept s := by
  have h (l : List Word) (p : List Byte × State) :
      kept (l.foldl (fun p o => ((ds0Out p.2 o).1 :: p.1, (ds0Out p.2 o).2)) p).2 = kept p.2 := by
    induction l generalizing p with
    | nil => rfl
    | cons a r ih => rw [List.foldl_cons, ih, kept_ds0Out]
  exact h l _

theorem kept_portDs0 (s : State) (p : PortId) : kept (portDs0 s p) = kept s := by
  unfold portDs0
  (repeat' split) <;> first | with_reducible rfl | (simp only [kept_portTransmit, kept_portFrame, kept_ds0Outs]; done) | (with_reducible exact rfl)

theorem kept_pwTake (s : State) (n : Nat) (b : List Bool) : kept (pwTake s n b) = kept s := by
  unfold pwTake
  (repeat' split) <;> first | with_reducible rfl | (simp only [kept_setPw]; done) | (with_reducible exact rfl)

theorem kept_mapTake (s : State) (a : Word) (b : List Bool) : kept (mapTake s a b) = kept s := by
  simp only [mapTake, kept_editPath]

theorem kept_termDs0 (s : State) (n : Fin 65536) : kept (termDs0 s n) = kept s := by
  unfold termDs0
  (repeat' split) <;> first | with_reducible rfl | (simp only [kept_editPdh, kept_ds0Outs, kept_pwTake, kept_mapTake]; done) | (with_reducible exact rfl)

theorem kept_pwDs0 (s : State) (n : Nat) : kept (pwDs0 s n) = kept s := by
  simp only [pwDs0, kept_mk, kept_fold, kept_ite, ite_self, eq_self, implies_true, kept_setPw, kept_ds0Out, kept_ds0Outs, kept_pwTake]
  (repeat' split) <;> simp only [kept_mk, kept_fold, kept_ite, ite_self, eq_self, implies_true, kept_setPw, kept_ds0Out, kept_ds0Outs, kept_pwTake]

theorem kept_pwsFrame (s : State) : kept (pwsFrame s) = kept s := (rfl)

theorem kept_ccDeliver (s : State) (k : Nat) (id : Word) : kept (ccDeliver s k id).2 = kept s := by
  unfold ccDeliver
  (repeat' split) <;> first | with_reducible rfl | (simp only [kept_editPath, kept_editPdh, kept_setPw]; done) | (with_reducible exact rfl)

theorem kept_ccAccept (s : State) (k : Nat) (id : Word) (b : List Bool) : kept (ccAccept s k id b) = kept s := by
  simp only [ccAccept, kept_mk, kept_fold, kept_ite, ite_self, eq_self, implies_true, kept_editPdh, kept_portTransmit, kept_pwTake, kept_mapTake, kept_foldl]
  (repeat' split) <;> simp only [kept_mk, kept_fold, kept_ite, ite_self, eq_self, implies_true, kept_editPdh, kept_portTransmit, kept_pwTake, kept_mapTake, kept_foldl]

theorem kept_ccMove (s : State) (c : CC) : kept (ccMove s c) = kept s := by
  simp only [ccMove, kept_ccDeliver, kept_ccAccept]

theorem kept_tierOuts (s : State) : kept (tierOuts s) = kept s := by
  unfold tierOuts
  try simp only [kept_mk, kept_fold, kept_ite, ite_self, eq_self, implies_true, kept_portDs0, kept_termDs0, kept_pwDs0, kept_pwsFrame, kept_ccMove]
  all_goals (repeat' (first | split | with_reducible refine (kept_foldl _ _ _ fun t x => ?_).trans ?_))
  all_goals try simp only [kept_mk, kept_fold, kept_ite, ite_self, eq_self, implies_true, kept_portDs0, kept_termDs0, kept_pwDs0, kept_pwsFrame, kept_ccMove]
  all_goals (repeat' (first | split | with_reducible refine (kept_foldl _ _ _ fun t x => ?_).trans ?_))
  all_goals first | with_reducible rfl | (simp only [kept_mk, kept_fold, kept_ite, ite_self, eq_self, implies_true, kept_portDs0, kept_termDs0, kept_pwDs0, kept_pwsFrame, kept_ccMove, kept_foldl]; done) | rfl

theorem kept_pathLatch (s : State) (a : Word) : kept (pathLatch s a) = kept s := by
  unfold pathLatch
  try simp only [kept_mk, kept_fold, kept_ite, ite_self, eq_self, implies_true, kept_editPath]
  all_goals (repeat' (first | split | with_reducible refine (kept_foldl _ _ _ fun t x => ?_).trans ?_))
  all_goals try simp only [kept_mk, kept_fold, kept_ite, ite_self, eq_self, implies_true, kept_editPath]
  all_goals (repeat' (first | split | with_reducible refine (kept_foldl _ _ _ fun t x => ?_).trans ?_))
  all_goals first | with_reducible rfl | (simp only [kept_mk, kept_fold, kept_ite, ite_self, eq_self, implies_true, kept_editPath]; done) | rfl

theorem kept_feedDs0 (s : State) : kept (feedDs0 s) = kept s := by
  unfold feedDs0
  try simp only [kept_mk, kept_fold, kept_ite, ite_self, eq_self, implies_true, kept_feedMonitors]
  all_goals (repeat' (first | split | with_reducible refine (kept_foldl _ _ _ fun t x => ?_).trans ?_))
  all_goals try simp only [kept_mk, kept_fold, kept_ite, ite_self, eq_self, implies_true, kept_feedMonitors]
  all_goals (repeat' (first | split | with_reducible refine (kept_foldl _ _ _ fun t x => ?_).trans ?_))
  all_goals first | with_reducible rfl | (simp only [kept_mk, kept_fold, kept_ite, ite_self, eq_self, implies_true, kept_feedMonitors, kept_foldl]; done) | rfl

theorem kept_applyDeferred (s : State) (x : Deferred) : kept (applyDeferred s x) = kept s := by
  unfold applyDeferred
  (repeat' split) <;> first | with_reducible rfl | (simp only [kept_completeOk, kept_applyPathCfg, kept_applyEdits, kept_applyTerm, kept_applyCC, kept_applySel, kept_applyAps, kept_applyMerge, kept_applyGuard, kept_applyPw]; done) | (with_reducible exact rfl)

theorem kept_applyNow (s : State) (now rest : List Deferred) : kept (applyNow s now rest) = kept s := by
  unfold applyNow
  try simp only [kept_mk, kept_fold, kept_ite, ite_self, eq_self, implies_true, kept_applyDeferred]
  all_goals (repeat' (first | split | with_reducible refine (kept_foldl _ _ _ fun t x => ?_).trans ?_))
  all_goals try simp only [kept_mk, kept_fold, kept_ite, ite_self, eq_self, implies_true, kept_applyDeferred]
  all_goals (repeat' (first | split | with_reducible refine (kept_foldl _ _ _ fun t x => ?_).trans ?_))
  all_goals first | with_reducible rfl | (simp only [kept_mk, kept_fold, kept_ite, ite_self, eq_self, implies_true, kept_applyDeferred, kept_foldl]; done) | rfl

theorem kept_applyBoundary (s : State) (tu : Bool) : kept (applyBoundary s tu) = kept s := by
  unfold applyBoundary
  try simp only [kept_mk, kept_fold, kept_ite, ite_self, eq_self, implies_true, kept_applyNow]
  all_goals (repeat' (first | split | with_reducible refine (kept_foldl _ _ _ fun t x => ?_).trans ?_))
  all_goals try simp only [kept_mk, kept_fold, kept_ite, ite_self, eq_self, implies_true, kept_applyNow]
  all_goals (repeat' (first | split | with_reducible refine (kept_foldl _ _ _ fun t x => ?_).trans ?_))
  all_goals first | with_reducible rfl | (simp only [kept_mk, kept_fold, kept_ite, ite_self, eq_self, implies_true, kept_applyNow]; done) | rfl

theorem kept_execGatherApply (slot : Fin 16) (s : State) (dflt : State) : kept ((execGatherApply slot s).or dflt) = kept s := by
  unfold execGatherApply
  try simp only [kept_mk, kept_fold, kept_ite, ite_self, eq_self, implies_true, kept_mapChanged, kept_putItems, kept_mapPeek, kept_gthEvent, kept_journal, kept_freeSlot, kept_protPeek, kept_applyBoundary, Out.or]
  all_goals (repeat' (first | split | with_reducible refine (kept_foldl _ _ _ fun t x => ?_).trans ?_))
  all_goals try simp only [kept_mk, kept_fold, kept_ite, ite_self, eq_self, implies_true, kept_mapChanged, kept_putItems, kept_mapPeek, kept_gthEvent, kept_journal, kept_freeSlot, kept_protPeek, kept_applyBoundary, Out.or]
  all_goals (repeat' (first | split | with_reducible refine (kept_foldl _ _ _ fun t x => ?_).trans ?_))
  all_goals first | with_reducible rfl | (simp only [kept_mk, kept_fold, kept_ite, ite_self, eq_self, implies_true, kept_mapChanged, kept_putItems, kept_mapPeek, kept_gthEvent, kept_journal, kept_freeSlot, kept_protPeek, kept_applyBoundary, Out.or]; done) | rfl

end Sys2Proof.Machine
end

