-- ==== Sys2Proof/Laws/KeptTime.lean ====
section
/-! SUPPORT. What timing, monitoring and time of day keep: the memories, the fuse and the commands that wait (`kept`). -/

set_option linter.unusedSimpArgs false
set_option linter.unusedTactic false
set_option linter.unreachableTactic false
set_option linter.unusedVariables false
set_option linter.unnecessarySeqFocus false

namespace Sys2Proof.Machine

theorem kept_editRef (s : State) (r : Nat) (f : RefSt → RefSt) : kept (editRef s r f) = kept s := (rfl)

theorem kept_editDpll (s : State) (d : Nat) (f : DpllSt → DpllSt) : kept (editDpll s d f) = kept s := (rfl)

theorem kept_editFp (s : State) (j : Nat) (f : FpSt → FpSt) : kept (editFp s j f) = kept s := (rfl)

theorem kept_timEvent (s : State) (src cause inst hi : Nat) (d1 : Word) : kept (timEvent s src cause inst hi d1) = kept s := by
  simp only [timEvent, kept_raise]

theorem kept_refreshQl (s : State) (r : Nat) : kept (refreshQl s r) = kept s := by
  unfold refreshQl
  try simp only [kept_mk, kept_fold, kept_ite, ite_self, eq_self, implies_true, kept_fset, kept_timEvent]
  all_goals (repeat' (first | split | with_reducible refine (kept_foldl _ _ _ fun t x => ?_).trans ?_))
  all_goals try simp only [kept_mk, kept_fold, kept_ite, ite_self, eq_self, implies_true, kept_fset, kept_timEvent]
  all_goals (repeat' (first | split | with_reducible refine (kept_foldl _ _ _ fun t x => ?_).trans ?_))
  all_goals first | with_reducible rfl | (simp only [kept_mk, kept_fold, kept_ite, ite_self, eq_self, implies_true, kept_fset, kept_timEvent]; done) | rfl

theorem kept_showRef (s : State) (r : Nat) : kept (showRef s r) = kept s := by
  simp only [showRef, kept_wr, kept_foldl]

theorem kept_showClk (s : State) : kept (showClk s) = kept s := by
  unfold showClk
  try simp only [kept_mk, kept_fold, kept_ite, ite_self, eq_self, implies_true, kept_wire]
  all_goals (repeat' (first | split | with_reducible refine (kept_foldl _ _ _ fun t x => ?_).trans ?_))
  all_goals try simp only [kept_mk, kept_fold, kept_ite, ite_self, eq_self, implies_true, kept_wire]
  all_goals (repeat' (first | split | with_reducible refine (kept_foldl _ _ _ fun t x => ?_).trans ?_))
  all_goals first | with_reducible rfl | (simp only [kept_mk, kept_fold, kept_ite, ite_self, eq_self, implies_true, kept_wire, kept_foldl]; done) | rfl

theorem kept_showTim (s : State) : kept (showTim s) = kept s := by
  unfold showTim
  try simp only [kept_mk, kept_fold, kept_ite, ite_self, eq_self, implies_true, kept_fset, kept_refreshQl, kept_showRef, kept_showClk]
  all_goals (repeat' (first | split | with_reducible refine (kept_foldl _ _ _ fun t x => ?_).trans ?_))
  all_goals try simp only [kept_mk, kept_fold, kept_ite, ite_self, eq_self, implies_true, kept_fset, kept_refreshQl, kept_showRef, kept_showClk]
  all_goals (repeat' (first | split | with_reducible refine (kept_foldl _ _ _ fun t x => ?_).trans ?_))
  all_goals first | with_reducible rfl | (simp only [kept_mk, kept_fold, kept_ite, ite_self, eq_self, implies_true, kept_fset, kept_refreshQl, kept_showRef, kept_showClk, kept_foldl]; done) | rfl

theorem kept_markUnclean (s : State) (r n : Nat) : kept (markUnclean s r n) = kept s := by
  unfold markUnclean
  try simp only [kept_mk, kept_fold, kept_ite, ite_self, eq_self, implies_true, kept_editDpll]
  all_goals (repeat' (first | split | with_reducible refine (kept_foldl _ _ _ fun t x => ?_).trans ?_))
  all_goals try simp only [kept_mk, kept_fold, kept_ite, ite_self, eq_self, implies_true, kept_editDpll]
  all_goals (repeat' (first | split | with_reducible refine (kept_foldl _ _ _ fun t x => ?_).trans ?_))
  all_goals first | with_reducible rfl | (simp only [kept_mk, kept_fold, kept_ite, ite_self, eq_self, implies_true, kept_editDpll, kept_foldl]; done) | rfl

theorem kept_breakSecond (s : State) (r : Nat) : kept (breakSecond s r) = kept s := by
  unfold breakSecond
  try simp only [kept_mk, kept_fold, kept_ite, ite_self, eq_self, implies_true, kept_editDpll]
  all_goals (repeat' (first | split | with_reducible refine (kept_foldl _ _ _ fun t x => ?_).trans ?_))
  all_goals try simp only [kept_mk, kept_fold, kept_ite, ite_self, eq_self, implies_true, kept_editDpll]
  all_goals (repeat' (first | split | with_reducible refine (kept_foldl _ _ _ fun t x => ?_).trans ?_))
  all_goals first | with_reducible rfl | (simp only [kept_mk, kept_fold, kept_ite, ite_self, eq_self, implies_true, kept_editDpll, kept_foldl]; done) | rfl

theorem kept_setRefState (s : State) (r st : Nat) : kept (setRefState s r st) = kept s := by
  unfold setRefState
  (repeat' split) <;> first | with_reducible rfl | (simp only [kept_fset, kept_editRef, kept_timEvent, kept_markUnclean, kept_breakSecond]; done) | (with_reducible exact rfl)

theorem kept_loseRef (s : State) (r : Nat) : kept (loseRef s r) = kept s := by
  unfold loseRef
  try simp only [kept_mk, kept_fold, kept_ite, ite_self, eq_self, implies_true, kept_wr, kept_bset, kept_editRef, kept_editDpll, kept_markUnclean, kept_setRefState]
  all_goals (repeat' (first | split | with_reducible refine (kept_foldl _ _ _ fun t x => ?_).trans ?_))
  all_goals try simp only [kept_mk, kept_fold, kept_ite, ite_self, eq_self, implies_true, kept_wr, kept_bset, kept_editRef, kept_editDpll, kept_markUnclean, kept_setRefState]
  all_goals (repeat' (first | split | with_reducible refine (kept_foldl _ _ _ fun t x => ?_).trans ?_))
  all_goals first | with_reducible rfl | (simp only [kept_mk, kept_fold, kept_ite, ite_self, eq_self, implies_true, kept_wr, kept_bset, kept_editRef, kept_editDpll, kept_markUnclean, kept_setRefState, kept_foldl]; done) | rfl

theorem kept_refStep (s : State) (r : Nat) : kept (refStep s r) = kept s := by
  simp only [refStep, kept_mk, kept_fold, kept_ite, ite_self, eq_self, implies_true, kept_editRef, kept_markUnclean, kept_setRefState]
  (repeat' split) <;> simp only [kept_mk, kept_fold, kept_ite, ite_self, eq_self, implies_true, kept_editRef, kept_markUnclean, kept_setRefState]

theorem kept_thaw (s : State) : kept (thaw s) = kept s := by
  unfold thaw
  try simp only [kept_mk, kept_fold, kept_ite, ite_self, eq_self, implies_true]
  all_goals (repeat' (first | split | with_reducible refine (kept_foldl _ _ _ fun t x => ?_).trans ?_))
  all_goals try simp only [kept_mk, kept_fold, kept_ite, ite_self, eq_self, implies_true]
  all_goals (repeat' (first | split | with_reducible refine (kept_foldl _ _ _ fun t x => ?_).trans ?_))
  all_goals first | with_reducible rfl | (simp only [kept_mk, kept_fold, kept_ite, ite_self, eq_self, implies_true]; done) | rfl

theorem kept_execRefMeasure (r : Fin 24) (ofs : Int) (s : State) (dflt : State) : kept ((execRefMeasure r ofs s).or dflt) = kept s := by
  unfold execRefMeasure
  try simp only [kept_mk, kept_fold, kept_ite, ite_self, eq_self, implies_true, kept_wr, kept_editRef, kept_showTim, kept_refStep, kept_thaw, Out.or]
  all_goals (repeat' (first | split | with_reducible refine (kept_foldl _ _ _ fun t x => ?_).trans ?_))
  all_goals try simp only [kept_mk, kept_fold, kept_ite, ite_self, eq_self, implies_true, kept_wr, kept_editRef, kept_showTim, kept_refStep, kept_thaw, Out.or]
  all_goals (repeat' (first | split | with_reducible refine (kept_foldl _ _ _ fun t x => ?_).trans ?_))
  all_goals first | with_reducible rfl | (simp only [kept_mk, kept_fold, kept_ite, ite_self, eq_self, implies_true, kept_wr, kept_editRef, kept_showTim, kept_refStep, kept_thaw, Out.or]; done) | rfl

theorem kept_execRefActivityLoss (r : Fin 24) (s : State) (dflt : State) : kept ((execRefActivityLoss r s).or dflt) = kept s := by
  unfold execRefActivityLoss
  (repeat' split) <;> first | with_reducible rfl | (simp only [kept_showTim, kept_loseRef, Out.or]; done) | (with_reducible exact rfl)

theorem kept_execRefActivityRegain (r : Fin 24) (s : State) (dflt : State) : kept ((execRefActivityRegain r s).or dflt) = kept s := by
  unfold execRefActivityRegain
  (repeat' split) <;> first | with_reducible rfl | (simp only [kept_bset, kept_showTim, Out.or]; done) | (with_reducible exact rfl)

theorem kept_endWait (s : State) (r : Nat) : kept (endWait s r) = kept s := by
  unfold endWait
  (repeat' split) <;> first | with_reducible rfl | (simp only [kept_setRefState]; done) | (with_reducible exact rfl)

theorem kept_execRefWtrExpiry (r : Fin 24) (s : State) (dflt : State) : kept ((execRefWtrExpiry r s).or dflt) = kept s := by
  unfold execRefWtrExpiry
  (repeat' split) <;> first | with_reducible rfl | (simp only [kept_showTim, kept_endWait, Out.or]; done) | (with_reducible exact rfl)

theorem kept_showVote (s : State) (d : Nat) (e top : List Nat) : kept (showVote s d e top) = kept s := by
  unfold showVote
  try simp only [kept_mk, kept_fold, kept_ite, ite_self, eq_self, implies_true, kept_bset, kept_editDpll, kept_timEvent]
  all_goals (repeat' (first | split | with_reducible refine (kept_foldl _ _ _ fun t x => ?_).trans ?_))
  all_goals try simp only [kept_mk, kept_fold, kept_ite, ite_self, eq_self, implies_true, kept_bset, kept_editDpll, kept_timEvent]
  all_goals (repeat' (first | split | with_reducible refine (kept_foldl _ _ _ fun t x => ?_).trans ?_))
  all_goals first | with_reducible rfl | (simp only [kept_mk, kept_fold, kept_ite, ite_self, eq_self, implies_true, kept_bset, kept_editDpll, kept_timEvent, kept_foldl]; done) | rfl

theorem kept_setDpllState (s : State) (d st : Nat) : kept (setDpllState s d st) = kept s := by
  unfold setDpllState
  (repeat' split) <;> first | with_reducible rfl | (simp only [kept_fset, kept_editDpll, kept_timEvent]; done) | (with_reducible exact rfl)

theorem kept_setDpllRef (s : State) (d new reason : Nat) : kept (setDpllRef s d new reason) = kept s := by
  unfold setDpllRef
  try simp only [kept_mk, kept_fold, kept_ite, ite_self, eq_self, implies_true, kept_fset, kept_editDpll, kept_timEvent]
  all_goals (repeat' (first | split | with_reducible refine (kept_foldl _ _ _ fun t x => ?_).trans ?_))
  all_goals try simp only [kept_mk, kept_fold, kept_ite, ite_self, eq_self, implies_true, kept_fset, kept_editDpll, kept_timEvent]
  all_goals (repeat' (first | split | with_reducible refine (kept_foldl _ _ _ fun t x => ?_).trans ?_))
  all_goals first | with_reducible rfl | (simp only [kept_mk, kept_fold, kept_ite, ite_self, eq_self, implies_true, kept_fset, kept_editDpll, kept_timEvent]; done) | rfl

theorem kept_startLehr (s : State) (d : Nat) (real : Bool) (phase : Int) : kept (startLehr s d real phase) = kept s := by
  simp only [startLehr, kept_wr, kept_bset, kept_editDpll]

theorem kept_enterHoldover (s : State) (d reason : Nat) (backup : Bool) : kept (enterHoldover s d reason backup) = kept s := by
  simp only [enterHoldover, kept_mk, kept_fold, kept_ite, ite_self, eq_self, implies_true, kept_wr, kept_bset, kept_timEvent, kept_setDpllState, kept_setDpllRef, kept_startLehr]
  (repeat' split) <;> simp only [kept_mk, kept_fold, kept_ite, ite_self, eq_self, implies_true, kept_wr, kept_bset, kept_timEvent, kept_setDpllState, kept_setDpllRef, kept_startLehr]

theorem kept_enterFree (s : State) (d : Nat) : kept (enterFree s d) = kept s := by
  simp only [enterFree, kept_bset, kept_editDpll, kept_setDpllState, kept_setDpllRef, kept_startLehr]

theorem kept_enterRef (s : State) (d r reason : Nat) (phase : Int) : kept (enterRef s d r reason phase) = kept s := by
  simp only [enterRef, kept_editDpll, kept_setDpllState, kept_setDpllRef, kept_startLehr]

theorem kept_decideAuto (s : State) (d : Nat) (phase : Int) : kept (decideAuto s d phase) = kept s := by
  unfold decideAuto
  try simp only [kept_mk, kept_fold, kept_ite, ite_self, eq_self, implies_true, kept_editDpll, kept_showVote, kept_enterHoldover, kept_enterRef]
  all_goals (repeat' (first | split | with_reducible refine (kept_foldl _ _ _ fun t x => ?_).trans ?_))
  all_goals try simp only [kept_mk, kept_fold, kept_ite, ite_self, eq_self, implies_true, kept_editDpll, kept_showVote, kept_enterHoldover, kept_enterRef]
  all_goals (repeat' (first | split | with_reducible refine (kept_foldl _ _ _ fun t x => ?_).trans ?_))
  all_goals first | with_reducible rfl | (simp only [kept_mk, kept_fold, kept_ite, ite_self, eq_self, implies_true, kept_editDpll, kept_showVote, kept_enterHoldover, kept_enterRef]; done) | rfl

theorem kept_decide4 (s : State) (d : Nat) (phase : Int) : kept (decide4 s d phase) = kept s := by
  unfold decide4
  try simp only [kept_mk, kept_fold, kept_ite, ite_self, eq_self, implies_true, kept_editDpll, kept_showVote, kept_enterHoldover, kept_enterFree, kept_enterRef, kept_decideAuto]
  all_goals (repeat' (first | split | with_reducible refine (kept_foldl _ _ _ fun t x => ?_).trans ?_))
  all_goals try simp only [kept_mk, kept_fold, kept_ite, ite_self, eq_self, implies_true, kept_editDpll, kept_showVote, kept_enterHoldover, kept_enterFree, kept_enterRef, kept_decideAuto]
  all_goals (repeat' (first | split | with_reducible refine (kept_foldl _ _ _ fun t x => ?_).trans ?_))
  all_goals first | with_reducible rfl | (simp only [kept_mk, kept_fold, kept_ite, ite_self, eq_self, implies_true, kept_editDpll, kept_showVote, kept_enterHoldover, kept_enterFree, kept_enterRef, kept_decideAuto]; done) | rfl

theorem kept_decideFrozen (s : State) (d : Nat) : kept (decideFrozen s d) = kept s := by
  unfold decideFrozen
  (repeat' split) <;> first | with_reducible rfl | (simp only [kept_enterHoldover]; done) | (with_reducible exact rfl)

theorem kept_takeTim (s : State) : kept (takeTim s) = kept s := by
  unfold takeTim
  try simp only [kept_mk, kept_fold, kept_ite, ite_self, eq_self, implies_true, kept_editRef]
  all_goals (repeat' (first | split | with_reducible refine (kept_foldl _ _ _ fun t x => ?_).trans ?_))
  all_goals try simp only [kept_mk, kept_fold, kept_ite, ite_self, eq_self, implies_true, kept_editRef]
  all_goals (repeat' (first | split | with_reducible refine (kept_foldl _ _ _ fun t x => ?_).trans ?_))
  all_goals first | with_reducible rfl | (simp only [kept_mk, kept_fold, kept_ite, ite_self, eq_self, implies_true, kept_editRef, kept_foldl]; done) | rfl

theorem kept_dpllsHold (s : State) : kept (dpllsHold s) = kept s := by
  unfold dpllsHold
  try simp only [kept_mk, kept_fold, kept_ite, ite_self, eq_self, implies_true, kept_showTim, kept_enterHoldover]
  all_goals (repeat' (first | split | with_reducible refine (kept_foldl _ _ _ fun t x => ?_).trans ?_))
  all_goals try simp only [kept_mk, kept_fold, kept_ite, ite_self, eq_self, implies_true, kept_showTim, kept_enterHoldover]
  all_goals (repeat' (first | split | with_reducible refine (kept_foldl _ _ _ fun t x => ?_).trans ?_))
  all_goals first | with_reducible rfl | (simp only [kept_mk, kept_fold, kept_ite, ite_self, eq_self, implies_true, kept_showTim, kept_enterHoldover, kept_foldl]; done) | rfl

theorem kept_execDpllDecision (d : Fin 4) (phase : Int) (s : State) (dflt : State) : kept ((execDpllDecision d phase s).or dflt) = kept s := by
  unfold execDpllDecision
  try simp only [kept_mk, kept_fold, kept_ite, ite_self, eq_self, implies_true, kept_wr, kept_editDpll, kept_refreshQl, kept_showTim, kept_decide4, kept_decideFrozen, kept_takeTim, Out.or]
  all_goals (repeat' (first | split | with_reducible refine (kept_foldl _ _ _ fun t x => ?_).trans ?_))
  all_goals try simp only [kept_mk, kept_fold, kept_ite, ite_self, eq_self, implies_true, kept_wr, kept_editDpll, kept_refreshQl, kept_showTim, kept_decide4, kept_decideFrozen, kept_takeTim, Out.or]
  all_goals (repeat' (first | split | with_reducible refine (kept_foldl _ _ _ fun t x => ?_).trans ?_))
  all_goals first | with_reducible rfl | (simp only [kept_mk, kept_fold, kept_ite, ite_self, eq_self, implies_true, kept_wr, kept_editDpll, kept_refreshQl, kept_showTim, kept_decide4, kept_decideFrozen, kept_takeTim, kept_foldl, Out.or]; done) | rfl

theorem kept_execDpllLockReached (d : Fin 4) (s : State) (dflt : State) : kept ((execDpllLockReached d s).or dflt) = kept s := by
  unfold execDpllLockReached
  (repeat' split) <;> first | with_reducible rfl | (simp only [kept_setDpllState, Out.or]; done) | (with_reducible exact rfl)

theorem kept_execLehrEnd (d : Fin 4) (moved : Int) (s : State) (dflt : State) : kept ((execLehrEnd d moved s).or dflt) = kept s := by
  unfold execLehrEnd
  (repeat' split) <;> first | with_reducible rfl | (simp only [kept_wr, kept_bset, kept_timEvent, Out.or]; done) | (with_reducible exact rfl)

theorem kept_execDpllHistorySample (d : Fin 4) (freq : Int) (s : State) (dflt : State) : kept ((execDpllHistorySample d freq s).or dflt) = kept s := by
  unfold execDpllHistorySample
  try simp only [kept_mk, kept_fold, kept_ite, ite_self, eq_self, implies_true, kept_wr, kept_editDpll, kept_showTim, kept_thaw, Out.or]
  all_goals (repeat' (first | split | with_reducible refine (kept_foldl _ _ _ fun t x => ?_).trans ?_))
  all_goals try simp only [kept_mk, kept_fold, kept_ite, ite_self, eq_self, implies_true, kept_wr, kept_editDpll, kept_showTim, kept_thaw, Out.or]
  all_goals (repeat' (first | split | with_reducible refine (kept_foldl _ _ _ fun t x => ?_).trans ?_))
  all_goals first | with_reducible rfl | (simp only [kept_mk, kept_fold, kept_ite, ite_self, eq_self, implies_true, kept_wr, kept_editDpll, kept_showTim, kept_thaw, Out.or]; done) | rfl

theorem kept_oscFail (s : State) (b : Bool) : kept (oscFail s b) = kept s := by
  unfold oscFail
  (repeat' split) <;> first | with_reducible rfl | (simp only [kept_bset, kept_timEvent]; done) | (with_reducible exact rfl)

theorem kept_execOscinStop (s : State) (dflt : State) : kept ((execOscinStop s).or dflt) = kept s := by
  simp only [execOscinStop, kept_mk, kept_fold, kept_showTim, kept_oscFail, Out.or]

theorem kept_execOscinReturn (s : State) (dflt : State) : kept ((execOscinReturn s).or dflt) = kept s := by
  simp only [execOscinReturn, kept_oscFail, Out.or]

theorem kept_execTimRefCfgWrite (r : Fin 24) (v : Word) (s : State) (dflt : State) : kept ((execTimRefCfgWrite r v s).or dflt) = kept s := by
  unfold execTimRefCfgWrite
  try simp only [kept_mk, kept_fold, kept_ite, ite_self, eq_self, implies_true, kept_wr, kept_ignoredWrite, kept_hostWrite, kept_showTim, kept_loseRef, Out.or]
  all_goals (repeat' (first | split | with_reducible refine (kept_foldl _ _ _ fun t x => ?_).trans ?_))
  all_goals try simp only [kept_mk, kept_fold, kept_ite, ite_self, eq_self, implies_true, kept_wr, kept_ignoredWrite, kept_hostWrite, kept_showTim, kept_loseRef, Out.or]
  all_goals (repeat' (first | split | with_reducible refine (kept_foldl _ _ _ fun t x => ?_).trans ?_))
  all_goals first | with_reducible rfl | (simp only [kept_mk, kept_fold, kept_ite, ite_self, eq_self, implies_true, kept_wr, kept_ignoredWrite, kept_hostWrite, kept_showTim, kept_loseRef, Out.or]; done) | rfl

theorem kept_execDpllCtlWrite (d : Fin 4) (reg : Fin 6) (v : Word) (s : State) (dflt : State) : kept ((execDpllCtlWrite d reg v s).or dflt) = kept s := by
  unfold execDpllCtlWrite
  try simp only [kept_mk, kept_fold, kept_ite, ite_self, eq_self, implies_true, kept_wr, kept_ignoredWrite, kept_hostWrite, kept_editDpll, Out.or]
  all_goals (repeat' (first | split | with_reducible refine (kept_foldl _ _ _ fun t x => ?_).trans ?_))
  all_goals try simp only [kept_mk, kept_fold, kept_ite, ite_self, eq_self, implies_true, kept_wr, kept_ignoredWrite, kept_hostWrite, kept_editDpll, Out.or]
  all_goals (repeat' (first | split | with_reducible refine (kept_foldl _ _ _ fun t x => ?_).trans ?_))
  all_goals first | with_reducible rfl | (simp only [kept_mk, kept_fold, kept_ite, ite_self, eq_self, implies_true, kept_wr, kept_ignoredWrite, kept_hostWrite, kept_editDpll, Out.or]; done) | rfl

theorem kept_takeHeel (s : State) (j : Nat) (p : Int) (once : Bool) : kept (takeHeel s j p once) = kept s := by
  simp only [takeHeel, kept_wr, kept_editFp, kept_timEvent]

theorem kept_execFpoutCtlWrite (j : Fin 4) (v : Word) (at_ : Int) (s : State) (dflt : State) : kept ((execFpoutCtlWrite j v at_ s).or dflt) = kept s := by
  unfold execFpoutCtlWrite
  try simp only [kept_mk, kept_fold, kept_ite, ite_self, eq_self, implies_true, kept_wr, kept_bset, kept_ignoredWrite, kept_hostWrite, kept_takeHeel, Out.or]
  all_goals (repeat' (first | split | with_reducible refine (kept_foldl _ _ _ fun t x => ?_).trans ?_))
  all_goals try simp only [kept_mk, kept_fold, kept_ite, ite_self, eq_self, implies_true, kept_wr, kept_bset, kept_ignoredWrite, kept_hostWrite, kept_takeHeel, Out.or]
  all_goals (repeat' (first | split | with_reducible refine (kept_foldl _ _ _ fun t x => ?_).trans ?_))
  all_goals first | with_reducible rfl | (simp only [kept_mk, kept_fold, kept_ite, ite_self, eq_self, implies_true, kept_wr, kept_bset, kept_ignoredWrite, kept_hostWrite, kept_takeHeel, Out.or]; done) | rfl

theorem kept_execFpoutReheel (j : Fin 4) (at_ : Int) (s : State) (dflt : State) : kept ((execFpoutReheel j at_ s).or dflt) = kept s := by
  unfold execFpoutReheel
  try simp only [kept_mk, kept_fold, kept_ite, ite_self, eq_self, implies_true, kept_hostWrite, kept_takeHeel, Out.or]
  all_goals (repeat' (first | split | with_reducible refine (kept_foldl _ _ _ fun t x => ?_).trans ?_))
  all_goals try simp only [kept_mk, kept_fold, kept_ite, ite_self, eq_self, implies_true, kept_hostWrite, kept_takeHeel, Out.or]
  all_goals (repeat' (first | split | with_reducible refine (kept_foldl _ _ _ fun t x => ?_).trans ?_))
  all_goals first | with_reducible rfl | (simp only [kept_mk, kept_fold, kept_ite, ite_self, eq_self, implies_true, kept_hostWrite, kept_takeHeel, Out.or]; done) | rfl

theorem kept_fpHeelWrite (s : State) (j : Nat) (v : Word) : kept (fpHeelWrite s j v) = kept s := by
  unfold fpHeelWrite
  try simp only [kept_mk, kept_fold, kept_ite, ite_self, eq_self, implies_true, kept_wr, kept_ignoredWrite, kept_takeHeel]
  all_goals (repeat' (first | split | with_reducible refine (kept_foldl _ _ _ fun t x => ?_).trans ?_))
  all_goals try simp only [kept_mk, kept_fold, kept_ite, ite_self, eq_self, implies_true, kept_wr, kept_ignoredWrite, kept_takeHeel]
  all_goals (repeat' (first | split | with_reducible refine (kept_foldl _ _ _ fun t x => ?_).trans ?_))
  all_goals first | with_reducible rfl | (simp only [kept_mk, kept_fold, kept_ite, ite_self, eq_self, implies_true, kept_wr, kept_ignoredWrite, kept_takeHeel]; done) | rfl

theorem kept_setHeelLost (s : State) (j : Nat) (b : Bool) : kept (setHeelLost s j b) = kept s := by
  unfold setHeelLost
  (repeat' split) <;> first | with_reducible rfl | (simp only [kept_bset, kept_timEvent]; done) | (with_reducible exact rfl)

theorem kept_execHeelSourcePulse (j : Fin 4) (dev : Int) (s : State) (dflt : State) : kept ((execHeelSourcePulse j dev s).or dflt) = kept s := by
  unfold execHeelSourcePulse
  try simp only [kept_mk, kept_fold, kept_ite, ite_self, eq_self, implies_true, kept_editFp, kept_takeHeel, kept_setHeelLost, Out.or]
  all_goals (repeat' (first | split | with_reducible refine (kept_foldl _ _ _ fun t x => ?_).trans ?_))
  all_goals try simp only [kept_mk, kept_fold, kept_ite, ite_self, eq_self, implies_true, kept_editFp, kept_takeHeel, kept_setHeelLost, Out.or]
  all_goals (repeat' (first | split | with_reducible refine (kept_foldl _ _ _ fun t x => ?_).trans ?_))
  all_goals first | with_reducible rfl | (simp only [kept_mk, kept_fold, kept_ite, ite_self, eq_self, implies_true, kept_editFp, kept_takeHeel, kept_setHeelLost, Out.or]; done) | rfl

theorem kept_execHeelLost (j : Fin 4) (s : State) (dflt : State) : kept ((execHeelLost j s).or dflt) = kept s := by
  unfold execHeelLost
  (repeat' split) <;> first | with_reducible rfl | (simp only [kept_editFp, kept_setHeelLost, Out.or]; done) | (with_reducible exact rfl)

theorem kept_execFpoutMoveEnd (j : Fin 4) (s : State) (dflt : State) : kept ((execFpoutMoveEnd j s).or dflt) = kept s := by
  simp only [execFpoutMoveEnd, kept_bset, Out.or]

theorem kept_monWtrWrite (s : State) (v : Word) : kept (monWtrWrite s v) = kept s := by
  unfold monWtrWrite
  try simp only [kept_mk, kept_fold, kept_ite, ite_self, eq_self, implies_true, kept_wr, kept_showTim, kept_endWait]
  all_goals (repeat' (first | split | with_reducible refine (kept_foldl _ _ _ fun t x => ?_).trans ?_))
  all_goals try simp only [kept_mk, kept_fold, kept_ite, ite_self, eq_self, implies_true, kept_wr, kept_showTim, kept_endWait]
  all_goals (repeat' (first | split | with_reducible refine (kept_foldl _ _ _ fun t x => ?_).trans ?_))
  all_goals first | with_reducible rfl | (simp only [kept_mk, kept_fold, kept_ite, ite_self, eq_self, implies_true, kept_wr, kept_showTim, kept_endWait, kept_foldl]; done) | rfl

theorem kept_trimFree (s : State) : kept (trimFree s) = kept s := by
  unfold trimFree
  try simp only [kept_mk, kept_fold, kept_ite, ite_self, eq_self, implies_true, kept_editDpll]
  all_goals (repeat' (first | split | with_reducible refine (kept_foldl _ _ _ fun t x => ?_).trans ?_))
  all_goals try simp only [kept_mk, kept_fold, kept_ite, ite_self, eq_self, implies_true, kept_editDpll]
  all_goals (repeat' (first | split | with_reducible refine (kept_foldl _ _ _ fun t x => ?_).trans ?_))
  all_goals first | with_reducible rfl | (simp only [kept_mk, kept_fold, kept_ite, ite_self, eq_self, implies_true, kept_editDpll, kept_foldl]; done) | rfl

theorem kept_snapshot (s : State) : kept (snapshot s) = kept s := by
  unfold snapshot
  try simp only [kept_mk, kept_fold, kept_ite, ite_self, eq_self, implies_true]
  all_goals (repeat' (first | split | with_reducible refine (kept_foldl _ _ _ fun t x => ?_).trans ?_))
  all_goals try simp only [kept_mk, kept_fold, kept_ite, ite_self, eq_self, implies_true]
  all_goals (repeat' (first | split | with_reducible refine (kept_foldl _ _ _ fun t x => ?_).trans ?_))
  all_goals first | with_reducible rfl | (simp only [kept_mk, kept_fold, kept_ite, ite_self, eq_self, implies_true]; done) | rfl

theorem kept_regionWritten (s : State) (r o n : Nat) : kept (regionWritten s r o n) = kept s := by
  unfold regionWritten
  try simp only [kept_mk, kept_fold, kept_ite, ite_self, eq_self, implies_true, kept_hbmWritten]
  all_goals (repeat' (first | split | with_reducible refine (kept_foldl _ _ _ fun t x => ?_).trans ?_))
  all_goals try simp only [kept_mk, kept_fold, kept_ite, ite_self, eq_self, implies_true, kept_hbmWritten]
  all_goals (repeat' (first | split | with_reducible refine (kept_foldl _ _ _ fun t x => ?_).trans ?_))
  all_goals first | with_reducible rfl | (simp only [kept_mk, kept_fold, kept_ite, ite_self, eq_self, implies_true, kept_hbmWritten, kept_foldl]; done) | rfl

theorem kept_histPut (s : State) (x : Snap) : kept (histPut s x) = kept s := by
  have h (t : State) (l : List Snap) : kept { t with pm := { t.pm with hist := l } } = kept t := rfl
  unfold histPut
  dsimp only
  split
  · rfl
  · exact (h _ _).trans (kept_regionWritten _ _ _ _)

theorem kept_execPmhistWrite (s : State) (dflt : State) : kept ((execPmhistWrite s).or dflt) = kept s := by
  have h (t : State) (l : List Snap) : kept { t with pm := { t.pm with toWrite := l } } = kept t := rfl
  unfold execPmhistWrite
  simp only [Out.or]
  exact (kept_foldl _ _ _ fun t x => kept_histPut t x).trans (h _ _)

theorem kept_endSeconds (s : State) : kept (endSeconds s) = kept s := by
  unfold endSeconds
  try simp only [kept_mk, kept_fold, kept_ite, ite_self, eq_self, implies_true, kept_endLaneSecond, kept_endPathSecond, kept_endPdhSecond]
  all_goals (repeat' (first | split | with_reducible refine (kept_foldl _ _ _ fun t x => ?_).trans ?_))
  all_goals try simp only [kept_mk, kept_fold, kept_ite, ite_self, eq_self, implies_true, kept_endLaneSecond, kept_endPathSecond, kept_endPdhSecond]
  all_goals (repeat' (first | split | with_reducible refine (kept_foldl _ _ _ fun t x => ?_).trans ?_))
  all_goals first | with_reducible rfl | (simp only [kept_mk, kept_fold, kept_ite, ite_self, eq_self, implies_true, kept_endLaneSecond, kept_endPathSecond, kept_endPdhSecond, kept_foldl]; done) | rfl

theorem kept_setServo (s : State) (st : Nat) : kept (setServo s st) = kept s := by
  unfold setServo
  try simp only [kept_mk, kept_fold, kept_ite, ite_self, eq_self, implies_true, kept_fset, kept_bset, kept_raise]
  all_goals (repeat' (first | split | with_reducible refine (kept_foldl _ _ _ fun t x => ?_).trans ?_))
  all_goals try simp only [kept_mk, kept_fold, kept_ite, ite_self, eq_self, implies_true, kept_fset, kept_bset, kept_raise]
  all_goals (repeat' (first | split | with_reducible refine (kept_foldl _ _ _ fun t x => ?_).trans ?_))
  all_goals first | with_reducible rfl | (simp only [kept_mk, kept_fold, kept_ite, ite_self, eq_self, implies_true, kept_fset, kept_bset, kept_raise]; done) | rfl

theorem kept_setLarge (s : State) (b : Bool) : kept (setLarge s b) = kept s := by
  unfold setLarge
  (repeat' split) <;> first | with_reducible rfl | (simp only [kept_bset, kept_raise]; done) | (with_reducible exact rfl)

theorem kept_acquire (s : State) : kept (acquire s) = kept s := by
  simp only [acquire, kept_mk, kept_fold, kept_bset, kept_setServo]

theorem kept_takeServo (s : State) : kept (takeServo s) = kept s := by
  unfold takeServo
  try simp only [kept_mk, kept_fold, kept_ite, ite_self, eq_self, implies_true, kept_wr, kept_setServo, kept_setLarge, kept_acquire]
  all_goals (repeat' (first | split | with_reducible refine (kept_foldl _ _ _ fun t x => ?_).trans ?_))
  all_goals try simp only [kept_mk, kept_fold, kept_ite, ite_self, eq_self, implies_true, kept_wr, kept_setServo, kept_setLarge, kept_acquire]
  all_goals (repeat' (first | split | with_reducible refine (kept_foldl _ _ _ fun t x => ?_).trans ?_))
  all_goals first | with_reducible rfl | (simp only [kept_mk, kept_fold, kept_ite, ite_self, eq_self, implies_true, kept_wr, kept_setServo, kept_setLarge, kept_acquire]; done) | rfl

theorem kept_culletEvents (s : State) : kept (culletEvents s) = kept s := by
  unfold culletEvents
  try simp only [kept_mk, kept_fold, kept_ite, ite_self, eq_self, implies_true, kept_raise]
  all_goals (repeat' (first | split | with_reducible refine (kept_foldl _ _ _ fun t x => ?_).trans ?_))
  all_goals try simp only [kept_mk, kept_fold, kept_ite, ite_self, eq_self, implies_true, kept_raise]
  all_goals (repeat' (first | split | with_reducible refine (kept_foldl _ _ _ fun t x => ?_).trans ?_))
  all_goals first | with_reducible rfl | (simp only [kept_mk, kept_fold, kept_ite, ite_self, eq_self, implies_true, kept_raise, kept_foldl]; done) | rfl

theorem kept_ppsEffect (s : State) : kept (ppsEffect s) = kept s := by
  simp only [ppsEffect, kept_mk, kept_fold, kept_snapshot, kept_endSeconds, kept_takeServo, kept_culletEvents]

theorem kept_countTicks (s : State) (k : Nat) : kept (countTicks s k) = kept s := by
  unfold countTicks
  try simp only [kept_mk, kept_fold, kept_ite, ite_self, eq_self, implies_true, kept_raise, kept_ppsEffect]
  all_goals (repeat' (first | split | with_reducible refine (kept_foldl _ _ _ fun t x => ?_).trans ?_))
  all_goals try simp only [kept_mk, kept_fold, kept_ite, ite_self, eq_self, implies_true, kept_raise, kept_ppsEffect]
  all_goals (repeat' (first | split | with_reducible refine (kept_foldl _ _ _ fun t x => ?_).trans ?_))
  all_goals first | with_reducible rfl | (simp only [kept_mk, kept_fold, kept_ite, ite_self, eq_self, implies_true, kept_raise, kept_ppsEffect]; done) | rfl

theorem kept_countOn (fuel : Nat) (s : State) (k : Nat) : kept (countOn fuel s k) = kept s := by
  induction fuel generalizing s k with
  | zero => rfl
  | succ n ih =>
    unfold countOn
    dsimp only
    split
    · rw [ih, kept_countTicks]
    · rw [kept_countTicks]

theorem kept_execTodNsRead (s : State) (dflt : State) : kept ((execTodNsRead s).or dflt) = kept s := by
  unfold execTodNsRead
  (repeat' split) <;> simp only [kept_mk, kept_fold, kept_hostWait, kept_readOut, Out.or]

theorem kept_heelStep (s : State) (d : Int) : kept (heelStep s d) = kept s := by
  unfold heelStep
  try simp only [kept_mk, kept_fold, kept_ite, ite_self, eq_self, implies_true, kept_takeHeel]
  all_goals (repeat' (first | split | with_reducible refine (kept_foldl _ _ _ fun t x => ?_).trans ?_))
  all_goals try simp only [kept_mk, kept_fold, kept_ite, ite_self, eq_self, implies_true, kept_takeHeel]
  all_goals (repeat' (first | split | with_reducible refine (kept_foldl _ _ _ fun t x => ?_).trans ?_))
  all_goals first | with_reducible rfl | (simp only [kept_mk, kept_fold, kept_ite, ite_self, eq_self, implies_true, kept_takeHeel, kept_foldl]; done) | rfl

theorem kept_stepTo (s : State) (acc : BitVec 64) (subsec inc : Nat) : kept (stepTo s acc subsec inc) = kept s := by
  simp only [stepTo, kept_mk, kept_fold, kept_raise, kept_heelStep]

theorem kept_stepBy (s : State) (inc : Nat) (d : Int) : kept (stepBy s inc d) = kept s := by
  simp only [stepBy, kept_stepTo]

theorem kept_loopStep (s : State) (o : Int) : kept (loopStep s o) = kept s := by
  unfold loopStep
  (repeat' split) <;> simp only [kept_mk, kept_fold, kept_freeNext]

theorem kept_trackStep (s : State) (o : Int) : kept (trackStep s o) = kept s := by
  unfold trackStep
  try simp only [kept_mk, kept_fold, kept_ite, ite_self, eq_self, implies_true, kept_setServo, kept_setLarge, kept_loopStep]
  all_goals (repeat' (first | split | with_reducible refine (kept_foldl _ _ _ fun t x => ?_).trans ?_))
  all_goals try simp only [kept_mk, kept_fold, kept_ite, ite_self, eq_self, implies_true, kept_setServo, kept_setLarge, kept_loopStep]
  all_goals (repeat' (first | split | with_reducible refine (kept_foldl _ _ _ fun t x => ?_).trans ?_))
  all_goals first | with_reducible rfl | (simp only [kept_mk, kept_fold, kept_ite, ite_self, eq_self, implies_true, kept_setServo, kept_setLarge, kept_loopStep]; done) | rfl

theorem kept_setInc (s : State) (v : BitVec 64) : kept (setInc s v) = kept s := (rfl)

theorem kept_presetTo (s : State) (i : BitVec 64) (o : Int) : kept (presetTo s i o) = kept s := by
  unfold presetTo
  (repeat' split) <;> simp only [kept_mk, kept_fold, kept_bset, kept_setServo, kept_stepBy]

theorem kept_acquireStep (s : State) (o : Int) (t : Nat) : kept (acquireStep s o t).1 = kept s := by
  unfold acquireStep
  (repeat' split) <;> simp only [kept_mk, kept_fold, kept_presetTo]

theorem kept_servoStep (s : State) (o : Int) (t : Nat) : kept (servoStep s o t).1 = kept s := by
  unfold servoStep
  dsimp only
  generalize i32 (iclamp (-2147483647) 2147483647 o) = v
  have h : kept (wr { s with tod := { s.tod with sampled := s.tod.ticks } } Reg.todOfs v) = kept s :=
    (kept_wr _ Reg.todOfs v).trans rfl
  split
  · exact (kept_acquireStep _ _ _).trans h
  · exact (kept_trackStep _ _).trans ((kept_setServo _ _).trans h)
  · exact (kept_trackStep _ _).trans h
  · exact (kept_trackStep _ _).trans h
  · exact h

theorem kept_execServoSample (s : State) (dflt : State) : kept ((execServoSample s).or dflt) = kept s := by
  show kept (ite _ _ _) = kept s
  split
  · exact kept_servoStep _ _ _
  · rfl

theorem kept_servoHolds (s : State) : kept (servoHolds s) = kept s := by
  unfold servoHolds
  split
  · exact kept_setServo _ _
  · rfl

theorem kept_takeTimeSet (s : State) (d k : Nat) : kept (takeTimeSet s d k) = kept s := by
  unfold takeTimeSet
  (repeat' split) <;> simp only [kept_mk, kept_fold, kept_setDesc, kept_invalid]

theorem kept_execTimeSetSet (d : Nat) (s : State) (dflt : State) : kept ((execTimeSetSet d s).or dflt) = kept s := by
  simp only [execTimeSetSet, kept_takeTimeSet, Out.or]

theorem kept_execTimeSetStep (d : Nat) (s : State) (dflt : State) : kept ((execTimeSetStep d s).or dflt) = kept s := by
  simp only [execTimeSetStep, kept_takeTimeSet, Out.or]

theorem kept_execTimeSetRate (d : Nat) (s : State) (dflt : State) : kept ((execTimeSetRate d s).or dflt) = kept s := by
  simp only [execTimeSetRate, kept_takeTimeSet, Out.or]

theorem kept_execTimeSetOffset (d : Nat) (s : State) (dflt : State) : kept ((execTimeSetOffset d s).or dflt) = kept s := by
  simp only [execTimeSetOffset, kept_takeTimeSet, Out.or]

theorem kept_execTimeSetReacquire (d : Nat) (s : State) (dflt : State) : kept ((execTimeSetReacquire d s).or dflt) = kept s := by
  simp only [execTimeSetReacquire, kept_takeTimeSet, Out.or]

theorem kept_hostLock (s : State) (x : Desc) : kept (hostLock s x) = kept s := by
  unfold hostLock
  split
  · rw [kept_setServo, kept_tod]
  · rfl

theorem kept_noteStep (s : State) : kept (noteStep s) = kept s := (rfl)

theorem kept_applyTimeSet (s : State) (x : Desc) : kept (applyTimeSet s x).1 = kept s := by
  have h0 : ∀ a b c, kept (hostLock (noteStep (stepTo s a b c)) x) = kept s := fun a b c =>
    (kept_hostLock _ _).trans ((kept_noteStep _).trans (kept_stepTo _ _ _ _))
  have h1 : ∀ a b, kept (hostLock (noteStep (stepBy s a b)) x) = kept s := fun a b =>
    (kept_hostLock _ _).trans ((kept_noteStep _).trans (kept_stepBy _ _ _))
  have h2 : ∀ a, kept (hostLock (setInc (countTicks s 1) a) x) = kept s := fun a =>
    (kept_hostLock _ _).trans ((kept_setInc _ _).trans (kept_countTicks _ _))
  have h3 : ∀ a b, kept (servoStep (countTicks s 1) a b).1 = kept s := fun a b =>
    (kept_servoStep _ _ _).trans (kept_countTicks _ _)
  have h4 : kept (acquire (countTicks s 1)) = kept s :=
    (kept_acquire _).trans (kept_countTicks _ _)
  unfold applyTimeSet
  generalize setKind x = k
  match k with
  | 0 => exact h0 _ _ _
  | 1 => exact h1 _ _
  | 2 => exact h2 _
  | 3 => exact h3 _ _
  | _ + 4 => exact h4

theorem kept_setTick (s : State) : kept (setTick s) = kept s := by
  have h (t : State) (l : List Nat) : kept { t with tod := { t.tod with waiting := l } } = kept t := rfl
  unfold setTick
  split
  · rfl
  · dsimp only
    split
    · exact h _ _
    · exact (kept_completeOk _ _ _ _).trans ((kept_applyTimeSet _ _).trans ((kept_setDesc _ _ _).trans (h _ _)))

theorem kept_execTimeSetApply (s : State) (dflt : State) : kept ((execTimeSetApply s).or dflt) = kept s := by
  show kept (ite _ _ _) = kept s
  split
  · exact kept_setTick _
  · rfl

theorem kept_setTicks (fuel : Nat) (s : State) : kept (setTicks fuel s) = kept s := by
  induction fuel generalizing s with
  | zero => rfl
  | succ n ih =>
    unfold setTicks
    split
    · rw [ih, kept_setTick]
    · rfl

theorem kept_setsPass (s : State) : kept (setsPass s) = kept s := kept_setTicks _ _

theorem kept_execPpsTick (s : State) (dflt : State) : kept ((execPpsTick s).or dflt) = kept s := by
  have h := kept_setsPass s
  unfold execPpsTick
  simp only [Out.or]
  generalize setsPass s = t at h ⊢
  split
  · rfl
  · split
    · exact h
    · exact (kept_countOn _ _ _).trans h

theorem kept_execTimeWrap (s : State) (dflt : State) : kept ((execTimeWrap s).or dflt) = kept s := by
  have h := kept_setsPass s
  unfold execTimeWrap
  simp only [Out.or]
  generalize setsPass s = t at h ⊢
  split
  · rfl
  · split
    · exact h
    · exact (kept_countOn _ _ _).trans h

theorem kept_elapse (s : State) (due : Nat) : kept (elapse s due) = kept s := by
  have h := kept_setsPass s
  unfold elapse
  split
  · rfl
  · dsimp only
    generalize setsPass s = t at h ⊢
    split
    · exact h
    · exact (kept_countOn _ _ _).trans h

theorem kept_execServoHoldoverTimeout (s : State) (dflt : State) : kept ((execServoHoldoverTimeout s).or dflt) = kept s := by
  unfold execServoHoldoverTimeout
  simp only [Out.or]
  split
  · rw [kept_servoHolds, kept_elapse]
  · rfl

theorem kept_execTodLockExpiry (s : State) (dflt : State) : kept ((execTodLockExpiry s).or dflt) = kept s := by
  have h := kept_elapse s s.tod.lockEnd
  unfold execTodLockExpiry
  simp only [Out.or]
  generalize elapse s s.tod.lockEnd = t at h ⊢
  split
  · split
    · exact (kept_setServo _ _).trans h
    · exact h
  · rfl

theorem kept_idleTick (s : State) : kept (idleTick s) = kept s := by
  unfold idleTick
  split
  · rfl
  · split
    · exact kept_setTick _
    · exact kept_countTicks _ _

theorem kept_execKennelTimeout (slot : Fin 256) (s : State) (dflt : State) :
    kept ((execKennelTimeout slot s).or dflt) = kept s := by
  unfold execKennelTimeout
  simp only [Out.or]
  split
  · rfl
  · simp only [kept_unresolved, kept_raise, kept_knlDrop, kept_elapse]

theorem kept_execCoalesceTimeout (v : Fin 64) (s : State) (dflt : State) :
    kept ((execCoalesceTimeout v s).or dflt) = kept s := by
  unfold execCoalesceTimeout
  simp only [Out.or]
  split
  · rfl
  · split
    · exact (kept_signal _ _).trans (kept_elapse _ _)
    · exact kept_elapse _ _

end Sys2Proof.Machine
end

