-- ==== Sys2Proof/Laws/KeptWork.lean ====
section
/-! SUPPORT. What bulk work, aborts and the control complex keep: the memories, the fuse and the commands that wait (`kept`). -/

set_option linter.unusedSimpArgs false
set_option linter.unusedTactic false
set_option linter.unreachableTactic false
set_option linter.unusedVariables false
set_option linter.unnecessarySeqFocus false

namespace Sys2Proof.Machine

theorem kept_endRead (s : State) (d : Desc) (b : Bulk) (status : Nat) : kept (endRead s d b status) = kept s := by
  simp only [endRead, kept_complete, kept_bulkDrop]

theorem kept_runRead (fuel : Nat) (s : State) (io : HostIO) (d : Desc) (b : Bulk) : kept (runRead fuel s io d b) = kept s := by
  induction fuel generalizing s d b with
  | zero => exact kept_setBulk s d.id b
  | succ n ih =>
    unfold runRead
    split
    · exact kept_setBulk s d.id _
    · split
      · exact kept_endRead _ _ _ _
      · exact ih _ _ _
      · split
        · split
          · exact kept_endRead _ _ _ _
          · exact ih _ _ _
        · split
          · exact kept_setBulk s d.id b
          · split
            · exact (kept_parkFault _ _ _ _ _ _ _ _ _).trans ((kept_setBulk _ _ _).trans (kept_writeHost_eq ‹_›))
            · exact (ih _ _ _).trans ((kept_setDesc _ _ _).trans (kept_writeHost_eq ‹_›))

theorem kept_endEdit (s : State) (d : Desc) (b : Bulk) : kept (endEdit s d b) = kept s := by
  unfold endEdit
  (repeat' split) <;> first | with_reducible rfl | (simp only [kept_bulkDrop, kept_endDirect, kept_stage]; done) | (with_reducible exact rfl)

theorem kept_runEdit (fuel : Nat) (s : State) (io : HostIO) (d : Desc) (b : Bulk) : kept (runEdit fuel s io d b) = kept s := by
  induction fuel generalizing s io b with
  | zero => exact kept_setBulk s d.id b
  | succ n ih =>
    unfold runEdit
    split
    · split
      · exact kept_endEdit _ _ _
      · exact kept_setBulk s d.id b
    · split
      · exact kept_setBulk s d.id _
      · split
        · exact kept_setBulk s d.id b
        · split
          · exact (kept_parkFault _ _ _ _ _ _ _ _ _).trans ((kept_setBulk _ _ _).trans (kept_readHost_eq ‹_›))
          · exact (ih _ _ _).trans (kept_readHost_eq ‹_›)

theorem kept_runBulk (s : State) (io : HostIO) (id : Nat) : kept (runBulk s io id) = kept s := by
  unfold runBulk
  (repeat' split) <;> first | with_reducible rfl | (simp only [kept_bulkDrop, kept_runRead, kept_runEdit]; done) | (with_reducible exact rfl)

theorem kept_readyUp (s : State) : kept (readyUp s) = kept s := (rfl)

theorem kept_engRun (s : State) (io : HostIO) (e id : Nat) : kept (engRun s io e id) = kept s := by
  simp only [engRun, kept_mk, kept_fold, kept_runBulk, kept_readyUp]

theorem kept_startBulk (s : State) (io : HostIO) (d : Desc) : kept (startBulk s io d) = kept s := by
  simp only [startBulk, kept_mk, kept_fold, kept_ite, ite_self, eq_self, implies_true, kept_setDesc, kept_setBulk, kept_readyUp, kept_engRun]
  (repeat' split) <;> simp only [kept_mk, kept_fold, kept_ite, ite_self, eq_self, implies_true, kept_setDesc, kept_setBulk, kept_readyUp, kept_engRun]

theorem kept_preempt (s : State) (e : Nat) (g : Eng) : kept (preempt s e g) = kept s := by
  unfold preempt
  (repeat' split) <;> simp only [kept_mk, kept_fold, kept_knlPut]

theorem kept_engTake (s : State) (io : HostIO) (e : Nat) : kept (engTake s io e) = kept s := by
  unfold engTake
  (repeat' split) <;> first | with_reducible rfl | (simp only [kept_engRun]; done) | (with_reducible exact rfl)

theorem kept_execBulkCheckpoint (engine : Fin 4) (io : HostIO) (s : State) (dflt : State) : kept ((execBulkCheckpoint engine io s).or dflt) = kept s := by
  simp only [execBulkCheckpoint, kept_mk, kept_fold, kept_ite, ite_self, eq_self, implies_true, kept_runBulk, kept_readyUp, kept_preempt, kept_engTake, Out.or]
  (repeat' split) <;> simp only [kept_mk, kept_fold, kept_ite, ite_self, eq_self, implies_true, kept_runBulk, kept_readyUp, kept_preempt, kept_engTake, Out.or]

theorem kept_execEngineTake (engine : Fin 4) (io : HostIO) (s : State) (dflt : State) : kept ((execEngineTake engine io s).or dflt) = kept s := by
  unfold execEngineTake
  (repeat' split) <;> first | with_reducible rfl | (simp only [kept_readyUp, kept_engTake, Out.or]; done) | (with_reducible exact rfl)

theorem kept_takeRead (s : State) (io : HostIO) (id op : Nat) : kept (takeRead s io id op) = kept s := by
  unfold takeRead
  (repeat' split) <;> first | with_reducible rfl | (simp only [kept_invalid, kept_invalidOpen, kept_startBulk]; done) | (with_reducible exact rfl)

theorem kept_execMapRead (d : Nat) (io : HostIO) (s : State) (dflt : State) : kept ((execMapRead d io s).or dflt) = kept s := by
  simp only [execMapRead, kept_takeRead, Out.or]

theorem kept_execPathStatus (d : Nat) (io : HostIO) (s : State) (dflt : State) : kept ((execPathStatus d io s).or dflt) = kept s := by
  simp only [execPathStatus, kept_takeRead, Out.or]

theorem kept_execSelStatus (d : Nat) (io : HostIO) (s : State) (dflt : State) : kept ((execSelStatus d io s).or dflt) = kept s := by
  simp only [execSelStatus, kept_takeRead, Out.or]

theorem kept_execMergeStatus (d : Nat) (io : HostIO) (s : State) (dflt : State) : kept ((execMergeStatus d io s).or dflt) = kept s := by
  simp only [execMergeStatus, kept_takeRead, Out.or]

theorem kept_execGuardStatus (d : Nat) (io : HostIO) (s : State) (dflt : State) : kept ((execGuardStatus d io s).or dflt) = kept s := by
  simp only [execGuardStatus, kept_takeRead, Out.or]

theorem kept_execPwStatus (d : Nat) (io : HostIO) (s : State) (dflt : State) : kept ((execPwStatus d io s).or dflt) = kept s := by
  simp only [execPwStatus, kept_takeRead, Out.or]

theorem kept_execPmDump (d : Nat) (io : HostIO) (s : State) (dflt : State) : kept ((execPmDump d io s).or dflt) = kept s := by
  simp only [execPmDump, kept_takeRead, Out.or]

theorem kept_execLeaseQuery (d : Nat) (io : HostIO) (s : State) (dflt : State) : kept ((execLeaseQuery d io s).or dflt) = kept s := by
  simp only [execLeaseQuery, kept_mk, kept_fold, kept_takeRead, Out.or]

theorem kept_execMapEditDirect (d : Nat) (io : HostIO) (s : State) (dflt : State) : kept ((execMapEditDirect d io s).or dflt) = kept s := by
  unfold execMapEditDirect
  (repeat' split) <;> first | with_reducible rfl | (simp only [kept_complete, kept_invalid, kept_startBulk, Out.or]; done) | (with_reducible exact rfl)

theorem kept_execMapEditStage (d : Nat) (io : HostIO) (s : State) (dflt : State) : kept ((execMapEditStage d io s).or dflt) = kept s := by
  unfold execMapEditStage
  (repeat' split) <;> first | with_reducible rfl | (simp only [kept_invalid, kept_startBulk, Out.or]; done) | (with_reducible exact rfl)

theorem kept_detach (s : State) (id : Nat) : kept (detach s id) = kept s := by
  simp only [detach, kept_mk, kept_fold, kept_ite, ite_self, eq_self, implies_true, kept_editEth, kept_editDcc, kept_bulkDrop, kept_reopen, kept_readyUp]
  (repeat' split) <;> simp only [kept_mk, kept_fold, kept_ite, ite_self, eq_self, implies_true, kept_editEth, kept_editDcc, kept_bulkDrop, kept_reopen, kept_readyUp]

theorem kept_awaitTarget (s : State) (a t : Nat) (stopped : Bool) : kept (awaitTarget s a t stopped) = kept s := by
  simp only [awaitTarget, kept_mk, kept_fold, kept_setDesc]

theorem kept_abortFlight (s : State) (a : Nat) (t : Desc) : kept (abortFlight s a t) = kept s := by
  unfold abortFlight
  (repeat' split) <;> first | with_reducible rfl | (simp only [kept_complete, kept_unresolved, kept_endRead, kept_readyUp, kept_detach, kept_awaitTarget]; done) | (with_reducible exact rfl)

theorem kept_abortPosted (s : State) (a n i : Nat) (entry : List Word) : kept (abortPosted s a n i entry) = kept s := by
  simp only [abortPosted, kept_complete, kept_editRing, kept_addDesc, kept_awaitTarget]

theorem kept_abort (s : State) (a : Desc) (entry : List Word) : kept (abort s a entry) = kept s := by
  simp only [abort, kept_mk, kept_fold, kept_ite, ite_self, eq_self, implies_true, kept_complete, kept_invalid, kept_askHost, kept_abortFlight, kept_abortPosted]
  (repeat' split) <;> simp only [kept_mk, kept_fold, kept_ite, ite_self, eq_self, implies_true, kept_complete, kept_invalid, kept_askHost, kept_abortFlight, kept_abortPosted]

theorem kept_execAbort (d : Nat) (entry : List Word) (s : State) (dflt : State) : kept ((execAbort d entry s).or dflt) = kept s := by
  unfold execAbort
  (repeat' split) <;> first | with_reducible rfl | (simp only [kept_abort, Out.or]; done) | (with_reducible exact rfl)

theorem kept_setLock (s : State) (t m : Nat) : kept (setLock s t m) = kept s := by
  unfold setLock
  (repeat' split) <;> first | with_reducible rfl | (simp only [kept_fset]; done) | (with_reducible exact rfl)

theorem kept_dropLocks (s : State) (m : Nat) : kept (dropLocks s m) = kept s := by
  unfold dropLocks
  try simp only [kept_mk, kept_fold, kept_ite, ite_self, eq_self, implies_true, kept_setLock]
  all_goals (repeat' (first | split | with_reducible refine (kept_foldl _ _ _ fun t x => ?_).trans ?_))
  all_goals try simp only [kept_mk, kept_fold, kept_ite, ite_self, eq_self, implies_true, kept_setLock]
  all_goals (repeat' (first | split | with_reducible refine (kept_foldl _ _ _ fun t x => ?_).trans ?_))
  all_goals first | with_reducible rfl | (simp only [kept_mk, kept_fold, kept_ite, ite_self, eq_self, implies_true, kept_setLock, kept_foldl]; done) | rfl

theorem kept_setHalf (s : State) (h : Bool) (st : Nat) : kept (setHalf s h st) = kept s := by
  unfold setHalf
  try simp only [kept_mk, kept_fold, kept_ite, ite_self, eq_self, implies_true, kept_fset, kept_raise]
  all_goals (repeat' (first | split | with_reducible refine (kept_foldl _ _ _ fun t x => ?_).trans ?_))
  all_goals try simp only [kept_mk, kept_fold, kept_ite, ite_self, eq_self, implies_true, kept_fset, kept_raise]
  all_goals (repeat' (first | split | with_reducible refine (kept_foldl _ _ _ fun t x => ?_).trans ?_))
  all_goals first | with_reducible rfl | (simp only [kept_mk, kept_fold, kept_ite, ite_self, eq_self, implies_true, kept_fset, kept_raise]; done) | rfl

theorem kept_execHeartbeat (half : Bool) (s : State) (dflt : State) : kept ((execHeartbeat half s).or dflt) = kept s := by
  unfold execHeartbeat
  (repeat' split) <;> simp only [kept_mk, kept_fold, kept_bset, Out.or]

theorem kept_lapsed (s : State) : kept (lapsed s) = kept s := kept_bset s Reg.mtxHalf 7 true

theorem kept_execLeashLapse (s : State) (dflt : State) : kept ((execLeashLapse s).or dflt) = kept s := by
  unfold execLeashLapse
  simp only [Out.or]
  split
  · exact (kept_lapsed _).trans (kept_elapse _ _)
  · rfl

theorem kept_claim (s : State) (half : Bool) (e : Word) : kept (claim s half e) = kept s := by
  unfold claim
  try simp only [kept_mk, kept_fold, kept_ite, ite_self, eq_self, implies_true, kept_wr, kept_bset, kept_raise]
  all_goals (repeat' (first | split | with_reducible refine (kept_foldl _ _ _ fun t x => ?_).trans ?_))
  all_goals try simp only [kept_mk, kept_fold, kept_ite, ite_self, eq_self, implies_true, kept_wr, kept_bset, kept_raise]
  all_goals (repeat' (first | split | with_reducible refine (kept_foldl _ _ _ fun t x => ?_).trans ?_))
  all_goals first | with_reducible rfl | (simp only [kept_mk, kept_fold, kept_ite, ite_self, eq_self, implies_true, kept_wr, kept_bset, kept_raise]; done) | rfl

theorem kept_execLeashClaim (half : Bool) (epoch : Word) (s : State) (dflt : State) : kept ((execLeashClaim half epoch s).or dflt) = kept s := by
  unfold execLeashClaim
  (repeat' split) <;> first | with_reducible rfl | (simp only [kept_claim, Out.or]; done) | (with_reducible exact rfl)

theorem kept_stopDesc (s : State) (id : Nat) : kept (stopDesc s id) = kept s := by
  unfold stopDesc
  (repeat' split) <;> first | with_reducible rfl | (simp only [kept_editDesc, kept_dropFrame, kept_detach]; done) | (with_reducible exact rfl)

theorem kept_stopAll (s : State) (warm : Bool) : kept (stopAll s warm) = kept s := by
  unfold stopAll
  try simp only [kept_mk, kept_fold, kept_ite, ite_self, eq_self, implies_true, kept_stopDesc]
  all_goals (repeat' (first | split | with_reducible refine (kept_foldl _ _ _ fun t x => ?_).trans ?_))
  all_goals try simp only [kept_mk, kept_fold, kept_ite, ite_self, eq_self, implies_true, kept_stopDesc]
  all_goals (repeat' (first | split | with_reducible refine (kept_foldl _ _ _ fun t x => ?_).trans ?_))
  all_goals first | with_reducible rfl | (simp only [kept_mk, kept_fold, kept_ite, ite_self, eq_self, implies_true, kept_stopDesc, kept_foldl]; done) | rfl

theorem kept_voidRecords (s : State) : kept (voidRecords s) = kept s := (rfl)

theorem kept_endStopped (s : State) : kept (endStopped s) = kept s := by
  unfold endStopped
  try simp only [kept_mk, kept_fold, kept_ite, ite_self, eq_self, implies_true, kept_complete]
  all_goals (repeat' (first | split | with_reducible refine (kept_foldl _ _ _ fun t x => ?_).trans ?_))
  all_goals try simp only [kept_mk, kept_fold, kept_ite, ite_self, eq_self, implies_true, kept_complete]
  all_goals (repeat' (first | split | with_reducible refine (kept_foldl _ _ _ fun t x => ?_).trans ?_))
  all_goals first | with_reducible rfl | (simp only [kept_mk, kept_fold, kept_ite, ite_self, eq_self, implies_true, kept_complete, kept_foldl]; done) | rfl

theorem kept_execHandoverRecoveryDone (s : State) (dflt : State) : kept ((execHandoverRecoveryDone s).or dflt) = kept s := by
  unfold execHandoverRecoveryDone
  (repeat' split) <;> simp only [kept_mk, kept_fold, kept_flushCpl, kept_endStopped, Out.or]

theorem kept_execControlLost (s : State) (dflt : State) : kept ((execControlLost s).or dflt) = kept s := by
  unfold execControlLost
  simp only [Out.or]
  split
  · rfl
  · simp only [kept_raise, kept_setFault, kept_elapse]

theorem kept_execPlannedHandover (v : Word) (s : State) (dflt : State) : kept ((execPlannedHandover v s).or dflt) = kept s := by
  unfold execPlannedHandover
  try simp only [kept_mk, kept_fold, kept_ite, ite_self, eq_self, implies_true, kept_ignoredWrite, kept_hostWrite, Out.or]
  all_goals (repeat' (first | split | with_reducible refine (kept_foldl _ _ _ fun t x => ?_).trans ?_))
  all_goals try simp only [kept_mk, kept_fold, kept_ite, ite_self, eq_self, implies_true, kept_ignoredWrite, kept_hostWrite, Out.or]
  all_goals (repeat' (first | split | with_reducible refine (kept_foldl _ _ _ fun t x => ?_).trans ?_))
  all_goals first | with_reducible rfl | (simp only [kept_mk, kept_fold, kept_ite, ite_self, eq_self, implies_true, kept_ignoredWrite, kept_hostWrite, Out.or]; done) | rfl

theorem kept_execLeashRelease (s : State) (dflt : State) : kept ((execLeashRelease s).or dflt) = kept s := by
  unfold execLeashRelease
  (repeat' split) <;> simp only [kept_mk, kept_fold, kept_claim, Out.or]

theorem kept_halfStandby (s : State) (h : Bool) : kept (halfStandby s h) = kept s := by
  simp only [halfStandby, kept_bset, kept_setHalf]

theorem kept_flashStart (s : State) : kept (flashStart s) = kept s := by
  unfold flashStart
  (repeat' split) <;> simp only [kept_mk, kept_fold, kept_wire]

theorem kept_bootServed (s : State) : kept (bootServed s) = kept s := by
  unfold bootServed
  (repeat' split) <;> first | with_reducible rfl | (simp only [kept_flashStart]; done) | (with_reducible exact rfl)

theorem kept_execBootFailTimeout (s : State) (dflt : State) : kept ((execBootFailTimeout s).or dflt) = kept s := by
  unfold execBootFailTimeout
  simp only [Out.or]
  split
  · simp only [kept_setFault, kept_elapse]
  · rfl

theorem kept_execWarmResetRise (s : State) (dflt : State) : kept ((execWarmResetRise s).or dflt) = kept s := by
  unfold execWarmResetRise
  (repeat' split) <;> simp only [kept_mk, kept_fold, kept_setHalf, Out.or]

theorem kept_editRec (s : State) (k : Nat) (f : JRec → JRec) : kept (editRec s k f) = kept s := by
  unfold editRec
  (repeat' split) <;> first | with_reducible rfl | (simp only [kept_editGth]; done) | (with_reducible exact rfl)

theorem kept_markDamage (s : State) (x : JrnDamage) : kept (markDamage s x) = kept s := by
  simp only [markDamage, kept_editRec]

theorem kept_checkRecord (s : State) (k : Nat) : kept (checkRecord s k) = kept s := by
  unfold checkRecord
  (repeat' split) <;> first | with_reducible rfl | (simp only [kept_raise, kept_mainWritten, kept_mirrorWritten, kept_editRec]; done) | (with_reducible exact rfl)

theorem kept_voidCommit (s : State) (i : Nat) : kept (voidCommit s i) = kept s := (rfl)

theorem kept_execJournalReplay (damage : List JrnDamage) (s : State) (dflt : State) : kept ((execJournalReplay damage s).or dflt) = kept s := by
  unfold execJournalReplay
  try simp only [kept_mk, kept_fold, kept_ite, ite_self, eq_self, implies_true, kept_editGth, kept_discardGather, kept_markDamage, kept_checkRecord, kept_voidCommit, Out.or]
  all_goals (repeat' (first | split | with_reducible refine (kept_foldl _ _ _ fun t x => ?_).trans ?_))
  all_goals try simp only [kept_mk, kept_fold, kept_ite, ite_self, eq_self, implies_true, kept_editGth, kept_discardGather, kept_markDamage, kept_checkRecord, kept_voidCommit, Out.or]
  all_goals (repeat' (first | split | with_reducible refine (kept_foldl _ _ _ fun t x => ?_).trans ?_))
  all_goals first | with_reducible rfl | (simp only [kept_mk, kept_fold, kept_ite, ite_self, eq_self, implies_true, kept_editGth, kept_discardGather, kept_markDamage, kept_checkRecord, kept_voidCommit, kept_foldl, Out.or]; done) | rfl

theorem kept_execReplayEnd (s : State) (dflt : State) : kept ((execReplayEnd s).or dflt) = kept s := by
  unfold execReplayEnd
  try simp only [kept_mk, kept_fold, kept_ite, ite_self, eq_self, implies_true, kept_bset, kept_flushEvents, kept_flushCpl, kept_actDoorbells, kept_actResumes, kept_endStopped, Out.or]
  all_goals (repeat' (first | split | with_reducible refine (kept_foldl _ _ _ fun t x => ?_).trans ?_))
  all_goals try simp only [kept_mk, kept_fold, kept_ite, ite_self, eq_self, implies_true, kept_bset, kept_flushEvents, kept_flushCpl, kept_actDoorbells, kept_actResumes, kept_endStopped, Out.or]
  all_goals (repeat' (first | split | with_reducible refine (kept_foldl _ _ _ fun t x => ?_).trans ?_))
  all_goals first | with_reducible rfl | (simp only [kept_mk, kept_fold, kept_ite, ite_self, eq_self, implies_true, kept_bset, kept_flushEvents, kept_flushCpl, kept_actDoorbells, kept_actResumes, kept_endStopped, Out.or]; done) | rfl

theorem kept_execGlbModeWrite (v : Word) (s : State) (dflt : State) : kept ((execGlbModeWrite v s).or dflt) = kept s := by
  unfold execGlbModeWrite
  try simp only [kept_mk, kept_fold, kept_ite, ite_self, eq_self, implies_true, kept_fset, kept_bset, kept_ignored, kept_hostWrite, Out.or]
  all_goals (repeat' (first | split | with_reducible refine (kept_foldl _ _ _ fun t x => ?_).trans ?_))
  all_goals try simp only [kept_mk, kept_fold, kept_ite, ite_self, eq_self, implies_true, kept_fset, kept_bset, kept_ignored, kept_hostWrite, Out.or]
  all_goals (repeat' (first | split | with_reducible refine (kept_foldl _ _ _ fun t x => ?_).trans ?_))
  all_goals first | with_reducible rfl | (simp only [kept_mk, kept_fold, kept_ite, ite_self, eq_self, implies_true, kept_fset, kept_bset, kept_ignored, kept_hostWrite, Out.or]; done) | rfl

theorem kept_execModeSwitch (s : State) (dflt : State) : kept ((execModeSwitch s).or dflt) = kept s := by
  unfold execModeSwitch
  (repeat' split) <;> simp only [kept_mk, kept_fold, kept_fset, kept_bset, Out.or]

end Sys2Proof.Machine
end

