-- ==== Sys2Proof/Laws/KeptPower.lean ====
section
/-! SUPPORT. What power, buffer memory and the frame keep: the memories, the fuse and the commands that wait (`kept`). -/

set_option linter.unusedSimpArgs false
set_option linter.unusedTactic false
set_option linter.unreachableTactic false
set_option linter.unusedVariables false
set_option linter.unnecessarySeqFocus false

namespace Sys2Proof.Machine

theorem kept_railsOff (s : State) (l : List Nat) : kept (railsOff s l) = kept s := by
  unfold railsOff
  try simp only [kept_mk, kept_fold, kept_ite, ite_self, eq_self, implies_true, kept_bset, kept_pmbus]
  all_goals (repeat' (first | split | with_reducible refine (kept_foldl _ _ _ fun t x => ?_).trans ?_))
  all_goals try simp only [kept_mk, kept_fold, kept_ite, ite_self, eq_self, implies_true, kept_bset, kept_pmbus]
  all_goals (repeat' (first | split | with_reducible refine (kept_foldl _ _ _ fun t x => ?_).trans ?_))
  all_goals first | with_reducible rfl | (simp only [kept_mk, kept_fold, kept_ite, ite_self, eq_self, implies_true, kept_bset, kept_pmbus, kept_foldl]; done) | rfl

theorem kept_clearPower (s : State) : kept (clearPower s) = kept s := by
  simp only [clearPower, kept_mk, kept_fold, kept_wr, kept_fset, kept_bset]

theorem kept_pwrCtlWrite (s : State) (v : Word) : kept (pwrCtlWrite s v) = kept s := by
  unfold pwrCtlWrite
  try simp only [kept_mk, kept_fold, kept_ite, ite_self, eq_self, implies_true, kept_wr, kept_bset, kept_ignored, kept_ignoredWrite]
  all_goals (repeat' (first | split | with_reducible refine (kept_foldl _ _ _ fun t x => ?_).trans ?_))
  all_goals try simp only [kept_mk, kept_fold, kept_ite, ite_self, eq_self, implies_true, kept_wr, kept_bset, kept_ignored, kept_ignoredWrite]
  all_goals (repeat' (first | split | with_reducible refine (kept_foldl _ _ _ fun t x => ?_).trans ?_))
  all_goals first | with_reducible rfl | (simp only [kept_mk, kept_fold, kept_ite, ite_self, eq_self, implies_true, kept_wr, kept_bset, kept_ignored, kept_ignoredWrite]; done) | rfl

theorem kept_execPwrReqStandby (v : Word) (s : State) (dflt : State) : kept ((execPwrReqStandby v s).or dflt) = kept s := by
  unfold execPwrReqStandby
  try simp only [kept_mk, kept_fold, kept_ite, ite_self, eq_self, implies_true, kept_hostWrite, kept_pwrCtlWrite, Out.or]
  all_goals (repeat' (first | split | with_reducible refine (kept_foldl _ _ _ fun t x => ?_).trans ?_))
  all_goals try simp only [kept_mk, kept_fold, kept_ite, ite_self, eq_self, implies_true, kept_hostWrite, kept_pwrCtlWrite, Out.or]
  all_goals (repeat' (first | split | with_reducible refine (kept_foldl _ _ _ fun t x => ?_).trans ?_))
  all_goals first | with_reducible rfl | (simp only [kept_mk, kept_fold, kept_ite, ite_self, eq_self, implies_true, kept_hostWrite, kept_pwrCtlWrite, Out.or]; done) | rfl

theorem kept_execPwrReqDormant (v : Word) (s : State) (dflt : State) : kept ((execPwrReqDormant v s).or dflt) = kept s := by
  unfold execPwrReqDormant
  try simp only [kept_mk, kept_fold, kept_ite, ite_self, eq_self, implies_true, kept_hostWrite, kept_pwrCtlWrite, Out.or]
  all_goals (repeat' (first | split | with_reducible refine (kept_foldl _ _ _ fun t x => ?_).trans ?_))
  all_goals try simp only [kept_mk, kept_fold, kept_ite, ite_self, eq_self, implies_true, kept_hostWrite, kept_pwrCtlWrite, Out.or]
  all_goals (repeat' (first | split | with_reducible refine (kept_foldl _ _ _ fun t x => ?_).trans ?_))
  all_goals first | with_reducible rfl | (simp only [kept_mk, kept_fold, kept_ite, ite_self, eq_self, implies_true, kept_hostWrite, kept_pwrCtlWrite, Out.or]; done) | rfl

theorem kept_execPwrReqWithdraw (v : Word) (s : State) (dflt : State) : kept ((execPwrReqWithdraw v s).or dflt) = kept s := by
  unfold execPwrReqWithdraw
  try simp only [kept_mk, kept_fold, kept_ite, ite_self, eq_self, implies_true, kept_hostWrite, kept_pwrCtlWrite, Out.or]
  all_goals (repeat' (first | split | with_reducible refine (kept_foldl _ _ _ fun t x => ?_).trans ?_))
  all_goals try simp only [kept_mk, kept_fold, kept_ite, ite_self, eq_self, implies_true, kept_hostWrite, kept_pwrCtlWrite, Out.or]
  all_goals (repeat' (first | split | with_reducible refine (kept_foldl _ _ _ fun t x => ?_).trans ?_))
  all_goals first | with_reducible rfl | (simp only [kept_mk, kept_fold, kept_ite, ite_self, eq_self, implies_true, kept_hostWrite, kept_pwrCtlWrite, Out.or]; done) | rfl

theorem kept_startBoot (s : State) : kept (startBoot s) = kept s := by
  unfold startBoot
  (repeat' split) <;> simp only [kept_mk, kept_fold, kept_startRail]

theorem kept_takeBoard (s : State) (b : List Byte) : kept (takeBoard s b) = kept s := by
  unfold takeBoard
  (repeat' split) <;> simp only [kept_mk, kept_fold, kept_startBoot]

theorem kept_execBoardBlockLoaded (bytes : List Byte) (s : State) (dflt : State) : kept ((execBoardBlockLoaded bytes s).or dflt) = kept s := by
  unfold execBoardBlockLoaded
  (repeat' split) <;> first | with_reducible rfl | (simp only [kept_takeBoard, Out.or]; done) | (with_reducible exact rfl)

theorem kept_secondOver (s : State) : kept (secondOver s) = kept s := kept_elapse _ _

theorem kept_execBoardBlockRetry (bytes : List Byte) (s : State) (dflt : State) :
    kept ((execBoardBlockRetry bytes s).or dflt) = kept s := by
  unfold execBoardBlockRetry
  simp only [Out.or]
  split
  · simp only [kept_takeBoard, kept_secondOver]
  · rfl

theorem kept_showRail (s : State) (n vout status : Nat) : kept (showRail s n vout status) = kept s := by
  simp only [showRail, kept_fset]

theorem kept_railFault (s : State) (n : Nat) (status : Word) : kept (railFault s n status) = kept s := by
  simp only [railFault, kept_raise]

theorem kept_reachStandby (s : State) : kept (reachStandby s) = kept s := by
  unfold reachStandby
  try simp only [kept_mk, kept_fold, kept_ite, ite_self, eq_self, implies_true, kept_setPower, kept_setHalf, kept_railFault]
  all_goals (repeat' (first | split | with_reducible refine (kept_foldl _ _ _ fun t x => ?_).trans ?_))
  all_goals try simp only [kept_mk, kept_fold, kept_ite, ite_self, eq_self, implies_true, kept_setPower, kept_setHalf, kept_railFault]
  all_goals (repeat' (first | split | with_reducible refine (kept_foldl _ _ _ fun t x => ?_).trans ?_))
  all_goals first | with_reducible rfl | (simp only [kept_mk, kept_fold, kept_ite, ite_self, eq_self, implies_true, kept_setPower, kept_setHalf, kept_railFault, kept_foldl]; done) | rfl

theorem kept_railBack (s : State) (n : Nat) : kept (railBack s n) = kept s := by
  unfold railBack
  try simp only [kept_mk, kept_fold, kept_ite, ite_self, eq_self, implies_true, kept_bset, kept_needDomain]
  all_goals (repeat' (first | split | with_reducible refine (kept_foldl _ _ _ fun t x => ?_).trans ?_))
  all_goals try simp only [kept_mk, kept_fold, kept_ite, ite_self, eq_self, implies_true, kept_bset, kept_needDomain]
  all_goals (repeat' (first | split | with_reducible refine (kept_foldl _ _ _ fun t x => ?_).trans ?_))
  all_goals first | with_reducible rfl | (simp only [kept_mk, kept_fold, kept_ite, ite_self, eq_self, implies_true, kept_bset, kept_needDomain, kept_foldl]; done) | rfl

theorem kept_execRailGood (n : Fin 6) (vout : BitVec 13) (status : BitVec 16) (s : State) (dflt : State) : kept ((execRailGood n vout status s).or dflt) = kept s := by
  unfold execRailGood
  try simp only [kept_mk, kept_fold, kept_ite, ite_self, eq_self, implies_true, kept_bset, kept_startRail, kept_railDemand, kept_showRail, kept_reachStandby, kept_railBack, Out.or]
  all_goals (repeat' (first | split | with_reducible refine (kept_foldl _ _ _ fun t x => ?_).trans ?_))
  all_goals try simp only [kept_mk, kept_fold, kept_ite, ite_self, eq_self, implies_true, kept_bset, kept_startRail, kept_railDemand, kept_showRail, kept_reachStandby, kept_railBack, Out.or]
  all_goals (repeat' (first | split | with_reducible refine (kept_foldl _ _ _ fun t x => ?_).trans ?_))
  all_goals first | with_reducible rfl | (simp only [kept_mk, kept_fold, kept_ite, ite_self, eq_self, implies_true, kept_bset, kept_startRail, kept_railDemand, kept_showRail, kept_reachStandby, kept_railBack, Out.or]; done) | rfl

theorem kept_execRailRampTimeout (n : Fin 6) (vout : BitVec 13) (status : BitVec 16) (s : State) (dflt : State) : kept ((execRailRampTimeout n vout status s).or dflt) = kept s := by
  unfold execRailRampTimeout
  try simp only [kept_mk, kept_fold, kept_ite, ite_self, eq_self, implies_true, kept_bset, kept_railsOff, kept_showRail, kept_railFault, Out.or]
  all_goals (repeat' (first | split | with_reducible refine (kept_foldl _ _ _ fun t x => ?_).trans ?_))
  all_goals try simp only [kept_mk, kept_fold, kept_ite, ite_self, eq_self, implies_true, kept_bset, kept_railsOff, kept_showRail, kept_railFault, Out.or]
  all_goals (repeat' (first | split | with_reducible refine (kept_foldl _ _ _ fun t x => ?_).trans ?_))
  all_goals first | with_reducible rfl | (simp only [kept_mk, kept_fold, kept_ite, ite_self, eq_self, implies_true, kept_bset, kept_railsOff, kept_showRail, kept_railFault, Out.or]; done) | rfl

theorem kept_execRailRetry (s : State) (dflt : State) : kept ((execRailRetry s).or dflt) = kept s := by
  unfold execRailRetry
  simp only [Out.or]
  split
  · rfl
  · split
    · rw [kept_startRail]
      exact (kept_retry (secondOver s) false).trans (kept_secondOver s)
    · split
      · rw [kept_startRail, kept_secondOver]
      · rfl

theorem kept_resetRo (s : State) (lo hi : Nat) : kept (resetRo s lo hi) = kept s := (rfl)

theorem kept_gateGroup (s : State) (g : Nat) : kept (gateGroup s g) = kept s := by
  simp only [gateGroup, kept_mk, kept_fold, kept_bset, kept_resetRo]

theorem kept_tribDown (s : State) : kept (tribDown s) = kept s := by
  simp only [tribDown, kept_mk, kept_fold, kept_bset, kept_resetRo]

theorem kept_gateTrib (s : State) : kept (gateTrib s) = kept s := by
  simp only [gateTrib, kept_mk, kept_fold, kept_railsOff, kept_tribDown]

theorem kept_execDomainGateTimeout (dom : Fin 17) (s : State) (dflt : State) :
    kept ((execDomainGateTimeout dom s).or dflt) = kept s := by
  unfold execDomainGateTimeout
  simp only [Out.or]
  split
  · rfl
  · split
    · exact (kept_gateGroup _ _).trans (kept_elapse _ _)
    · exact (kept_gateTrib _).trans (kept_elapse _ _)

theorem kept_wakeUp (s : State) (cause : Nat) : kept (wakeUp s cause) = kept s := by
  simp only [wakeUp, kept_fset, kept_startBoot]

theorem kept_execWakePin (s : State) (dflt : State) : kept ((execWakePin s).or dflt) = kept s := by
  unfold execWakePin
  (repeat' split) <;> first | with_reducible rfl | (simp only [kept_wakeUp, Out.or]; done) | (with_reducible exact rfl)

theorem kept_execWakeTimerExpiry (s : State) (dflt : State) : kept ((execWakeTimerExpiry s).or dflt) = kept s := by
  unfold execWakeTimerExpiry
  try simp only [kept_mk, kept_fold, kept_ite, ite_self, eq_self, implies_true, kept_wakeUp, Out.or]
  all_goals (repeat' (first | split | with_reducible refine (kept_foldl _ _ _ fun t x => ?_).trans ?_))
  all_goals try simp only [kept_mk, kept_fold, kept_ite, ite_self, eq_self, implies_true, kept_wakeUp, Out.or]
  all_goals (repeat' (first | split | with_reducible refine (kept_foldl _ _ _ fun t x => ?_).trans ?_))
  all_goals first | with_reducible rfl | (simp only [kept_mk, kept_fold, kept_ite, ite_self, eq_self, implies_true, kept_wakeUp, Out.or]; done) | rfl

theorem kept_execClockPllUnlock (pll : Fin 4) (stack : Fin 4) (locked : Bool) (s : State) (dflt : State) : kept ((execClockPllUnlock pll stack locked s).or dflt) = kept s := by
  unfold execClockPllUnlock
  try simp only [kept_mk, kept_fold, kept_ite, ite_self, eq_self, implies_true, kept_raise, Out.or]
  all_goals (repeat' (first | split | with_reducible refine (kept_foldl _ _ _ fun t x => ?_).trans ?_))
  all_goals try simp only [kept_mk, kept_fold, kept_ite, ite_self, eq_self, implies_true, kept_raise, Out.or]
  all_goals (repeat' (first | split | with_reducible refine (kept_foldl _ _ _ fun t x => ?_).trans ?_))
  all_goals first | with_reducible rfl | (simp only [kept_mk, kept_fold, kept_ite, ite_self, eq_self, implies_true, kept_raise, Out.or]; done) | rfl

theorem kept_avsLimit (s : State) (more : Bool) : kept (avsLimit s more) = kept s := by
  unfold avsLimit
  try simp only [kept_mk, kept_fold, kept_ite, ite_self, eq_self, implies_true, kept_bset, kept_raise]
  all_goals (repeat' (first | split | with_reducible refine (kept_foldl _ _ _ fun t x => ?_).trans ?_))
  all_goals try simp only [kept_mk, kept_fold, kept_ite, ite_self, eq_self, implies_true, kept_bset, kept_raise]
  all_goals (repeat' (first | split | with_reducible refine (kept_foldl _ _ _ fun t x => ?_).trans ?_))
  all_goals first | with_reducible rfl | (simp only [kept_mk, kept_fold, kept_ite, ite_self, eq_self, implies_true, kept_bset, kept_raise]; done) | rfl

theorem kept_execAvsReading (ask : AvsAsk) (s : State) (dflt : State) : kept ((execAvsReading ask s).or dflt) = kept s := by
  unfold execAvsReading
  (repeat' split) <;> first | with_reducible rfl | (simp only [kept_fset, kept_avsLimit, Out.or]; done) | (with_reducible exact rfl)

theorem kept_avsWrite (s : State) (v : Word) : kept (avsWrite s v) = kept s := by
  unfold avsWrite
  try simp only [kept_mk, kept_fold, kept_ite, ite_self, eq_self, implies_true, kept_fset, kept_ignoredWrite, kept_lockedWrite, kept_avsLimit]
  all_goals (repeat' (first | split | with_reducible refine (kept_foldl _ _ _ fun t x => ?_).trans ?_))
  all_goals try simp only [kept_mk, kept_fold, kept_ite, ite_self, eq_self, implies_true, kept_fset, kept_ignoredWrite, kept_lockedWrite, kept_avsLimit]
  all_goals (repeat' (first | split | with_reducible refine (kept_foldl _ _ _ fun t x => ?_).trans ?_))
  all_goals first | with_reducible rfl | (simp only [kept_mk, kept_fold, kept_ite, ite_self, eq_self, implies_true, kept_fset, kept_ignoredWrite, kept_lockedWrite, kept_avsLimit]; done) | rfl

theorem kept_execVdiffCheck (mv : Nat) (s : State) (dflt : State) : kept ((execVdiffCheck mv s).or dflt) = kept s := by
  unfold execVdiffCheck
  try simp only [kept_mk, kept_fold, kept_ite, ite_self, eq_self, implies_true, kept_fset, kept_raise, Out.or]
  all_goals (repeat' (first | split | with_reducible refine (kept_foldl _ _ _ fun t x => ?_).trans ?_))
  all_goals try simp only [kept_mk, kept_fold, kept_ite, ite_self, eq_self, implies_true, kept_fset, kept_raise, Out.or]
  all_goals (repeat' (first | split | with_reducible refine (kept_foldl _ _ _ fun t x => ?_).trans ?_))
  all_goals first | with_reducible rfl | (simp only [kept_mk, kept_fold, kept_ite, ite_self, eq_self, implies_true, kept_fset, kept_raise, Out.or]; done) | rfl

theorem kept_setTherm (s : State) (i : Nat) (b : Bool) : kept (setTherm s i b) = kept s := by
  unfold setTherm
  (repeat' split) <;> first | with_reducible rfl | (simp only [kept_bset, kept_raise]; done) | (with_reducible exact rfl)

theorem kept_showTemps (s : State) (t : List Int) : kept (showTemps s t) = kept s := by
  unfold showTemps
  try simp only [kept_mk, kept_fold, kept_ite, ite_self, eq_self, implies_true, kept_fset]
  all_goals (repeat' (first | split | with_reducible refine (kept_foldl _ _ _ fun t x => ?_).trans ?_))
  all_goals try simp only [kept_mk, kept_fold, kept_ite, ite_self, eq_self, implies_true, kept_fset]
  all_goals (repeat' (first | split | with_reducible refine (kept_foldl _ _ _ fun t x => ?_).trans ?_))
  all_goals first | with_reducible rfl | (simp only [kept_mk, kept_fold, kept_ite, ite_self, eq_self, implies_true, kept_fset, kept_foldl]; done) | rfl

theorem kept_execColdResetRelease (s : State) (dflt : State) : kept ((execColdResetRelease s).or dflt) = kept s := (rfl)

theorem kept_flashCmd (s : State) (v : Word) : kept (flashCmd s v) = kept s := by
  unfold flashCmd
  try simp only [kept_mk, kept_fold, kept_ite, ite_self, eq_self, implies_true, kept_wr, kept_fset, kept_ignoredWrite, kept_bootServed]
  all_goals (repeat' (first | split | with_reducible refine (kept_foldl _ _ _ fun t x => ?_).trans ?_))
  all_goals try simp only [kept_mk, kept_fold, kept_ite, ite_self, eq_self, implies_true, kept_wr, kept_fset, kept_ignoredWrite, kept_bootServed]
  all_goals (repeat' (first | split | with_reducible refine (kept_foldl _ _ _ fun t x => ?_).trans ?_))
  all_goals first | with_reducible rfl | (simp only [kept_mk, kept_fold, kept_ite, ite_self, eq_self, implies_true, kept_wr, kept_fset, kept_ignoredWrite, kept_bootServed]; done) | rfl

theorem kept_execFlashRead (v : Word) (s : State) (dflt : State) : kept ((execFlashRead v s).or dflt) = kept s := by
  unfold execFlashRead
  try simp only [kept_mk, kept_fold, kept_ite, ite_self, eq_self, implies_true, kept_hostWrite, kept_flashCmd, Out.or]
  all_goals (repeat' (first | split | with_reducible refine (kept_foldl _ _ _ fun t x => ?_).trans ?_))
  all_goals try simp only [kept_mk, kept_fold, kept_ite, ite_self, eq_self, implies_true, kept_hostWrite, kept_flashCmd, Out.or]
  all_goals (repeat' (first | split | with_reducible refine (kept_foldl _ _ _ fun t x => ?_).trans ?_))
  all_goals first | with_reducible rfl | (simp only [kept_mk, kept_fold, kept_ite, ite_self, eq_self, implies_true, kept_hostWrite, kept_flashCmd, Out.or]; done) | rfl

theorem kept_execFlashProgram (v : Word) (s : State) (dflt : State) : kept ((execFlashProgram v s).or dflt) = kept s := by
  unfold execFlashProgram
  try simp only [kept_mk, kept_fold, kept_ite, ite_self, eq_self, implies_true, kept_hostWrite, kept_flashCmd, Out.or]
  all_goals (repeat' (first | split | with_reducible refine (kept_foldl _ _ _ fun t x => ?_).trans ?_))
  all_goals try simp only [kept_mk, kept_fold, kept_ite, ite_self, eq_self, implies_true, kept_hostWrite, kept_flashCmd, Out.or]
  all_goals (repeat' (first | split | with_reducible refine (kept_foldl _ _ _ fun t x => ?_).trans ?_))
  all_goals first | with_reducible rfl | (simp only [kept_mk, kept_fold, kept_ite, ite_self, eq_self, implies_true, kept_hostWrite, kept_flashCmd, Out.or]; done) | rfl

theorem kept_execFlashErase (v : Word) (s : State) (dflt : State) : kept ((execFlashErase v s).or dflt) = kept s := by
  unfold execFlashErase
  try simp only [kept_mk, kept_fold, kept_ite, ite_self, eq_self, implies_true, kept_hostWrite, kept_flashCmd, Out.or]
  all_goals (repeat' (first | split | with_reducible refine (kept_foldl _ _ _ fun t x => ?_).trans ?_))
  all_goals try simp only [kept_mk, kept_fold, kept_ite, ite_self, eq_self, implies_true, kept_hostWrite, kept_flashCmd, Out.or]
  all_goals (repeat' (first | split | with_reducible refine (kept_foldl _ _ _ fun t x => ?_).trans ?_))
  all_goals first | with_reducible rfl | (simp only [kept_mk, kept_fold, kept_ite, ite_self, eq_self, implies_true, kept_hostWrite, kept_flashCmd, Out.or]; done) | rfl

theorem kept_execFlashCmdDone (page : List Byte) (s : State) (dflt : State) : kept ((execFlashCmdDone page s).or dflt) = kept s := by
  simp only [execFlashCmdDone, kept_mk, kept_fold, kept_ite, ite_self, eq_self, implies_true, kept_wr, kept_foldl, Out.or]
  (repeat' split) <;> simp only [kept_mk, kept_fold, kept_ite, ite_self, eq_self, implies_true, kept_wr, kept_foldl, Out.or]

theorem kept_freeBytesNext (s : State) : kept (freeBytesNext s) = kept s := (rfl)

theorem kept_regionWrite (s : State) (r : Nat) (v : Word) : kept (regionWrite s r v) = kept s := by
  unfold regionWrite
  (repeat' split) <;> first | with_reducible rfl | (simp only [kept_wr, kept_bset, kept_ignoredWrite]; done) | (with_reducible exact rfl)

theorem kept_execHbmRegionWrite (r : Fin 5) (v : Word) (s : State) (dflt : State) : kept ((execHbmRegionWrite r v s).or dflt) = kept s := by
  unfold execHbmRegionWrite
  try simp only [kept_mk, kept_fold, kept_ite, ite_self, eq_self, implies_true, kept_domainWrite, kept_regionWrite, Out.or]
  all_goals (repeat' (first | split | with_reducible refine (kept_foldl _ _ _ fun t x => ?_).trans ?_))
  all_goals try simp only [kept_mk, kept_fold, kept_ite, ite_self, eq_self, implies_true, kept_domainWrite, kept_regionWrite, Out.or]
  all_goals (repeat' (first | split | with_reducible refine (kept_foldl _ _ _ fun t x => ?_).trans ?_))
  all_goals first | with_reducible rfl | (simp only [kept_mk, kept_fold, kept_ite, ite_self, eq_self, implies_true, kept_domainWrite, kept_regionWrite, Out.or]; done) | rfl

theorem kept_stackRefresh (s : State) : kept (stackRefresh s) = kept s := by
  unfold stackRefresh
  try simp only [kept_mk, kept_fold, kept_ite, ite_self, eq_self, implies_true, kept_needDomain]
  all_goals (repeat' (first | split | with_reducible refine (kept_foldl _ _ _ fun t x => ?_).trans ?_))
  all_goals try simp only [kept_mk, kept_fold, kept_ite, ite_self, eq_self, implies_true, kept_needDomain]
  all_goals (repeat' (first | split | with_reducible refine (kept_foldl _ _ _ fun t x => ?_).trans ?_))
  all_goals first | with_reducible rfl | (simp only [kept_mk, kept_fold, kept_ite, ite_self, eq_self, implies_true, kept_needDomain, kept_foldl]; done) | rfl

theorem kept_cullRow (s : State) (row : Nat) : kept (cullRow s row) = kept s := by
  unfold cullRow
  try simp only [kept_mk, kept_fold, kept_ite, ite_self, eq_self, implies_true]
  all_goals (repeat' (first | split | with_reducible refine (kept_foldl _ _ _ fun t x => ?_).trans ?_))
  all_goals try simp only [kept_mk, kept_fold, kept_ite, ite_self, eq_self, implies_true]
  all_goals (repeat' (first | split | with_reducible refine (kept_foldl _ _ _ fun t x => ?_).trans ?_))
  all_goals first | with_reducible rfl | (simp only [kept_mk, kept_fold, kept_ite, ite_self, eq_self, implies_true]; done) | rfl

theorem kept_correctedRead (s : State) (a : Nat) : kept (correctedRead s a) = kept s := by
  unfold correctedRead
  try simp only [kept_mk, kept_fold, kept_ite, ite_self, eq_self, implies_true, kept_count, kept_cullRow]
  all_goals (repeat' (first | split | with_reducible refine (kept_foldl _ _ _ fun t x => ?_).trans ?_))
  all_goals try simp only [kept_mk, kept_fold, kept_ite, ite_self, eq_self, implies_true, kept_count, kept_cullRow]
  all_goals (repeat' (first | split | with_reducible refine (kept_foldl _ _ _ fun t x => ?_).trans ?_))
  all_goals first | with_reducible rfl | (simp only [kept_mk, kept_fold, kept_ite, ite_self, eq_self, implies_true, kept_count, kept_cullRow]; done) | rfl

theorem kept_recordUncorr (s : State) (i : Nat) (main a b : Bool) : kept (recordUncorr s i main a b) = kept s := by
  simp only [recordUncorr, kept_mk, kept_fold, kept_ite, ite_self, eq_self, implies_true, kept_raise, kept_mainWritten, kept_mirrorWritten, kept_editGth]
  (repeat' split) <;> simp only [kept_mk, kept_fold, kept_ite, ite_self, eq_self, implies_true, kept_raise, kept_mainWritten, kept_mirrorWritten, kept_editGth]

theorem kept_journalUncorr (s : State) (addr : Nat) (a b : Bool) : kept (journalUncorr s addr a b) = kept s := by
  unfold journalUncorr
  (repeat' split) <;> first | with_reducible rfl | (simp only [kept_recordUncorr]; done) | (with_reducible exact rfl)

theorem kept_mirrorUncorr (s : State) (addr : Nat) (other main : Bool) : kept (mirrorUncorr s addr other main) = kept s := by
  unfold mirrorUncorr
  (repeat' split) <;> first | with_reducible rfl | (simp only [kept_recordUncorr]; done) | (with_reducible exact rfl)

theorem kept_histUncorr (s : State) (addr : Nat) : kept (histUncorr s addr) = kept s := by
  unfold histUncorr
  (repeat' split) <;> simp only [kept_mk, kept_fold, kept_invalid]

theorem kept_mergeUncorr (s : State) (k : Nat) : kept (mergeUncorr s k) = kept s := by
  unfold mergeUncorr
  (repeat' split) <;> first | with_reducible rfl | (simp only [kept_setMerge]; done) | (with_reducible exact rfl)

theorem kept_userUncorr (s : State) (addr : Nat) (u : HbmUser) : kept (userUncorr s addr u) = kept s := by
  unfold userUncorr
  (repeat' split) <;> simp only [kept_mk, kept_fold, kept_hbmWritten, kept_markUnrec, kept_journal, kept_journalUncorr, kept_mirrorUncorr, kept_histUncorr, kept_mergeUncorr]

theorem kept_uncorrRead (s : State) (a : Nat) (u : HbmUser) : kept (uncorrRead s a u) = kept s := by
  unfold uncorrRead
  try simp only [kept_mk, kept_fold, kept_ite, ite_self, eq_self, implies_true, kept_wr, kept_count, kept_raiseOnce, kept_cullRow, kept_userUncorr]
  all_goals (repeat' (first | split | with_reducible refine (kept_foldl _ _ _ fun t x => ?_).trans ?_))
  all_goals try simp only [kept_mk, kept_fold, kept_ite, ite_self, eq_self, implies_true, kept_wr, kept_count, kept_raiseOnce, kept_cullRow, kept_userUncorr]
  all_goals (repeat' (first | split | with_reducible refine (kept_foldl _ _ _ fun t x => ?_).trans ?_))
  all_goals first | with_reducible rfl | (simp only [kept_mk, kept_fold, kept_ite, ite_self, eq_self, implies_true, kept_wr, kept_count, kept_raiseOnce, kept_cullRow, kept_userUncorr]; done) | rfl

theorem kept_execHbmReadCheck (addr : BitVec 38) (bad : Nat) (user : HbmUser) (s : State) (dflt : State) : kept ((execHbmReadCheck addr bad user s).or dflt) = kept s := by
  unfold execHbmReadCheck
  try simp only [kept_mk, kept_fold, kept_ite, ite_self, eq_self, implies_true, kept_hbmWritten, kept_correctedRead, kept_uncorrRead, Out.or]
  all_goals (repeat' (first | split | with_reducible refine (kept_foldl _ _ _ fun t x => ?_).trans ?_))
  all_goals try simp only [kept_mk, kept_fold, kept_ite, ite_self, eq_self, implies_true, kept_hbmWritten, kept_correctedRead, kept_uncorrRead, Out.or]
  all_goals (repeat' (first | split | with_reducible refine (kept_foldl _ _ _ fun t x => ?_).trans ?_))
  all_goals first | with_reducible rfl | (simp only [kept_mk, kept_fold, kept_ite, ite_self, eq_self, implies_true, kept_hbmWritten, kept_correctedRead, kept_uncorrRead, Out.or]; done) | rfl

theorem kept_readBad (s : State) (beats : List Nat) : kept (readBad s beats) = kept s := by
  unfold readBad
  try simp only [kept_mk, kept_fold, kept_ite, ite_self, eq_self, implies_true, kept_uncorrRead]
  all_goals (repeat' (first | split | with_reducible refine (kept_foldl _ _ _ fun t x => ?_).trans ?_))
  all_goals try simp only [kept_mk, kept_fold, kept_ite, ite_self, eq_self, implies_true, kept_uncorrRead]
  all_goals (repeat' (first | split | with_reducible refine (kept_foldl _ _ _ fun t x => ?_).trans ?_))
  all_goals first | with_reducible rfl | (simp only [kept_mk, kept_fold, kept_ite, ite_self, eq_self, implies_true, kept_uncorrRead, kept_foldl]; done) | rfl

theorem kept_execRowRetire (s : State) (dflt : State) : kept ((execRowRetire s).or dflt) = kept s := by
  simp only [execRowRetire, kept_mk, kept_fold, kept_ite, ite_self, eq_self, implies_true, kept_fset, kept_raise, Out.or]
  (repeat' split) <;> simp only [kept_mk, kept_fold, kept_ite, ite_self, eq_self, implies_true, kept_fset, kept_raise, Out.or]

theorem kept_testSweep (s : State) (k : Nat) : kept (testSweep s k) = kept s := (rfl)

theorem kept_unitFailed (s : State) (k u : Nat) (rows : List Nat) : kept (unitFailed s k u rows) = kept s := by
  unfold unitFailed
  try simp only [kept_mk, kept_fold, kept_ite, ite_self, eq_self, implies_true, kept_fset, kept_bset, kept_count, kept_raise, kept_cullRow]
  all_goals (repeat' (first | split | with_reducible refine (kept_foldl _ _ _ fun t x => ?_).trans ?_))
  all_goals try simp only [kept_mk, kept_fold, kept_ite, ite_self, eq_self, implies_true, kept_fset, kept_bset, kept_count, kept_raise, kept_cullRow]
  all_goals (repeat' (first | split | with_reducible refine (kept_foldl _ _ _ fun t x => ?_).trans ?_))
  all_goals first | with_reducible rfl | (simp only [kept_mk, kept_fold, kept_ite, ite_self, eq_self, implies_true, kept_fset, kept_bset, kept_count, kept_raise, kept_cullRow, kept_foldl]; done) | rfl

theorem kept_bglReqWrite (s : State) (v : Word) : kept (bglReqWrite s v) = kept s := by
  unfold bglReqWrite
  try simp only [kept_mk, kept_fold, kept_ite, ite_self, eq_self, implies_true, kept_ignoredWrite]
  all_goals (repeat' (first | split | with_reducible refine (kept_foldl _ _ _ fun t x => ?_).trans ?_))
  all_goals try simp only [kept_mk, kept_fold, kept_ite, ite_self, eq_self, implies_true, kept_ignoredWrite]
  all_goals (repeat' (first | split | with_reducible refine (kept_foldl _ _ _ fun t x => ?_).trans ?_))
  all_goals first | with_reducible rfl | (simp only [kept_mk, kept_fold, kept_ite, ite_self, eq_self, implies_true, kept_ignoredWrite]; done) | rfl

theorem kept_execBglReqGo (v : Word) (s : State) (dflt : State) : kept ((execBglReqGo v s).or dflt) = kept s := by
  unfold execBglReqGo
  try simp only [kept_mk, kept_fold, kept_ite, ite_self, eq_self, implies_true, kept_domainWrite, kept_bglReqWrite, Out.or]
  all_goals (repeat' (first | split | with_reducible refine (kept_foldl _ _ _ fun t x => ?_).trans ?_))
  all_goals try simp only [kept_mk, kept_fold, kept_ite, ite_self, eq_self, implies_true, kept_domainWrite, kept_bglReqWrite, Out.or]
  all_goals (repeat' (first | split | with_reducible refine (kept_foldl _ _ _ fun t x => ?_).trans ?_))
  all_goals first | with_reducible rfl | (simp only [kept_mk, kept_fold, kept_ite, ite_self, eq_self, implies_true, kept_domainWrite, kept_bglReqWrite, Out.or]; done) | rfl

theorem kept_revokeLease (s : State) (k : Nat) (bad : List Nat) : kept (revokeLease s k bad) = kept s := by
  simp only [revokeLease, kept_mk, kept_fold, kept_ite, ite_self, eq_self, implies_true]
  (repeat' split) <;> simp only [kept_mk, kept_fold, kept_ite, ite_self, eq_self, implies_true]

theorem kept_execLeaseRevoke (kind : Fin 3) (bad : List Nat) (s : State) (dflt : State) : kept ((execLeaseRevoke kind bad s).or dflt) = kept s := by
  simp only [execLeaseRevoke, kept_revokeLease, Out.or]

theorem kept_partFailures (s : State) (rows banks : List Nat) : kept (partFailures s rows banks) = kept s := by
  unfold partFailures
  try simp only [kept_mk, kept_fold, kept_ite, ite_self, eq_self, implies_true, kept_unitFailed]
  all_goals (repeat' (first | split | with_reducible refine (kept_foldl _ _ _ fun t x => ?_).trans ?_))
  all_goals try simp only [kept_mk, kept_fold, kept_ite, ite_self, eq_self, implies_true, kept_unitFailed]
  all_goals (repeat' (first | split | with_reducible refine (kept_foldl _ _ _ fun t x => ?_).trans ?_))
  all_goals first | with_reducible rfl | (simp only [kept_mk, kept_fold, kept_ite, ite_self, eq_self, implies_true, kept_unitFailed, kept_foldl]; done) | rfl

theorem kept_execSelftestDone (failed : Byte) (rows banks : List Nat) (s : State) (dflt : State) : kept ((execSelftestDone failed rows banks s).or dflt) = kept s := by
  unfold execSelftestDone
  (repeat' split) <;> simp only [kept_mk, kept_fold, kept_complete, kept_partFailures, Out.or]

theorem kept_execCaptureRecord (d : Nat) (s : State) (dflt : State) : kept ((execCaptureRecord d s).or dflt) = kept s := by
  unfold execCaptureRecord
  (repeat' split) <;> simp only [kept_mk, kept_fold, kept_setDesc, kept_invalidOpen, Out.or]

theorem kept_captureStart (s : State) : kept (captureStart s) = kept s := by
  unfold captureStart
  (repeat' split) <;> simp only [kept_mk, kept_fold, kept_setDesc]

theorem kept_execCaptureRecordDone (s : State) (dflt : State) : kept ((execCaptureRecordDone s).or dflt) = kept s := by
  unfold execCaptureRecordDone
  (repeat' split) <;> simp only [kept_mk, kept_fold, kept_completeOk, Out.or]

theorem kept_txLatch (s : State) (n : Nat) : kept (txLatch s n) = kept s := by
  simp only [txLatch, kept_fset, kept_editFrm]

theorem kept_generated (s : State) (n len : Nat) : kept (generated s n len).2 = kept s := by
  simp only [generated, kept_editLane]

theorem kept_generated_eq {s : State} {n len : Nat} {so ro} (h : generated s n len = (ro, so)) : kept so = kept s := by
  have e := kept_generated s n len
  rw [h] at e
  exact e

theorem kept_serialize (s : State) (n : Nat) (b : List Byte) : kept (serialize s n b) = kept s := by
  unfold serialize
  try simp only [kept_mk, kept_fold, kept_ite, ite_self, eq_self, implies_true, kept_wire, kept_editLane]
  all_goals (repeat' (first | split | with_reducible refine (kept_foldl _ _ _ fun t x => ?_).trans ?_))
  all_goals try simp only [kept_mk, kept_fold, kept_ite, ite_self, eq_self, implies_true, kept_wire, kept_editLane]
  all_goals (repeat' (first | split | with_reducible refine (kept_foldl _ _ _ fun t x => ?_).trans ?_))
  all_goals first | with_reducible rfl | (simp only [kept_mk, kept_fold, kept_ite, ite_self, eq_self, implies_true, kept_wire, kept_editLane]; done) | rfl

theorem kept_sframeSend (s : State) (n : Nat) : kept (sframeSend s n) = kept s := by
  unfold sframeSend
  try simp only [kept_mk, kept_fold, kept_ite, ite_self, eq_self, implies_true, kept_editFrm, kept_generated, kept_serialize]
  all_goals (repeat' (first | split | with_reducible refine (kept_foldl _ _ _ fun t x => ?_).trans ?_))
  all_goals try simp only [kept_mk, kept_fold, kept_ite, ite_self, eq_self, implies_true, kept_editFrm, kept_generated, kept_serialize]
  all_goals (repeat' (first | split | with_reducible refine (kept_foldl _ _ _ fun t x => ?_).trans ?_))
  all_goals first | with_reducible rfl | exact kept_generated_eq ‹_› | (simp only [kept_mk, kept_fold, kept_ite, ite_self, eq_self, implies_true, kept_editFrm, kept_generated, kept_serialize]; done) | (simp only [kept_mk, kept_fold, kept_ite, ite_self, eq_self, implies_true, kept_editFrm, kept_generated, kept_serialize]; exact kept_generated_eq ‹_›) | rfl

theorem kept_ethPatterns (s : State) : kept (ethPatterns s) = kept s := by
  unfold ethPatterns
  try simp only [kept_mk, kept_fold, kept_ite, ite_self, eq_self, implies_true, kept_generated, kept_serialize]
  all_goals (repeat' (first | split | with_reducible refine (kept_foldl _ _ _ fun t x => ?_).trans ?_))
  all_goals try simp only [kept_mk, kept_fold, kept_ite, ite_self, eq_self, implies_true, kept_generated, kept_serialize]
  all_goals (repeat' (first | split | with_reducible refine (kept_foldl _ _ _ fun t x => ?_).trans ?_))
  all_goals first | with_reducible rfl | exact kept_generated_eq ‹_› | (simp only [kept_mk, kept_fold, kept_ite, ite_self, eq_self, implies_true, kept_generated, kept_serialize, kept_foldl]; done) | (simp only [kept_mk, kept_fold, kept_ite, ite_self, eq_self, implies_true, kept_generated, kept_serialize, kept_foldl]; exact kept_generated_eq ‹_›) | rfl

theorem kept_linesLost (s : State) : kept (linesLost s) = kept s := by
  unfold linesLost
  (repeat' split) <;> first | with_reducible rfl | (simp only [kept_markUnrec]; done) | (with_reducible exact rfl)

theorem kept_frameSend (s : State) : kept (frameSend s) = kept s := by
  unfold frameSend
  try simp only [kept_mk, kept_fold, kept_ite, ite_self, eq_self, implies_true, kept_editFab, kept_guardsHold, kept_mergesFrame, kept_frameOuts, kept_tierOuts, kept_sframeSend, kept_ethPatterns, kept_linesLost]
  all_goals (repeat' (first | split | with_reducible refine (kept_foldl _ _ _ fun t x => ?_).trans ?_))
  all_goals try simp only [kept_mk, kept_fold, kept_ite, ite_self, eq_self, implies_true, kept_editFab, kept_guardsHold, kept_mergesFrame, kept_frameOuts, kept_tierOuts, kept_sframeSend, kept_ethPatterns, kept_linesLost]
  all_goals (repeat' (first | split | with_reducible refine (kept_foldl _ _ _ fun t x => ?_).trans ?_))
  all_goals first | with_reducible rfl | (simp only [kept_mk, kept_fold, kept_ite, ite_self, eq_self, implies_true, kept_editFab, kept_guardsHold, kept_mergesFrame, kept_frameOuts, kept_tierOuts, kept_sframeSend, kept_ethPatterns, kept_linesLost, kept_foldl]; done) | rfl

theorem kept_lineBoundary (s : State) (n : Nat) : kept (lineBoundary s n) = kept s := by
  unfold lineBoundary
  try simp only [kept_mk, kept_fold, kept_ite, ite_self, eq_self, implies_true, kept_editFrm, kept_oofFrame]
  all_goals (repeat' (first | split | with_reducible refine (kept_foldl _ _ _ fun t x => ?_).trans ?_))
  all_goals try simp only [kept_mk, kept_fold, kept_ite, ite_self, eq_self, implies_true, kept_editFrm, kept_oofFrame]
  all_goals (repeat' (first | split | with_reducible refine (kept_foldl _ _ _ fun t x => ?_).trans ?_))
  all_goals first | with_reducible rfl | (simp only [kept_mk, kept_fold, kept_ite, ite_self, eq_self, implies_true, kept_editFrm, kept_oofFrame]; done) | rfl

theorem kept_ohpBoundary (s : State) : kept (ohpBoundary s) = kept s := by
  unfold ohpBoundary
  try simp only [kept_mk, kept_fold, kept_ite, ite_self, eq_self, implies_true, kept_editDcc]
  all_goals (repeat' (first | split | with_reducible refine (kept_foldl _ _ _ fun t x => ?_).trans ?_))
  all_goals try simp only [kept_mk, kept_fold, kept_ite, ite_self, eq_self, implies_true, kept_editDcc]
  all_goals (repeat' (first | split | with_reducible refine (kept_foldl _ _ _ fun t x => ?_).trans ?_))
  all_goals first | with_reducible rfl | (simp only [kept_mk, kept_fold, kept_ite, ite_self, eq_self, implies_true, kept_editDcc, kept_foldl]; done) | rfl

theorem kept_nextFrameNo (s : State) : kept (nextFrameNo s) = kept s := (rfl)

theorem kept_unitsStart (s : State) : kept (unitsStart s) = kept s := by
  unfold unitsStart
  try simp only [kept_mk, kept_fold, kept_ite, ite_self, eq_self, implies_true, kept_raiBoundary, kept_slipRead, kept_portBoundary, kept_countTimers, kept_lineBoundary, kept_ohpBoundary, kept_nextFrameNo]
  all_goals (repeat' (first | split | with_reducible refine (kept_foldl _ _ _ fun t x => ?_).trans ?_))
  all_goals try simp only [kept_mk, kept_fold, kept_ite, ite_self, eq_self, implies_true, kept_raiBoundary, kept_slipRead, kept_portBoundary, kept_countTimers, kept_lineBoundary, kept_ohpBoundary, kept_nextFrameNo]
  all_goals (repeat' (first | split | with_reducible refine (kept_foldl _ _ _ fun t x => ?_).trans ?_))
  all_goals first | with_reducible rfl | (simp only [kept_mk, kept_fold, kept_ite, ite_self, eq_self, implies_true, kept_raiBoundary, kept_slipRead, kept_portBoundary, kept_countTimers, kept_lineBoundary, kept_ohpBoundary, kept_nextFrameNo, kept_foldl]; done) | rfl

theorem kept_pathsStart (s : State) : kept (pathsStart s) = kept s := by
  unfold pathsStart
  try simp only [kept_mk, kept_fold, kept_ite, ite_self, eq_self, implies_true, kept_leakFrame, kept_storePeriod, kept_pathLatch]
  all_goals (repeat' (first | split | with_reducible refine (kept_foldl _ _ _ fun t x => ?_).trans ?_))
  all_goals try simp only [kept_mk, kept_fold, kept_ite, ite_self, eq_self, implies_true, kept_leakFrame, kept_storePeriod, kept_pathLatch]
  all_goals (repeat' (first | split | with_reducible refine (kept_foldl _ _ _ fun t x => ?_).trans ?_))
  all_goals first | with_reducible rfl | (simp only [kept_mk, kept_fold, kept_ite, ite_self, eq_self, implies_true, kept_leakFrame, kept_storePeriod, kept_pathLatch, kept_foldl]; done) | rfl

theorem kept_frameStart (s : State) : kept (frameStart s) = kept s := by
  have h (t : State) : kept { t with hbm := { t.hbm with freeing := 0 } } = kept t := rfl
  unfold frameStart
  rw [h, kept_feedDs0, kept_fabControls, kept_guardsFrame, kept_pathsStart, kept_unitsStart]

theorem kept_frameLatch (s : State) : kept (frameLatch s) = kept s := by
  unfold frameLatch
  try simp only [kept_mk, kept_fold, kept_ite, ite_self, eq_self, implies_true, kept_dccOpen, kept_txLatch]
  all_goals (repeat' (first | split | with_reducible refine (kept_foldl _ _ _ fun t x => ?_).trans ?_))
  all_goals try simp only [kept_mk, kept_fold, kept_ite, ite_self, eq_self, implies_true, kept_dccOpen, kept_txLatch]
  all_goals (repeat' (first | split | with_reducible refine (kept_foldl _ _ _ fun t x => ?_).trans ?_))
  all_goals first | with_reducible rfl | (simp only [kept_mk, kept_fold, kept_ite, ite_self, eq_self, implies_true, kept_dccOpen, kept_txLatch, kept_foldl]; done) | rfl

theorem kept_framePeeks (s : State) : kept (framePeeks s) = kept s := by
  simp only [framePeeks, kept_mapPeek, kept_protPeek, kept_mrgPeekAt]

theorem kept_execSuperframeBoundary (s : State) (dflt : State) : kept ((execSuperframeBoundary s).or dflt) = kept s := by
  unfold execSuperframeBoundary
  (repeat' split) <;> simp only [kept_mk, kept_fold, kept_probesSuperframe, kept_symPeek, kept_cemPeek, Out.or]

end Sys2Proof.Machine
end

