-- ==== Sys2Proof/Laws/KeptRegs.lean ====
section
/-! SUPPORT. What register writes, wakes and the matrix keep: the memories, the fuse and the commands that wait (`kept`). -/

set_option linter.unusedSimpArgs false
set_option linter.unusedTactic false
set_option linter.unreachableTactic false
set_option linter.unusedVariables false
set_option linter.unnecessarySeqFocus false

namespace Sys2Proof.Machine

theorem kept_fieldWrite (s : State) (r : RegRow) (off : Nat) (v : Word) : kept (fieldWrite s r off v) = kept s := by
  unfold fieldWrite
  try simp only [kept_mk, kept_fold, kept_ite, ite_self, eq_self, implies_true, kept_wr, kept_ignoredWrite, kept_lockedWrite]
  all_goals (repeat' (first | split | with_reducible refine (kept_foldl _ _ _ fun t x => ?_).trans ?_))
  all_goals try simp only [kept_mk, kept_fold, kept_ite, ite_self, eq_self, implies_true, kept_wr, kept_ignoredWrite, kept_lockedWrite]
  all_goals (repeat' (first | split | with_reducible refine (kept_foldl _ _ _ fun t x => ?_).trans ?_))
  all_goals first | with_reducible rfl | (simp only [kept_mk, kept_fold, kept_ite, ite_self, eq_self, implies_true, kept_wr, kept_ignoredWrite, kept_lockedWrite]; done) | rfl

theorem kept_afterWrite (s : State) (off : Nat) : kept (afterWrite s off) = kept s := by
  unfold afterWrite
  try simp only [kept_mk, kept_fold, kept_ite, ite_self, eq_self, implies_true, kept_wr, kept_mapPeek, kept_protPeek, kept_mrgPeek, kept_symPeek, kept_cemPeek, kept_showTim, kept_trimFree]
  all_goals (repeat' (first | split | with_reducible refine (kept_foldl _ _ _ fun t x => ?_).trans ?_))
  all_goals try simp only [kept_mk, kept_fold, kept_ite, ite_self, eq_self, implies_true, kept_wr, kept_mapPeek, kept_protPeek, kept_mrgPeek, kept_symPeek, kept_cemPeek, kept_showTim, kept_trimFree]
  all_goals (repeat' (first | split | with_reducible refine (kept_foldl _ _ _ fun t x => ?_).trans ?_))
  all_goals first | with_reducible rfl | (simp only [kept_mk, kept_fold, kept_ite, ite_self, eq_self, implies_true, kept_wr, kept_mapPeek, kept_protPeek, kept_mrgPeek, kept_symPeek, kept_cemPeek, kept_showTim, kept_trimFree, kept_foldl]; done) | rfl

theorem kept_plainWrite (s : State) (off : Nat) (v : Word) : kept (plainWrite s off v) = kept s := by
  unfold plainWrite
  (repeat' split) <;> first | with_reducible rfl | (simp only [kept_ignoredWrite, kept_fieldWrite, kept_afterWrite]; done) | (with_reducible exact rfl)

theorem kept_fpoutWrite (s : State) (j : Nat) (v : Word) : kept (fpoutWrite s j v) = kept s := by
  simp only [fpoutWrite, kept_freeNext, kept_execFpoutCtlWrite]

theorem kept_memberMacWrite (s : State) (off : Nat) : kept (memberMacWrite s off) = kept s := by
  unfold memberMacWrite
  (repeat' split) <;> first | with_reducible rfl | (simp only [kept_ignoredWrite]; done) | (with_reducible exact rfl)

theorem kept_msixWrite (s : State) (off : Nat) (v : Word) : kept (msixWrite s off v) = kept s := by
  unfold msixWrite
  split
  · rfl
  · dsimp only
    (repeat' split) <;> first | rfl | exact kept_sendPending _

theorem kept_startGroup (s : State) (g : Nat) : kept (startGroup s g) = kept s := by
  have h (t : State) (n : Nat) :
      kept (startLane (if ethMode (laneMode t n) then t else freshLane t n) n) = kept t := by
    rw [kept_startLane]
    split
    · rfl
    · exact kept_freshLane _ _
  unfold startGroup
  rw [kept_foldl _ _ _ h, kept_setPlls]

theorem kept_startPorts (s : State) : kept (startPorts s) = kept s := by
  unfold startPorts
  try simp only [kept_mk, kept_fold, kept_ite, ite_self, eq_self, implies_true, kept_portStart]
  all_goals (repeat' (first | split | with_reducible refine (kept_foldl _ _ _ fun t x => ?_).trans ?_))
  all_goals try simp only [kept_mk, kept_fold, kept_ite, ite_self, eq_self, implies_true, kept_portStart]
  all_goals (repeat' (first | split | with_reducible refine (kept_foldl _ _ _ fun t x => ?_).trans ?_))
  all_goals first | with_reducible rfl | (simp only [kept_mk, kept_fold, kept_ite, ite_self, eq_self, implies_true, kept_portStart, kept_foldl]; done) | rfl

theorem kept_startLoad (s : State) : kept (startLoad s) = kept s := by
  unfold startLoad
  try simp only [kept_mk, kept_fold, kept_ite, ite_self, eq_self, implies_true]
  all_goals (repeat' (first | split | with_reducible refine (kept_foldl _ _ _ fun t x => ?_).trans ?_))
  all_goals try simp only [kept_mk, kept_fold, kept_ite, ite_self, eq_self, implies_true]
  all_goals (repeat' (first | split | with_reducible refine (kept_foldl _ _ _ fun t x => ?_).trans ?_))
  all_goals first | with_reducible rfl | (simp only [kept_mk, kept_fold, kept_ite, ite_self, eq_self, implies_true]; done) | rfl

theorem kept_selfRef (s : State) (l : List Bool) : kept { s with hbm := { s.hbm with selfRef := l } } = kept s := rfl

theorem kept_powerHbm (s : State) : kept ((rangeFrom 18 4).foldl (fun s i => bset s Reg.pwrDomain i true) s) = kept s :=
  kept_foldl _ _ _ fun t i => kept_bset _ _ _ _

theorem kept_powerUp (s : State) (d : Nat) : kept (powerUp s d) = kept s := by
  unfold powerUp
  split
  · exact kept_bset _ _ _ _
  · exact (kept_stackRefresh _).trans ((kept_selfRef _ _).trans (kept_powerHbm s))

theorem kept_refuseAccess (s : State) (w : MtxWait) (kind : Nat) : kept (refuseAccess s w kind) = kept s := by
  unfold refuseAccess
  try simp only [kept_mk, kept_fold, kept_ite, ite_self, eq_self, implies_true, kept_wr, kept_count, kept_wire, kept_raiseOnce]
  all_goals (repeat' (first | split | with_reducible refine (kept_foldl _ _ _ fun t x => ?_).trans ?_))
  all_goals try simp only [kept_mk, kept_fold, kept_ite, ite_self, eq_self, implies_true, kept_wr, kept_count, kept_wire, kept_raiseOnce]
  all_goals (repeat' (first | split | with_reducible refine (kept_foldl _ _ _ fun t x => ?_).trans ?_))
  all_goals first | with_reducible rfl | (simp only [kept_mk, kept_fold, kept_ite, ite_self, eq_self, implies_true, kept_wr, kept_count, kept_wire, kept_raiseOnce]; done) | rfl

theorem kept_supSignal (s : State) (i : Nat) : kept (supSignal s i) = kept s := by
  unfold supSignal
  (repeat' split) <;> first | with_reducible rfl | (simp only [kept_raise]; done) | (with_reducible exact rfl)

theorem kept_hostSignal (s : State) (i : Nat) : kept (hostSignal s i) = kept s := by
  unfold hostSignal
  try simp only [kept_mk, kept_fold, kept_ite, ite_self, eq_self, implies_true]
  all_goals (repeat' (first | split | with_reducible refine (kept_foldl _ _ _ fun t x => ?_).trans ?_))
  all_goals try simp only [kept_mk, kept_fold, kept_ite, ite_self, eq_self, implies_true]
  all_goals (repeat' (first | split | with_reducible refine (kept_foldl _ _ _ fun t x => ?_).trans ?_))
  all_goals first | with_reducible rfl | (simp only [kept_mk, kept_fold, kept_ite, ite_self, eq_self, implies_true]; done) | rfl

theorem kept_mboxColl (s : State) (i : Nat) : kept (mboxColl s i) = kept s := by
  simp only [mboxColl, kept_wr, kept_count, kept_raiseOnce]

theorem kept_readEffect (s : State) (off : Nat) : kept (readEffect s off) = kept s := by
  unfold readEffect
  (repeat' split) <;> simp only [kept_mk, kept_fold, kept_execChainHiRead, kept_execSnapSeqRead, kept_execTodNsRead]

theorem kept_release (s : State) (p : MtxWait → Bool) : kept (release s p) = kept s := (rfl)

end Sys2Proof.Machine
end

