-- ==== Sys2Proof/Laws/Tab.lean ====
section
/-! SUPPORT. What reading and writing a sparse table do, and that writing keeps its canonical form. -/

namespace Sys2Proof

theorem Tab.find_put_same {α : Type} (t : Tab α) (k : Nat) (v : α) : Tab.find? (Tab.put t k v) k = some v := by
  induction t with
  | nil => simp [Tab.put, Tab.find?]
  | cons p r ih => simp only [Tab.put]; (repeat' split) <;> simp_all [Tab.find?]

theorem Tab.find_put_other {α : Type} (t : Tab α) (k j : Nat) (v : α) (h : j ≠ k) :
    Tab.find? (Tab.put t k v) j = Tab.find? t j := by
  induction t with
  | nil => simp [Tab.put, Tab.find?, h.symm]
  | cons p r ih =>
    have h' : ¬ k = j := fun e => h e.symm
    simp only [Tab.put]
    split
    · rename_i e
      simp only [Tab.find?, h', e, if_false]
    · split
      · simp only [Tab.find?, h', if_false]
      · simp only [Tab.find?, ih]

theorem Tab.find_drop_same {α : Type} (t : Tab α) (k : Nat) : Tab.find? (Tab.drop t k) k = none := by
  induction t with
  | nil => rfl
  | cons p r ih =>
    by_cases e : p.1 = k
    · simpa [Tab.drop, e] using ih
    · simpa [Tab.drop, Tab.find?, e] using ih

theorem Tab.find_drop_other {α : Type} (t : Tab α) (k j : Nat) (h : j ≠ k) :
    Tab.find? (Tab.drop t k) j = Tab.find? t j := by
  induction t with
  | nil => rfl
  | cons p r ih =>
    by_cases e : p.1 = k
    · have : p.1 ≠ j := fun x => h (x.symm.trans e)
      simp only [Tab.drop, Tab.find?, this] at ih ⊢
      simpa [e] using ih
    · by_cases f : p.1 = j <;> simp_all [Tab.drop, Tab.find?]

/-- A table with a value stored for a number reads it there, -/
theorem Tab.get_store_same {α : Type} [DecidableEq α] (t : Tab α) (k : Nat) (d v : α) :
    Tab.get (Tab.store t k d v) k d = v := by
  unfold Tab.store Tab.get
  split
  · rename_i h; rw [Tab.find_drop_same, h]; rfl
  · rw [Tab.find_put_same]; rfl

/-- and reads every other number as before. -/
theorem Tab.get_store_other {α : Type} [DecidableEq α] (t : Tab α) (k j : Nat) (d e v : α) (h : j ≠ k) :
    Tab.get (Tab.store t k d v) j e = Tab.get t j e := by
  unfold Tab.store Tab.get
  split
  · rw [Tab.find_drop_other _ _ _ h]
  · rw [Tab.find_put_other _ _ _ _ h]

theorem Tab.mem_put {α : Type} {t : Tab α} {k : Nat} {v : α} {p : Nat × α} (h : p ∈ Tab.put t k v) : p = (k, v) ∨ p ∈ t := by
  induction t with
  | nil => simp [Tab.put] at h; exact .inl h
  | cons q r ih =>
    simp only [Tab.put] at h
    split at h
    · simp at h ⊢; rcases h with h | h
      · exact .inl h
      · exact .inr (.inr h)
    · split at h
      · simp at h ⊢; exact h
      · simp at h ⊢; rcases h with h | h
        · exact .inr (.inl h)
        · rcases ih h with h | h
          · exact .inl h
          · exact .inr (.inr h)

theorem Tab.wf_filter {α : Type} {t : Tab α} (f : Nat × α → Bool) (h : Tab.wf t = true) : Tab.wf (t.filter f) = true := by
  induction t with
  | nil => rfl
  | cons q r ih =>
    simp only [Tab.wf, Bool.and_eq_true] at h
    simp only [List.filter]
    split
    · simp only [Tab.wf, Bool.and_eq_true, ih h.2, and_true, List.all_eq_true] at h ⊢
      exact fun p m => h.1 p ((List.mem_filter.mp m).1)
    · exact ih h.2

theorem Tab.wf_drop {α : Type} {t : Tab α} (k : Nat) (h : Tab.wf t = true) : Tab.wf (Tab.drop t k) = true :=
  Tab.wf_filter _ h

theorem Tab.wf_put {α : Type} {t : Tab α} (k : Nat) (v : α) (h : Tab.wf t = true) : Tab.wf (Tab.put t k v) = true := by
  induction t with
  | nil => rfl
  | cons q r ih =>
    have h' := h
    simp only [Tab.wf, Bool.and_eq_true, List.all_eq_true, decide_eq_true_eq] at h
    simp only [Tab.put]
    split
    · rename_i e
      simp only [Tab.wf, Bool.and_eq_true, List.all_eq_true, decide_eq_true_eq]
      exact ⟨fun p m => e ▸ h.1 p m, h.2⟩
    · split
      · rename_i e
        simp only [Tab.wf, Bool.and_eq_true, List.all_eq_true, decide_eq_true_eq, List.mem_cons] at h' ⊢
        exact ⟨fun p m => by
          rcases m with rfl | m
          · exact e
          · exact Nat.lt_trans e (h.1 p m), h'⟩
      · simp only [Tab.wf, Bool.and_eq_true, List.all_eq_true, decide_eq_true_eq]
        refine ⟨fun p m => ?_, ih h.2⟩
        rcases Tab.mem_put m with rfl | m
        · show q.1 < k; omega
        · exact h.1 p m

theorem Tab.wf_store {α : Type} [DecidableEq α] {t : Tab α} (k : Nat) (d v : α) (h : Tab.wf t = true) :
    Tab.wf (Tab.store t k d v) = true := by
  unfold Tab.store
  split
  · exact Tab.wf_drop k h
  · exact Tab.wf_put k v h

/-- Storing keeps the form in which nothing is listed that an unlisted number already holds. -/
theorem Tab.noDefaults_store {α : Type} [DecidableEq α] {t : Tab α} {f : Nat → α} (k : Nat) (v : α)
    (h : Machine.noDefaults t f = true) : Machine.noDefaults (Tab.store t k (f k) v) f = true := by
  simp only [Machine.noDefaults, List.all_eq_true, decide_eq_true_eq] at h ⊢
  intro p m
  unfold Tab.store at m
  split at m
  · exact h p (List.mem_filter.mp m).1
  · rename_i e
    rcases Tab.mem_put m with rfl | m
    · exact e
    · exact h p m

theorem Tab.noDefaults_filter {α : Type} [DecidableEq α] {t : Tab α} {f : Nat → α} (c : Nat × α → Bool)
    (h : Machine.noDefaults t f = true) : Machine.noDefaults (t.filter c) f = true := by
  simp only [Machine.noDefaults, List.all_eq_true] at h ⊢
  exact fun p m => h p (List.mem_filter.mp m).1

end Sys2Proof
end

