-- ==== Sys2Proof/Laws/Memory.lean ====
section
/-! SUPPORT. Buffer memory, mailbox, scratchpad and map-memory window: what a write does, and that every operation on them keeps
their canonical form. -/

namespace Sys2Proof.Machine

/-- The canonical form depends on the memories alone. -/
theorem memWf_kept {s t : State} (h : kept t = kept s) : memWf t = memWf s := by
  have e (u : State) : memWf u = (Tab.wf (kept u).mem && noDefaults (kept u).mem (fun _ => 0) && Tab.wf (kept u).mailbox &&
    noDefaults (kept u).mailbox (fun _ => 0) && Tab.wf (kept u).mapWin && Tab.wf (kept u).scratch &&
    (kept u).scratch.all (fun p => decide (p.2 ≠ 0) || (loadAt (kept u).fw p.1).isSome)) := rfl
  rw [e, e, h]

theorem memWf_iff (s : State) : memWf s = true ↔
    Tab.wf s.hbm.mem = true ∧ noDefaults s.hbm.mem (fun _ => 0) = true ∧ Tab.wf s.mtx.mailbox = true ∧
    noDefaults s.mtx.mailbox (fun _ => 0) = true ∧ Tab.wf s.mtx.mapWin = true ∧ Tab.wf s.mtx.scratch = true ∧
    ∀ p ∈ s.mtx.scratch, p.2 ≠ 0 ∨ (loadAt s.mtx.fw p.1).isSome = true := by
  simp only [memWf, Bool.and_eq_true, List.all_eq_true, Bool.or_eq_true, decide_eq_true_eq, and_assoc]

/-! ### Buffer memory -/

theorem hbmPut_mem (s : State) (a : Nat) (b : Byte) : (hbmPut s a b).hbm.mem = Tab.store s.hbm.mem a 0 (cellByte a b) := rfl

/-- A byte that is put into its cell and read from it is the same byte. -/
theorem cellByte_twice (a : Nat) (b : Byte) : cellByte a (cellByte a b) = b := by
  unfold cellByte
  split
  · rw [BitVec.xor_assoc, BitVec.xor_self, BitVec.xor_zero]
  · rfl

/-- A byte of buffer memory reads as it was last written, and a write leaves every other byte as it was. -/
theorem hbmPut_get (s : State) (a c : Nat) (b : Byte) :
    cellByte c (Tab.get (hbmPut s a b).hbm.mem c 0) = if c = a then b else cellByte c (Tab.get s.hbm.mem c 0) := by
  rw [hbmPut_mem]
  split
  · rename_i h; rw [h, Tab.get_store_same, cellByte_twice]
  · rename_i h; rw [Tab.get_store_other _ _ _ _ _ _ h]

theorem hbmPut_wf (s : State) (a : Nat) (b : Byte) (h : memWf s = true) : memWf (hbmPut s a b) = true := by
  rw [memWf_iff] at h ⊢
  have e : (hbmPut s a b).mtx = s.mtx := by rfl
  rw [hbmPut_mem, e]
  exact ⟨Tab.wf_store _ _ _ h.1, Tab.noDefaults_store (f := fun _ => 0) _ _ h.2.1, h.2.2⟩

/-- What every step of a fold keeps, the fold keeps. -/
theorem foldl_keeps {α β : Type} (P : β → Prop) (f : β → α → β) (h : ∀ t x, P t → P (f t x)) (l : List α) (b : β) (w : P b) :
    P (l.foldl f b) := by
  induction l generalizing b with
  | nil => exact w
  | cons a r ih => exact ih _ (h b a w)

theorem foldl_wf {α : Type} (f : State → α → State) (h : ∀ t x, memWf t = true → memWf (f t x) = true) (l : List α) (s : State)
    (w : memWf s = true) : memWf (l.foldl f s) = true :=
  foldl_keeps (fun t => memWf t = true) f h l s w

theorem hbmPuts_wf (s : State) (at_ : Nat → Nat) (l : List Byte) (h : memWf s = true) : memWf (hbmPuts s at_ l) = true :=
  foldl_wf _ (fun t _ => hbmPut_wf t _ _) _ s h

theorem storeAll_wf (l m : List Host.Cell) (h : Tab.wf m = true ∧ noDefaults m (fun _ => (0 : Byte)) = true) :
    Tab.wf (l.foldl (fun m c => Tab.store m c.1 0 c.2) m) = true ∧
      noDefaults (l.foldl (fun m c => Tab.store m c.1 0 c.2) m) (fun _ => (0 : Byte)) = true := by
  induction l generalizing m with
  | nil => exact h
  | cons c r ih => exact ih _ ⟨Tab.wf_store _ _ _ h.1, Tab.noDefaults_store (f := fun _ => 0) _ _ h.2⟩

/-- Moving the regions keeps the form (R387). -/
theorem movedMem_wf (p q : List Nat) (l : List Host.Cell) :
    Tab.wf (movedMem p q l) = true ∧ noDefaults (movedMem p q l) (fun _ => (0 : Byte)) = true := by
  refine foldl_keeps (fun t => Tab.wf t = true ∧ noDefaults t (fun _ => (0 : Byte)) = true) _ (fun t c h => ?_) l [] ⟨rfl, rfl⟩
  split
  · exact ⟨Tab.wf_store _ _ _ h.1, Tab.noDefaults_store (f := fun _ => 0) _ _ h.2⟩
  · exact h

/-! ### The mailbox -/

/-- A byte of the mailbox reads as it was last written, and a write leaves every other byte as it was (R380). -/
theorem mboxPut_get (s : State) (o c : Nat) (b : Byte) : mboxByte (mboxPut s o b) c = if c = o then b else mboxByte s c := by
  unfold mboxByte mboxPut
  split
  · rename_i h; rw [h]; exact Tab.get_store_same _ _ _ _
  · rename_i h; exact Tab.get_store_other _ _ _ _ _ _ h

theorem mboxPut_wf (s : State) (o : Nat) (b : Byte) (h : memWf s = true) : memWf (mboxPut s o b) = true := by
  rw [memWf_iff] at h ⊢
  exact ⟨h.1, h.2.1, Tab.wf_store _ _ _ h.2.2.1, Tab.noDefaults_store (f := fun _ => 0) _ _ h.2.2.2.1, h.2.2.2.2⟩

theorem mboxStore_wf (s : State) (w : MboxWrite) (i : Nat) (h : memWf s = true) : memWf (mboxStore s w i) = true := by
  refine foldl_wf _ (fun t o g => ?_) _ s h
  split
  · exact mboxPut_wf t _ _ g
  · exact g

/-! ### The scratchpad and the map-memory window -/

theorem scratchPut_wf (s : State) (o : Nat) (b : Byte) (h : memWf s = true) : memWf (scratchPut s o b) = true := by
  rw [memWf_iff] at h ⊢
  refine ⟨h.1, h.2.1, h.2.2.1, h.2.2.2.1, h.2.2.2.2.1, ?_, fun p m => ?_⟩
  · unfold scratchPut
    dsimp only
    split
    · exact Tab.wf_put _ _ h.2.2.2.2.2.1
    · exact Tab.wf_store _ _ _ h.2.2.2.2.2.1
  · have old := h.2.2.2.2.2.2
    unfold scratchPut at m ⊢
    dsimp only at m ⊢
    split at m
    · rcases Tab.mem_put m with rfl | m
      · rename_i g; exact .inr g
      · exact old p m
    · unfold Tab.store at m
      split at m
      · exact old p (List.mem_filter.mp m).1
      · rcases Tab.mem_put m with rfl | m
        · rename_i g; exact .inl g
        · exact old p m

theorem loadAt_cons (n : Nat) (l : List Nat) (o : Nat) (h : (loadAt l o).isSome = true) : (loadAt (n :: l) o).isSome = true := by
  unfold loadAt
  split
  · rfl
  · exact h

/-- Loading firmware keeps the form (R427). -/
theorem loadScratch_wf (s : State) (c : SlotCheck) (h : memWf s = true) : memWf (loadScratch s c) = true := by
  rw [memWf_iff] at h ⊢
  refine ⟨h.1, h.2.1, h.2.2.1, h.2.2.2.1, h.2.2.2.2.1, Tab.wf_filter _ h.2.2.2.2.2.1, fun p m => ?_⟩
  rcases h.2.2.2.2.2.2 p (List.mem_filter.mp m).1 with g | g
  · exact .inl g
  · exact .inr (loadAt_cons _ _ _ g)

theorem putAll_wf (l : List (Nat × Byte)) (t : Tab Byte) (h : Tab.wf t = true) :
    Tab.wf (l.foldl (fun t p => Tab.put t p.1 p.2) t) = true := by
  induction l generalizing t with
  | nil => exact h
  | cons c r ih => exact ih _ (Tab.wf_put _ _ h)

end Sys2Proof.Machine
end

