-- ==== Sys2Proof/Laws/Regs.lean ====
section
/-! SUPPORT. What a register holds after a write to it and to another, and which bits a field write changes. -/

namespace Sys2Proof.Machine

/-- A register reads as it was last written, -/
@[simp] theorem rd_wr_same (s : State) (off : Nat) (v : Word) : rd (wr s off v) off = v := Tab.get_store_same _ _ _ _

/-- and a write leaves every other register as it was. -/
theorem rd_wr_other (s : State) (off o : Nat) (v : Word) (h : o ≠ off) : rd (wr s off v) o = rd s o :=
  Tab.get_store_other _ _ _ _ _ _ h

/-- Bit `i` of a word whose field [hi:lo] is written: the bit of the value inside the field, the word's own bit outside. -/
theorem bit_setFld (w : Word) (hi lo v i : Nat) (h : i < 32) :
    bit (setFld w hi lo v) i = if lo ≤ i ∧ i < hi + 1 then v.testBit (i - lo) else bit w i := by
  unfold bit setFld maskOf
  simp only [BitVec.getLsbD_or, BitVec.getLsbD_and, BitVec.getLsbD_not, BitVec.getLsbD_ofNat, h, decide_true, Bool.true_and,
    Nat.testBit_mul_two_pow, Nat.testBit_two_pow_sub_one, Nat.testBit_mod_two_pow]
  by_cases a : lo ≤ i <;> by_cases b : i < hi + 1
  · have : i - lo < hi + 1 - lo := by omega
    simp [a, b, this]
  · have : ¬ i - lo < hi + 1 - lo := by omega
    simp [a, b, this]
  · simp [a]
  · simp [a]

/-- A bit that is written reads as written, -/
@[simp] theorem bget_bset_same (s : State) (off i : Nat) (b : Bool) (h : i < 32) : bget (bset s off i b) off i = b := by
  simp only [bget, bset, rd_wr_same, setBit, bit_setFld _ _ _ _ _ h]
  cases b <;> simp

/-- and leaves every other bit of the register as it was. -/
theorem bget_bset_other (s : State) (off i j : Nat) (b : Bool) (h : j < 32) (n : j ≠ i) :
    bget (bset s off i b) off j = bget s off j := by
  have : ¬ (i ≤ j ∧ j < i + 1) := by omega
  simp only [bget, bset, rd_wr_same, setBit, bit_setFld _ _ _ _ _ h, this, if_false]

/-- A bit of another register is as it was. -/
theorem bget_wr_other (s : State) (off o i : Nat) (v : Word) (h : o ≠ off) : bget (wr s off v) o i = bget s o i := by
  simp only [bget, rd_wr_other _ _ _ _ h]

/-- A field of another register is as it was. -/
theorem fget_wr_other (s : State) (off o hi lo : Nat) (v : Word) (h : o ≠ off) :
    fget (wr s off v) o hi lo = fget s o hi lo := by
  simp only [fget, rd_wr_other _ _ _ _ h]

end Sys2Proof.Machine
end

