-- ==== Sys2Proof/Laws/State.lean ====
section
/-! SUPPORT. What each field of State holds after the updates that every meaning uses. -/

namespace Sys2Proof.Machine

/-! ### wr -/

@[simp] theorem wr_regs (s : State) (off : Nat) (v : Word) : (wr s off v).regs = Tab.store s.regs off (regReset off) v := rfl
@[simp] theorem wr_lanes (s : State) (off : Nat) (v : Word) : (wr s off v).lanes = s.lanes := rfl
@[simp] theorem wr_groups (s : State) (off : Nat) (v : Word) : (wr s off v).groups = s.groups := rfl
@[simp] theorem wr_frms (s : State) (off : Nat) (v : Word) : (wr s off v).frms = s.frms := rfl
@[simp] theorem wr_dccs (s : State) (off : Nat) (v : Word) : (wr s off v).dccs = s.dccs := rfl
@[simp] theorem wr_ohp (s : State) (off : Nat) (v : Word) : (wr s off v).ohp = s.ohp := rfl
@[simp] theorem wr_cfgs (s : State) (off : Nat) (v : Word) : (wr s off v).cfgs = s.cfgs := rfl
@[simp] theorem wr_paths (s : State) (off : Nat) (v : Word) : (wr s off v).paths = s.paths := rfl
@[simp] theorem wr_tribs (s : State) (off : Nat) (v : Word) : (wr s off v).tribs = s.tribs := rfl
@[simp] theorem wr_ports (s : State) (off : Nat) (v : Word) : (wr s off v).ports = s.ports := rfl
@[simp] theorem wr_termFr (s : State) (off : Nat) (v : Word) : (wr s off v).termFr = s.termFr := rfl
@[simp] theorem wr_fab (s : State) (off : Nat) (v : Word) : (wr s off v).fab = s.fab := rfl
@[simp] theorem wr_seeds (s : State) (off : Nat) (v : Word) : (wr s off v).seeds = s.seeds := rfl
@[simp] theorem wr_outs (s : State) (off : Nat) (v : Word) : (wr s off v).outs = s.outs := rfl
@[simp] theorem wr_map (s : State) (off : Nat) (v : Word) : (wr s off v).map = s.map := rfl
@[simp] theorem wr_gth (s : State) (off : Nat) (v : Word) : (wr s off v).gth = s.gth := rfl
@[simp] theorem wr_prot (s : State) (off : Nat) (v : Word) : (wr s off v).prot = s.prot := rfl
@[simp] theorem wr_mrg (s : State) (off : Nat) (v : Word) : (wr s off v).mrg = s.mrg := rfl
@[simp] theorem wr_sym (s : State) (off : Nat) (v : Word) : (wr s off v).sym = s.sym := rfl
@[simp] theorem wr_eths (s : State) (off : Nat) (v : Word) : (wr s off v).eths = s.eths := rfl
@[simp] theorem wr_cem (s : State) (off : Nat) (v : Word) : (wr s off v).cem = s.cem := rfl
@[simp] theorem wr_tim (s : State) (off : Nat) (v : Word) : (wr s off v).tim = s.tim := rfl
@[simp] theorem wr_tod (s : State) (off : Nat) (v : Word) : (wr s off v).tod = s.tod := rfl
@[simp] theorem wr_rng (s : State) (off : Nat) (v : Word) : (wr s off v).rng = s.rng := rfl
@[simp] theorem wr_xlat (s : State) (off : Nat) (v : Word) : (wr s off v).xlat = s.xlat := rfl
@[simp] theorem wr_evt (s : State) (off : Nat) (v : Word) : (wr s off v).evt = s.evt := rfl
@[simp] theorem wr_pm (s : State) (off : Nat) (v : Word) : (wr s off v).pm = s.pm := rfl
@[simp] theorem wr_mtx (s : State) (off : Nat) (v : Word) : (wr s off v).mtx = s.mtx := rfl
@[simp] theorem wr_hbm (s : State) (off : Nat) (v : Word) : (wr s off v).hbm = s.hbm := rfl
@[simp] theorem wr_bgl (s : State) (off : Nat) (v : Word) : (wr s off v).bgl = s.bgl := rfl
@[simp] theorem wr_pwr (s : State) (off : Nat) (v : Word) : (wr s off v).pwr = s.pwr := rfl
@[simp] theorem wr_glb (s : State) (off : Nat) (v : Word) : (wr s off v).glb = s.glb := rfl
@[simp] theorem wr_deferred (s : State) (off : Nat) (v : Word) : (wr s off v).deferred = s.deferred := rfl
@[simp] theorem wr_out (s : State) (off : Nat) (v : Word) : (wr s off v).out = s.out := rfl
@[simp] theorem wr_pending (s : State) (off : Nat) (v : Word) : (wr s off v).pending = s.pending := rfl

/-! ### emit -/

@[simp] theorem emit_regs (s : State) (o : Output) : (emit s o).regs = s.regs := rfl
@[simp] theorem emit_lanes (s : State) (o : Output) : (emit s o).lanes = s.lanes := rfl
@[simp] theorem emit_groups (s : State) (o : Output) : (emit s o).groups = s.groups := rfl
@[simp] theorem emit_frms (s : State) (o : Output) : (emit s o).frms = s.frms := rfl
@[simp] theorem emit_dccs (s : State) (o : Output) : (emit s o).dccs = s.dccs := rfl
@[simp] theorem emit_ohp (s : State) (o : Output) : (emit s o).ohp = s.ohp := rfl
@[simp] theorem emit_cfgs (s : State) (o : Output) : (emit s o).cfgs = s.cfgs := rfl
@[simp] theorem emit_paths (s : State) (o : Output) : (emit s o).paths = s.paths := rfl
@[simp] theorem emit_tribs (s : State) (o : Output) : (emit s o).tribs = s.tribs := rfl
@[simp] theorem emit_ports (s : State) (o : Output) : (emit s o).ports = s.ports := rfl
@[simp] theorem emit_termFr (s : State) (o : Output) : (emit s o).termFr = s.termFr := rfl
@[simp] theorem emit_fab (s : State) (o : Output) : (emit s o).fab = s.fab := rfl
@[simp] theorem emit_seeds (s : State) (o : Output) : (emit s o).seeds = s.seeds := rfl
@[simp] theorem emit_outs (s : State) (o : Output) : (emit s o).outs = s.outs := rfl
@[simp] theorem emit_map (s : State) (o : Output) : (emit s o).map = s.map := rfl
@[simp] theorem emit_gth (s : State) (o : Output) : (emit s o).gth = s.gth := rfl
@[simp] theorem emit_prot (s : State) (o : Output) : (emit s o).prot = s.prot := rfl
@[simp] theorem emit_mrg (s : State) (o : Output) : (emit s o).mrg = s.mrg := rfl
@[simp] theorem emit_sym (s : State) (o : Output) : (emit s o).sym = s.sym := rfl
@[simp] theorem emit_eths (s : State) (o : Output) : (emit s o).eths = s.eths := rfl
@[simp] theorem emit_cem (s : State) (o : Output) : (emit s o).cem = s.cem := rfl
@[simp] theorem emit_tim (s : State) (o : Output) : (emit s o).tim = s.tim := rfl
@[simp] theorem emit_tod (s : State) (o : Output) : (emit s o).tod = s.tod := rfl
@[simp] theorem emit_rng (s : State) (o : Output) : (emit s o).rng = s.rng := rfl
@[simp] theorem emit_xlat (s : State) (o : Output) : (emit s o).xlat = s.xlat := rfl
@[simp] theorem emit_evt (s : State) (o : Output) : (emit s o).evt = s.evt := rfl
@[simp] theorem emit_pm (s : State) (o : Output) : (emit s o).pm = s.pm := rfl
@[simp] theorem emit_mtx (s : State) (o : Output) : (emit s o).mtx = s.mtx := rfl
@[simp] theorem emit_hbm (s : State) (o : Output) : (emit s o).hbm = s.hbm := rfl
@[simp] theorem emit_bgl (s : State) (o : Output) : (emit s o).bgl = s.bgl := rfl
@[simp] theorem emit_pwr (s : State) (o : Output) : (emit s o).pwr = s.pwr := rfl
@[simp] theorem emit_glb (s : State) (o : Output) : (emit s o).glb = s.glb := rfl
@[simp] theorem emit_deferred (s : State) (o : Output) : (emit s o).deferred = s.deferred := rfl
@[simp] theorem emit_out (s : State) (o : Output) : (emit s o).out = o :: s.out := rfl
@[simp] theorem emit_pending (s : State) (o : Output) : (emit s o).pending = s.pending := rfl

/-! ### freeNext -/

@[simp] theorem freeNext_regs (s : State) : (freeNext s).regs = s.regs := rfl
@[simp] theorem freeNext_lanes (s : State) : (freeNext s).lanes = s.lanes := rfl
@[simp] theorem freeNext_groups (s : State) : (freeNext s).groups = s.groups := rfl
@[simp] theorem freeNext_frms (s : State) : (freeNext s).frms = s.frms := rfl
@[simp] theorem freeNext_dccs (s : State) : (freeNext s).dccs = s.dccs := rfl
@[simp] theorem freeNext_ohp (s : State) : (freeNext s).ohp = s.ohp := rfl
@[simp] theorem freeNext_cfgs (s : State) : (freeNext s).cfgs = s.cfgs := rfl
@[simp] theorem freeNext_paths (s : State) : (freeNext s).paths = s.paths := rfl
@[simp] theorem freeNext_tribs (s : State) : (freeNext s).tribs = s.tribs := rfl
@[simp] theorem freeNext_ports (s : State) : (freeNext s).ports = s.ports := rfl
@[simp] theorem freeNext_termFr (s : State) : (freeNext s).termFr = s.termFr := rfl
@[simp] theorem freeNext_fab (s : State) : (freeNext s).fab = s.fab := rfl
@[simp] theorem freeNext_seeds (s : State) : (freeNext s).seeds = s.seeds := rfl
@[simp] theorem freeNext_outs (s : State) : (freeNext s).outs = s.outs := rfl
@[simp] theorem freeNext_map (s : State) : (freeNext s).map = s.map := rfl
@[simp] theorem freeNext_gth (s : State) : (freeNext s).gth = s.gth := rfl
@[simp] theorem freeNext_prot (s : State) : (freeNext s).prot = s.prot := rfl
@[simp] theorem freeNext_mrg (s : State) : (freeNext s).mrg = s.mrg := rfl
@[simp] theorem freeNext_sym (s : State) : (freeNext s).sym = s.sym := rfl
@[simp] theorem freeNext_eths (s : State) : (freeNext s).eths = s.eths := rfl
@[simp] theorem freeNext_cem (s : State) : (freeNext s).cem = s.cem := rfl
@[simp] theorem freeNext_tim (s : State) : (freeNext s).tim = s.tim := rfl
@[simp] theorem freeNext_tod (s : State) : (freeNext s).tod = s.tod := rfl
@[simp] theorem freeNext_rng (s : State) : (freeNext s).rng = s.rng := rfl
@[simp] theorem freeNext_xlat (s : State) : (freeNext s).xlat = s.xlat := rfl
@[simp] theorem freeNext_evt (s : State) : (freeNext s).evt = s.evt := rfl
@[simp] theorem freeNext_pm (s : State) : (freeNext s).pm = s.pm := rfl
@[simp] theorem freeNext_mtx (s : State) : (freeNext s).mtx = s.mtx := rfl
@[simp] theorem freeNext_hbm (s : State) : (freeNext s).hbm = s.hbm := rfl
@[simp] theorem freeNext_bgl (s : State) : (freeNext s).bgl = s.bgl := rfl
@[simp] theorem freeNext_pwr (s : State) : (freeNext s).pwr = s.pwr := rfl
@[simp] theorem freeNext_glb (s : State) : (freeNext s).glb = { s.glb with free := s.glb.free + 1 } := rfl
@[simp] theorem freeNext_deferred (s : State) : (freeNext s).deferred = s.deferred := rfl
@[simp] theorem freeNext_out (s : State) : (freeNext s).out = s.out := rfl
@[simp] theorem freeNext_pending (s : State) : (freeNext s).pending = s.pending := rfl

/-! ### setHeld -/

@[simp] theorem setHeld_regs (s : State) (src : Nat) (l : List EvRec) : (setHeld s src l).regs = s.regs := rfl
@[simp] theorem setHeld_lanes (s : State) (src : Nat) (l : List EvRec) : (setHeld s src l).lanes = s.lanes := rfl
@[simp] theorem setHeld_groups (s : State) (src : Nat) (l : List EvRec) : (setHeld s src l).groups = s.groups := rfl
@[simp] theorem setHeld_frms (s : State) (src : Nat) (l : List EvRec) : (setHeld s src l).frms = s.frms := rfl
@[simp] theorem setHeld_dccs (s : State) (src : Nat) (l : List EvRec) : (setHeld s src l).dccs = s.dccs := rfl
@[simp] theorem setHeld_ohp (s : State) (src : Nat) (l : List EvRec) : (setHeld s src l).ohp = s.ohp := rfl
@[simp] theorem setHeld_cfgs (s : State) (src : Nat) (l : List EvRec) : (setHeld s src l).cfgs = s.cfgs := rfl
@[simp] theorem setHeld_paths (s : State) (src : Nat) (l : List EvRec) : (setHeld s src l).paths = s.paths := rfl
@[simp] theorem setHeld_tribs (s : State) (src : Nat) (l : List EvRec) : (setHeld s src l).tribs = s.tribs := rfl
@[simp] theorem setHeld_ports (s : State) (src : Nat) (l : List EvRec) : (setHeld s src l).ports = s.ports := rfl
@[simp] theorem setHeld_termFr (s : State) (src : Nat) (l : List EvRec) : (setHeld s src l).termFr = s.termFr := rfl
@[simp] theorem setHeld_fab (s : State) (src : Nat) (l : List EvRec) : (setHeld s src l).fab = s.fab := rfl
@[simp] theorem setHeld_seeds (s : State) (src : Nat) (l : List EvRec) : (setHeld s src l).seeds = s.seeds := rfl
@[simp] theorem setHeld_outs (s : State) (src : Nat) (l : List EvRec) : (setHeld s src l).outs = s.outs := rfl
@[simp] theorem setHeld_map (s : State) (src : Nat) (l : List EvRec) : (setHeld s src l).map = s.map := rfl
@[simp] theorem setHeld_gth (s : State) (src : Nat) (l : List EvRec) : (setHeld s src l).gth = s.gth := rfl
@[simp] theorem setHeld_prot (s : State) (src : Nat) (l : List EvRec) : (setHeld s src l).prot = s.prot := rfl
@[simp] theorem setHeld_mrg (s : State) (src : Nat) (l : List EvRec) : (setHeld s src l).mrg = s.mrg := rfl
@[simp] theorem setHeld_sym (s : State) (src : Nat) (l : List EvRec) : (setHeld s src l).sym = s.sym := rfl
@[simp] theorem setHeld_eths (s : State) (src : Nat) (l : List EvRec) : (setHeld s src l).eths = s.eths := rfl
@[simp] theorem setHeld_cem (s : State) (src : Nat) (l : List EvRec) : (setHeld s src l).cem = s.cem := rfl
@[simp] theorem setHeld_tim (s : State) (src : Nat) (l : List EvRec) : (setHeld s src l).tim = s.tim := rfl
@[simp] theorem setHeld_tod (s : State) (src : Nat) (l : List EvRec) : (setHeld s src l).tod = s.tod := rfl
@[simp] theorem setHeld_rng (s : State) (src : Nat) (l : List EvRec) : (setHeld s src l).rng = s.rng := rfl
@[simp] theorem setHeld_xlat (s : State) (src : Nat) (l : List EvRec) : (setHeld s src l).xlat = s.xlat := rfl
@[simp] theorem setHeld_evt (s : State) (src : Nat) (l : List EvRec) : (setHeld s src l).evt = { s.evt with held := Tab.store s.evt.held src [] l } := rfl
@[simp] theorem setHeld_pm (s : State) (src : Nat) (l : List EvRec) : (setHeld s src l).pm = s.pm := rfl
@[simp] theorem setHeld_mtx (s : State) (src : Nat) (l : List EvRec) : (setHeld s src l).mtx = s.mtx := rfl
@[simp] theorem setHeld_hbm (s : State) (src : Nat) (l : List EvRec) : (setHeld s src l).hbm = s.hbm := rfl
@[simp] theorem setHeld_bgl (s : State) (src : Nat) (l : List EvRec) : (setHeld s src l).bgl = s.bgl := rfl
@[simp] theorem setHeld_pwr (s : State) (src : Nat) (l : List EvRec) : (setHeld s src l).pwr = s.pwr := rfl
@[simp] theorem setHeld_glb (s : State) (src : Nat) (l : List EvRec) : (setHeld s src l).glb = s.glb := rfl
@[simp] theorem setHeld_deferred (s : State) (src : Nat) (l : List EvRec) : (setHeld s src l).deferred = s.deferred := rfl
@[simp] theorem setHeld_out (s : State) (src : Nat) (l : List EvRec) : (setHeld s src l).out = s.out := rfl
@[simp] theorem setHeld_pending (s : State) (src : Nat) (l : List EvRec) : (setHeld s src l).pending = s.pending := rfl

/-! ### dropDesc -/

@[simp] theorem dropDesc_regs (s : State) (id : Nat) : (dropDesc s id).regs = s.regs := rfl
@[simp] theorem dropDesc_lanes (s : State) (id : Nat) : (dropDesc s id).lanes = s.lanes := rfl
@[simp] theorem dropDesc_groups (s : State) (id : Nat) : (dropDesc s id).groups = s.groups := rfl
@[simp] theorem dropDesc_frms (s : State) (id : Nat) : (dropDesc s id).frms = s.frms := rfl
@[simp] theorem dropDesc_dccs (s : State) (id : Nat) : (dropDesc s id).dccs = s.dccs := rfl
@[simp] theorem dropDesc_ohp (s : State) (id : Nat) : (dropDesc s id).ohp = s.ohp := rfl
@[simp] theorem dropDesc_cfgs (s : State) (id : Nat) : (dropDesc s id).cfgs = s.cfgs := rfl
@[simp] theorem dropDesc_paths (s : State) (id : Nat) : (dropDesc s id).paths = s.paths := rfl
@[simp] theorem dropDesc_tribs (s : State) (id : Nat) : (dropDesc s id).tribs = s.tribs := rfl
@[simp] theorem dropDesc_ports (s : State) (id : Nat) : (dropDesc s id).ports = s.ports := rfl
@[simp] theorem dropDesc_termFr (s : State) (id : Nat) : (dropDesc s id).termFr = s.termFr := rfl
@[simp] theorem dropDesc_fab (s : State) (id : Nat) : (dropDesc s id).fab = s.fab := rfl
@[simp] theorem dropDesc_seeds (s : State) (id : Nat) : (dropDesc s id).seeds = s.seeds := rfl
@[simp] theorem dropDesc_outs (s : State) (id : Nat) : (dropDesc s id).outs = s.outs := rfl
@[simp] theorem dropDesc_map (s : State) (id : Nat) : (dropDesc s id).map = s.map := rfl
@[simp] theorem dropDesc_gth (s : State) (id : Nat) : (dropDesc s id).gth = s.gth := rfl
@[simp] theorem dropDesc_prot (s : State) (id : Nat) : (dropDesc s id).prot = s.prot := rfl
@[simp] theorem dropDesc_mrg (s : State) (id : Nat) : (dropDesc s id).mrg = s.mrg := rfl
@[simp] theorem dropDesc_sym (s : State) (id : Nat) : (dropDesc s id).sym = s.sym := rfl
@[simp] theorem dropDesc_eths (s : State) (id : Nat) : (dropDesc s id).eths = s.eths := rfl
@[simp] theorem dropDesc_cem (s : State) (id : Nat) : (dropDesc s id).cem = s.cem := rfl
@[simp] theorem dropDesc_tim (s : State) (id : Nat) : (dropDesc s id).tim = s.tim := rfl
@[simp] theorem dropDesc_tod (s : State) (id : Nat) : (dropDesc s id).tod = s.tod := rfl
@[simp] theorem dropDesc_rng (s : State) (id : Nat) : (dropDesc s id).rng = { s.rng with descs := s.rng.descs.filter (fun d => d.id != id) } := rfl
@[simp] theorem dropDesc_xlat (s : State) (id : Nat) : (dropDesc s id).xlat = s.xlat := rfl
@[simp] theorem dropDesc_evt (s : State) (id : Nat) : (dropDesc s id).evt = s.evt := rfl
@[simp] theorem dropDesc_pm (s : State) (id : Nat) : (dropDesc s id).pm = s.pm := rfl
@[simp] theorem dropDesc_mtx (s : State) (id : Nat) : (dropDesc s id).mtx = s.mtx := rfl
@[simp] theorem dropDesc_hbm (s : State) (id : Nat) : (dropDesc s id).hbm = s.hbm := rfl
@[simp] theorem dropDesc_bgl (s : State) (id : Nat) : (dropDesc s id).bgl = s.bgl := rfl
@[simp] theorem dropDesc_pwr (s : State) (id : Nat) : (dropDesc s id).pwr = s.pwr := rfl
@[simp] theorem dropDesc_glb (s : State) (id : Nat) : (dropDesc s id).glb = s.glb := rfl
@[simp] theorem dropDesc_deferred (s : State) (id : Nat) : (dropDesc s id).deferred = s.deferred := rfl
@[simp] theorem dropDesc_out (s : State) (id : Nat) : (dropDesc s id).out = s.out := rfl
@[simp] theorem dropDesc_pending (s : State) (id : Nat) : (dropDesc s id).pending = s.pending := rfl

/-! ### editDesc -/

@[simp] theorem editDesc_regs (s : State) (id : Nat) (f : Desc → Desc) : (editDesc s id f).regs = s.regs := rfl
@[simp] theorem editDesc_lanes (s : State) (id : Nat) (f : Desc → Desc) : (editDesc s id f).lanes = s.lanes := rfl
@[simp] theorem editDesc_groups (s : State) (id : Nat) (f : Desc → Desc) : (editDesc s id f).groups = s.groups := rfl
@[simp] theorem editDesc_frms (s : State) (id : Nat) (f : Desc → Desc) : (editDesc s id f).frms = s.frms := rfl
@[simp] theorem editDesc_dccs (s : State) (id : Nat) (f : Desc → Desc) : (editDesc s id f).dccs = s.dccs := rfl
@[simp] theorem editDesc_ohp (s : State) (id : Nat) (f : Desc → Desc) : (editDesc s id f).ohp = s.ohp := rfl
@[simp] theorem editDesc_cfgs (s : State) (id : Nat) (f : Desc → Desc) : (editDesc s id f).cfgs = s.cfgs := rfl
@[simp] theorem editDesc_paths (s : State) (id : Nat) (f : Desc → Desc) : (editDesc s id f).paths = s.paths := rfl
@[simp] theorem editDesc_tribs (s : State) (id : Nat) (f : Desc → Desc) : (editDesc s id f).tribs = s.tribs := rfl
@[simp] theorem editDesc_ports (s : State) (id : Nat) (f : Desc → Desc) : (editDesc s id f).ports = s.ports := rfl
@[simp] theorem editDesc_termFr (s : State) (id : Nat) (f : Desc → Desc) : (editDesc s id f).termFr = s.termFr := rfl
@[simp] theorem editDesc_fab (s : State) (id : Nat) (f : Desc → Desc) : (editDesc s id f).fab = s.fab := rfl
@[simp] theorem editDesc_seeds (s : State) (id : Nat) (f : Desc → Desc) : (editDesc s id f).seeds = s.seeds := rfl
@[simp] theorem editDesc_outs (s : State) (id : Nat) (f : Desc → Desc) : (editDesc s id f).outs = s.outs := rfl
@[simp] theorem editDesc_map (s : State) (id : Nat) (f : Desc → Desc) : (editDesc s id f).map = s.map := rfl
@[simp] theorem editDesc_gth (s : State) (id : Nat) (f : Desc → Desc) : (editDesc s id f).gth = s.gth := rfl
@[simp] theorem editDesc_prot (s : State) (id : Nat) (f : Desc → Desc) : (editDesc s id f).prot = s.prot := rfl
@[simp] theorem editDesc_mrg (s : State) (id : Nat) (f : Desc → Desc) : (editDesc s id f).mrg = s.mrg := rfl
@[simp] theorem editDesc_sym (s : State) (id : Nat) (f : Desc → Desc) : (editDesc s id f).sym = s.sym := rfl
@[simp] theorem editDesc_eths (s : State) (id : Nat) (f : Desc → Desc) : (editDesc s id f).eths = s.eths := rfl
@[simp] theorem editDesc_cem (s : State) (id : Nat) (f : Desc → Desc) : (editDesc s id f).cem = s.cem := rfl
@[simp] theorem editDesc_tim (s : State) (id : Nat) (f : Desc → Desc) : (editDesc s id f).tim = s.tim := rfl
@[simp] theorem editDesc_tod (s : State) (id : Nat) (f : Desc → Desc) : (editDesc s id f).tod = s.tod := rfl
@[simp] theorem editDesc_rng (s : State) (id : Nat) (f : Desc → Desc) : (editDesc s id f).rng = { s.rng with descs := s.rng.descs.map (fun d => if d.id = id then f d else d) } := rfl
@[simp] theorem editDesc_xlat (s : State) (id : Nat) (f : Desc → Desc) : (editDesc s id f).xlat = s.xlat := rfl
@[simp] theorem editDesc_evt (s : State) (id : Nat) (f : Desc → Desc) : (editDesc s id f).evt = s.evt := rfl
@[simp] theorem editDesc_pm (s : State) (id : Nat) (f : Desc → Desc) : (editDesc s id f).pm = s.pm := rfl
@[simp] theorem editDesc_mtx (s : State) (id : Nat) (f : Desc → Desc) : (editDesc s id f).mtx = s.mtx := rfl
@[simp] theorem editDesc_hbm (s : State) (id : Nat) (f : Desc → Desc) : (editDesc s id f).hbm = s.hbm := rfl
@[simp] theorem editDesc_bgl (s : State) (id : Nat) (f : Desc → Desc) : (editDesc s id f).bgl = s.bgl := rfl
@[simp] theorem editDesc_pwr (s : State) (id : Nat) (f : Desc → Desc) : (editDesc s id f).pwr = s.pwr := rfl
@[simp] theorem editDesc_glb (s : State) (id : Nat) (f : Desc → Desc) : (editDesc s id f).glb = s.glb := rfl
@[simp] theorem editDesc_deferred (s : State) (id : Nat) (f : Desc → Desc) : (editDesc s id f).deferred = s.deferred := rfl
@[simp] theorem editDesc_out (s : State) (id : Nat) (f : Desc → Desc) : (editDesc s id f).out = s.out := rfl
@[simp] theorem editDesc_pending (s : State) (id : Nat) (f : Desc → Desc) : (editDesc s id f).pending = s.pending := rfl

/-! ### Words and bits of a register are one write -/

theorem fset_eq (s : State) (off hi lo v : Nat) : fset s off hi lo v = wr s off (setFld (rd s off) hi lo v) := rfl
theorem bset_eq (s : State) (off i : Nat) (b : Bool) : bset s off i b = wr s off (setBit (rd s off) i b) := rfl

end Sys2Proof.Machine
end

