-- ==== Sys2Proof/Laws/Ops.lean ====
section
/-! SUPPORT. For each operation that the meanings share, everything it can do. -/

namespace Sys2Proof.Machine

/-! ### Register writes by the host -/

/-- A BAR0 write does not arrive in DORMANT (R18), waits while the register file is locked (R376), is ignored and counted in REPLAY (R26), and
acts otherwise. -/
theorem hostWrite_cases (s : State) (off : Nat) (v : Word) (f : State → State) :
    (hostDeaf s = true ∧ hostWrite s off v f = s) ∨
    (hostDeaf s = false ∧ regLocked s = true ∧ hostWrite s off v f = hostWait s off 4 true (wordBytes v)) ∨
    (hostDeaf s = false ∧ regLocked s = false ∧ replay s = true ∧ hostWrite s off v f = ignoredWrite s off) ∨
    (hostDeaf s = false ∧ regLocked s = false ∧ replay s = false ∧ hostWrite s off v f = f s) := by
  unfold hostWrite
  cases hostDeaf s <;> cases regLocked s <;> cases replay s <;> simp

theorem hostWrite_acts (s : State) (off : Nat) (v : Word) (f : State → State) (a : hostDeaf s = false) (l : regLocked s = false)
    (h : replay s = false) : hostWrite s off v f = f s := by
  rcases hostWrite_cases s off v f with g | g | g | g <;> simp_all

/-- A device in ACTIVE is not in DORMANT. -/
theorem hostReady_awake {s : State} {dom : Nat} (h : hostReady s dom) : hostDeaf s = false := by
  simp [hostDeaf, h.2.2.1]

/-- A write to a register of a power domain does not arrive in DORMANT, waits while the register file is locked, is ignored in REPLAY, acts while
the domain is powered in ACTIVE, and is held until the domain has woken otherwise (R18, R26, R376, R410). -/
theorem domainWrite_cases (s : State) (dom off : Nat) (v : Word) (f : State → State) :
    (hostDeaf s = true ∧ domainWrite s dom off v f = s) ∨
    (regLocked s = true ∧ domainWrite s dom off v f = hostWait s off 4 true (wordBytes v)) ∨
    (replay s = true ∧ domainWrite s dom off v f = ignoredWrite s off) ∨
    (replay s = false ∧ (domainUp s dom && s.pwr.st == 2) = true ∧ domainWrite s dom off v f = f s) ∨
    (replay s = false ∧ (domainUp s dom && s.pwr.st == 2) = false ∧ domainWrite s dom off v f = holdWrite s dom off v) := by
  unfold domainWrite
  rcases hostWrite_cases s off v (fun s => if domainUp s dom && s.pwr.st == 2 then f s else holdWrite s dom off v) with h | h | h | h
  · exact .inl h
  · exact .inr (.inl h.2)
  · exact .inr (.inr (.inl h.2.2))
  · cases e : domainUp s dom && s.pwr.st == 2
    · exact .inr (.inr (.inr (.inr ⟨h.2.2.1, rfl, by rw [h.2.2.2, e]; rfl⟩)))
    · exact .inr (.inr (.inr (.inl ⟨h.2.2.1, rfl, by rw [h.2.2.2, e]; rfl⟩)))

theorem domainWrite_acts (s : State) (dom off : Nat) (v : Word) (f : State → State) (h : hostReady s dom) :
    domainWrite s dom off v f = f s := by
  unfold domainWrite
  rw [hostWrite_acts _ _ _ _ (hostReady_awake h) h.2.2.2 h.1, if_pos (by simp [h.2.1, h.2.2.1])]

/-- A register that holds the value written is not counted as ignored, though it is locked (R438). -/
theorem lockedWrite_same (s : State) (off : Nat) : lockedWrite s off (rd s off) = s := by
  unfold lockedWrite
  split
  · rw [BitVec.xor_self, BitVec.zero_and]; rfl
  · rfl

/-! ### Events -/

/-- An event is discarded while its source is not enabled, held behind a condition of R352 or behind an older record of its source,
or written to the ring of its route, behind what is held and can be written (R350 to R353). -/
theorem raise_cases (s : State) (src : Nat) (d0 d1 : Word) :
    (src ≠ 0x681 ∧ bget s (Reg.evtRoute src) 12 = false ∧ raise s src d0 d1 = s) ∨
    (∃ l, raise s src d0 d1 = setHeld s src l ∧ l ≠ [] ∧ (l.length ≤ 4 ∨ 4 < (heldBy s src).length)) ∨
    (∃ r, raise s src d0 d1 = setHeld (raiseFrom s src) src [r]) ∨
    (∃ n r, eventRing (raiseFrom s src) src = some n ∧ eventBlocked s src = false ∧ r.src = src ∧ r.d0 = d0 ∧ r.d1 = d1 ∧
      raise s src d0 d1 = writeEvent (raiseFrom s src) n r) := by
  have merged (r : EvRec) (l : List EvRec) : mergeHeld l r ≠ [] ∧ ((mergeHeld l r).length ≤ 4 ∨ 4 < l.length) := by
    unfold mergeHeld
    split
    · refine ⟨by simp, .inl ?_⟩
      simp only [List.length_append, List.length_singleton]
      omega
    · split
      · refine ⟨by simp, ?_⟩
        simp only [List.length_append, List.length_singleton, List.length_dropLast]
        omega
      · exact ⟨by simp, .inl (by simp)⟩
  unfold raise
  split
  · rename_i h
    exact .inl ⟨h.1, by simpa using h.2, rfl⟩
  · dsimp only
    split
    · exact .inr (.inl ⟨_, rfl, merged _ _⟩)
    · rename_i h
      simp only [Bool.or_eq_true, not_or, Bool.not_eq_true] at h
      split
      · exact .inr (.inr (.inl ⟨_, rfl⟩))
      · rename_i g
        split
        · rename_i n e
          exact .inr (.inr (.inr ⟨n, _, e, h.1, rfl, rfl, rfl, rfl⟩))
        · rename_i e
          unfold eventBlocked at g
          rw [e] at g
          simp at g

/-- An event limited to one per second and instance is either already raised in it, and nothing happens, or raised (R460). -/
theorem raiseOnce_seen (s : State) (src cause inst : Nat) (d0 d1 : Word)
    (h : s.evt.once.contains (src * 256 + cause, inst) = true) : raiseOnce s src cause inst d0 d1 = s := by
  unfold raiseOnce; rw [if_pos h]

/-! ### Descriptors and completions -/

/-- A completion for a descriptor that is not in flight has no effect. -/
theorem complete_absent (s : State) (id status : Nat) (r0 r1 : Word) (h : desc? s id = none) :
    complete s id status r0 r1 = s := by
  unfold complete; rw [h]

/-- A record is written, or waits behind the conditions of R305, R311 and R366. -/
theorem postCpl0_cases (s : State) (c : Cpl) :
    (cplBlocked s c.ring = false ∧ postCpl0 s c = writeCpl s c) ∨
    (cplBlocked s c.ring = true ∧ (postCpl0 s c).rng.cplWait =
      (if ringFull s c.ring then stall s c.ring else s).rng.cplWait ++ [c]) := by
  unfold postCpl0
  split
  · rename_i h; exact .inr ⟨h, rfl⟩
  · rename_i h; exact .inl ⟨by simpa using h, rfl⟩

/-- A descriptor that is taken is in flight, has the opcode asked for and may be taken. -/
theorem takeDesc_some (s : State) (id op : Nat) (d : Desc) (h : takeDesc s id op = some d) :
    desc? s id = some d ∧ d.op = op ∧ mayTake s d = true := by
  unfold takeDesc at h
  split at h
  · rename_i e
    split at h
    · rename_i g
      simp only [Bool.and_eq_true, beq_iff_eq] at g
      cases h
      exact ⟨e, g⟩
    · cases h
  · cases h

/-! ### The raw counters -/

/-- A raw counter that does not pass 2^32 holds its old value and what it counts (R355). -/
theorem count_low (s : State) (off n : Nat) (h : (rd s off).toNat + n < 2 ^ 32) :
    count s off n = wr s off (w32 ((rd s off).toNat + n)) := by
  unfold count
  dsimp only
  rw [if_pos h]

/-- Thawing a timing unit that is not frozen has no effect. -/
theorem thaw_same (s : State) (h : s.tim.frozen = false) : thaw s = s := by
  have e : ({ s.tim with frozen := false } : TimSt) = s.tim := by rw [← h]
  unfold thaw
  split
  · rfl
  · rw [e]

end Sys2Proof.Machine
end

