-- ==== Sys2Proof/Tests/Slice0.lean ====
section
/-! SUPPORT. The ill-formed terms that WellFormed refuses, single effects worked out from the rules, and for every statement with
hypotheses a state and operands that meet them. -/

set_option linter.unusedVariables false

namespace Sys2Proof.Tests

open Sys2Proof.Machine

/-! ### Small states -/

/-- An ACTIVE device with every domain powered, its link trained and its leash held. -/
def up : State :=
  let s : State := { State.reset with
    pwr := { State.reset.pwr with st := 2, aonOk := true, rstLow := false }
    rng := { State.reset.rng with bme := true, linkUp := true }
    mtx := { State.reset.mtx with held := true } }
  wr (wr s Reg.pwrDomain 0x3FFFFF) Reg.pwrStatus 0xA

/-- `s` at tick `n`. -/
def atTick (n : Nat) (s : State) : State := { s with tod := { s.tod with ticks := n } }

/-- A descriptor. -/
def dsc : Desc := {}


/-- A descriptor of an opcode with LENGTH, the words from word 6 on, and the gather it is for. -/
def job (op len : Nat) (l : List Word) (g : Nat := 0) : Desc :=
  { words := [w32 (op + if g = 0 then 0 else 2 ^ 18), 0, w32 g, w32 len, 0, 0] ++ l }

/-- That descriptor in flight. -/
def withJob (s : State) (x : Desc) : State := { s with rng := { s.rng with descs := [x] } }

/-- `up` with lane 5's LANE_CTL and LANE_STATUS. -/
def laneUp (ctl st : Word) : State := wr (wr up (Reg.laneCtl 5) ctl) (Reg.laneStatus 5) st

/-- `up` with lane 5 locked at STM-16, the path at its first index with a configuration and a running state, and the TU-12 below it,
where `st` makes it so. -/
def onPath (w7 : Word) (st : List Nat) (p q : PathSt) (v7 : Word := 0) : State :=
  { laneUp 5 4 with
    cfgs := [(0x50000, { w7 := w7, struct3 := st }), (0x20050000, { w7 := v7 })], paths := [(0x50000, p), (0x20050000, q)] }

/-- `up` with port 5's control and framing words in force and its state. -/
def portUp (ctl frm : Word) (st : Nat) (p : PdhSt := {}) : State :=
  { setPortState up 5 st with tribs := [(5, { ctl := ctl, frm := frm })], ports := [(5, p)] }

/-- `up` with a selector of the highest tier, number 0, between two HO indexes of lane 5. -/
def selUp (x : Sel) : State := setSel (laneUp 5 4) 0 { x with working := 0x50000, protect := 0x50003 }

/-- `up` with group 3: lane 6 protects lane 5. -/
def grpUp (g : Grp) : State := setGrp (laneUp 5 4) 3 { g with w8 := 0x106, work := [5] }

/-- `up` with the paths at two HO indexes of lane 5, marker channels received, probes on and 2 delay blocks placed. -/
def pairUp : State :=
  wr { laneUp 5 4 with
    cfgs := [(0x50000, { w7 := 0x408 }), (0x50003, { w7 := 0x408 })]
    hbm := { up.hbm with placed := [2, 2, 0, 0, 0] } } (Reg.laneFrmCtl 5) 0x1000

/-- The same with a selector between them and a merge on it. -/
def mergeUp (m : Merge) : State :=
  let s := setSel pairUp 0 { working := 0x50000, protect := 0x50003 }
  { s with mrg := { s.mrg with merges := [(0, m)] } }

/-- Guard 7's words: RX and TX on lane 5, link 1, partner 9. -/
def guardWords : List Word := [0x50000, 0xA0080, 0x50003, 0x50001, 9, 0x10001, 0, 2]

/-- `pairUp` with guard 7. -/
def guardUp (g : Guard) : State := setGuard pairUp 7 g

/-- A probe message of partner 9 without records. -/
def probe : List Byte :=
  let body : List Byte := [0xA5, 0x3C, 0x10, 0, 0, 0, 0, 9] ++ List.replicate 52 0
  body ++ natBe 4 (crc32 body).toNat

/-- `up` with lane 5 in 10GBASE-R, its Ethernet bits, and frames to 1,518 bytes for buffer ring 4. -/
def ethUp (st : Word) : State := wr (wr (laneUp 9 4) (Reg.laneEthStatus 5) st) (Reg.laneEthCtl 5) 0x000405EE

/-- SAToP pseudowire 3 by MPLS label 7 on lane 5, of 32 payload bytes. -/
def pw3 : Pw := { w7 := 0x140, w8 := 32, w10 := 0x12002, w11 := 7, tmpl := List.replicate 12 0 ++ [0x88, 0x47, 0, 0, 0x71, 64], pages := 1 }

/-- That pseudowire configured. -/
def pwUp (st : Word) (x : Pw) : State :=
  let s := ethUp st
  { s with
    cem := { s.cem with pws := [(3, x)] }
    hbm := { s.hbm with placed := [2, 2, 0, 0, 0] } }

/-- A good frame of 64 bytes with this EtherType and these bytes after it. -/
def goodFrame (l : List Byte) : EthRx :=
  let b : List Byte := List.replicate 12 0 ++ l ++ List.replicate (48 - l.length) 0
  { bytes := b ++ ethFcs b }

/-- `up` with the servo in this mode. -/
def servoUp (m : Nat) (waiting : List Nat := []) : State := { up with tod := { up.tod with servo := m, waiting := waiting } }

/-- `s` with ring `n` configured and enabled, its producer and consumer indexes. -/
def ring (s : State) (n : Nat) (cfg : Word) (p : Word := 0) (c : Word := 0) : State :=
  editRing (wr (wr (wr (wr s (Reg.ringCfg n) cfg) (Reg.ringCtl n) 1) (Reg.ringProd n) p) (Reg.ringCons n) c) n id

/-- A valid image slot. -/
def image : SlotCheck :=
  { manifest := [0x52, 0x4B, 0x46, 0x31, 0, 0, 0, 0, 0, 0, 0, 0, 0, 0x10] ++ List.replicate 386 0, key := some 0, resident := true }

/-- `up` with the halves in these states, the leash free where `held` is false. -/
def halvesUp (a b : Nat) (held : Bool := true) (vacant : Nat := 0) : State :=
  let s := fset (fset up Reg.mtxHalf 2 0 a) Reg.mtxHalf 5 3 b
  { s with mtx := { s.mtx with held := held, vacant := vacant } }

/-- A valid board block: every rail at 800 mV. -/
def board : List Byte :=
  let b : List Byte := [0x52, 0x4B, 0x42, 0x31] ++ List.replicate 12 0 ++
    (List.range 6).flatMap (fun n => [BitVec.ofNat 8 (16 + n), 0, 0x20, 3, 5, 0, 0, 0])
  b ++ wordBytes (crc32 b)

/-- A device out of cold reset that reads its board block. -/
def bootUp (faultN : Bool) : State :=
  { State.reset with pwr := { State.reset.pwr with aonOk := true, rstLow := false, faultN := faultN } }

/-- A device whose rail `n` is coming up on its way to STANDBY. -/
def railUp (n : Nat) : State :=
  { State.reset with pwr := { State.reset.pwr with
    aonOk := true, rstLow := false, board := some board, rail := some n, target := 1 } }

/-- `up` with a lease of kind 3. -/
def leaseUp (l : Lease) : State := { up with bgl := { up.bgl with leases := [(3, l)] } }

/-! ### What meets the hypotheses of the statements over all states -/

theorem witness_StepRunsTheCommandAtTheFront :
    ∃ (c : Instr) (r : List Instr) (s : State), s.pending = c :: r :=
  ⟨.ppsTick, [.timeWrap], { up with pending := [.ppsTick, .timeWrap] }, rfl⟩

theorem witness_StepRunsTheCommandAtTheFront_idle : up.pending = [] := rfl

theorem witness_LanesLieInGroupsAndQuads_3 : quadFirst (124 : LaneId).val = quadFirst (127 : LaneId).val := by decide

/-- `up` in REPLAY. -/
def replayUp : State := bset up Reg.glbStatus 3 true

theorem witness_WritesDuringReplayAreIgnored_1 :
    hostDeaf replayUp = false ∧ regLocked replayUp = false ∧ replay replayUp = true ∧ Reg.bglCtl % 4 = 0 ∧ Reg.bglCtl < 0x3FF0000 ∧ (regRow? Reg.bglCtl).isSome = true := by decide

/-- The hypothesis of clauses 2 to 12. -/
theorem witness_WritesDuringReplayAreIgnored_2 : hostDeaf replayUp = false ∧ regLocked replayUp = false ∧ replay replayUp = true := by decide

theorem witness_WritesDuringReplayAreIgnored_13 : replay replayUp = true ∧ 0x3FEFFFC < 0x3FF0000 := by decide

theorem witness_WritesDuringReplayAreIgnored_14 : replay replayUp = true ∧ ∃ t, exec .todNsRead replayUp = .next t :=
  ⟨by decide, _, rfl⟩

/-- A mailbox write of one byte at `o`. -/
def oneByte (o : Nat) : MboxWrite := { offset := o, lanes := [some 1] }

theorem witness_SignalWordsInterruptTheOtherSide_1 :
    up.pwr.st ≠ 0 ∧ (∃ t, exec (.mailboxHostWrite (oneByte 65520) (some (oneByte 65535))) up = .next t) ∧ 65535 < 65536 :=
  ⟨by decide, ⟨_, rfl⟩, by decide⟩

theorem witness_SignalWordsInterruptTheOtherSide_2 :
    up.pwr.st ≠ 0 ∧ ∃ t, exec (.mailboxHostWrite (oneByte 65535) none) up = .next t :=
  ⟨by decide, _, rfl⟩

theorem witness_SignalWordsInterruptTheOtherSide_3 :
    (lockOf up 5).getD (if holder up then 1 else 0) = (if holder up then 1 else 0) ∧ up.pwr.st ≠ 0 ∧
      mboxHits (oneByte 65528) 8191 = true := by decide

theorem witness_SignalWordsInterruptTheOtherSide_4 :
    up.pwr.st ≠ 0 ∧ mboxHits (oneByte 65527) 8191 = false ∧ ∃ t, exec (.mailboxSupervisorWrite (oneByte 65527)) up = .next t :=
  ⟨by decide, by decide, _, rfl⟩

theorem witness_SignalWordsInterruptTheOtherSide_5 :
    let s := fset up Reg.mtxLock 11 8 3
    (lockOf s 5).getD (if holder s then 1 else 0) ≠ (if holder s then 1 else 0) ∧ s.pwr.st ≠ 0 := by decide

theorem witness_SignalWordsInterruptTheOtherSide_6 :
    up.pwr.st ≠ 0 ∧ mboxWords (oneByte 65528) = [8191] ∧ mboxWords (oneByte 65535) = [8191] := by decide

theorem witness_RefusedMatrixAccessesPerformNothing_1 :
    up.mtx.waits = [] ∧ matrixOn up { master := 3 } = true ∧ errorKind up { acc := { master := 3 }, lock := false, tgt := targetOf up 3 0 } = some 2 ∧
      ∃ t, exec (.matrixAccess { master := 3 }) up = .next t :=
  ⟨by decide, by decide, by decide, _, rfl⟩

theorem witness_RefusedMatrixAccessesPerformNothing_2 :
    (halvesUp 3 2).mtx.waits = [] ∧ [0, 1, 6].contains (0 : Fin 7).val = true ∧
      matrixOn (halvesUp 3 2) { master := 0, addr := 0, size := 4 } = true ∧
      errorKind (halvesUp 3 2)
        { acc := { master := 0, addr := 0, size := 4 }, lock := true, tgt := targetOf (halvesUp 3 2) 0 0 } = some 5 ∧
      ∃ t, exec (.lockedRead 0 0 4) (halvesUp 3 2) = .next t :=
  ⟨by decide, by decide, by decide, by decide, _, rfl⟩

theorem witness_EventsChangeOnlyTheirRing_2 : ∀ n < 4096, Reg.glbMode ≠ Reg.ringProd n := by
  intro n _; simp only [Reg.glbMode, Reg.ringProd]; omega

theorem witness_EventsChangeOnlyTheirRing_3 : up.evt.held = [] := by decide

theorem witness_EventsChangeOnlyTheirRing_4 : (heldBy up 0).length ≤ 4 := by decide

theorem witness_EventsChangeOnlyTheirRing_5 : (0 : Nat) ≠ 0x681 ∧ bget (wr up (Reg.evtRoute 0) 0) (Reg.evtRoute 0) 12 = false := by decide

/-- A source enabled and masked that holds these records. -/
def heldUp (l : List EvRec) : State := { wr up (Reg.evtRoute 0) 0x3000 with evt := { up.evt with held := [(0, l)] } }

theorem witness_EventsChangeOnlyTheirRing_6 :
    bget (heldUp [{}, {}, {}]) (Reg.evtRoute 0) 12 = true ∧ eventBlocked (heldUp [{}, {}, {}]) 0 = true ∧
      (heldBy (heldUp [{}, {}, {}]) 0).length < 4 := by decide

theorem witness_EventsChangeOnlyTheirRing_6_full :
    eventBlocked (heldUp [{}, {}, {}, { held := 65535 }]) 0 = true ∧
      heldBy (heldUp [{}, {}, {}, { held := 65535 }]) 0 = ([{}, {}, {}] : List EvRec) ++ [{ held := 65535 }] := by decide

theorem witness_IgnoredSequencesChangeNothingElse_2 :
    Reg.glbMode ≠ Reg.hifIgnoredCnt ∧ Reg.glbMode ≠ Reg.hifIgnoredLast ∧ Reg.glbMode ≠ Reg.hifIgnoredAddr ∧
      (∀ j < 256, Reg.glbMode ≠ Reg.pmChainHi j ∧ Reg.glbMode ≠ Reg.pmChainSt j) := by decide +kernel

theorem witness_IgnoredSequencesChangeNothingElse_3 :
    Reg.pmChainHi 255 ≠ Reg.hifIgnoredCnt ∧ Reg.pmChainHi 255 ≠ Reg.hifIgnoredLast ∧
      Reg.pmChainHi 255 ≠ Reg.hifIgnoredAddr ∧ (∀ j < 256, chained up j Reg.hifIgnoredCnt = false) := by decide +kernel

/-- Chain slot 255 on a counter that stands at its top. -/
def chainUp : State := wr (wr up (Reg.pmChainCfg 255) 0x80020020) 0x20020 0xFFFFFFFF

theorem witness_ChainPairsCountAsOneValue_1 :
    chained chainUp 255 0x20020 = true ∧ 2 ^ 32 ≤ (rd chainUp 0x20020).toNat + 1 ∧
      (∀ j < 256, 0x20020 ≠ Reg.pmChainHi j ∧ 0x20020 ≠ Reg.pmChainSt j ∧ 0x20020 ≠ Reg.pmChainCfg j) := by decide +kernel

theorem witness_ChainPairsCountAsOneValue_3 :
    chained chainUp 0 0x20020 = false ∧
      (∀ j < 256, 0x20020 ≠ Reg.pmChainHi j ∧ 0x20020 ≠ Reg.pmChainSt j ∧ 0x20020 ≠ Reg.pmChainCfg j) := by decide +kernel

theorem witness_LockedRegistersIgnoreWritesInService_1 :
    let s := fset up Reg.glbMode 1 0 2
    hostDeaf s = false ∧ regLocked s = false ∧ replay s = false ∧ inService s = true ∧ Reg.todCtl % 4 = 0 ∧ Reg.todCtl < 0x3FF0000 ∧
      (∃ r ∈ regRow? Reg.todCtl, r.writable = true ∧ accMask r .rw = 0 ∧ accMask r .rwl ≠ 0 ∧ accMask r .w1c = 0) ∧
      mixedLock Reg.todCtl = false ∧ regDomain Reg.todCtl = none ∧ Reg.todCtl / 0x10000 ≠ 0x8 ∧
      [Reg.hifKnlSel, Reg.mapPeekSlot, Reg.protPeekSel, Reg.mrgPeekSel, Reg.symPeekSel, Reg.cemPeekSel].contains Reg.todCtl = false ∧
      ownWrite s Reg.todCtl 1 = none ∧
      ∃ t, exec (.registerWrite Reg.todCtl 4 ((1 : Word).setWidth 64)) s = .next t :=
  ⟨by decide, by decide, by decide, by decide, by decide, by decide, ⟨_, rfl, by decide, by decide, by decide, by decide⟩, by decide,
    by decide, by decide, by decide, rfl, _, rfl⟩

theorem witness_LockedRegistersIgnoreWritesInService_2 :
    hostDeaf up = false ∧ regLocked up = false ∧ replay up = false ∧ inService up = false ∧ Reg.hifKnlTimeout % 4 = 0 ∧ Reg.hifKnlTimeout < 0x3FF0000 ∧
      (∃ r ∈ regRow? Reg.hifKnlTimeout, r.writable = true ∧ accMask r .w1c = 0) ∧ regDomain Reg.hifKnlTimeout = none ∧
      Reg.hifKnlTimeout / 0x10000 ≠ 0x8 ∧
      [Reg.hifKnlSel, Reg.mapPeekSlot, Reg.protPeekSel, Reg.mrgPeekSel, Reg.symPeekSel, Reg.cemPeekSel].contains Reg.hifKnlTimeout = false ∧
      ownWrite up Reg.hifKnlTimeout 60000 = none ∧
      badValue Reg.hifKnlTimeout 60000 = false :=
  ⟨by decide, by decide, by decide, by decide, by decide, by decide, ⟨_, rfl, by decide, by decide⟩, by decide, by decide, by decide, rfl,
    by decide⟩

/-- Both halves claim the same epoch. -/
theorem witness_ClaimWindowsGoToTheHighestEpoch_1 :
    let s : State := { up with mtx := { up.mtx with claims := [(true, 7), (false, 7)] } }
    s.mtx.claims ≠ [] ∧ decideClaims s = some (false, 7, 3, 7) := by decide

theorem witness_ClaimWindowsGoToTheHighestEpoch_2 : up.mtx.claims = [] := by decide

theorem witness_ClaimWindowsGoToTheHighestEpoch_3 :
    let s := wr (halvesUp 2 2 false) Reg.mtxLeash 6
    halfState s true = 2 ∧ s.mtx.held = false ∧ (epochNow s).toNat < (7 : Word).toNat ∧
      ∃ t, exec (.leashClaim true 7) s = .next t :=
  ⟨by decide, by decide, by decide, _, rfl⟩

theorem witness_ClaimWindowsGoToTheHighestEpoch_4 :
    let s := wr (halvesUp 2 2 false) Reg.mtxLeash 7
    (7 : Word).toNat ≤ (epochNow s).toNat ∧ ∃ t, exec (.leashClaim true 7) s = .next t :=
  ⟨by decide, _, rfl⟩

/-- A selector whose MS is dropped by SF of the working copy. -/
def dropSel : Sel := { cmd := 4, w := { sf := true, pass := true } }

theorem witness_SelectorsFollowTheHighestRequest :
    dropSel.cmd ≤ 6 ∧ (decideSel dropSel).1.req = 8 ∧ (decideSel dropSel).2 = 4 := by decide

theorem witness_SelectorsFollowTheHighestRequest_kept :
    (decideSel { cmd := 2 }).1.req = 9 ∧ (decideSel { cmd := 2 }).2 = 0 := by decide

theorem witness_OneTickAddsTheIncrement_1 : up.pending = [] ∧ inReset up = false ∧ up.tod.waiting = [] := by decide

theorem witness_OneTickAddsTheIncrement_2 :
    let s : State := { up with tod := { up.tod with subsec := 999999999 } }
    s.tod.subsec < 1000000000 ∧ s.pending = [] ∧ inReset s = false ∧ s.tod.waiting = [] ∧
      (s.tod.acc.toNat + s.tod.inc.toNat) / 2 ^ 32 - s.tod.acc.toNat / 2 ^ 32 < 1000000000 := by decide

theorem witness_OneTickAddsTheIncrement_3 :
    let s := servoUp 0 [0]
    s.pending = [] ∧ inReset s = false ∧ s.tod.waiting ≠ [] ∧ s.mtx.held = true := by decide

theorem witness_OneTickAddsTheIncrement_4 :
    let s := { servoUp 0 [0] with mtx := { up.mtx with held := false } }
    s.pending = [] ∧ inReset s = false ∧ s.mtx.held = false := by decide

theorem witness_OneTickAddsTheIncrement_5 :
    let s : State := { up with pwr := { up.pwr with rstLow := true } }
    s.pending = [] ∧ inReset s = true := by decide

theorem witness_CompletionsChangeOnlyTheirRings_2 :
    ∀ n < 4096, Reg.glbMode ≠ Reg.ringProd n ∧ Reg.glbMode ≠ Reg.ringCtl n := by
  intro n _; simp only [Reg.glbMode, Reg.ringProd, Reg.ringCtl]; omega

theorem witness_CompletionsChangeOnlyTheirRings_3 : desc? up 0 = none := by decide

theorem witness_CompletionsChangeOnlyTheirRings_4 :
    let s : State := { withJob up dsc with mtx := { up.mtx with held := false } }
    desc? s dsc.id = some dsc ∧ (1 : Nat) ≠ 0 ∧ s.mtx.held = false := by decide

theorem witness_SvnCommitRaisesTheFuse_1 :
    let s := wr up Reg.glbFwSvn 1
    hostDeaf s = false ∧ regLocked s = false ∧ replay s = false ∧ mode s = 0 ∧ bit (0x20 : Word) 5 = true ∧ s.pwr.minSvn < fget s Reg.glbFwSvn 7 0 := by decide

theorem witness_SvnCommitRaisesTheFuse_2 : ∃ t, exec (.svnCommit 0x20) up = .next t := ⟨_, rfl⟩

theorem witness_SvnCommitRaisesTheFuse_3 : ∃ t, step { up with pending := [.svnCommit 0x20] } = .next t := ⟨_, rfl⟩

theorem witness_SvnCommitRaisesTheFuse_4 :
    hostDeaf up = false ∧ regLocked up = false ∧ bit (0x20 : Word) 5 = true ∧ up.pwr.minSvn = fget up Reg.glbFwSvn 7 0 := by decide

theorem witness_CommandsAreTakenInOrder_1 : ∃ t, exec .oscinStop up = .next t := ⟨_, rfl⟩

theorem witness_CommandsAreTakenInOrder_2 : ∃ t, step { up with pending := [.oscinStop, .oscinReturn] } = .next t := ⟨_, rfl⟩

theorem witness_MemoriesKeepTheirForm_1 :
    memWf State.reset = true ∧ ∃ t, exec (.mailboxSupervisorWrite (oneByte 0)) State.reset = .next t := ⟨by decide, _, rfl⟩

theorem witness_MemoriesKeepTheirForm_2 : memWf State.reset = true ∧ ∃ t, step State.reset = .next t := ⟨by decide, _, rfl⟩

theorem witness_OnlyMemoryCommandsChangeMemory :
    writesMemory .oscinStop = false ∧ ∃ t, exec .oscinStop up = .next t := ⟨by decide, _, rfl⟩

/-! ### Ill-formed commands are refused, one for each check -/

theorem test_wf_offset : wellFormed (.registerWrite (2 ^ 26) 4 0) = false ∧ wellFormed (.registerWrite 0 4 0) = true := by decide
theorem test_wf_size : wellFormed (.registerWrite 0 0 0) = false ∧ wellFormed (.registerWrite 0 9 0) = false := by decide
theorem test_wf_board : wellFormed (.boardBlockLoaded []) = false ∧ wellFormed (.boardBlockRetry []) = false := by decide
theorem test_wf_key :
    wellFormed (.selExerEnd 393216) = false ∧ wellFormed (.mergeAlignReached 393216) = false ∧
      wellFormed (.mergeWindowEnd 393216) = false ∧ wellFormed (.selExerEnd 393215) = true := by decide
theorem test_wf_descriptor : wellFormed (.descriptorFetch 0 []) = false ∧ wellFormed (.abort 0 [0]) = false := by decide
theorem test_wf_counter : wellFormed (.counterCarry 2 0) = false ∧ wellFormed (.counterCarry (2 ^ 26) 0) = false := by decide
theorem test_wf_boot : wellFormed (.halfBootDone true {}) = false := by decide
theorem test_wf_burst :
    wellFormed (.matrixAccess { beats := 2, size := 4 }) = false ∧ wellFormed (.matrixAccess { beats := 17 }) = false ∧
      wellFormed (.matrixAccess { accepted := 2 }) = false ∧ wellFormed (.matrixAccess { write := true }) = false ∧
      wellFormed (.matrixAccess {}) = true := by decide
theorem test_wf_locked : wellFormed (.lockedRead 0 0 9) = false := by decide
theorem test_wf_mailbox :
    wellFormed (.mailboxHostWrite { offset := 65536, lanes := [none] } none) = false ∧
      wellFormed (.mailboxSupervisorWrite { offset := 7, lanes := [none, none] }) = false := by decide
theorem test_wf_hbm : wellFormed (.hbmReadCheck (BitVec.ofNat 38 (144 * 2 ^ 30)) 0 .other) = false := by decide
theorem test_wf_thermal : wellFormed (.thermalSample []) = false := by decide
theorem test_wf_flash : wellFormed (.flashCmdDone []) = false := by decide

/-! ### No row of the table gives bits -/

theorem test_no_word_spells_a_command : decodeTableWord 32 0 = none ∧ State.reset.withFetchWord 32 0 = State.reset := ⟨rfl, rfl⟩

/-! ### Single effects, worked out from the rules -/

/-- One effect of a command on a state, as a proposition on the state after it. -/
def after (c : Instr) (s : State) (p : State → Bool) : Bool := match exec c s with
  | .next t => p t
  | _ => false

/-- R435: HBM_STATUS resets to 0xE80. -/
theorem test_reset_hbm_status : rd State.reset 0x1000020 = 0xE80 := by decide

/-- R286, R287: the nominal increment is 2 ns a tick. -/
theorem test_tick_adds_two_ns : (match step up with
    | .next t => t.tod.acc == 0x200000000 && t.tod.subsec == 2
    | _ => false) = true := by decide

/-- R21, R325: a mode that the table of modes does not allow is ignored with kind 7. -/
theorem test_mode_refused : after (.glbModeWrite 3) up (fun t => rd t Reg.hifIgnoredCnt == 1 && fget t Reg.hifIgnoredLast 2 0 == 7 &&
    mode t == 0) = true := by decide

/-- R382: a host write of one byte of word 8,190 interrupts the supervisor once. -/
theorem test_mailbox_signal : after (.mailboxHostWrite (oneByte 0xFFF0) none) up (fun t => t.mtx.irq == 1 && mboxByte t 0xFFF0 == 1) =
    true := by decide

/-- R186: SF of the protection copy outranks FS, and leaves working selected. -/
theorem test_sfp_over_fs : (decideSel { cmd := 2, p := { sf := true, pass := true } }).1.req = 10 ∧
    (decideSel { cmd := 2, p := { sf := true, pass := true } }).1.want = false := by decide

/-- R368: of two claims the higher epoch wins. -/
theorem test_higher_epoch_wins : decideClaims { up with mtx := { up.mtx with claims := [(false, 4), (true, 5)] } } =
    some (true, 5, 2, 4) := by decide

/-- R357: a raw counter at its top carries into its chain slot. -/
theorem test_carry : rd (count chainUp 0x20020 1) 0x20020 = 0 ∧ rd (count chainUp 0x20020 1) (Reg.pmChainHi 255) = 1 := by
  decide +kernel

/-- R355: a raw counter wraps modulo 2^32. -/
theorem test_wrap : rd (count (wr up 0x20034 0xFFFFFFFF) 0x20034 3) 0x20034 = 2 := by decide +kernel

/-- R429: SVN_COMMIT raises the fuse in BRINGUP and is ignored in SERVICE. -/
theorem test_svn_commit :
    after (.svnCommit 0x20) (wr up Reg.glbFwSvn 3) (fun t => t.pwr.minSvn == 3) = true ∧
      after (.svnCommit 0x20) (fset (wr up Reg.glbFwSvn 3) Reg.glbMode 1 0 2)
        (fun t => t.pwr.minSvn == 0 && rd t Reg.hifIgnoredCnt == 1) = true := by decide

/-- R194: K1 of signal fail, low priority, on channel 1 is 0b1100_0001. -/
theorem test_k1_sf : reqK1 (8, 1) = 0b11000001 := by decide

/-- The check value of CRC-32 over the ASCII digits 1 to 9 (R174, R228). -/
theorem test_crc32 : crc32 [0x31, 0x32, 0x33, 0x34, 0x35, 0x36, 0x37, 0x38, 0x39] = 0xCBF43926 := by decide +kernel

/-- R366: HB_AGE counts µs since the holder's beat, and a beat restarts it. -/
theorem test_heartbeat :
    let s : State := atTick 3500 { halvesUp 3 2 with mtx := { (halvesUp 3 2).mtx with beat := some 0 } }
    hbAge s = 7 ∧ after (.heartbeat false) s (fun t => hbAge t == 0) = true := by decide

/-! ### What meets the hypotheses of the completion statements, clause by clause -/

theorem witness_ModesResetsAndRegisterWritesAct_1_8 :
    -- clause 1
    (let off : Nat := 0
    let s : State := up
    (hostDeaf s = false) ∧ (regLocked s = false) ∧ (off % 4 = 0)) ∧
    -- clause 2
    (let off : Nat := 0
    let s : State := up
    (hostDeaf s = false) ∧ (regLocked s = false) ∧ (off % 8 = 0)) ∧
    -- clause 3
    (let v : Word := 1
    let s : State := up
    (hostDeaf s = false) ∧ (regLocked s = false) ∧ (replay s = false) ∧ (modePending s = false) ∧ (pwrPending s = false) ∧
      (fld v 1 0 ≠ mode s) ∧ (modeAllowed (mode s) (fld v 1 0) = true)) ∧
    -- clause 4
    (let s : State := { up with glb := { up.glb with modeGo := true } }
    (s.glb.modeGo = true) ∧ (allEnded s = true)) ∧
    -- clause 8
    (let s : State := up
    (s.pwr.rstLow = false) ∧ (s.pwr.aonOk = true) ∧ (s.pwr.st ≠ 0)) :=
  ⟨by decide, by decide, by decide, by decide, by decide⟩

theorem witness_ModesResetsAndRegisterWritesAct_9_12 :
    -- clause 9
    (let s : State := { up with pwr := { up.pwr with warmLow := true } }
    (s.pwr.warmLow = true)) ∧
    -- clause 10
    (let s : State := bset up Reg.glbStatus 3 true
    (replay s = true) ∧ (s.mtx.held = true) ∧ (s.pwr.warmLow = false)) ∧
    -- clause 11
    (let s : State := editGth (bset up Reg.glbStatus 3 true) (fun x => { x with replayed := true })
    (replay s = true) ∧ (s.mtx.held = true) ∧ (s.pwr.warmLow = false) ∧ (s.gth.replayed = true)) ∧
    -- clause 12
    (let s : State := { up with mtx := { up.mtx with recover := true } }
    (s.mtx.recover = true) ∧ (s.mtx.held = true) ∧ (replay s = false)) :=
  ⟨by decide, by decide, by decide, by decide⟩

theorem witness_LaneWritesTakeEffect :
    -- clause 1
    (let lane : LaneId := 5
    let v : Word := 0
    let s : State := up
    (hostReady s (laneGroup lane)) ∧ (ctlBusy s lane v = false) ∧ (ctlAdmitted s lane v) ∧ (quadTakes s lane v = false)) ∧
    -- clause 2
    (let lane : LaneId := 5
    let v : Word := 5
    let s : State := laneUp 1 0x80
    (hostReady s (laneGroup lane)) ∧ (ctlBusy s lane v = true) ∧ ((laneCtl s lane ^^^ v) &&& 0x41F ≠ 0)) ∧
    -- clause 3
    (let lane : LaneId := 5
    let v : Word := 5
    let s : State := editLane up 5 (fun l => { l with heldCtl := some 5 })
    let t : State := (editLane s lane (fun l => { l with heldCtl := none }))
    ((laneSt s lane).heldCtl = some v) ∧ (ctlBusy s lane v = false) ∧ (ctlAdmitted t lane v) ∧ (quadTakes t lane v = false)) ∧
    -- clause 4
    (let lane : LaneId := 5
    let v : Word := 0x240
    let s : State := up
    (hostReady s (laneGroup lane)) ∧ (mode s < 2) ∧ (laneLive s lane = false) ∧ (fld v 2 0 ≠ 7) ∧ (fld v 5 3 ≠ 7) ∧
      (bit v 7 = false) ∧ (bit v 6 = true) ∧ (bit v 9 = true)) ∧
    -- clause 5
    (let lane : LaneId := 5
    let v : Word := 0x80028000
    let s : State := laneUp 5 4
    (hostReady s (laneGroup lane)) ∧ ((laneSt s lane).eyeRun = false) ∧ (bit v 31 = true) ∧ (10 ≤ fld v 19 14) ∧
      (fld v 19 14 ≤ 40) ∧ (oversampled (laneMode (wr s (Reg.laneEyeCtl lane) (v &&& 0xFFFFF)) lane) = false) ∧
      (laneState (wr s (Reg.laneEyeCtl lane) (v &&& 0xFFFFF)) lane = 4)) ∧
    -- clause 6
    (let lane : LaneId := 5
    let s : State := wr up (Reg.lanePrbs 5) 0x80
    (bget s (Reg.lanePrbs lane) 7 = true)) ∧
    -- clause 7
    (let lane : LaneId := 5
    let s : State := editLane up 5 (fun l => { l with eyeRun := true })
    ((laneSt s lane).eyeRun = true) ∧ ((laneSt s lane).eyePaused = false)) ∧
    -- clause 8
    (let lane : LaneId := 5
    let s : State := laneUp 5 4
    (laneEn s lane = true)) :=
  ⟨by decide, by decide, by decide, by decide, by decide, by decide, by decide, by decide⟩

theorem witness_LaneStartUpFollowsItsStates_1_5 :
    -- clause 1
    (let lane : LaneId := 5
    let s : State := laneUp 5 1
    (laneState s lane = 1) ∧ (laneEn s lane = true) ∧ (pllLost s (laneGroup lane) (ethMode (laneMode s lane)) = false) ∧
      ((laneSt s lane).back = false)) ∧
    -- clause 2
    (let lane : LaneId := 5
    let s : State := editGroup (laneUp 5 0x81) 0 (fun g => { g with retrimRun := some 6 })
    (calBusy s lane = true)) ∧
    -- clause 3
    (let lane : LaneId := 5
    let s : State := laneUp 5 0x81
    (calBusy s lane = true)) ∧
    -- clause 4
    (let lane : LaneId := 5
    let s : State := laneUp 5 3
    (laneState s lane = 3)) ∧
    -- clause 5
    (let lane : LaneId := 5
    let s : State := laneUp 5 4
    (laneState s lane = 4)) :=
  ⟨by decide, by decide, by decide, by decide, by decide⟩

theorem witness_LaneStartUpFollowsItsStates_6_9 :
    -- clause 6
    (let lane : LaneId := 5
    let s : State := laneUp 5 4
    (laneState s lane = 4)) ∧
    -- clause 7
    (let g : GroupId := 2
    let eth : Bool := true
    let s : State := bset up (gpll 2) 3 true
    (pllLocked s g eth = true)) ∧
    -- clause 8
    (let g : GroupId := 2
    let eth : Bool := true
    let s : State := setPllLost up 2 true true
    (pllLost s g eth = true)) ∧
    -- clause 9
    (let g : GroupId := 2
    let eth : Bool := true
    let s : State := setPllLost up 2 true true
    (pllLost s g eth = true)) :=
  ⟨by decide, by decide, by decide, by decide⟩

theorem witness_LaneMonitorsReportWhatTheyMeasure_1_5 :
    -- clause 1
    (let lane : LaneId := 5
    let value : Fin 6 := 0
    let eq : Word := 0
    let s : State := laneUp 5 4
    let t : State := (setEq s lane eq)
    (laneState s lane = 4) ∧ (eqAtEnd (rd t (Reg.laneRxeq lane)) value = true) ∧
      ((laneSt t lane).atLimit.contains value.val = false) ∧ (oversampled (laneMode t lane) = false)) ∧
    -- clause 2
    (let lane : LaneId := 5
    let s : State := fset (laneUp 5 4) (Reg.pwrTherm 0) 7 0 20
    (laneState s lane = 3 ∨ laneState s lane = 4) ∧ (8 ≤ iabs (sgn 8 (laneTemp s lane) - sgn 8 (tempTrim s lane))) ∧
      ((groupSt s (laneGroup lane)).retrimRun = none) ∧ (calBusy s lane = false)) ∧
    -- clause 3
    (let lane : LaneId := 5
    let s : State := editGroup up 0 (fun g => { g with retrimRun := some 5 })
    ((groupSt s (laneGroup lane)).retrimRun = some lane.val)) ∧
    -- clause 4
    (let lane : LaneId := 5
    let d : Nat := 0
    let s : State := editLane up 5 (fun l => { l with boost := some 0 })
    ((laneSt s lane).boost = some d)) ∧
    -- clause 5
    (let lane : LaneId := 5
    let s : State := laneUp 5 0x14
    (laneState s lane = 0 ∨ laneState s lane = 4) ∧ (bget s (Reg.laneStatus lane) 4 = true)) :=
  ⟨by decide, by decide, by decide, by decide, by decide⟩

theorem witness_LaneMonitorsReportWhatTheyMeasure_6_10 :
    -- clause 6
    (let lane : LaneId := 5
    let s : State := laneUp 5 1
    (laneState s lane ≠ 0) ∧ (laneState s lane ≠ 4)) ∧
    -- clause 7
    (let lane : LaneId := 5
    let s : State := laneUp 5 0x214
    (bget s (Reg.laneStatus lane) 9 = true) ∧ (iabs (sgn 16 (fget s (Reg.laneFofs lane) 15 0)) < (fofsLimit s lane).2)) ∧
    -- clause 8
    (let d : Nat := 0
    let x : Desc := job 0x22 (0) [5] 0
    let s : State := withJob (laneUp 5 4) (job 0x22 (0) [5] 0)
    (takeDesc s d 0x22 = some x) ∧ (calKind x = 0) ∧ (laneEn s (calLane x) = true) ∧ (calWaits s (calLane x) = false) ∧
      (mode s < 2)) ∧
    -- clause 9
    (let d : Nat := 0
    let x : Desc := job 0x22 (0) [0x105] 0
    let s : State := withJob (laneUp 5 4) (job 0x22 (0) [0x105] 0)
    (takeDesc s d 0x22 = some x) ∧ (calKind x = 1) ∧ (laneEn s (calLane x) = true) ∧ (calWaits s (calLane x) = false) ∧
      ((laneSt s (calLane x)).boost = none)) ∧
    -- clause 10
    (let d : Nat := 0
    let x : Desc := job 0x22 (0) [0x205] 0
    let s : State := withJob (laneUp 5 4) (job 0x22 (0) [0x205] 0)
    (takeDesc s d 0x22 = some x) ∧ (calKind x = 2) ∧ (laneEn s (calLane x) = true) ∧ (calWaits s (calLane x) = false)) :=
  ⟨by decide, by decide, by decide, by decide, by decide⟩

theorem witness_RegeneratorSectionsFollowTheirFrames_1_5 :
    -- clause 1
    (let lane : LaneId := 5
    let v : Word := 0xC0
    let s : State := up
    (hostReady s (laneGroup lane)) ∧ ((fld v 7 6 = 3 ∨ 5 ≤ fld v 10 8))) ∧
    -- clause 2
    (let lane : LaneId := 5
    let w : Word := 0x124
    let s : State := up
    (hostReady s (laneGroup lane)) ∧ (fld w 7 6 ≠ 3) ∧ (fld w 10 8 < 5) ∧ (laneLive s lane = false) ∧ (fld w 3 2 ≠ 0)) ∧
    -- clause 3
    (let lane : LaneId := 5
    let v : Word := 0x124
    let w : Word := (setBit v 15 true)
    let s : State := up
    (hostReady s (laneGroup lane)) ∧ (fld w 7 6 ≠ 3) ∧ (fld w 10 8 < 5) ∧ (laneLive s lane = false) ∧ (fld w 3 2 ≠ 0)) ∧
    -- clause 4
    (let lane : LaneId := 5
    let v : Word := 0x124
    let w : Word := (setBit v 16 true)
    let s : State := up
    (hostReady s (laneGroup lane)) ∧ (fld w 7 6 ≠ 3) ∧ (fld w 10 8 < 5) ∧ (laneLive s lane = false) ∧ (fld w 3 2 ≠ 0)) ∧
    -- clause 5
    (let lane : LaneId := 5
    let s : State := wr (laneUp 5 4) (Reg.laneFrmStatus 5) 1
    (sdhOn s lane = true) ∧ (laneState s lane = 4) ∧ (isOof s lane = true) ∧ ((loopOf s lane = 1 →
      framePatternOk (laneSt s lane).serOut (laneN s lane) = true))) :=
  ⟨by decide, by decide, by decide, by decide, by decide⟩

theorem witness_RegeneratorSectionsFollowTheirFrames_6_10 :
    -- clause 6
    (let lane : LaneId := 5
    let balls : List Byte := List.replicate 2430 0
    let s : State := wr (laneUp 1 4) (Reg.laneFrmStatus 5) 0
    (sdhOn s lane = true) ∧ (laneState s lane = 4) ∧ ((sampled s lane balls).length = 2430 * laneN s lane) ∧
      (isOof s lane = false) ∧ (loopOf s lane ≠ 2)) ∧
    -- clause 7
    (let lane : LaneId := 5
    let x : LineDefect := .los
    let b : Bool := false
    let s : State := laneUp 5 0x1C
    (sdhOn s lane = true) ∧ ((frm s lane).det.has x ≠ b) ∧ (defectDue s lane x b = true)) ∧
    -- clause 8
    (let lane : LaneId := 5
    let s : State := laneUp 5 4
    (sdhOn s lane = true)) ∧
    -- clause 9
    (let lane : LaneId := 5
    let s : State := laneUp 5 4
    (sdhOn s lane = true)) ∧
    -- clause 10
    (let lane : LaneId := 5
    let msg : List Byte := [7]
    let l : List (List Byte) := []
    let s : State := editFrm (wr (laneUp 5 4) (Reg.laneFrmCtl 5) 4) 5 (fun f => { f with j0Due := [[7]] })
    let t : State := (editFrm s lane (fun f => { f with j0Due := l }))
    ((frm s lane).j0Due = msg :: l) ∧ (traceValid (frm s lane).j0Mode msg = true) ∧ ((frm t lane).j0Last ≠ msg)) :=
  ⟨by decide +kernel, by decide, by decide, by decide, by decide⟩

theorem witness_DataChannelsAndSerialPortsCarryTheirFrames_1_5 :
    -- clause 1
    (let c : Fin 256 := 0
    let v : Word := 0
    let s : State := up
    (hostReady s 17) ∧ (bget s (Reg.ohpDccCtl c) 0 = false) ∧ (dccConflict s c v = false)) ∧
    -- clause 2
    (let p : Fin 8 := 0
    let v : Word := 0
    let s : State := up
    (hostReady s 17) ∧ (fld v 2 1 ≠ 3) ∧ (bget s (Reg.ohpOspCtl p) 0 = false)) ∧
    -- clause 3
    (let v : Word := 0
    let s : State := up
    (hostReady s 17) ∧ (bit v 7 = false)) ∧
    -- clause 4
    (let d : Nat := 0
    let c : Nat := 0
    let x : Desc := job 0x29 64 []
    let s : State := { withJob up (job 0x29 64 []) with dccs := [(0, { ctl := 0x201 })] }
    (desc? s d = some x) ∧ (x.op = 0x29) ∧ (mayPost s x = true) ∧ (rangeBad s x = false) ∧ (dccRing s x.ring = some c)) ∧
    -- clause 5
    (let c : Fin 256 := 0
    let f : HdlcRx := { abort := true }
    let r : List HdlcRx := []
    let s : State := { laneUp 5 4 with dccs := [(0, { ctl := 0x215, rxDone := [{ abort := true }] })] }
    ((dcc s c).rxDone = f :: r) ∧ (hdlcBad (dcc s c).ctl f = true)) :=
  ⟨by decide, by decide, by decide, by decide, by decide⟩

theorem witness_DataChannelsAndSerialPortsCarryTheirFrames_6_9 :
    -- clause 6
    (let c : Fin 256 := 0
    let f : HdlcRx := { bytes := [1, 2] ++ fcsOf false [1, 2] }
    let r : List HdlcRx := []
    let x : Desc := job 0x29 64 []
    let l : List Desc := []
    let s : State :=
      { laneUp 5 4 with dccs := [(0, { ctl := 0x215, rxb := [0], rxDone := [{ bytes := [1, 2] ++ fcsOf false [1, 2] }] })], rng := { up.rng with descs := [job 0x29 64 []] } }
    let t : State := (editDcc s c (fun q => { q with rxDone := r }))
    ((dcc s c).rxDone = f :: r) ∧ (hdlcBad (dcc s c).ctl f = false) ∧ ((dcc t c).rxb.filterMap (desc? t) = x :: l) ∧
      (replay t = false) ∧ (t.mtx.held = true) ∧ (t.rng.bme = true) ∧ (x.frozen = false) ∧
      ((f.bytes.take (f.bytes.length - fcsLen (dcc s c).ctl)).length ≤ x.len)) ∧
    -- clause 7
    (let d : Nat := 0
    let x : Desc := job 0x28 (64) [] 0
    let c : Nat := (fld (x.w 6) 7 0)
    let s : State := withJob ({ laneUp 5 4 with dccs := [(0, { ctl := 0x215 })] }) (job 0x28 (64) [] 0)
    let t : State := s
    (takeInput s d 0x28 = some (t, x)) ∧ (rangeBad s x = false) ∧ (bit (dcc s c).ctl 0 = true) ∧ (bit (dcc s c).ctl 9 =
      true) ∧ (laneEn s (dccLane (dcc s c).ctl) = true) ∧ (x.len ≠ 0) ∧ (x.len ≤ 1600) ∧ ((dcc s c).txq.length < 8)) ∧
    -- clause 8
    (let c : Fin 256 := 0
    let d : Nat := 0
    let b : List Byte := [1]
    let r : List (Nat × List Byte) := []
    let s : State := { up with dccs := [(0, { txq := [(0, [1])], opened := true })] }
    ((dcc s c).txq = (d, b) :: r) ∧ ((dcc s c).opened = true) ∧ ((dcc s c).txLeft = 0)) ∧
    -- clause 9
    (let p : Fin 8 := 0
    let s : State := { up with ohp := { up.ohp with osp := [(0, 1)] } }
    let w : Word := (Tab.get s.ohp.osp p 0)
    (bit w 0 = true)) :=
  ⟨by decide +kernel, by decide, by decide, by decide⟩

theorem witness_PathsFollowTheirPointersAndOverhead_1_7 :
    -- clause 1
    (let a : Word := 0x50000
    let m : Nat := 0
    let s : State := onPath 0 [0, 0, 0] { ptr := 0 } {}
    (pathRx s a = true) ∧ (m < memberCount s a) ∧ (saTier a = 0)) ∧
    -- clause 2
    (let a : Word := 0x20050000
    let m : Nat := 0
    let s : State := onPath 0 [2, 2, 2] { ptr := 0 } {}
    (pathRx s a = true) ∧ (m < memberCount s a) ∧ (saTier a ≠ 0) ∧ (hoNorm s (hoOf s a) = true) ∧
      ((path s (hoOf s a)).lom = false)) ∧
    -- clause 3
    (let a : Word := 0x50000
    let v : Byte := 1
    let s : State := onPath 0 [2, 2, 2] { ptr := 0, inMf := true } {}
    let h4 : Byte := ((pathTaken s a [(ownOut s a).sent.getD (5 * (contBytes s a / 9)) 0] [v]).getD 0 0)
    let t : State :=
      (editPath s a (fun p => { h4Step p (h4.toNat % 4) with lom := if (h4Step p (h4.toNat % 4)).oomRun = 8 then true else if (h4Step p (h4.toNat % 4)).mfRun = 8 then false else (h4Step p (h4.toNat % 4)).lom }))
    (pathRx s a = true) ∧ (saTier a = 0) ∧ ((tusOf s a).isEmpty = false) ∧ (hoNorm s a = true) ∧ ((path t a).inMf = true) ∧
      ((path t a).lom = (path s a).lom)) ∧
    -- clause 4
    (let a : Word := 0x50000
    let v : Byte := 2
    let s : State := onPath 0 [2, 2, 2] { ptr := 0, oomRun := 7, h4Last := 0 } {}
    let h4 : Byte := ((pathTaken s a [(ownOut s a).sent.getD (5 * (contBytes s a / 9)) 0] [v]).getD 0 0)
    let t : State :=
      (editPath s a (fun p => { h4Step p (h4.toNat % 4) with lom := if (h4Step p (h4.toNat % 4)).oomRun = 8 then true else if (h4Step p (h4.toNat % 4)).mfRun = 8 then false else (h4Step p (h4.toNat % 4)).lom }))
    let u : State := ((tusOf t a).foldl (fun s c => editPath s c PathSt.unread) t)
    (pathRx s a = true) ∧ (saTier a = 0) ∧ ((tusOf s a).isEmpty = false) ∧ (hoNorm s a = true) ∧ ((path t a).inMf =
      false) ∧ ((path u a).lom = true) ∧ ((path s a).lom = false)) ∧
    -- clause 5
    (let a : Word := 0x50000
    let s : State := onPath 0 [2, 2, 2] { ptr := 1 } {}
    (pathRx s a = true) ∧ (saTier a = 0) ∧ ((tusOf s a).isEmpty = false) ∧ (hoNorm s a = false)) ∧
    -- clause 6
    (let a : Word := 0x20050000
    let balls : List Byte := List.replicate 140 0
    let s : State := onPath 0 [2, 2, 2] { ptr := 0, inMf := true } { ptr := 0 } 8
    let data : List Byte := (pathTaken s a (ownOut s a).sent balls)
    (pathRx s a = true) ∧ (data.length = contBytes s a)) ∧
    -- clause 7
    (let a : Word := 0x20050000
    let s : State := onPath 0 [2, 2, 2] { ptr := 0, inMf := true } { ptr := 0, due := true } 8
    (pathOn s a = true) ∧ (bit (pathCfg s a).w7 3 = true) ∧ ((path s a).due = true)) :=
  ⟨by decide, by decide, by decide, by decide, by decide, by decide +kernel, by decide +kernel⟩

theorem witness_PathsFollowTheirPointersAndOverhead_8_13 :
    -- clause 8
    (let a : Word := 0x20050000
    let balls : List Byte := List.replicate 140 0
    let s : State := onPath 0 [2, 2, 2] { ptr := 0 } {}
    let bytes : List Byte := (pathTaken s a (ownOut s a).sent balls)
    (pathRx s a = true) ∧ (bytes.length = contBytes s a)) ∧
    -- clause 9
    (let a : Word := 0x20050000
    let balls : List Byte := List.replicate 140 0
    let s : State :=
      { onPath 0 [2, 2, 2] { ptr := 0, inMf := true } { ptr := 0 } with map := { terms := [(3, { src := 1, from_ := 0x20050000 })] } }
    let bytes : List Byte := (pathTaken s a (ownOut s a).sent balls)
    (pathRx s a = true) ∧ (demapped s a = true) ∧ (demapOwners s a = [a]) ∧ (bytes.length = contBytes s a)) ∧
    -- clause 10
    (let a : Word := 0x20050000
    let s : State :=
      { onPath 0 [2, 2, 2] { ptr := 0, inMf := true } { ptr := 0, leakQ := 8, leakAge := 8 } with map := { terms := [(3, { src := 1, from_ := 0x20050000 })] } }
    (demapped s a = true) ∧ ((path s a).leakQ ≠ 0) ∧ (leakFrames s a ≤ (path s a).leakAge)) ∧
    -- clause 11
    (let a : Word := 0x50000
    let s : State := onPath 0x400 [0, 0, 0] { ptr := 0 } {}
    (pathOn s a = true) ∧ (bit (pathCfg s a).w7 10 = true)) ∧
    -- clause 12
    (let d : Nat := 0
    let x : Desc := job 0x20 (0) [0x50000] 0
    let s : State := withJob (laneUp 5 4) (job 0x20 (0) [0x50000] 0)
    let t : State := s
    (takeInput s d 0x20 = some (t, x)) ∧ (rangeBad s x = false) ∧ (cfgReason s x = none) ∧ (x.len = 0)) ∧
    -- clause 13
    (let d : Nat := 0
    let x : Desc := job 0x20 (128) [0x50000] 0
    let s : State := withJob (laneUp 5 4) (job 0x20 (128) [0x50000] 0)
    let t : State := s
    (takeInput s d 0x20 = some (t, x)) ∧ (rangeBad s x = false) ∧ (cfgReason s x = none) ∧ (x.len ≠ 0)) :=
  ⟨by decide +kernel, by decide +kernel, by decide, by decide, by decide, by decide⟩

theorem witness_BoundariesAdvanceTheFrameGrid :
    -- clause 1
    (let s : State := up
    (inReset s = false)) ∧
    -- clause 2
    (let s : State := { up with glb := { up.glb with sfDue := true } }
    (s.glb.sfDue = true)) ∧
    -- clause 3
    (let s : State := { up with glb := { up.glb with mfDue := true } }
    (s.glb.mfDue = true) ∧ (gathersDue s = [])) :=
  ⟨by decide, by decide, by decide⟩

theorem witness_TributaryFramersAndPortsFollowTheirSignals_1_8 :
    -- clause 1
    (let p : PortId := 5
    let v : Word := 0
    let w : Word := (v &&& 0xFFFFF)
    let s : State := up
    (hostReady s 16) ∧ (tribBad w = false) ∧ (portGuarded s p (bit w 13) = false) ∧ (gatherBlocksPort s p w (portFrm s p) =
      false) ∧ (portExceeds s p w (portFrm s p) = false) ∧ (portExceeds s p w (rd s (Reg.tribFrm p)) = false) ∧
      (bget s (Reg.tribCtl p) 0 = false)) ∧
    -- clause 2
    (let p : PortId := 5
    let v : Word := 0
    let w : Word := (v &&& 0x1FFF)
    let s : State := up
    (hostReady s 16) ∧ (frmBad (rd s (Reg.tribCtl p)) w = false) ∧ (portGuarded s p (bget s (Reg.tribCtl p) 13) = false) ∧
      (gatherBlocksPort s p (rd s (Reg.tribCtl p)) w = false) ∧ (portExceeds s p (rd s (Reg.tribCtl p)) w = false) ∧
      (portLive s p = false)) ∧
    -- clause 3
    (let p : PortId := 5
    let s : State := portUp 1 0 1
    (portState s p = 1)) ∧
    -- clause 4
    (let p : PortId := 5
    let s : State := portUp 1 0 2
    (tribMode (portCtl s p) ≤ 1) ∧ (portState s p = 2)) ∧
    -- clause 5
    (let p : PortId := 5
    let s : State := portUp 1 0 4
    (tribMode (portCtl s p) ≤ 1) ∧ (2 ≤ portState s p)) ∧
    -- clause 6
    (let p : PortId := 5
    let s : State := wr (portUp 1 0 4) (Reg.tribLiu 5) 61
    (bit (portCtl s p) 0 = true) ∧ (tribMode (portCtl s p) ≤ 1) ∧ ((Tab.get s.tribs p {}).lossHigh = false) ∧
      (60 < fget s (Reg.tribLiu p) 5 0)) ∧
    -- clause 7
    (let p : PortId := 5
    let b : Bool := true
    let s : State := portUp 1 0 4
    (bit (portCtl s p) 0 = true) ∧ (tribMode (portCtl s p) ≤ 1) ∧ (bget s (Reg.tribLiu p) 16 ≠ b)) ∧
    -- clause 8
    (let u : PdhUnit := .port 5
    let s : State := portUp 1 0 3
    (pdhRuns s u = true) ∧ (pdhKind s u ≠ 0) ∧ ((pdh s u).oof = true)) :=
  ⟨by decide, by decide, by decide, by decide, by decide, by decide, by decide, by decide⟩

theorem witness_TributaryFramersAndPortsFollowTheirSignals_9_15 :
    -- clause 9
    (let u : PdhUnit := .port 5
    let pos : Nat := 0
    let k : Nat := 0
    let s : State := portUp 1 4 3 { cands := [{ pos := 0, conf := true, next := 999999 }] }
    (pdhRuns s u = true) ∧ (pdhKind s u ≠ 0) ∧ ((pdh s u).oof = true) ∧
      ((lateCands (pdhKind s u) (pdh s u) k).any (fun c => c.pos == pos && c.conf) = true)) ∧
    -- clause 10
    (let u : PdhUnit := .port 5
    let s : State := portUp 1 4 3 { oof := false }
    (pdhRuns s u = true) ∧ ((pdhKind s u = 2 ∨ pdhKind s u = 3)) ∧ ((pdh s u).oof = false) ∧ ((pdh s u).mfa = false) ∧
      ((pdh s u).interwork = false)) ∧
    -- clause 11
    (let u : PdhUnit := .port 5
    let s : State := portUp 1 8 3 { oof := false, firstConf := some 3 }
    (pdhRuns s u = true) ∧ (pdhKind s u = 3) ∧ ((pdh s u).oof = false) ∧ ((pdh s u).mfa = false) ∧ ((pdh s u).interwork =
      false) ∧ ((pdh s u).firstConf.isSome = true)) ∧
    -- clause 12
    (let u : PdhUnit := .port 5
    let f : PdhRx := {}
    let g : PdhRx := {}
    let s : State := portUp 1 2 4
    let r : State := portUp 1 2 4
    (pdhRuns s u = true) ∧ (takeFrame s u f = some (r, g)) ∧ (pdhKind s u = 0)) ∧
    -- clause 13
    (let u : PdhUnit := .port 5
    let f : PdhRx := {}
    let g : PdhRx := {}
    let s : State := portUp 1 4 3
    let r : State := portUp 1 4 3
    let t : State := (portReturns r u g)
    let h : PdhRx := (portReceives t u g)
    let x : State := ((if h.cv = 0 then t else pdhCount t u 0 h.cv))
    let y : State := (slipTxRead (if h.exz = 0 then x else pdhCount x u 1 h.exz) u)
    let z : State := (editPdh y u (fun q => aisStep (pdhKind s u) q h))
    (pdhRuns s u = true) ∧ (takeFrame s u f = some (r, g)) ∧ (pdhKind s u ≠ 0) ∧ ((pdh z u).oof = true)) ∧
    -- clause 14
    (let u : PdhUnit := .port 5
    let f : PdhRx := { bytes := List.replicate 32 0x1B }
    let g : PdhRx := { bytes := List.replicate 32 0x1B }
    let s : State := portUp 1 4 4 { oof := false }
    let r : State := portUp 1 4 4 { oof := false }
    let t : State := (portReturns r u g)
    let h : PdhRx := (portReceives t u g)
    let x : State := ((if h.cv = 0 then t else pdhCount t u 0 h.cv))
    let y : State := (slipTxRead (if h.exz = 0 then x else pdhCount x u 1 h.exz) u)
    let z : State := (editPdh y u (fun q => aisStep (pdhKind s u) q h))
    (pdhRuns s u = true) ∧ (takeFrame s u f = some (r, g)) ∧ (pdhKind s u ≠ 0) ∧ ((pdh z u).oof = false)) ∧
    -- clause 15
    (let n : Fin 65536 := 7
    let x : PdhDefect := .lof
    let b : Bool := false
    let s : State :=
      { up with map := { terms := [(7, { framing := 0 })] }, termFr := [(7, { oof := false, det := { lof := true } })] }
    ((pdh s (.term n)).det.has x ≠ b) ∧ (pdhDue s (.term n) x b = true)) :=
  ⟨by decide, by decide, by decide, by decide, by decide, by decide, by decide⟩

theorem witness_FabricMonitorsAndPairsAnswer :
    -- clause 1
    (let p : Fin 32 := 0
    let s : State := editFab up (fun f => { f with pairIdle := [(0, 8000)] })
    (pairUsed s p = false) ∧ (8000 ≤ Tab.get s.fab.pairIdle p 0)) ∧
    -- clause 2
    (let r : WordRead := { prim := 1 }
    let s : State := up
    let x : Word := (failing s r.pair r.loc r.prim)
    let y : Word := (failing s (r.pair + 32) r.loc r.repl)
    ((if bget s Reg.fabBankLease r.pair = true ∨ Tab.get s.fab.tailP r.pair 0 ≠ 0 then y else x) ≠ 0) ∧
      (s.fab.counted.contains (r.pair.val, r.loc.val) = false)) ∧
    -- clause 3
    (let v : Word := 0x80000000
    let s : State := up
    (hostReady s 17) ∧ (mode s < 2) ∧ (bit v 31 = true)) ∧
    -- clause 4
    (let m : Fin 8 := 0
    let v : Word := 3
    let s : State := wr (laneUp 5 4) (Reg.fabPmonSlot 0) 0x50000
    (hostReady s 17) ∧ (pmonBad s v (rd s (Reg.fabPmonSlot m)) = false)) ∧
    -- clause 5
    (let m : Fin 8 := 0
    let v : Word := 5
    let s : State := up
    (hostReady s 17) ∧ (pmonBad s (rd s (Reg.fabPmonCtl m)) v = false) ∧ (rd s (Reg.fabPmonSlot m) ≠ v)) ∧
    -- clause 6
    (let m : Fin 8 := 0
    let s : State := wr up (Reg.fabPmonCtl 0) 1
    (bget s (Reg.fabPmonCtl m) 0 = true)) ∧
    -- clause 7
    (let out : Word := 0x20050000
    let a : Word := 0x20050008
    let s : State :=
      { onPath 0 [2, 2, 2] { ptr := 0 } {} with map := { entries := [(0x20050000, { src := 0x20050008, kind := 1 })] } }
    (hasEntry s out = true) ∧ (latSource s (latOut s out) = some a)) :=
  ⟨by decide, by decide, by decide, by decide, by decide, by decide, by decide⟩

theorem witness_MapDescriptorsOutsideAGatherWaitForTheirBoundary :
    -- clause 1
    (let d : Nat := 0
    let x : Desc := job 0x1A (0) [7, 1, 0x20050000, 0] 0
    let w : List Word := (cfgWords x)
    let s : State := withJob (onPath 0 [2, 2, 2] { ptr := 0 } {}) (job 0x1A (0) [7, 1, 0x20050000, 0] 0)
    (takeMap s d 0x1A false = some x) ∧ (termSrc w ≠ 0) ∧ (termReason s w = none) ∧ (lateReason s x (.term w) = none)) ∧
    -- clause 2
    (let d : Nat := 0
    let x : Desc := job 0x1A (0) [7, 0, 0, 0] 0
    let w : List Word := (cfgWords x)
    let s : State :=
      withJob ({ onPath 0 [2, 2, 2] { ptr := 0 } {} with map := { terms := [(7, { from_ := 0x20050000 })] } }) (job 0x1A (0) [7, 0, 0, 0] 0)
    (takeMap s d 0x1A false = some x) ∧ (termSrc w = 0) ∧
      (releaseReason s w (numberUsed s (termNum w) || gatherNames s (Staged.names (onNumber (termNum w)))) = none) ∧
      (lateReason s x (.term w) = none)) ∧
    -- clause 3
    (let d : Nat := 0
    let x : Desc := job 0x1B (0) [1, 0x20050000, 2, 5] 0
    let w : List Word := (cfgWords x)
    let s : State :=
      withJob ({ onPath 0 [2, 2, 2] { ptr := 0 } {} with tribs := [(5, { ctl := 1, frm := 2 })] }) (job 0x1B (0) [1, 0x20050000, 2, 5] 0)
    (takeMap s d 0x1B false = some x) ∧ (ccRel w = false) ∧ (ccReason s w = none) ∧ (lateReason s x (.cc w) = none)) ∧
    -- clause 4
    (let d : Nat := 0
    let x : Desc := job 0x1B (0) [0x80000001, 0x20050000, 0, 0] 0
    let w : List Word := (cfgWords x)
    let s : State :=
      withJob ({ onPath 0 [2, 2, 2] { ptr := 0 } {} with map := { ccs := [{ aId := 0x20050000, bId := 5 }] } }) (job 0x1B (0) [0x80000001, 0x20050000, 0, 0] 0)
    (takeMap s d 0x1B false = some x) ∧ (ccRel w = true) ∧
      (ccReleaseReason s w (fun c => gatherNames s (fun i => Staged.names (onEndpoint c) i || Staged.namesEnd c i)) =
      none) ∧ (lateReason s x (.cc w) = none)) ∧
    -- clause 5
    (let d : Nat := 0
    let x : Desc := job 0x18 (16) [] 0
    let s : State := withJob (up) (job 0x18 (16) [] 0)
    (takeMap s d 0x18 false = some x) ∧ (rangeBad s x = false) ∧ (editLenBad x.len = false)) ∧
    -- clause 6
    (let d : Nat := 0
    let x : Desc := job 0x18 (16) [] 3
    let s : State := withJob (up) (job 0x18 (16) [] 3)
    (takeMap s d 0x18 true = some x) ∧ (rangeBad s x = false) ∧ (editLenBad x.len = false)) ∧
    -- clause 7
    (let d : Nat := 0
    let x : Desc := job 0x19 (0) [0x20050000, 1] 0
    let s : State := withJob (onPath 0 [2, 2, 2] { ptr := 0 } {}) (job 0x19 (0) [0x20050000, 1] 0)
    (takeDesc s d 0x19 = some x) ∧ (rangeBad s x = false) ∧ (bulkReason s x = none)) :=
  ⟨by decide, by decide, by decide, by decide, by decide, by decide, by decide⟩

theorem witness_StatusReadsGoToABulkEngine :
    -- clause 1
    (let d : Nat := 0
    let x : Desc := job 0x21 (0) [5] 0
    let s : State := withJob (laneUp 5 4) (job 0x21 (0) [5] 0)
    (takeDesc s d 0x21 = some x) ∧ (rangeBad s x = false) ∧ (laneEn s (fld (x.w 6) 6 0) = true) ∧
      (laneMode s (fld (x.w 6) 6 0) ≤ 3) ∧ (x.op = 0x21)) ∧
    -- clause 2
    (let d : Nat := 0
    let x : Desc := job 0x32 (0) [0, 1] 0
    let s : State := withJob (laneUp 5 4) (job 0x32 (0) [0, 1] 0)
    (takeDesc s d 0x32 = some x) ∧ (rangeBad s x = false) ∧ (bulkReason s x = none)) ∧
    -- clause 3
    (let d : Nat := 0
    let x : Desc := job 0x39 (0) [0, 1] 0
    let s : State := withJob (laneUp 5 4) (job 0x39 (0) [0, 1] 0)
    (takeDesc s d 0x39 = some x) ∧ (rangeBad s x = false) ∧ (bulkReason s x = none)) ∧
    -- clause 4
    (let d : Nat := 0
    let x : Desc := job 0x41 (0) [0, 4096] 0
    let s : State := withJob (up) (job 0x41 (0) [0, 4096] 0)
    (takeDesc s d 0x41 = some x) ∧ (rangeBad s x = false) ∧ (bulkReason s x = none)) ∧
    -- clause 5
    (let d : Nat := 0
    let x : Desc := job 0x49 (0) [0, 16384] 0
    let s : State := withJob (up) (job 0x49 (0) [0, 16384] 0)
    (takeDesc s d 0x49 = some x) ∧ (rangeBad s x = false) ∧ (bulkReason s x = none)) ∧
    -- clause 6
    (let d : Nat := 0
    let x : Desc := job 0x58 (0) [0x102, 0] 0
    let s : State := withJob (up) (job 0x58 (0) [0x102, 0] 0)
    (takeDesc s d 0x58 = some x) ∧ (rangeBad s x = false) ∧ (bulkReason s x = none)) ∧
    -- clause 7
    (let d : Nat := 0
    let x : Desc := job 0x61 0 []
    let s : State := withJob up (job 0x61 0 [])
    let t : State := ({ s with glb := { s.glb with free := s.glb.free + 8 } })
    (takeDesc t d 0x61 = some x) ∧ (rangeBad t x = false) ∧ (bulkReason t x = none)) :=
  ⟨by decide, by decide, by decide, by decide, by decide, by decide, by decide⟩

theorem witness_GathersOpenStageCommitAndApply_1_6 :
    -- clause 1
    (let d : Nat := 0
    let i : Nat := 0
    let x : Desc := job 0x10 (0) [] 3
    let s : State := withJob ({ up with hbm := { up.hbm with placed := [0, 0, 1, 0, 0] } }) (job 0x10 (0) [] 3)
    (takeDesc s d 0x10 = some x) ∧ (x.gather ≠ 0) ∧ (gatherIn s x.gather 1 3 = none) ∧ (openReason s x = none) ∧
      (gatherFree s = some i)) ∧
    -- clause 2
    (let d : Nat := 0
    let k : Nat := 0
    let x : Desc := job 0x1A (0) [7, 1, 0x20050000, 0] 3
    let s : State := withJob (setGslot up 0 { st := 1, gid := 3 }) (job 0x1A (0) [7, 1, 0x20050000, 0] 3)
    (takeMap s d 0x1A true = some x) ∧ (gatherIn s x.gather 1 1 = some k) ∧ (x.gather ≠ 0) ∧
      ((gslot s k).edits + (Staged.term (cfgWords x)).size ≤ 65536) ∧ (stagedAll s + (Staged.term (cfgWords x)).size ≤ 262144)) ∧
    -- clause 3
    (let d : Nat := 0
    let k : Nat := 0
    let x : Desc := job 0x1B (0) [1, 0x20050000, 2, 5] 3
    let s : State := withJob (setGslot up 0 { st := 1, gid := 3 }) (job 0x1B (0) [1, 0x20050000, 2, 5] 3)
    (takeMap s d 0x1B true = some x) ∧ (gatherIn s x.gather 1 1 = some k) ∧ (x.gather ≠ 0) ∧
      ((gslot s k).edits + (Staged.cc (cfgWords x)).size ≤ 65536) ∧ (stagedAll s + (Staged.cc (cfgWords x)).size ≤ 262144)) ∧
    -- clause 4
    (let d : Nat := 0
    let i : Nat := 0
    let x : Desc := job 0x11 (0) [] 3
    let s : State := withJob (setGslot up 0 { st := 1, gid := 3 }) (job 0x11 (0) [] 3)
    (takeDesc s d 0x11 = some x) ∧ (x.gather ≠ 0) ∧ (gatherIn s x.gather 1 1 = some i)) ∧
    -- clause 5
    (let d : Nat := 0
    let i : Nat := 0
    let x : Desc := job 0x12 (0) [] 3
    let s : State := withJob (setGslot up 0 { st := 1, gid := 3 }) (job 0x12 (0) [] 3)
    (takeDesc s d 0x12 = some x) ∧ (x.gather ≠ 0) ∧ (gatherIn s x.gather 1 3 = some i) ∧ ((gslot s i).st ≠ 3) ∧
      ((gslot s i).commit = none)) ∧
    -- clause 6
    (let d : Nat := 0
    let i : Nat := 0
    let x : Desc := job 0x12 (0) [] 3
    let s : State := withJob (setGslot up 0 { st := 3, gid := 3 }) (job 0x12 (0) [] 3)
    (takeDesc s d 0x12 = some x) ∧ (x.gather ≠ 0) ∧ (gatherIn s x.gather 1 3 = some i) ∧ ((gslot s i).st = 3)) :=
  ⟨by decide, by decide, by decide, by decide, by decide, by decide⟩

theorem witness_GathersOpenStageCommitAndApply_7_12 :
    -- clause 7
    (let i : Fin 16 := 0
    let s : State := editGth (setGslot up 0 { st := 2, gid := 3 }) (fun t => { t with queue := [0] })
    (s.gth.run = none) ∧ (s.gth.queue.head? = some i.val)) ∧
    -- clause 8
    (let i : Fin 16 := 0
    let e : Nat × Nat := (0, 3)
    let s : State :=
      editGth (setGslot up 0 { st := 2, gid := 3, items := [.term [7, 1, 0x20050000, 0]] }) (fun t => { t with run := some 0 })
    (s.gth.run = some i.val) ∧ ((gslot s i).st = 2) ∧ ((gslot s i).valid = false) ∧ ((checkGather s i).1 = some e)) ∧
    -- clause 9
    (let i : Fin 16 := 0
    let s : State := editGth (setGslot up 0 { st := 2, gid := 3 }) (fun t => { t with run := some 0 })
    (s.gth.run = some i.val) ∧ ((gslot s i).st = 2) ∧ ((gslot s i).valid = false) ∧ ((checkGather s i).1 = none)) ∧
    -- clause 10
    (let i : Fin 16 := 0
    let d : Nat := 0
    let s : State := setGslot up 0 { st := 2, gid := 3, valid := true, begun := true, commit := some 0 }
    let t : State := (holdRecord s i)
    ((gslot s i).st = 2) ∧ ((gslot s i).valid = true) ∧ (s.mtx.held = true) ∧ (replay s = false) ∧ ((gslot s i).begun =
      true) ∧ ((gslot t i).commit = some d)) ∧
    -- clause 11
    (let i : Fin 16 := 0
    let s : State := setGslot up 0 { st := 3, gid := 3, bridged := true }
    ((gslot s i).bridged = true)) ∧
    -- clause 12
    (let i : Fin 16 := 0
    let s : State := { setGslot up 0 { st := 3, gid := 3, sfc := 0 } with glb := { up.glb with mfDue := true } }
    ((gathersDue s).head? = some i.val)) :=
  ⟨by decide, by decide, by decide, by decide, by decide, by decide⟩

theorem witness_SelectorsAndTheirCommandsAct_1_10 :
    -- clause 1
    (let k : Nat := 0
    let x : Sel := { working := 0x50000, protect := 0x50003 }
    let s : State := selUp {}
    (sel? s k = some x)) ∧
    -- clause 3
    (let i : Fin 64 := 3
    let g : Grp := { w8 := 0x106, work := [5] }
    let s : State := grpUp {}
    (grp? s i = some g)) ∧
    -- clause 6
    (let k : Nat := 0
    let n : Nat := 8000
    let x : Sel := { working := 0x50000, protect := 0x50003, wtr := some 8000, par := 0x10000 }
    let s : State := selUp x
    (sel? s k = some x) ∧ (x.wtr = some n) ∧ (max 1 (wtrFrames (fld x.par 25 16)) ≤ n)) ∧
    -- clause 7
    (let i : Fin 64 := 3
    let w : Nat × Nat := (8000, 1)
    let g : Grp := { w8 := 0x106, work := [5], wtr := some (8000, 1), w7 := 0x10000 }
    let s : State := grpUp g
    (grp? s i = some g) ∧ (g.wtr = some w) ∧ (max 1 (wtrFrames (fld g.w7 25 16)) ≤ w.1)) ∧
    -- clause 8
    (let d : Nat := 0
    let x : Desc := job 0x30 (0) [0, 0x50000, 0x50003, 0] 0
    let s : State := withJob (laneUp 5 4) (job 0x30 (0) [0, 0x50000, 0x50003, 0] 0)
    (takeDesc s d 0x30 = some x) ∧ (selReason s x = none) ∧ (bit (x.w 6) 31 = false)) ∧
    -- clause 9
    (let d : Nat := 0
    let x : Desc := job 0x30 (0) [0x80000000, 0, 0, 0] 0
    let s : State := withJob (selUp {}) (job 0x30 (0) [0x80000000, 0, 0, 0] 0)
    (takeDesc s d 0x30 = some x) ∧ (selReason s x = none) ∧ (bit (x.w 6) 31 = true)) ∧
    -- clause 10
    (let d : Nat := 0
    let k : Nat := 0
    let x : Desc := job 0x31 (0) [0, 0] 0
    let c : Nat := (fld (x.w 7) 3 0)
    let s : State := withJob (selUp {}) (job 0x31 (0) [0, 0] 0)
    (takeDesc s d 0x31 = some x) ∧ (cmdReason s x = none) ∧ (fld (x.w 6) 18 17 ≠ 3) ∧ (k = wordKey (x.w 6)) ∧ (c = 0)) :=
  ⟨by decide, by decide, by decide, by decide, by decide, by decide, by decide⟩

theorem witness_SelectorsAndTheirCommandsAct_11_17 :
    -- clause 11
    (let d : Nat := 0
    let k : Nat := 0
    let x : Desc := job 0x31 (0) [0, 1] 0
    let c : Nat := (fld (x.w 7) 3 0)
    let s : State := withJob (selUp {}) (job 0x31 (0) [0, 1] 0)
    (takeDesc s d 0x31 = some x) ∧ (cmdReason s x = none) ∧ (fld (x.w 6) 18 17 ≠ 3) ∧ (k = wordKey (x.w 6)) ∧ (c = 1)) ∧
    -- clause 12
    (let d : Nat := 0
    let k : Nat := 0
    let x : Desc := job 0x31 (0) [0, 2] 0
    let c : Nat := (fld (x.w 7) 3 0)
    let s : State := withJob (selUp {}) (job 0x31 (0) [0, 2] 0)
    (takeDesc s d 0x31 = some x) ∧ (cmdReason s x = none) ∧ (fld (x.w 6) 18 17 ≠ 3) ∧ (k = wordKey (x.w 6)) ∧ (c = 2)) ∧
    -- clause 13
    (let d : Nat := 0
    let k : Nat := 0
    let x : Desc := job 0x31 (0) [0, 3] 0
    let c : Nat := (fld (x.w 7) 3 0)
    let s : State := withJob (selUp {}) (job 0x31 (0) [0, 3] 0)
    (takeDesc s d 0x31 = some x) ∧ (cmdReason s x = none) ∧ (fld (x.w 6) 18 17 ≠ 3) ∧ (k = wordKey (x.w 6)) ∧ (c = 3)) ∧
    -- clause 14
    (let d : Nat := 0
    let k : Nat := 0
    let x : Desc := job 0x31 (0) [0, 4] 0
    let c : Nat := (fld (x.w 7) 3 0)
    let s : State := withJob (selUp {}) (job 0x31 (0) [0, 4] 0)
    (takeDesc s d 0x31 = some x) ∧ (cmdReason s x = none) ∧ (fld (x.w 6) 18 17 ≠ 3) ∧ (k = wordKey (x.w 6)) ∧ (c = 4)) ∧
    -- clause 15
    (let d : Nat := 0
    let k : Nat := 0
    let x : Desc := job 0x31 (0) [0, 5] 0
    let c : Nat := (fld (x.w 7) 3 0)
    let s : State := withJob (selUp {}) (job 0x31 (0) [0, 5] 0)
    (takeDesc s d 0x31 = some x) ∧ (cmdReason s x = none) ∧ (fld (x.w 6) 18 17 ≠ 3) ∧ (k = wordKey (x.w 6)) ∧ (c = 5)) ∧
    -- clause 16
    (let d : Nat := 0
    let k : Nat := 0
    let x : Desc := job 0x31 (0) [0, 6] 0
    let c : Nat := (fld (x.w 7) 3 0)
    let s : State := withJob (selUp {}) (job 0x31 (0) [0, 6] 0)
    (takeDesc s d 0x31 = some x) ∧ (cmdReason s x = none) ∧ (fld (x.w 6) 18 17 ≠ 3) ∧ (k = wordKey (x.w 6)) ∧ (c = 6)) ∧
    -- clause 17
    (let d : Nat := 0
    let x : Desc := job 0x31 (0) [0x60003, 0x100] 0
    let c : Nat := (fld (x.w 7) 3 0)
    let s : State := withJob (grpUp {}) (job 0x31 (0) [0x60003, 0x100] 0)
    (takeDesc s d 0x31 = some x) ∧ (cmdReason s x = none) ∧ (fld (x.w 6) 18 17 = 3) ∧ (c = 0)) :=
  ⟨by decide, by decide, by decide, by decide, by decide, by decide, by decide⟩

theorem witness_SelectorsAndTheirCommandsAct_18_22 :
    -- clause 18
    (let d : Nat := 0
    let x : Desc := job 0x31 (0) [0x60003, 1] 0
    let c : Nat := (fld (x.w 7) 3 0)
    let s : State := withJob (grpUp {}) (job 0x31 (0) [0x60003, 1] 0)
    (takeDesc s d 0x31 = some x) ∧ (cmdReason s x = none) ∧ (fld (x.w 6) 18 17 = 3) ∧ (c = 1)) ∧
    -- clause 19
    (let d : Nat := 0
    let x : Desc := job 0x31 (0) [0x60003, 0x102] 0
    let c : Nat := (fld (x.w 7) 3 0)
    let s : State := withJob (grpUp {}) (job 0x31 (0) [0x60003, 0x102] 0)
    (takeDesc s d 0x31 = some x) ∧ (cmdReason s x = none) ∧ (fld (x.w 6) 18 17 = 3) ∧ (c = 2)) ∧
    -- clause 20
    (let d : Nat := 0
    let x : Desc := job 0x31 (0) [0x60003, 0x104] 0
    let c : Nat := (fld (x.w 7) 3 0)
    let s : State := withJob (grpUp {}) (job 0x31 (0) [0x60003, 0x104] 0)
    (takeDesc s d 0x31 = some x) ∧ (cmdReason s x = none) ∧ (fld (x.w 6) 18 17 = 3) ∧ (c = 4)) ∧
    -- clause 21
    (let d : Nat := 0
    let x : Desc := job 0x31 (0) [0x60003, 0x106] 0
    let c : Nat := (fld (x.w 7) 3 0)
    let s : State := withJob (grpUp {}) (job 0x31 (0) [0x60003, 0x106] 0)
    (takeDesc s d 0x31 = some x) ∧ (cmdReason s x = none) ∧ (fld (x.w 6) 18 17 = 3) ∧ (c = 6)) ∧
    -- clause 22
    (let key : Nat := 0
    let x : Sel := { working := 0x50000, protect := 0x50003, exer := some true, exerRun := 8000 }
    let ok : Bool := true
    let s : State := selUp x
    (sel? s key = some x) ∧ (x.exer = some ok) ∧ (8000 ≤ x.exerRun)) :=
  ⟨by decide, by decide, by decide, by decide, by decide⟩

theorem witness_MspGroupsFollowTheirFarEnd_1_5 :
    -- clause 1
    (let d : Nat := 0
    let x : Desc := job 0x33 (0) [3, 0, 0x106, 5] 0
    let s : State := withJob (wr (wr (laneUp 5 4) (Reg.laneCtl 6) 5) (Reg.laneStatus 6) 4) (job 0x33 (0) [3, 0, 0x106, 5] 0)
    (takeDesc s d 0x33 = some x) ∧ (apsReason s x = none) ∧ (bit (x.w 6) 31 = false)) ∧
    -- clause 2
    (let d : Nat := 0
    let x : Desc := job 0x33 (0) [0x80000003, 0, 0, 0] 0
    let s : State := withJob (grpUp {}) (job 0x33 (0) [0x80000003, 0, 0, 0] 0)
    (takeDesc s d 0x33 = some x) ∧ (apsReason s x = none) ∧ (bit (x.w 6) 31 = true)) ∧
    -- clause 3
    (let g : Fin 64 := 3
    let x : Grp := { w8 := 0x106, work := [5] }
    let s : State := editFrm (wr (grpUp {}) (Reg.laneK12 6) 0x1021) 6 (fun f => { f with kRun := 3 })
    (grp? s g = some x) ∧ ((frm s x.protLane).kRun = 3)) ∧
    -- clause 4
    (let g : Fin 64 := 3
    let c : Nat := 1
    let n : Nat := 400
    let x : Grp := { w8 := 0x106, work := [5], exer := some (1, 400) }
    let s : State := grpUp x
    (grp? s g = some x) ∧ (x.exer = some (c, n)) ∧ ((answered x c = true ∨ 400 ≤ n))) ∧
    -- clause 5
    (let g : Fin 64 := 3
    let x : Grp := { w8 := 0x106, work := [5], archRun := 400 }
    let s : State := grpUp x
    (grp? s g = some x) ∧ (400 ≤ x.archRun)) :=
  ⟨by decide, by decide, by decide, by decide, by decide⟩

theorem witness_MspGroupsFollowTheirFarEnd_6_9 :
    -- clause 6
    (let g : Fin 64 := 3
    let x : Grp := { w8 := 0x106, work := [5], modeRun := 400 }
    let s : State := grpUp x
    (grp? s g = some x) ∧ (400 ≤ x.modeRun)) ∧
    -- clause 7
    (let g : Fin 64 := 3
    let x : Grp := { w8 := 0x106, work := [5], noresp := 400, k1Tx := 0x21 }
    let s : State := grpUp x
    (grp? s g = some x) ∧ (400 ≤ x.noresp) ∧ (unanswered x = true)) ∧
    -- clause 8
    (let g : Fin 64 := 3
    let x : Grp := { w8 := 0x106, work := [5], flaps := [1, 2, 3, 4, 5] }
    let s : State := grpUp x
    (grp? s g = some x) ∧ (5 ≤ x.flaps.length)) ∧
    -- clause 9
    (let g : Fin 64 := 3
    let x : Grp := { w8 := 0x106, work := [5], kStable := 8000 }
    let s : State := grpUp x
    (grp? s g = some x) ∧ (8000 ≤ x.kStable)) :=
  ⟨by decide, by decide, by decide, by decide⟩

theorem witness_MergesAndGuardsFollowTheirDelays_1_7 :
    -- clause 1
    (let d : Nat := 0
    let x : Desc := job 0x38 (0) [0, 0x10000] 0
    let s : State := withJob (setSel pairUp 0 { working := 0x50000, protect := 0x50003 }) (job 0x38 (0) [0, 0x10000] 0)
    (takeDesc s d 0x38 = some x) ∧ (mergeReason s x = none) ∧ (bit (x.w 6) 31 = false)) ∧
    -- clause 2
    (let d : Nat := 0
    let x : Desc := job 0x38 (0) [0x80000000, 0] 0
    let s : State := withJob (mergeUp {}) (job 0x38 (0) [0x80000000, 0] 0)
    (takeDesc s d 0x38 = some x) ∧ (mergeReason s x = none) ∧ (bit (x.w 6) 31 = true)) ∧
    -- clause 3
    (let d : Nat := 0
    let x : Desc := job 0x40 (0) (7 :: guardWords) 0
    let s : State := withJob (pairUp) (job 0x40 (0) (7 :: guardWords) 0)
    (takeDesc s d 0x40 = some x) ∧ (guardReason s (cfgWords x) = none) ∧ (bit (x.w 6) 31 = false)) ∧
    -- clause 4
    (let d : Nat := 0
    let x : Desc := job 0x40 (0) [0x80000007, 0, 0, 0, 0, 0, 0, 0, 0] 0
    let s : State := withJob (guardUp { words := guardWords }) (job 0x40 (0) [0x80000007, 0, 0, 0, 0, 0, 0, 0, 0] 0)
    (takeDesc s d 0x40 = some x) ∧ (guardReason s (cfgWords x) = none) ∧ (bit (x.w 6) 31 = true)) ∧
    -- clause 5
    (let key : Nat := 0
    let o : Int := 5
    let x : Merge := { delta := some 5, hist := 5 }
    let y : Sel := { working := 0x50000, protect := 0x50003 }
    let s : State := mergeUp x
    (merge? s key = some x) ∧ (sel? s key = some y) ∧ (x.st = 0) ∧ (x.delta = some o) ∧ (iabs o ≤ x.hist)) ∧
    -- clause 6
    (let key : Nat := 0
    let x : Merge := { corr := true, winRun := 4096 }
    let y : Sel := { working := 0x40000000, protect := 0x40000001 }
    let s : State := setSel (mergeUp { corr := true, winRun := 4096 }) 0 { working := 0x40000000, protect := 0x40000001 }
    (merge? s key = some x) ∧ (sel? s key = some y) ∧ (x.corr = true) ∧ (winBlocks s y.working ≤ x.winRun)) ∧
    -- clause 7
    (let lane : LaneId := 5
    let msg : List Byte := List.replicate 64 0
    let q : List (List Byte) := []
    let r : Nat := 0
    let s : State := editFrm pairUp 5 (fun f => { f with probeOn := true, probeDue := [List.replicate 64 0] })
    let t : State := (editFrm s lane (fun f => { f with probeDue := q }))
    ((frm s lane).probeDue = msg :: q) ∧ (sdhOn t lane = true) ∧ ((frm t lane).probeOn = true) ∧ (probeFault msg = some r)) :=
  ⟨by decide, by decide, by decide, by decide, by decide, by decide +kernel, by decide⟩

theorem witness_MergesAndGuardsFollowTheirDelays_8_14 :
    -- clause 8
    (let lane : LaneId := 5
    let msg : List Byte := probe
    let q : List (List Byte) := []
    let l : List Nat := [7]
    let r : State := editFrm (guardUp { words := guardWords }) 5 (fun f => { f with probeOn := true, probeDue := [probe] })
    let s : State := (editFrm r lane (fun f => { f with probeDue := q }))
    ((frm r lane).probeDue = msg :: q) ∧ (sdhOn s lane = true) ∧ ((frm s lane).probeOn = true) ∧ (probeFault msg = none) ∧
      (l = (((s.sym.guards.filter (fun p => p.2.onLane lane)).filter (fun p => p.2.partner == w32 (msgNat msg 4 4))).map (fun p => p.1))) ∧ (l ≠ [])) ∧
    -- clause 9
    (let lane : LaneId := 5
    let msg : List Byte := probe
    let q : List (List Byte) := []
    let r : State :=
      editFrm (guardUp { words := guardWords.set 4 8 }) 5 (fun f => { f with probeOn := true, probeDue := [probe] })
    let s : State := (editFrm r lane (fun f => { f with probeDue := q }))
    ((frm r lane).probeDue = msg :: q) ∧ (sdhOn s lane = true) ∧ ((frm s lane).probeOn = true) ∧ (probeFault msg = none) ∧
      ((s.sym.guards.filter (fun p => p.2.onLane lane)).filter (fun p => p.2.partner == w32 (msgNat msg 4 4)) = [])) ∧
    -- clause 10
    (let g : Fin 4096 := 7
    let x : Guard := { words := guardWords, asym := true, asymRun := 800 }
    let s : State := guardUp x
    (guard? s g = some x) ∧ (x.asym = true) ∧ (800 ≤ x.asymRun)) ∧
    -- clause 11
    (let g : Fin 4096 := 7
    let x : Guard := { words := guardWords, silent := 800 }
    let s : State := guardUp x
    (guard? s g = some x) ∧ (x.stale = false) ∧ (800 ≤ x.silent)) ∧
    -- clause 12
    (let g : Fin 4096 := 7
    let n : Nat := 5
    let sfc : Nat := 0
    let x : Guard := { words := guardWords, ann := some (5, 0) }
    let s : State := guardUp x
    (guard? s g = some x) ∧ (x.ann = some (n, sfc)) ∧ (s.glb.frame = 0) ∧ (frameSfc s = sfc)) ∧
    -- clause 13
    (let g : Fin 4096 := 7
    let t : Nat := 9
    let x : Guard := { words := guardWords, slew := some 9, slewGap := 1000000 }
    let a : Word := 0x50000
    let s : State :=
      { guardUp { words := guardWords, slew := some 9, slewGap := 1000000 } with paths := [(0x50000, { adjGap := 3 })] }
    (guard? s g = some x) ∧ (x.slew = some t) ∧ (x.stale = false) ∧ (slewFrames s x ≤ x.slewGap) ∧ (guardRx s x = some a) ∧
      (3 ≤ (path s a).adjGap) ∧ (t ≠ x.cIn)) ∧
    -- clause 14
    (let g : Fin 4096 := 7
    let n : Nat := 8000
    let x : Guard := { words := guardWords, holdRun := some 8000 }
    let s : State := guardUp x
    (guard? s g = some x) ∧ (x.holdRun = some n) ∧ (8 * fld (x.w 14) 16 9 ≤ n)) :=
  ⟨by decide +kernel, by decide +kernel, by decide, by decide, by decide, by decide, by decide⟩

theorem witness_EthernetLanesAndPseudowiresCarryTheirFrames_1_6 :
    -- clause 1
    (let lane : LaneId := 5
    let v : Word := 64
    let s : State := up
    (hostReady s (lane.val / 8)) ∧ (quadMember s lane = false) ∧ (64 ≤ fld v 13 0) ∧ (fld v 13 0 ≤ 9216) ∧ (fld v 27 16 = 0)) ∧
    -- clause 2
    (let lane : LaneId := 5
    let s : State := ethUp 0
    (ethLane s lane = true)) ∧
    -- clause 3
    (let d : Nat := 0
    let c : Nat := 5
    let x : Desc := { job 0x4B 0 [] with ring := 4 }
    let s : State := withJob (ethUp 1) { job 0x4B 0 [] with ring := 4 }
    (desc? s d = some x) ∧ (x.op = 0x4B) ∧ (mayPost s x = true) ∧ (rangeBad s x = false) ∧ (ethRing s x.ring = some c)) ∧
    -- clause 4
    (let d : Nat := 0
    let x : Desc := job 0x4A (60) [5] 0
    let n : Nat := (fld (x.w 6) 6 0)
    let s : State := withJob (ethUp 1) (job 0x4A (60) [5] 0)
    let t : State := s
    (takeInput s d 0x4A = some (t, x)) ∧ (rangeBad s x = false) ∧ (ethLane s n = true) ∧ (60 ≤ x.len) ∧
      (x.len + 4 ≤ fget s (Reg.laneEthCtl n) 13 0) ∧ ((bit (x.w 6) 8 = true → fld (x.w 7) 15 0 + 8 ≤ x.len))) ∧
    -- clause 5
    (let lane : LaneId := 5
    let d : Nat := 0
    let f : List Byte := [1]
    let r : List (Nat × List Byte) := []
    let s : State := editEth (ethUp 0x21) 5 (fun e => { e with txq := [(0, [1])], sending := true })
    let t : State := (ethStart s lane)
    ((eth s lane).txq = (d, f) :: r) ∧ ((eth t lane).sending = true)) ∧
    -- clause 6
    (let lane : LaneId := 5
    let f : EthRx := {}
    let s : State := wr (wr (laneUp 0x29 4) (Reg.laneEthStatus 5) 1) (Reg.laneEthCtl 5) 0x000405EE
    let t : State := (ethLoops s lane f.bytes)
    (ethLane s lane = true) ∧ (laneState s lane = 4) ∧ (bget t (Reg.laneEthStatus lane) 0 = true) ∧
      (ethTaken s lane f.bytes = none)) :=
  ⟨by decide, by decide, by decide, by decide, by decide, by decide⟩

theorem witness_EthernetLanesAndPseudowiresCarryTheirFrames_7_12 :
    -- clause 7
    (let lane : LaneId := 5
    let f : EthRx := {}
    let s : State := ethUp 1
    let t : State := (ethLoops s lane f.bytes)
    let u : State := ((if fecOn t lane then fecCounts t lane f.corr f.uncorr else t))
    let g : List Byte := []
    let b : List Byte := (g.take (g.length - 4))
    (ethLane s lane = true) ∧ (laneState s lane = 4) ∧ (bget t (Reg.laneEthStatus lane) 0 = true) ∧
      (ethTaken s lane f.bytes = some g) ∧ (g.length < 64 ∨ fget u (Reg.laneEthCtl lane) 13 0 < g.length ∨
      g.drop (g.length - 4) ≠ ethFcs b)) ∧
    -- clause 8
    (let lane : LaneId := 5
    let f : EthRx := goodFrame [0x88, 0x08]
    let s : State := ethUp 1
    let t : State := (ethLoops s lane f.bytes)
    let u : State := ((if fecOn t lane then fecCounts t lane f.corr f.uncorr else t))
    let g : List Byte := (goodFrame [0x88, 0x08]).bytes
    let b : List Byte := (g.take (g.length - 4))
    (ethLane s lane = true) ∧ (laneState s lane = 4) ∧ (bget t (Reg.laneEthStatus lane) 0 = true) ∧
      (ethTaken s lane f.bytes = some g) ∧ (64 ≤ g.length) ∧ (g.length ≤ fget u (Reg.laneEthCtl lane) 13 0) ∧
      (g.drop (g.length - 4) = ethFcs b) ∧ (frame16 b 12 = 0x8808)) ∧
    -- clause 9
    (let lane : LaneId := 5
    let f : EthRx := goodFrame [0x88, 0x47, 0, 0, 0x71, 64]
    let s : State := pwUp 1 pw3
    let t : State := (ethLoops s lane f.bytes)
    let u : State := ((if fecOn t lane then fecCounts t lane f.corr f.uncorr else t))
    let g : List Byte := (goodFrame [0x88, 0x47, 0, 0, 0x71, 64]).bytes
    let b : List Byte := (g.take (g.length - 4))
    let v : State := (count u (Reg.laneEthRxOk lane) 1)
    let k : Nat := 3
    let c : Nat := 18
    let x : Pw := pw3
    (ethLane s lane = true) ∧ (laneState s lane = 4) ∧ (bget t (Reg.laneEthStatus lane) 0 = true) ∧
      (ethTaken s lane f.bytes = some g) ∧ (64 ≤ g.length) ∧ (g.length ≤ fget u (Reg.laneEthCtl lane) 13 0) ∧
      (g.drop (g.length - 4) = ethFcs b) ∧ (frame16 b 12 ≠ 0x8808) ∧ (pwOf v lane b = some (k, x, c))) ∧
    -- clause 10
    (let lane : LaneId := 5
    let f : EthRx := goodFrame [0x12, 0x34]
    let s : State := ethUp 1
    let t : State := (ethLoops s lane f.bytes)
    let u : State := ((if fecOn t lane then fecCounts t lane f.corr f.uncorr else t))
    let g : List Byte := (goodFrame [0x12, 0x34]).bytes
    let b : List Byte := (g.take (g.length - 4))
    let v : State := (count u (Reg.laneEthRxOk lane) 1)
    (ethLane s lane = true) ∧ (laneState s lane = 4) ∧ (bget t (Reg.laneEthStatus lane) 0 = true) ∧
      (ethTaken s lane f.bytes = some g) ∧ (64 ≤ g.length) ∧ (g.length ≤ fget u (Reg.laneEthCtl lane) 13 0) ∧
      (g.drop (g.length - 4) = ethFcs b) ∧ (frame16 b 12 ≠ 0x8808) ∧ (pwOf v lane b = none)) ∧
    -- clause 11
    (let d : Nat := 0
    let x : Desc := job 0x48 (0) [3, 0x140, 32, 0, 0x12002, 7] 0
    let s : State := withJob (pwUp 1 pw3) (job 0x48 (0) [3, 0x140, 32, 0, 0x12002, 7] 0)
    let t : State := s
    (takeInput s d 0x48 = some (t, x)) ∧ (bit (x.w 6) 31 = false) ∧ (rangeBad s x = false) ∧ (x.len = 0) ∧
      (pwReason t (cfgWords x) x.len [] = none)) ∧
    -- clause 12
    (let d : Nat := 0
    let x : Desc := job 0x48 (18) [3, 0x140, 32, 0, 0x12002, 7] 0
    let s : State := withJob (pwUp 1 pw3) (job 0x48 (18) [3, 0x140, 32, 0, 0x12002, 7] 0)
    let t : State := s
    (takeInput s d 0x48 = some (t, x)) ∧ (bit (x.w 6) 31 = false) ∧ (rangeBad s x = false) ∧ (14 ≤ x.len) ∧ (x.len ≤ 128)) :=
  ⟨by decide, by decide +kernel, by decide +kernel, by decide +kernel, by decide, by decide⟩

theorem witness_EthernetLanesAndPseudowiresCarryTheirFrames_13_17 :
    -- clause 13
    (let d : Nat := 0
    let x : Desc := job 0x48 (0) [0x80000003, 0, 0, 0, 0, 0] 0
    let s : State := withJob (pwUp 1 pw3) (job 0x48 (0) [0x80000003, 0, 0, 0, 0, 0] 0)
    (takeDesc s d 0x48 = some x) ∧ (bit (x.w 6) 31 = true) ∧ (rangeBad s x = false) ∧ (pwReason s (cfgWords x) x.len [] =
      none)) ∧
    -- clause 14
    (let n : Fin 16384 := 3
    let x : Pw := { pw3 with txBits := List.replicate 256 true }
    let s : State := pwUp 0x21 { pw3 with txBits := List.replicate 256 true }
    (pw? s n = some x) ∧ ((8 * x.payload ≤ x.txBits.length ∨ pwIdle s n x = true))) ∧
    -- clause 15
    (let n : Fin 16384 := 3
    let x : Pw := pw3
    let s : State := pwUp 0x1 pw3
    (pw? s n = some x) ∧ (x.st ≠ 2)) ∧
    -- clause 16
    (let n : Fin 16384 := 3
    let x : Pw := { pw3 with st := 2, buf := [{ seq := 0 }, { seq := 1 }] }
    let p : PwPkt := { seq := 0 }
    let s : State := { pwUp 0x1 x with hbm := { up.hbm with placed := [2, 2, 0, 0, 0], rail4 := true } }
    (pw? s n = some x) ∧ (x.st = 2) ∧ (x.played = true) ∧ (s.hbm.rail4 = true) ∧ (x.buf.find? (fun p => p.seq == x.e) =
      some p)) ∧
    -- clause 17
    (let n : Fin 16384 := 3
    let x : Pw := { pw3 with st := 2, buf := [{ seq := 1 }] }
    let s : State := pwUp 0x1 x
    (pw? s n = some x) ∧ (x.st = 2) ∧ (x.played = true) ∧ ((s.hbm.rail4 = true → x.buf.find? (fun p => p.seq == x.e) = none))) :=
  ⟨by decide, by decide +kernel, by decide, by decide, by decide⟩

theorem witness_CandidatesAreMeasuredAndDpllsChoose_1_7 :
    -- clause 1
    (let r : Fin 24 := 0
    let s : State := wr up (Reg.timRefStatus 0) 5
    let q : State := (thaw s)
    (bget q Reg.timOsc 1 = false) ∧ (refActive q r = true)) ∧
    -- clause 2
    (let r : Fin 24 := 0
    let ofs : Int := 0
    let s : State := wr up (Reg.timRefStatus 0) 5
    let q : State := (thaw s)
    let t : State :=
      (editRef (wr q (Reg.timRefOfs r) (i32 (trimmed q ofs))) r (fun x => { x with samples := (sgn 32 (i32 (trimmed q ofs)).toNat :: x.samples).take 1000 }))
    let u : State := ((if driftValid t r then wr t (Reg.timRefDrift r) (i32 (slope (refSt t r).samples)) else t))
    (bget q Reg.timOsc 1 = false) ∧ (refActive q r = true) ∧ (refState u r = 1) ∧ (iabs (refOfs u r) ≤ tolHard u)) ∧
    -- clause 3
    (let r : Fin 24 := 0
    let s : State := wr up (Reg.timRefStatus 0) 4
    (r.val < 8) ∧ (refActive s r = true)) ∧
    -- clause 4
    (let r : Fin 24 := 0
    let s : State := wr up (Reg.timRefCfg 0) 1
    (refOn s r = true) ∧ (refActive s r = false) ∧ (refSource s r = true)) ∧
    -- clause 5
    (let r : Fin 24 := 0
    let s : State := wr (wr up (Reg.timRefStatus 0) 1) Reg.timMonWtr 0
    (s.tim.frozen = false) ∧ (refState s r = 1) ∧ (fget s Reg.timMonWtr 9 0 ≤ (refSt s r).wtr)) ∧
    -- clause 7
    (let d : Fin 4 := 0
    let phase : Int := 0
    let s : State := wr up (Reg.timDpllCtl 0) 2
    let q : State := ((List.range 24).foldl refreshQl (takeTim s))
    let t : State := (editDpll (showVote q d [] []) d (fun x => { x with want := 31, wantRun := 0 }))
    let u : State := enterHoldover t d 3 false
    let v : State :=
      (editDpll u d (fun x => { x with modeNew := false, early := false, sinceVol := min 100 (x.sinceVol + b2n (!x.early)) }))
    (q.tim.frozen = false) ∧ ((dpllMode q d = 1 ∧ refActive t (fget t (Reg.timDpllCtl d) 6 2) = true ∧
      dpllRef t d ≠ fget t (Reg.timDpllCtl d) 6 2 ∧ u = enterRef t d (fget t (Reg.timDpllCtl d) 6 2) 3 phase ∨
      dpllMode q d = 2 ∧ dpllState t d ≠ 1 ∧ u = enterHoldover t d 3 false ∨ dpllMode q d = 3 ∧ dpllState t d ≠ 0 ∧ u =
      enterFree t d)) ∧ ((dpllSt v d).real = false)) :=
  ⟨by decide, by decide +kernel, by decide, by decide, by decide, by decide +kernel⟩

theorem witness_CandidatesAreMeasuredAndDpllsChoose_8_13 :
    -- clause 8
    (let d : Fin 4 := 0
    let s : State := { wr up (Reg.timDpllStatus 0) 0xF8 with tim := { up.tim with frozen := true } }
    let q : State := ((List.range 24).foldl refreshQl (takeTim s))
    (q.tim.frozen = true) ∧ ((dpllRef q d = 31 ∨ refActive q (dpllRef q d) = true)) ∧ (bget q (Reg.timDpllStatus d) 12 =
      false)) ∧
    -- clause 9
    (let d : Fin 4 := 0
    let s : State := wr up (Reg.timDpllStatus 0) 2
    (dpllState s d = 2) ∧ (bget s (Reg.timDpllStatus d) 12 = false)) ∧
    -- clause 10
    (let d : Fin 4 := 0
    let s : State := wr up (Reg.timDpllStatus 0) 0x1000
    (bget s (Reg.timDpllStatus d) 12 = true)) ∧
    -- clause 11
    (let s : State := up
    let t : State := (thaw s)
    (t.tim.frozen = false)) ∧
    -- clause 12
    (let s : State := up
    (bget s Reg.timOsc 1 = false)) ∧
    -- clause 13
    (let s : State := wr up Reg.timOsc 2
    (bget s Reg.timOsc 1 = true)) :=
  ⟨by decide +kernel, by decide, by decide, by decide, by decide, by decide⟩

theorem witness_TimingWritesAndHeelsTakeEffect_1_9 :
    -- clause 1
    (let r : Fin 24 := 0
    let v : Word := rd up (Reg.timRefCfg 0)
    let s : State := up
    (hostDeaf s = false) ∧ (regLocked s = false) ∧ (replay s = false) ∧ (refCfgBad s r v = false) ∧
      ((v ^^^ rd s (Reg.timRefCfg r)) &&& 0xFFFF7F = 0)) ∧
    -- clause 2
    (let r : Fin 24 := 0
    let v : Word := rd up (Reg.timRefCfg 0) ^^^ 1
    let s : State := up
    (hostDeaf s = false) ∧ (regLocked s = false) ∧ (replay s = false) ∧ (refCfgBad s r v = false) ∧
      ((v ^^^ rd s (Reg.timRefCfg r)) &&& 0xFFFF7F ≠ 0)) ∧
    -- clause 3
    (let d : Fin 4 := 0
    let v : Word := rd up (Reg.timDpllCtl 0) ^^^ 1
    let s : State := up
    (hostDeaf s = false) ∧ (regLocked s = false) ∧ (replay s = false) ∧ (dpllBad d 0 v = false) ∧
      ((fld (v ^^^ rd s (Reg.timDpllCtl d)) 1 0 ≠ 0 ∨ fld v 1 0 = 1 ∧ fld (v ^^^ rd s (Reg.timDpllCtl d)) 6 2 ≠ 0))) ∧
    -- clause 4
    (let d : Fin 4 := 0
    let v : Word := 1
    let s : State := up
    (hostDeaf s = false) ∧ (regLocked s = false) ∧ (replay s = false) ∧ (dpllBad d 1 v = false)) ∧
    -- clause 5
    (let d : Fin 4 := 0
    let v : Word := 1
    let s : State := up
    (hostDeaf s = false) ∧ (regLocked s = false) ∧ (replay s = false) ∧ (dpllBad d 2 v = false)) ∧
    -- clause 6
    (let s : State := up
    (hostDeaf s = false) ∧ (regLocked s = false) ∧ (replay s = false)) ∧
    -- clause 9
    (let v : Word := 0
    let s : State := up
    (hostDeaf s = false) ∧ (regLocked s = false) ∧ (replay s = false) ∧ (fpBad s v = false) ∧ (bit v 0 = false)) :=
  ⟨by decide, by decide, by decide, by decide, by decide, by decide, by decide⟩

theorem witness_TimingWritesAndHeelsTakeEffect_10_15 :
    -- clause 10
    (let j : Fin 4 := 0
    let v : Word := 0x3E1
    let s : State := wr up (Reg.timFpoutCtl 0) 0
    let old : Word := (rd s (Reg.timFpoutCtl j))
    (hostDeaf s = false) ∧ (regLocked s = false) ∧ (replay s = false) ∧ (fpBad s v = false) ∧ (bit v 0 = true) ∧
      (bit old 0 = false)) ∧
    -- clause 11
    (let j : Fin 4 := 0
    let v : Word := 0x1003E1
    let s : State := wr up (Reg.timFpoutCtl 0) 1
    let old : Word := (rd s (Reg.timFpoutCtl j))
    (hostDeaf s = false) ∧ (regLocked s = false) ∧ (replay s = false) ∧ (fpBad s v = false) ∧ (bit v 0 = true) ∧
      (bit old 0 = true) ∧ (bit v 20 = true ∨ fld (v ^^^ old) 9 5 ≠ 0)) ∧
    -- clause 12
    (let j : Fin 4 := 0
    let s : State := wr up (Reg.timFpoutCtl 0) 1
    (hostDeaf s = false) ∧ (regLocked s = false) ∧ (replay s = false) ∧ (bget s (Reg.timFpoutCtl j) 0 = true)) ∧
    -- clause 13
    (let j : Fin 4 := 0
    let s : State := wr up (Reg.timFpoutCtl 0) 0x200001
    let t : State := (setHeelLost s j false)
    (heelRuns s j = true) ∧ (bget t (Reg.timFpoutCtl j) 10 = false)) ∧
    -- clause 14
    (let j : Fin 4 := 0
    let dev : Int := 9
    let s : State := editFp (wr up (Reg.timFpoutCtl 0) 0x200401) 0 (fun x => { x with dev := 2 })
    let t : State := (setHeelLost s j false)
    (heelRuns s j = true) ∧ (bget t (Reg.timFpoutCtl j) 10 = true) ∧ (8 < iabs dev) ∧ (2 ≤ (fpSt t j).dev)) ∧
    -- clause 15
    (let j : Fin 4 := 0
    let s : State := wr up (Reg.timFpoutCtl 0) 0x200001
    (heelRuns s j = true)) :=
  ⟨by decide, by decide, by decide, by decide, by decide, by decide⟩

theorem witness_TimeCounterCountsAndTakesItsCorrections_1_7 :
    -- clause 1
    (let s : State := withJob { up with tod := { up.tod with waiting := [0], subsec := 999999998 } } (job 0x50 0 [2, 0, 2])
    let t : State := (setsPass s)
    (inReset s = false) ∧ (t.glb.second ≠ s.glb.second)) ∧
    -- clause 2
    (let s : State := up
    let t : State := (setsPass s)
    (inReset s = false) ∧ (t.glb.second = s.glb.second)) ∧
    -- clause 3
    (let s : State := up
    let t : State := (setsPass s)
    (inReset s = false) ∧ (t.glb.second = s.glb.second) ∧ (0 < ticksToPps t.tod) ∧ (ticksToPps t.tod < ticksToWrap t.tod)) ∧
    -- clause 4
    (let s : State :=
      withJob { up with tod := { up.tod with waiting := [0], acc := 0xFFFFFFFFFFFFFFFF } } (job 0x50 0 [2, 0, 2])
    let t : State := (setsPass s)
    (inReset s = false) ∧ (t.tod.wraps ≠ s.tod.wraps)) ∧
    -- clause 5
    (let s : State := up
    let t : State := (setsPass s)
    (inReset s = false) ∧ (t.tod.wraps = s.tod.wraps)) ∧
    -- clause 6
    (let s : State := { up with tod := { up.tod with acc := 0xFFFFFFFF00000000 } }
    let t : State := (setsPass s)
    (inReset s = false) ∧ (t.tod.wraps = s.tod.wraps) ∧ (0 < ticksToWrap t.tod) ∧ (ticksToWrap t.tod < ticksToPps t.tod)) ∧
    -- clause 7
    (let s : State := up
    (hostDeaf s = false) ∧ (regLocked s = false) ∧ (replay s = false)) :=
  ⟨by decide +kernel, by decide, by decide, by decide +kernel, by decide, by decide, by decide⟩

theorem witness_TimeCounterCountsAndTakesItsCorrections_8_14 :
    -- clause 8
    (let s : State := wr (wr (servoUp 1) (Reg.timRefStatus 0) 4) Reg.todStatus 2
    let o : Int := (sampleNow s)
    let t : State :=
      (wr { s with tod := { s.tod with sampled := s.tod.ticks } } Reg.todOfs (i32 (iclamp (-2147483647) 2147483647 (o / 8))))
    (s.tod.servo = 1) ∧ (refPps s (fget s Reg.todPps 2 0) = true) ∧ (refActive s (fget s Reg.todPps 2 0) = true) ∧
      (servoState t = 2 ∨ servoState t = 3)) ∧
    -- clause 9
    (let s : State := wr (wr (servoUp 1) (Reg.timRefStatus 0) 4) Reg.todStatus 4
    let o : Int := (sampleNow s)
    let t : State :=
      (wr { s with tod := { s.tod with sampled := s.tod.ticks } } Reg.todOfs (i32 (iclamp (-2147483647) 2147483647 (o / 8))))
    (s.tod.servo = 1) ∧ (refPps s (fget s Reg.todPps 2 0) = true) ∧ (refActive s (fget s Reg.todPps 2 0) = true) ∧
      (servoState t = 4)) ∧
    -- clause 10
    (let s : State := wr (wr (servoUp 1) (Reg.timRefStatus 0) 4) Reg.todStatus 1
    let o : Int := (sampleNow s)
    let t : State :=
      (wr { s with tod := { s.tod with sampled := s.tod.ticks } } Reg.todOfs (i32 (iclamp (-2147483647) 2147483647 (o / 8))))
    (s.tod.servo = 1) ∧ (refPps s (fget s Reg.todPps 2 0) = true) ∧ (refActive s (fget s Reg.todPps 2 0) = true) ∧
      (servoState t = 1)) ∧
    -- clause 11
    (let s : State := wr (wr (servoUp 1) (Reg.timRefStatus 0) 4) Reg.todStatus 1
    let o : Int := (sampleNow s)
    let t : State :=
      (wr { s with tod := { s.tod with sampled := s.tod.ticks } } Reg.todOfs (i32 (iclamp (-2147483647) 2147483647 (o / 8))))
    (s.tod.servo = 1) ∧ (refPps s (fget s Reg.todPps 2 0) = true) ∧ (refActive s (fget s Reg.todPps 2 0) = true) ∧
      (servoState t = 1) ∧ (t.tod.samples = [])) ∧
    -- clause 12
    (let s : State := atTick 3000000000 (wr (servoUp 1) Reg.todStatus 2)
    (s.tod.servo ≠ 0) ∧ ((servoState s = 2 ∨ servoState s = 3))) ∧
    -- clause 13
    (let s : State := atTick 3000000000 (wr (servoUp 1) Reg.todStatus 2)
    let t : State := (elapse s (sampleDue s))
    (s.tod.servo ≠ 0) ∧ ((servoState s = 2 ∨ servoState s = 3)) ∧ (servoTracks t = true)) ∧
    -- clause 14
    (let s : State := wr (servoUp 0) Reg.todStatus 3
    let t : State := (elapse s s.tod.lockEnd)
    (s.tod.servo = 0) ∧ (servoState s = 3) ∧ (hostLocked t = true)) :=
  ⟨by decide, by decide, by decide, by decide, by decide, by decide, by decide⟩

theorem witness_TimeCounterCountsAndTakesItsCorrections_15_21 :
    -- clause 15
    (let s : State :=
      wr (wr { servoUp 0 with tod := { up.tod with subsec := 999999998, lockEnd := 10 } } Reg.todCtl 1) Reg.todStatus 3
    let t : State := (elapse s s.tod.lockEnd)
    (s.tod.servo = 0) ∧ (servoState s = 3) ∧ (hostLocked t = false)) ∧
    -- clause 16
    (let d : Nat := 0
    let x : Desc := job 0x50 (0) [0] 0
    let s : State := withJob (servoUp 0) (job 0x50 (0) [0] 0)
    (takeDesc s d 0x50 = some x) ∧ (setReason s x = none) ∧ (setKind x = 0)) ∧
    -- clause 17
    (let d : Nat := 0
    let x : Desc := job 0x50 (0) [1] 0
    let s : State := withJob (servoUp 0) (job 0x50 (0) [1] 0)
    (takeDesc s d 0x50 = some x) ∧ (setReason s x = none) ∧ (setKind x = 1)) ∧
    -- clause 18
    (let d : Nat := 0
    let x : Desc := job 0x50 (0) [2, 0, 2] 0
    let s : State := withJob (servoUp 0) (job 0x50 (0) [2, 0, 2] 0)
    (takeDesc s d 0x50 = some x) ∧ (setReason s x = none) ∧ (setKind x = 2)) ∧
    -- clause 19
    (let d : Nat := 0
    let x : Desc := job 0x50 (0) [3] 0
    let s : State := withJob (servoUp 2) (job 0x50 (0) [3] 0)
    (takeDesc s d 0x50 = some x) ∧ (setReason s x = none) ∧ (setKind x = 3)) ∧
    -- clause 20
    (let d : Nat := 0
    let x : Desc := job 0x50 (0) [4] 0
    let s : State := withJob (servoUp 2) (job 0x50 (0) [4] 0)
    (takeDesc s d 0x50 = some x) ∧ (setReason s x = none) ∧ (setKind x = 4)) ∧
    -- clause 21
    (let d : Nat := 0
    let r : List Nat := []
    let x : Desc := job 0x50 0 [0]
    let s : State := withJob (servoUp 0 [0]) x
    (s.tod.waiting = d :: r) ∧ (s.mtx.held = true) ∧ (desc? s d = some x) ∧ (setKind x = 0)) :=
  ⟨by decide +kernel, by decide, by decide, by decide, by decide, by decide, by decide⟩

theorem witness_TimeCounterCountsAndTakesItsCorrections_22_25 :
    -- clause 22
    (let d : Nat := 0
    let r : List Nat := []
    let x : Desc := job 0x50 0 [1]
    let s : State := withJob (servoUp 0 [0]) x
    (s.tod.waiting = d :: r) ∧ (s.mtx.held = true) ∧ (desc? s d = some x) ∧ (setKind x = 1)) ∧
    -- clause 23
    (let d : Nat := 0
    let r : List Nat := []
    let x : Desc := job 0x50 0 [2, 0, 2]
    let s : State := withJob (servoUp 0 [0]) x
    (s.tod.waiting = d :: r) ∧ (s.mtx.held = true) ∧ (desc? s d = some x) ∧ (setKind x = 2)) ∧
    -- clause 24
    (let d : Nat := 0
    let r : List Nat := []
    let x : Desc := job 0x50 0 [3]
    let s : State := withJob (servoUp 2 [0]) x
    (s.tod.waiting = d :: r) ∧ (s.mtx.held = true) ∧ (desc? s d = some x) ∧ (setKind x = 3)) ∧
    -- clause 25
    (let d : Nat := 0
    let r : List Nat := []
    let x : Desc := job 0x50 0 [4]
    let s : State := withJob (servoUp 2 [0]) x
    (s.tod.waiting = d :: r) ∧ (s.mtx.held = true) ∧ (desc? s d = some x) ∧ (setKind x = 4)) :=
  ⟨by decide, by decide, by decide, by decide⟩

theorem witness_RingsFetchAndTakeDoorbells_1_9 :
    -- clause 1
    (let n : RingId := 4
    let s : State := up
    (hostDeaf s = false) ∧ (regLocked s = false) ∧ (replay s = false) ∧ (ringEn s n = false) ∧ (inService s = false)) ∧
    -- clause 3
    (let n : RingId := 4
    let v : Word := 6
    let s : State := up
    (hostDeaf s = false) ∧ (regLocked s = false) ∧ (replay s = false) ∧ (ringEn s n = false) ∧ (inService s = false) ∧
      (6 ≤ fld v 4 0) ∧ (fld v 4 0 ≤ 16) ∧ (fld v 6 5 ≠ 3) ∧ ((n.val < 4 → fld v 6 5 = ringClass s n))) ∧
    -- clause 4
    (let n : RingId := 4
    let s : State := ring (wr up (Reg.ringCfg 4) 6) 1 0x26
    let t : State := (editRing (wr (wr (wr s (Reg.ringCtl n) 1) (Reg.ringProd n) 0x10000) (Reg.ringCons n) 0) n (fun _ => {}))
    let u : State := ({ t with evt := { t.evt with seq := Tab.drop t.evt.seq n, unann := Tab.drop t.evt.unann n } })
    (hostDeaf s = false) ∧ (regLocked s = false) ∧ (replay s = false) ∧ (ringEn s n = false) ∧ (enableRefused s n =
      false) ∧ (ringClass u n ≠ 2)) ∧
    -- clause 5
    (let n : RingId := 4
    let s : State := wr up (Reg.ringCfg 4) 0x46
    let t : State := (editRing (wr (wr (wr s (Reg.ringCtl n) 1) (Reg.ringProd n) 0x10000) (Reg.ringCons n) 0) n (fun _ => {}))
    let u : State := ({ t with evt := { t.evt with seq := Tab.drop t.evt.seq n, unann := Tab.drop t.evt.unann n } })
    (hostDeaf s = false) ∧ (regLocked s = false) ∧ (replay s = false) ∧ (ringEn s n = false) ∧ (enableRefused s n =
      false) ∧ (ringClass u n = 2)) ∧
    -- clause 6
    (let n : RingId := 4
    let s : State := ring up 4 0x46
    (hostDeaf s = false) ∧ (regLocked s = false) ∧ (replay s = false) ∧ (((n.val ≠ 1 ∧ n.val ≠ 3) ∨
      (enabledOf s 0).isEmpty = true)) ∧ (ringEn s n = true) ∧ (ringBusy s n = false) ∧ (ringClass s n = 2)) ∧
    -- clause 7
    (let n : RingId := 4
    let s : State := ring up 4 6
    (hostDeaf s = false) ∧ (regLocked s = false) ∧ (replay s = false) ∧ (((n.val ≠ 1 ∧ n.val ≠ 3) ∨
      (enabledOf s 0).isEmpty = true)) ∧ (ringEn s n = true) ∧ (ringBusy s n = false) ∧ (ringClass s n ≠ 2) ∧
      (disableDone s n = true)) ∧
    -- clause 8
    (let n : RingId := 4
    let s : State := withJob (ring up 4 6) { job 0 0 [] with ring := 4 }
    (hostDeaf s = false) ∧ (regLocked s = false) ∧ (replay s = false) ∧ (((n.val ≠ 1 ∧ n.val ≠ 3) ∨
      (enabledOf s 0).isEmpty = true)) ∧ (ringEn s n = true) ∧ (ringBusy s n = false) ∧ (ringClass s n ≠ 2) ∧
      (disableDone s n = false)) ∧
    -- clause 9
    (let n : RingId := 4
    let s : State := bset (ring up 4 6) (Reg.ringCtl 4) 1 true
    (ringBusy s n = true) ∧ (disableDone s n = true)) :=
  ⟨by decide, by decide, by decide, by decide, by decide, by decide, by decide, by decide⟩

theorem witness_RingsFetchAndTakeDoorbells_10_17 :
    -- clause 10
    (let n : RingId := 4
    let s : State := ring up 4 6 3
    (mayFetch s = true) ∧ (ringReady s n = true)) ∧
    -- clause 11
    (let n : RingId := 4
    let b : Nat := 4
    let s : State := bset (ring up 4 6) Reg.glbStatus 3 true
    (hostDeaf s = false) ∧ (4 ≤ b) ∧ (replay s = true ∨ s.rng.bme = false) ∧ (ringClass s n = 0)) ∧
    -- clause 12
    (let n : RingId := 4
    let b : Nat := 4
    let s : State := bset (ring up 4 0x26) Reg.glbStatus 3 true
    (hostDeaf s = false) ∧ (4 ≤ b) ∧ (replay s = true ∨ s.rng.bme = false) ∧ (ringClass s n ≠ 0)) ∧
    -- clause 13
    (let n : RingId := 4
    let b : Nat := 4
    let w : Word := 0
    let s : State := ring up 4 6
    (hostDeaf s = false) ∧ (4 ≤ b) ∧ (replay s = false) ∧ (s.rng.bme = true) ∧ (ringEn s n = true) ∧
      (fld w 15 0 < ringSize s n) ∧ (ringClass s n = 0)) ∧
    -- clause 14
    (let n : RingId := 4
    let b : Nat := 4
    let w : Word := 0
    let s : State := ring up 4 0x26 2
    (hostDeaf s = false) ∧ (4 ≤ b) ∧ (replay s = false) ∧ (s.rng.bme = true) ∧ (ringEn s n = true) ∧
      (fld w 15 0 < ringSize s n) ∧ ((fld w 15 0 + ringSize s n - ringCons s n) % ringSize s n ≤ ringUsed s n) ∧
      (ringClass s n ≠ 0) ∧ (fld w 15 0 = ringCons s n)) ∧
    -- clause 15
    (let n : RingId := 4
    let b : Nat := 4
    let w : Word := 1
    let s : State := ring up 4 0x26 2
    let t : State := (wr s (Reg.ringCons n) (w32 (fld w 15 0)))
    (hostDeaf s = false) ∧ (4 ≤ b) ∧ (replay s = false) ∧ (s.rng.bme = true) ∧ (ringEn s n = true) ∧
      (fld w 15 0 < ringSize s n) ∧ ((fld w 15 0 + ringSize s n - ringCons s n) % ringSize s n ≤ ringUsed s n) ∧
      (ringClass s n = 1) ∧ (ringClass t n = 1) ∧ (fld w 15 0 ≠ ringCons s n)) ∧
    -- clause 16
    (let n : RingId := 4
    let b : Nat := 4
    let w : Word := 1
    let s : State := ring up 4 0x46 2
    let t : State := (wr s (Reg.ringCons n) (w32 (fld w 15 0)))
    (hostDeaf s = false) ∧ (4 ≤ b) ∧ (replay s = false) ∧ (s.rng.bme = true) ∧ (ringEn s n = true) ∧
      (fld w 15 0 < ringSize s n) ∧ ((fld w 15 0 + ringSize s n - ringCons s n) % ringSize s n ≤ ringUsed s n) ∧
      (2 ≤ ringClass s n) ∧ (ringClass t n ≠ 1) ∧ (fld w 15 0 ≠ ringCons s n)) ∧
    -- clause 17
    (let n : RingId := 4
    let words : List Word := [0, 0, 0x10000]
    let s : State := ring (ring up 4 6 3) 1 0x26
    let d : Desc := ({ id := s.rng.next, ring := n, idx := ringCons s n, words := words, mode := mode s })
    let q : State := (askHost s (ringAddr s n d.idx) 64)
    let t : State := (addDesc (editRing (passEntry q n) n (fun r => { r with rotate := q.rng.next })) d)
    (mayFetch s = true) ∧ (passAborted s = s) ∧ (ringReady s n = true) ∧ (inFlight s < fetchLimit n) ∧ (ringTurn s n =
      true) ∧ (fetchReason t d = none) ∧ (t.pwr.st = 2)) :=
  ⟨by decide, by decide, by decide, by decide, by decide, by decide, by decide, by decide +kernel⟩

theorem witness_RingsFetchAndTakeDoorbells_18_25 :
    -- clause 18
    (let d : Nat := 0
    let x : Desc := job 0 (0) [] 0
    let s : State := withJob (up) (job 0 (0) [] 0)
    (takeDesc s d 0 = some x)) ∧
    -- clause 19
    (let d : Nat := 0
    let x : Desc := job 1 (0) [] 0
    let s : State := withJob (up) (job 1 (0) [] 0)
    (takeDesc s d 1 = some x)) ∧
    -- clause 20
    (let d : Nat := 1
    let a : Desc := { job 2 0 [4, 9] with id := 1 }
    let t : Desc := { words := [0, 9], ring := 4 }
    let s : State := { ring up 4 6 with rng := { (ring up 4 6).rng with descs := [t, a] } }
    (desc? s d = some a) ∧ (a.op = 2) ∧ (a.st = 0) ∧ (a.frozen = false) ∧ (s.mtx.held = true) ∧
      (ringClass s (fld (a.w 6) 11 0) = 0) ∧ (fld (a.w 6) 31 16 < ringSize s (fld (a.w 6) 11 0)) ∧
      (s.rng.descs.find? (fun t => t.ring == fld (a.w 6) 11 0 && t.idx == fld (a.w 6) 31 16 && t.w 1 == a.w 7 && t.op != 2) = some t) ∧ (t.st < 2)) ∧
    -- clause 21
    (let cfg : PcieCfg := {}
    let s : State := { up with rng := { up.rng with bme := false } }
    let t : State :=
      (sendPending (flushEvents (flushCpl (bset { s with rng := { s.rng with bme := true, cfg := { cfg with d3 := false } } } Reg.hifStatus 17 true))))
    (s.rng.linkUp = true) ∧ (s.rng.bme = false) ∧ (replay t = false)) ∧
    -- clause 22
    (let cfg : PcieCfg := {}
    let s : State := bset { up with rng := { up.rng with bme := false } } Reg.glbStatus 3 true
    let t : State :=
      (sendPending (flushEvents (flushCpl (bset { s with rng := { s.rng with bme := true, cfg := { cfg with d3 := false } } } Reg.hifStatus 17 true))))
    (s.rng.linkUp = true) ∧ (s.rng.bme = false) ∧ (replay t = true)) ∧
    -- clause 24
    (let s : State := up
    (s.pwr.st ≠ 0)) ∧
    -- clause 25
    (let s : State := up
    (hostDeaf s = false) ∧ (regLocked s = false)) :=
  ⟨by decide, by decide, by decide, by decide, by decide, by decide, by decide⟩

theorem witness_TranslationsKennelAndEnginesAct_1_9 :
    -- clause 1
    (let s : State := up
    (hostDeaf s = false) ∧ (regLocked s = false) ∧ (replay s = false) ∧ (inService s = false)) ∧
    -- clause 3
    (let v : Word := 0x900
    let s : State := up
    (hostDeaf s = false) ∧ (regLocked s = false) ∧ (replay s = false) ∧ (inService s = false) ∧ (9 ≤ fld v 12 8) ∧
      (fld v 12 8 ≤ 17)) ∧
    -- clause 4
    (let v : Word := 0
    let s : State := up
    (hostDeaf s = false) ∧ (regLocked s = false) ∧ (replay s = false) ∧ (s.xlat.inv = none) ∧ (fld v 31 30 ≠ 3)) ∧
    -- clause 5
    (let s : State := { up with xlat := { up.xlat with inv := some 1 } }
    (s.xlat.inv.isSome = true)) ∧
    -- clause 6
    (let b : Nat := 4
    let w : Word := 0x80000000
    let s : State := bset up Reg.glbStatus 3 true
    (hostDeaf s = false) ∧ (4 ≤ b) ∧ (bit w 31 = true) ∧ ((replay s = true ∨ s.rng.bme = false))) ∧
    -- clause 7
    (let b : Nat := 4
    let w : Word := 0x80000000
    let k : Knl := {}
    let s : State := { ring up 3 0x46 with xlat := { up.xlat with knl := [(0, {})] } }
    (hostDeaf s = false) ∧ (4 ≤ b) ∧ (bit w 31 = true) ∧ (replay s = false) ∧ (s.rng.bme = true) ∧ (ringEn s 3 = true) ∧
      (Tab.find? s.xlat.knl (fld w 7 0) = some k)) ∧
    -- clause 8
    (let b : Nat := 4
    let w : Word := 0x80000000
    let k : Knl := { st := 3 }
    let s : State := { ring up 3 0x46 with xlat := { up.xlat with knl := [(0, { st := 3 })] } }
    (hostDeaf s = false) ∧ (4 ≤ b) ∧ (bit w 31 = true) ∧ (replay s = false) ∧ (s.rng.bme = true) ∧ (ringEn s 3 = true) ∧
      (Tab.find? s.xlat.knl (fld w 7 0) = some k) ∧ (k.st ≠ 1)) ∧
    -- clause 9
    (let b : Nat := 4
    let w : Word := 0x80000000
    let k : Knl := { st := 1 }
    let s : State := { ring up 3 0x46 with xlat := { up.xlat with knl := [(0, { st := 1 })] } }
    (hostDeaf s = false) ∧ (4 ≤ b) ∧ (bit w 31 = true) ∧ (replay s = false) ∧ (s.rng.bme = true) ∧ (ringEn s 3 = true) ∧
      (Tab.find? s.xlat.knl (fld w 7 0) = some k) ∧ (k.st = 1) ∧ (xlatEn s = false) ∧ (k.data.isEmpty = true)) :=
  ⟨by decide, by decide, by decide, by decide, by decide, by decide, by decide, by decide⟩

theorem witness_TranslationsKennelAndEnginesAct_10_16 :
    -- clause 10
    (let b : Nat := 4
    let c : Nat := 4
    let w : Word := 0x80000000
    let s : State := bset up Reg.glbStatus 3 true
    (hostDeaf s = false) ∧ (4 ≤ b) ∧ (4 ≤ c) ∧ (bit w 31 = true) ∧ ((replay s = true ∨ s.rng.bme = false))) ∧
    -- clause 11
    (let b : Nat := 4
    let c : Nat := 4
    let v : Word := 0
    let w : Word := 0x80000000
    let s : State := { ring up 3 0x46 with xlat := { up.xlat with knl := [(0, {})] } }
    let t : State := (indexAct s 3 (fld v 15 0))
    (hostDeaf s = false) ∧ (4 ≤ b) ∧ (4 ≤ c) ∧ (bit w 31 = true) ∧ (replay s = false) ∧ (s.rng.bme = true) ∧
      (indexKind s 3 (fld v 15 0) = none) ∧ (resumeKind t (fld w 7 0) = none)) ∧
    -- clause 12
    (let i : Fin 256 := 0
    let k : Knl := { st := 1 }
    let x : Desc := dsc
    let s : State :=
      atTick 2500000 (wr { withJob up dsc with xlat := { up.xlat with knl := [(0, { st := 1 })] } } Reg.hifKnlTimeout 5)
    let t : State := (elapse s (k.since + fget s Reg.hifKnlTimeout 15 0 * 500000))
    (Tab.find? s.xlat.knl i = some k) ∧ (k.st = 1) ∧ (fget s Reg.hifKnlTimeout 15 0 ≠ 0) ∧ (desc? t k.d = some x)) ∧
    -- clause 13
    (let e : Fin 4 := 0
    let g : Eng := {}
    let s : State := { up with xlat := { up.xlat with engs := [(0, {})], bulk := [(0, { seen := 1 })] } }
    (Tab.find? s.xlat.engs e = some g) ∧ (frozenDesc s g.d = false) ∧ ((bulkOf s g.d).atCheck = false)) ∧
    -- clause 14
    (let e : Fin 4 := 0
    let g : Eng := { preempt := true }
    let s : State := { up with xlat := { up.xlat with engs := [(0, { preempt := true })] } }
    (Tab.find? s.xlat.engs e = some g) ∧ (frozenDesc s g.d = false) ∧ ((bulkOf s g.d).atCheck = true) ∧ (g.preempt =
      true) ∧ (mayPark s = true)) ∧
    -- clause 15
    (let e : Fin 4 := 0
    let g : Eng := {}
    let s : State := { up with xlat := { up.xlat with engs := [(0, {})] } }
    (Tab.find? s.xlat.engs e = some g) ∧ (frozenDesc s g.d = false) ∧ ((bulkOf s g.d).atCheck = true) ∧ (g.preempt = false)) ∧
    -- clause 16
    (let e : Fin 4 := 0
    let d : Nat := 0
    let s : State := { withJob up (job 0x19 0 []) with xlat := { up.xlat with queue := [0] } }
    (Tab.find? s.xlat.engs e = none) ∧ (nextWork s = some d) ∧ (frozenDesc s d = false)) :=
  ⟨by decide, by decide, by decide, by decide, by decide, by decide, by decide⟩

theorem witness_EventsAnnounceAndCountersChain_1_9 :
    -- clause 1
    (let v : Word := 0x1002
    let s : State := ring up 2 0x46
    (hostDeaf s = false) ∧ (regLocked s = false) ∧ (replay s = false) ∧ (ringClass s (fld v 11 0) = 2) ∧ (bit v 12 = true)) ∧
    -- clause 2
    (let n : Fin 2048 := 5
    let v : Word := 2
    let s : State := ring up 2 0x46
    (hostDeaf s = false) ∧ (regLocked s = false) ∧ (replay s = false) ∧ (ringClass s (fld v 11 0) = 2) ∧ (bit v 12 =
      false) ∧ (n.val ≠ 0x681)) ∧
    -- clause 3
    (let v : Fin 64 := 0
    let w : Word := 1
    let s : State := up
    let t : State := (wr s (Reg.evtCoal v) (w &&& 0x3FFFFFF))
    (hostDeaf s = false) ∧ (regLocked s = false) ∧ (replay s = false) ∧ (fld w 7 0 ≠ 0) ∧ (vectorRing t v = none)) ∧
    -- clause 4
    (let v : Fin 64 := 0
    let w : Word := 1
    let r : Nat := 2
    let s : State := { ring up 2 0x46 with evt := { up.evt with unann := [(2, { n := 1 })] } }
    let t : State := (wr s (Reg.evtCoal v) (w &&& 0x3FFFFFF))
    (hostDeaf s = false) ∧ (regLocked s = false) ∧ (replay s = false) ∧ (fld w 7 0 ≠ 0) ∧ (vectorRing t v = some r) ∧
      (coalDue t r w = true)) ∧
    -- clause 5
    (let v : Fin 64 := 0
    let r : Nat := 2
    let s : State :=
      atTick 500 (wr { ring up 2 0x46 with evt := { up.evt with unann := [(2, { n := 1 })] } } (Reg.evtCoal 0) 0x101)
    let t : State := (elapse s ((Tab.get s.evt.unann r {}).since + fget s (Reg.evtCoal v) 23 8 * 500))
    let p : Nat × Nat := (500, 2)
    (vectorRing s v = some r) ∧ (fget s (Reg.evtCoal v) 23 8 ≠ 0) ∧ ((Tab.get s.evt.unann r {}).n ≠ 0) ∧ (coalAt t v = some p)) ∧
    -- clause 6
    (let v : Fin 64 := 0
    let r : Nat := 2
    let s : State :=
      { wr (wr (ring up 2 0x46) (Reg.evtCoal 0) 0x101) (Reg.evtRoute 0x140) 0x1002 with evt := { up.evt with unann := [(2, { n := 1 })] }, tod := { up.tod with acc := 0xFFFFFFFF00000000 } }
    let t : State := (elapse s ((Tab.get s.evt.unann r {}).since + fget s (Reg.evtCoal v) 23 8 * 500))
    (vectorRing s v = some r) ∧ (fget s (Reg.evtCoal v) 23 8 ≠ 0) ∧ ((Tab.get s.evt.unann r {}).n ≠ 0) ∧ (coalAt t v = none)) ∧
    -- clause 7
    (let v : Word := 0x80000000
    let s : State := up
    (hostDeaf s = false) ∧ (regLocked s = false) ∧ (replay s = false) ∧ (bit v 31 = true)) ∧
    -- clause 9
    (let off : Nat := 0x20020
    let n : Nat := 1
    let s : State := wr up 0x20020 0xFFFFFFFF
    (rawCounter off = true) ∧ (n < 2 ^ 32) ∧ (2 ^ 32 ≤ (rd s off).toNat + n)) :=
  ⟨by decide, by decide, by decide, by decide, by decide, by decide +kernel, by decide, by decide⟩

theorem witness_EventsAnnounceAndCountersChain_10_16 :
    -- clause 10
    (let k : Fin 256 := 0
    let v : Word := 0x80020020
    let s : State := up
    (hostDeaf s = false) ∧ (regLocked s = false) ∧ (replay s = false) ∧ (chainRefused s k v = false) ∧ ((bit v 31 = true ∧
      bit (rd s (Reg.pmChainCfg k)) 31 = false) ∨ fld v 25 0 ≠ fld (rd s (Reg.pmChainCfg k)) 25 0)) ∧
    -- clause 11
    (let k : Fin 256 := 0
    let v : Word := 0
    let s : State := up
    (hostDeaf s = false) ∧ (regLocked s = false) ∧ (replay s = false) ∧ (chainRefused s k v = false) ∧ (bit v 31 = false) ∧
      (fld v 25 0 = fld (rd s (Reg.pmChainCfg k)) 25 0)) ∧
    -- clause 12
    (let s : State := up
    (hostDeaf s = false) ∧ (regLocked s = false) ∧ (replay s = false)) ∧
    -- clause 13
    (let s : State := up
    (hostDeaf s = false) ∧ (regLocked s = false) ∧ (replay s = false)) ∧
    -- clause 14
    (let s : State := up
    (hostDeaf s = false) ∧ (regLocked s = false) ∧ (replay s = false)) ∧
    -- clause 15
    (let l : List Snap := []
    let s : State := up
    (s.pm.toWrite = l)) ∧
    -- clause 16
    (let l : List Snap := [{}]
    let s : State := { up with pm := { up.pm with toWrite := [{}] }, hbm := { up.hbm with placed := [0, 0, 0, 1, 0] } }
    let t : State := ({ s with pm := { s.pm with toWrite := [] } })
    let x : Snap := {}
    let n : Nat := (histSlot t)
    (s.pm.toWrite = l) ∧ (l = [x]) ∧ (n ≠ 0)) :=
  ⟨by decide +kernel, by decide, by decide, by decide, by decide, by decide, by decide⟩

theorem witness_LeashPassesBetweenTheHalves_1_6 :
    -- clause 1
    (let s : State := halvesUp 3 2
    (halfState s (holder s) = 3)) ∧
    -- clause 2
    (let b : Nat := 7
    let s : State := { halvesUp 3 2 with mtx := { (halvesUp 3 2).mtx with beat := some 7 } }
    (s.mtx.held = true) ∧ (s.mtx.beat = some b)) ∧
    -- clause 3
    (let s : State := halvesUp 3 2 false 1
    (s.mtx.held = false) ∧ (s.mtx.vacant = 1)) ∧
    -- clause 4
    (let h : Bool := true
    let e : Word := 5
    let s : State := halvesUp 3 2 false 1
    let t : State := (wr s (claimReg h) e)
    ((halfState s h = 2 ∨ halfState s h = 3)) ∧ (t.mtx.held = false) ∧ ((epochNow t).toNat < e.toNat)) ∧
    -- clause 5
    (let h : Bool := true
    let e : Word := 0
    let s : State := halvesUp 3 2 false 1
    let t : State := (wr s (claimReg h) e)
    ((halfState s h = 2 ∨ halfState s h = 3)) ∧ ((t.mtx.held = true ∨ e.toNat ≤ (epochNow t).toNat))) ∧
    -- clause 6
    (let w : Bool := true
    let e : Nat := 5
    let s : State := { halvesUp 3 2 false 1 with mtx := { (halvesUp 3 2 false 1).mtx with claims := [(true, 5)] } }
    let t : State := (grant (bset (fset s Reg.mtxClaimRes 1 0 1) Reg.mtxClaimRes 2 w) w e false)
    (decideClaims s = some (w, e, 1, 0)) ∧ (replay t = false)) :=
  ⟨by decide, by decide, by decide, by decide, by decide, by decide +kernel⟩

theorem witness_LeashPassesBetweenTheHalves_7_12 :
    -- clause 7
    (let v : Word := 8
    let s : State := halvesUp 3 2
    (hostDeaf s = false) ∧ (regLocked s = false) ∧ (replay s = false) ∧ (bit v 3 = true) ∧ (s.mtx.held = true) ∧
      (halfState s (!holder s) = 2) ∧ (s.mtx.handover = false)) ∧
    -- clause 8
    (let s : State := { halvesUp 3 2 with mtx := { (halvesUp 3 2).mtx with handover := true } }
    (s.mtx.handover = true) ∧ (s.mtx.held = true)) ∧
    -- clause 9
    (let h : Bool := true
    let c : BootCheck := { slot0 := image }
    let s : State := { halvesUp 3 1 with pwr := { up.pwr with inForce := true, extFail := false } }
    let i : Nat := (fget s Reg.glbBoot 0 0)
    (halfState s h = 1) ∧ (s.pwr.extFail = false) ∧ (s.pwr.inForce = true) ∧ (slotPasses s c i = true)) ∧
    -- clause 10
    (let h : Bool := true
    let c : BootCheck := {}
    let s : State := { halvesUp 3 1 with pwr := { up.pwr with inForce := true, extFail := false } }
    let i : Nat := (fget s Reg.glbBoot 0 0)
    (halfState s h = 1) ∧ (s.pwr.extFail = false) ∧ (s.pwr.inForce = true) ∧ (slotPasses s c i = false)) ∧
    -- clause 11
    (let h : Bool := true
    let fell : Bool := false
    let i : Nat := 0
    let c : BootCheck := { slot0 := image }
    let s : State := { halvesUp 3 1 with pwr := { up.pwr with inForce := false, extFail := false } }
    (halfState s h = 1) ∧ (s.pwr.extFail = false) ∧ (s.pwr.inForce = false) ∧ (bootChoice s c = some (i, fell))) ∧
    -- clause 12
    (let s : State := halvesUp 4 4
    (s.pwr.st ≠ 0) ∧ (halfState s false = 4) ∧ (halfState s true = 4)) :=
  ⟨by decide, by decide, by decide +kernel, by decide, by decide +kernel, by decide⟩

theorem witness_MatrixServesItsMasters_1_5 :
    -- clause 1
    (let a : Access := { master := 2 }
    let s : State := up
    let t : State := (release (grantWaits (release s (fun w => w.acc.master == a.master))) (fun _ => true))
    let w : MtxWait := ({ acc := a, lock := false, tgt := targetOf t a.master a.addr.toNat })
    (matrixOn t a = true) ∧ (errorKind t w = none) ∧ (canServe t w = true)) ∧
    -- clause 2
    (let a : Access := { master := 3 }
    let s : State := up
    let t : State := (release (grantWaits (release s (fun w => w.acc.master == a.master))) (fun _ => true))
    let w : MtxWait := ({ acc := a, lock := false, tgt := targetOf t a.master a.addr.toNat })
    let k : Nat := 2
    (matrixOn t a = true) ∧ (errorKind t w = some k)) ∧
    -- clause 3
    (let a : Access := { master := 2 }
    let s : State := fset up Reg.mtxLock 7 4 0
    let t : State := (release (grantWaits (release s (fun w => w.acc.master == a.master))) (fun _ => true))
    let w : MtxWait := ({ acc := a, lock := false, tgt := targetOf t a.master a.addr.toNat })
    let u : State := ({ t with mtx := { t.mtx with waits := t.mtx.waits ++ [w] } })
    (matrixOn t a = true) ∧ (errorKind t w = none) ∧ (canServe t w = false) ∧ (sleepingStack u w.tgt.1 w.tgt.2 = none)) ∧
    -- clause 4
    (let a : Access := { master := 4, addr := 0x4000000000, size := 8 }
    let s : State := { up with hbm := { up.hbm with rail4 := true, selfRef := [true, true, true, true] } }
    let t : State := (release (grantWaits (release s (fun w => w.acc.master == a.master))) (fun _ => true))
    let w : MtxWait := ({ acc := a, lock := false, tgt := targetOf t a.master a.addr.toNat })
    let u : State := ({ t with mtx := { t.mtx with waits := t.mtx.waits ++ [w] } })
    let i : Nat := 0
    (matrixOn t a = true) ∧ (errorKind t w = none) ∧ (canServe t w = false) ∧ (sleepingStack u w.tgt.1 w.tgt.2 = some i)) ∧
    -- clause 5
    (let m : Fin 7 := 0
    let addr : BitVec 64 := 0x4000000
    let n : Nat := 4
    let a : Access := ({ master := m, addr := addr, size := n })
    let s : State := halvesUp 3 2
    let t : State := (release (grantWaits (release s (fun w => w.acc.master == a.master))) (fun _ => true))
    let w : MtxWait := ({ acc := a, lock := true, tgt := targetOf t a.master a.addr.toNat })
    ((m.val = 0 ∨ m.val = 1 ∨ m.val = 6)) ∧ (matrixOn t a = true) ∧ (errorKind t w = none) ∧ (canServe t w = true)) :=
  ⟨by decide, by decide, by decide, by decide, by decide⟩

theorem witness_MatrixServesItsMasters_6_10 :
    -- clause 6
    (let t : Fin 8 := 1
    let m : Nat := 0
    let s : State := fset up Reg.mtxLock 3 0 0
    (lockOf s t = some m)) ∧
    -- clause 7
    (let s : State := { up with mtx := { up.mtx with dbg := true } }
    (s.mtx.dbg = true)) ∧
    -- clause 8
    (let s : State := up
    let m : Fin 7 := ((if holder s then 1 else 0))
    (s.pwr.st ≠ 0) ∧ ((lockOf s 5).getD m.val = m.val)) ∧
    -- clause 9
    (let s : State := fset up Reg.mtxLock 11 8 3
    let m : Fin 7 := ((if holder s then 1 else 0))
    (s.pwr.st ≠ 0) ∧ ((lockOf s 5).getD m.val ≠ m.val)) ∧
    -- clause 10
    (let s : State := up
    (s.pwr.st ≠ 0)) :=
  ⟨by decide, by decide, by decide, by decide, by decide⟩

theorem witness_BufferMemoryAndBeagleAct_1_7 :
    -- clause 1
    (let r : Fin 5 := 0
    let v : Word := 0
    let s : State := up
    (hostReady s 18) ∧ (regionRefused s r (fld v 7 0) = false)) ∧
    -- clause 2
    (let s : State :=
      bset (wr { up with hbm := { up.hbm with placed := [1, 0, 1, 0, 0] } } (Reg.hbmRegion 2) 1) Reg.hbmStatus 12 true
    (resizing s = true)) ∧
    -- clause 3
    (let a : BitVec 38 := 0
    let u : HbmUser := .other
    let s : State := { up with hbm := { up.hbm with rail4 := true } }
    let v : State := ((if lineUser u then hbmWritten s a.toNat 1 else s))
    (stackOf a.toNat < 4) ∧ (domainUp s (18 + stackOf a.toNat) = true) ∧ (v.hbm.rail4 = true) ∧
      (v.hbm.bad.contains (a.toNat / 32) = false)) ∧
    -- clause 5
    (let a : BitVec 38 := 0
    let n : Nat := 2
    let u : HbmUser := .other
    let s : State := up
    let v : State := ((if lineUser u then hbmWritten s a.toNat 1 else s))
    (stackOf a.toNat < 4) ∧ ((s.hbm.rail4 = true → domainUp s (18 + stackOf a.toNat) = true)) ∧ ((2 ≤ n ∨ v.hbm.rail4 =
      false ∨ v.hbm.bad.contains (a.toNat / 32) = true))) ∧
    -- clause 6
    (let row : Nat := 7
    let i : Nat := 0
    let n : Nat := 0
    let rest : List Nat := []
    let s : State := { up with hbm := { up.hbm with due := [7] } }
    (s.hbm.due = row :: rest) ∧ (i = row * 1024 / stackBytes) ∧ (n = fget s (Reg.hbmCullet i) 16 0) ∧ (n < 65536) ∧
      (s.hbm.cullet.contains row = false)) ∧
    -- clause 7
    (let k : Fin 3 := 2
    let r : Nat × Nat := (3, 5)
    let s : State := { up with bgl := { up.bgl with reqs := [(3, 5)] } }
    let t : State := ({ s with bgl := { s.bgl with reqs := s.bgl.reqs.erase r } })
    (leaseOf s (k + 1) = none) ∧ (s.bgl.paused = false) ∧ (s.pwr.st = 2) ∧ (s.bgl.reqs.find? (fun r => r.1 == k.val + 1) =
      some r) ∧ (unitOk t (k + 1) r.2 = true)) :=
  ⟨by decide, by decide, by decide, by decide, by decide, by decide⟩

theorem witness_BufferMemoryAndBeagleAct_8_13 :
    -- clause 8
    (let k : Fin 3 := 2
    let r : Nat × Nat := (3, 5)
    let s : State := bset up Reg.bglCtl 2 true
    (leaseOf s (k + 1) = none) ∧ (s.bgl.paused = false) ∧ (s.pwr.st = 2) ∧ (s.bgl.reqs.find? (fun r => r.1 == k.val + 1) =
      none) ∧ (sweeps s (k + 1) = true)) ∧
    -- clause 9
    (let k : Fin 3 := 2
    let l : Lease := { named := true }
    let s : State := leaseUp { named := true }
    (leaseOf s (k + 1) = some l) ∧ (l.revoked = false)) ∧
    -- clause 10
    (let v : Word := 0x80000003
    let s : State := up
    (hostReady s 18) ∧ (bit v 31 = true) ∧ (fld v 1 0 ≠ 0) ∧ (unitOk s (fld v 1 0) (fld v 18 2) = true)) ∧
    -- clause 11
    (let k : Fin 3 := 2
    let l : Lease := {}
    let s : State := leaseUp {}
    (leaseOf s (k + 1) = some l)) ∧
    -- clause 12
    (let k : Fin 3 := 2
    let l : Lease := { named := true, revoked := true }
    let s : State := leaseUp { named := true, revoked := true }
    (leaseOf s (k + 1) = some l) ∧ (l.revoked = true) ∧ (l.named = true)) ∧
    -- clause 13
    (let k : Fin 3 := 2
    let l : Lease := { revoked := true, bad := [3] }
    let s : State := leaseUp { revoked := true, bad := [3] }
    (leaseOf s (k + 1) = some l) ∧ (l.revoked = true) ∧ (l.named = false)) :=
  ⟨by decide, by decide, by decide, by decide, by decide, by decide⟩

theorem witness_BufferMemoryAndBeagleAct_14_18 :
    -- clause 14
    (let d : Nat := 0
    let x : Desc := job 0x60 (0) [1] 0
    let parts : Nat := (fld (x.w 6) 7 0)
    let s : State := withJob (up) (job 0x60 (0) [1] 0)
    (takeDesc s d 0x60 = some x) ∧ (parts ≠ 0) ∧ (s.bgl.test = none)) ∧
    -- clause 15
    (let t : SelfTest := { run := 1 }
    let s : State := { up with bgl := { up.bgl with test := some { run := 1 } } }
    (s.bgl.test = some t) ∧ (testEnds t = true)) ∧
    -- clause 16
    (let d : Nat := 0
    let x : Desc := job 0x59 (0) [0, 0x50000, 1, 0] 0
    let s : State :=
      withJob ({ laneUp 5 4 with hbm := { up.hbm with placed := [0, 0, 0, 0, 1] } }) (job 0x59 (0) [0, 0x50000, 1, 0] 0)
    (takeDesc s d 0x59 = some x) ∧ (bit (x.w 6) 0 = false) ∧ (recordOk s x = true)) ∧
    -- clause 17
    (let c : Capture := { started := true, left := 0, bytes := 1 }
    let s : State := { up with bgl := { up.bgl with cap := some { started := true, left := 0, bytes := 1 } } }
    (s.bgl.cap = some c) ∧ (c.started = true) ∧ (c.left = 0)) ∧
    -- clause 18
    (let d : Nat := 0
    let x : Desc := job 0x59 (4) [1, 0, 0, 0] 0
    let r : Nat := (fld (x.w 7) 2 0)
    let off : Nat := ((x.w 8).toNat + 2 ^ 32 * (x.w 9).toNat)
    let s : State := withJob ({ up with hbm := { up.hbm with placed := [1, 0, 0, 0, 0] } }) (job 0x59 (4) [1, 0, 0, 0] 0)
    (takeDesc s d 0x59 = some x) ∧ (bit (x.w 6) 0 = true) ∧ (s.rng.bme = true) ∧ (rangeBad s x = false) ∧ (r ≤ 4) ∧
      (off + x.len ≤ regionSize s.hbm.placed r * granule)) :=
  ⟨by decide, by decide, by decide, by decide, by decide⟩

theorem witness_PowerStatesAndRailsFollowTheirSequence_1_7 :
    -- clause 1
    (let v : Word := 1
    let s : State := up
    (hostDeaf s = false) ∧ (regLocked s = false) ∧ (replay s = false) ∧ (mode s < 2) ∧ (modePending s = false) ∧
      (pwrPending s = false) ∧ (fld v 1 0 = 1)) ∧
    -- clause 2
    (let v : Word := 2
    let s : State := up
    (hostDeaf s = false) ∧ (regLocked s = false) ∧ (replay s = false) ∧ (mode s < 2) ∧ (modePending s = false) ∧
      (pwrPending s = false) ∧ (fld v 1 0 = 2)) ∧
    -- clause 3
    (let v : Word := 0
    let s : State := bset up Reg.pwrStatus 2 true
    (hostDeaf s = false) ∧ (regLocked s = false) ∧ (replay s = false) ∧ (pwrPending s = true) ∧ (fld v 1 0 = 0) ∧
      (pwrPending (wr s Reg.pwrCtl (v &&& 0x33)) = true)) ∧
    -- clause 4
    (let s : State := wr (bset up Reg.pwrStatus 2 true) Reg.pwrCtl 1
    (pwrPending s = true) ∧ (s.rng.descs = []) ∧ (s.xlat.knl = []) ∧ (fget s Reg.pwrCtl 1 0 = 1)) ∧
    -- clause 5
    (let s : State := wr (bset up Reg.pwrStatus 2 true) Reg.pwrCtl 2
    (pwrPending s = true) ∧ (s.rng.descs = []) ∧ (s.xlat.knl = []) ∧ (fget s Reg.pwrCtl 1 0 ≠ 1)) ∧
    -- clause 6
    (let b : List Byte := board
    let s : State := bootUp true
    (boardAwaited s = true) ∧ (s.pwr.faultN = true) ∧ (boardOk b = true)) ∧
    -- clause 7
    (let b : List Byte := []
    let s : State := bootUp true
    (boardAwaited s = true) ∧ (s.pwr.faultN = true) ∧ (boardOk b = false)) :=
  ⟨by decide, by decide, by decide, by decide, by decide, by decide +kernel, by decide⟩

theorem witness_PowerStatesAndRailsFollowTheirSequence_8_14 :
    -- clause 8
    (let b : List Byte := board
    let s : State := bootUp false
    (boardAwaited s = true) ∧ (s.pwr.faultN = false) ∧ (boardOk b = true)) ∧
    -- clause 9
    (let n : Fin 6 := 0
    let v : BitVec 13 := 800
    let f : BitVec 16 := 0
    let s : State := railUp 0
    let t : State := (showRail s n v.toNat f.toNat)
    let u : State := (bset { t with pwr := { t.pwr with rail := none } } (Reg.pwrRail n) 1 true)
    (s.pwr.rail = some n.val) ∧ (railIsGood s n v.toNat f.toNat = true) ∧ (u.pwr.lostRails.contains n.val = false) ∧
      (u.pwr.target = 1) ∧ (n.val < 3)) ∧
    -- clause 10
    (let n : Fin 6 := 3
    let v : BitVec 13 := 800
    let f : BitVec 16 := 0
    let s : State := railUp 3
    let t : State := (showRail s n v.toNat f.toNat)
    let u : State := (bset { t with pwr := { t.pwr with rail := none } } (Reg.pwrRail n) 1 true)
    (s.pwr.rail = some n.val) ∧ (railIsGood s n v.toNat f.toNat = true) ∧ (u.pwr.lostRails.contains n.val = false) ∧
      (u.pwr.target = 1) ∧ (3 ≤ n.val)) ∧
    -- clause 11
    (let n : Fin 6 := 0
    let v : BitVec 13 := 0
    let f : BitVec 16 := 0
    let s : State := railUp 0
    let t : State := (bset (showRail s n v.toNat f.toNat) (Reg.pwrRail n) 2 true)
    let u : State := (railsOff { t with pwr := { t.pwr with rail := none, waitFrom := t.tod.ticks } } [3, 2, 1, 0])
    (s.pwr.rail = some n.val) ∧ (t.pwr.lostRails.contains n.val = false) ∧ (t.pwr.target = 1) ∧ (u.pwr.target = 1) ∧
      (u.pwr.st = 0) ∧ (u.pwr.fails = 0)) ∧
    -- clause 12
    (let s : State := { up with pwr := { up.pwr with rail := none, retry := true } }
    (s.pwr.rail = none) ∧ (s.pwr.retry = true)) ∧
    -- clause 13
    (let n : Nat := 3
    let l : List Nat := []
    let s : State := { up with pwr := { up.pwr with rail := none, lostRails := [3] } }
    (s.pwr.rail = none) ∧ (s.pwr.retry = false) ∧ (s.pwr.lostRails = n :: l)) ∧
    -- clause 14
    (let s : State := wr up (Reg.pwrRail 4) 3
    (railGood s 4 = true)) :=
  ⟨by decide +kernel, by decide +kernel, by decide +kernel, by decide, by decide, by decide, by decide⟩

theorem witness_PowerStatesAndRailsFollowTheirSequence_15_21 :
    -- clause 15
    (let d : Fin 17 := 0
    let s : State := up
    (domainUp s d = true) ∧ (d.val < 16) ∧ (litLanes s d = [])) ∧
    -- clause 16
    (let s : State := up
    (domainUp s 16 = true) ∧ ((List.range 64).all (fun p => !bget s (Reg.tribCtl p) 0) = true)) ∧
    -- clause 17
    (let d : Fin 22 := 3
    let s : State := { up with pwr := { up.pwr with wakes := [3] } }
    (wakeReady s d = true) ∧ (d.val < 16)) ∧
    -- clause 18
    (let d : Fin 22 := 16
    let s : State := bset (wr { up with pwr := { up.pwr with wakes := [16] } } Reg.pwrStatus 0xA) (Reg.pwrRail 5) 1 true
    (wakeReady s d = true) ∧ (d.val = 16)) ∧
    -- clause 19
    (let d : Fin 22 := 17
    let s : State := { up with pwr := { up.pwr with wakes := [17] } }
    (wakeReady s d = true) ∧ (17 ≤ d.val)) ∧
    -- clause 20
    (let s : State := wr { up with pwr := { up.pwr with dormant := true } } Reg.pwrCtl 0x10
    (s.pwr.dormant = true) ∧ (s.pwr.fails < 3) ∧ (bget s Reg.pwrCtl 4 = true)) ∧
    -- clause 21
    (let s : State := wr (wr { up with pwr := { up.pwr with dormant := true, secs := 9 } } Reg.pwrCtl 0x20) Reg.pwrWakeTimer 9
    (s.pwr.dormant = true) ∧ (s.pwr.fails < 3) ∧ (bget s Reg.pwrCtl 5 = true) ∧ (fget s Reg.pwrWakeTimer 15 0 ≠ 0) ∧
      (fget s Reg.pwrWakeTimer 15 0 ≤ s.pwr.secs)) :=
  ⟨by decide, by decide, by decide, by decide, by decide, by decide, by decide⟩

theorem witness_PowerStatesAndRailsFollowTheirSequence_22_25 :
    -- clause 22
    (let s : State := { up with pwr := { up.pwr with aonOk := false } }
    (s.pwr.aonOk = false)) ∧
    -- clause 23
    (let s : State := up
    (s.pwr.aonOk = true)) ∧
    -- clause 24
    (let s : State := { up with pwr := { up.pwr with loading := true } }
    (s.pwr.loading = true) ∧ (s.mtx.held = true)) ∧
    -- clause 25
    (let s : State := { up with pwr := { up.pwr with loading := true, otherOk := true } }
    (s.pwr.loading = true) ∧ (s.mtx.held = true) ∧ (s.pwr.otherOk = true)) :=
  ⟨by decide, by decide, by decide, by decide⟩

theorem witness_SuppliesClocksAndFlashFollowTheirRules_1_8 :
    -- clause 1
    (let s : State := wr up Reg.pwrAvs 800
    (coreMv s ≠ 0) ∧ (fixedMv s = 0) ∧ (s.pwr.vdHold = false)) ∧
    -- clause 4
    (let mv : Nat := 41
    let s : State := wr { up with pwr := { up.pwr with vdOver := 10 } } Reg.pwrAvs 800
    (coreMv s ≠ 0) ∧ (40 < mv) ∧ (10 ≤ s.pwr.vdOver) ∧ (fixedMv s = 0)) ∧
    -- clause 5
    (let x : Int := 25
    let s : State := up
    let t : State :=
      (fset (fset (showTemps s ((List.range 16).map (fun _ => x))) Reg.pwrThermStatus 7 4 0) Reg.pwrThermStatus 15 8 0)
    (inReset s = false) ∧ (x < 105) ∧ (x < (fget s Reg.pwrThermLim 7 0 : Int) - 5) ∧ (bget t Reg.pwrThermStatus 0 =
      false) ∧ (bget t Reg.pwrThermStatus 1 = false) ∧ (bget t Reg.pwrThermStatus 2 = false)) ∧
    -- clause 6
    (let p : Fin 4 := 0
    let st : Fin 4 := 0
    let locked : Bool := false
    let k : Nat := ((if p.val < 3 then p.val else 3 + st.val))
    let s : State := up
    (s.pwr.pllBad.contains k = locked)) ∧
    -- clause 7
    (let v : Word := 0x20
    let s : State := wr up Reg.glbFwSvn 3
    let n : Nat := (fget s Reg.glbFwSvn 7 0)
    (hostDeaf s = false) ∧ (regLocked s = false) ∧ (replay s = false) ∧ (bit v 5 = true) ∧ (mode s = 0) ∧ (s.pwr.minSvn < n)) ∧
    -- clause 8
    (let v : Word := 1
    let s : State := up
    (hostDeaf s = false) ∧ (regLocked s = false) ∧ (replay s = false) ∧ (flashBusy s = false) ∧ (mode s < 2) ∧ (fld v 1 0 = 1)) :=
  ⟨by decide, by decide, by decide +kernel, by decide, by decide, by decide⟩

theorem witness_SuppliesClocksAndFlashFollowTheirRules_9_14 :
    -- clause 9
    (let v : Word := 2
    let s : State := { up with pwr := { up.pwr with inForce := false } }
    let a : Nat := (fget s Reg.glbFlashAddr 27 8 * 256)
    (hostDeaf s = false) ∧ (regLocked s = false) ∧ (replay s = false) ∧ (flashBusy s = false) ∧ (mode s < 2) ∧ (fld v 1 0 =
      2) ∧ (flashGuarded s a 256 = false)) ∧
    -- clause 10
    (let v : Word := 3
    let s : State := { up with pwr := { up.pwr with inForce := false } }
    let a : Nat := (fget s Reg.glbFlashAddr 27 8 * 256)
    (hostDeaf s = false) ∧ (regLocked s = false) ∧ (replay s = false) ∧ (flashBusy s = false) ∧ (mode s < 2) ∧ (fld v 1 0 =
      3) ∧ (flashGuarded s (a / 65536 * 65536) 65536 = false)) ∧
    -- clause 11
    (let a : Nat := 0
    let s : State := { up with pwr := { up.pwr with flash := some (2, 0), flashHold := true } }
    (s.pwr.flashHold = true) ∧ (halfBoots s = false) ∧ (s.pwr.flash = some (2, a))) ∧
    -- clause 12
    (let a : Nat := 0
    let s : State := { up with pwr := { up.pwr with flash := some (3, 0), flashHold := true } }
    (s.pwr.flashHold = true) ∧ (halfBoots s = false) ∧ (s.pwr.flash = some (3, a))) ∧
    -- clause 13
    (let page : List Byte := List.replicate 256 0
    let a : Nat := 0
    let s : State := { up with pwr := { up.pwr with flash := some (1, 0) } }
    (page.length = 256) ∧ (s.pwr.flashHold = false) ∧ (s.pwr.flash = some (1, a))) ∧
    -- clause 14
    (let page : List Byte := List.replicate 256 0
    let a : Nat := 0
    let s : State := { up with pwr := { up.pwr with flash := some (2, 0) } }
    (page.length = 256) ∧ (s.pwr.flashHold = false) ∧ (s.pwr.flash = some (2, a))) :=
  ⟨by decide, by decide, by decide, by decide, by decide +kernel, by decide +kernel⟩

end Sys2Proof.Tests
end

section
/-! SUPPORT. What a BAR0 write of one or two words does to a register that no rule of its own covers (R4 to R7, R304, R438), and what the
shared register operations leave unchanged. -/

namespace Sys2Proof.Machine

/-! ### Everything but the registers -/

/-- The state with every register at its reset word: what a command that only writes registers leaves equal. -/
def offRegs (s : State) : State := { s with regs := [] }

@[simp] theorem offRegs_wr (s : State) (off : Nat) (v : Word) : offRegs (wr s off v) = offRegs s := rfl

@[simp] theorem offRegs_fset (s : State) (off hi lo v : Nat) : offRegs (fset s off hi lo v) = offRegs s := rfl

@[simp] theorem offRegs_bset (s : State) (off i : Nat) (b : Bool) : offRegs (bset s off i b) = offRegs s := rfl

@[simp] theorem offRegs_carry (s : State) (off : Nat) : offRegs (carry s off) = offRegs s := by
  refine List.foldlRecOn (motive := fun t => offRegs t = offRegs s) _ _ rfl fun t ht k _ => ?_
  dsimp only
  split
  · rw [offRegs_bset, offRegs_wr, ht]
  · exact ht

@[simp] theorem offRegs_count (s : State) (off n : Nat) : offRegs (count s off n) = offRegs s := by
  unfold count
  dsimp only
  split
  · rw [offRegs_wr]
  · rw [offRegs_carry, offRegs_wr]

/-- An ignored sequence is counted and recorded in registers alone (R325). -/
@[simp] theorem offRegs_ignored (s : State) (kind ring off : Nat) : offRegs (ignored s kind ring off) = offRegs s := by
  simp only [ignored, offRegs_wr, offRegs_count]

@[simp] theorem offRegs_ignoredWrite (s : State) (off : Nat) : offRegs (ignoredWrite s off) = offRegs s :=
  offRegs_ignored s 1 0 off

/-- A register that is written back as it stands changes no register. -/
theorem rd_wr_self (s : State) (off o : Nat) : rd (wr s off (rd s off)) o = rd s o := by
  by_cases h : o = off
  · rw [h, rd_wr_same]
  · rw [rd_wr_other _ _ _ _ h]

/-! ### BAR0 writes of one word and of two -/

/-- A host that has access writes one word at a multiple of 4, -/
theorem exec_registerWrite_word (s : State) (off : Nat) (v : BitVec 64) (awake : hostDeaf s = false)
    (free : regLocked s = false) (aligned : off % 4 = 0) :
    exec (.registerWrite off 4 v) s = .next (wordWrite s off (v.extractLsb' 0 32)) := by
  change execRegisterWrite _ _ v s = _
  simp [execRegisterWrite, awake, free, aligned]

/-- and two words at a multiple of 8, the lower register first (R304). -/
theorem exec_registerWrite_pair (s : State) (off : Nat) (v : BitVec 64) (awake : hostDeaf s = false)
    (free : regLocked s = false) (aligned : off % 8 = 0) :
    exec (.registerWrite off 8 v) s =
      .next (wordWrite (wordWrite s off (v.extractLsb' 0 32)) (off + 4) (v.extractLsb' 32 32)) := by
  change execRegisterWrite _ _ v s = _
  simp [execRegisterWrite, awake, free, aligned]

/-- A word of a listed register in no power domain acts outside REPLAY (R5, R26, R410). -/
theorem wordWrite_acts (s : State) (off : Nat) (v : Word) (r : RegRow) (awake : hostDeaf s = false)
    (below : off < 0x3FF0000) (listed : regRow? off = some r) (running : replay s = false) (takes : r.writable = true)
    (undomained : regDomain off = none) : wordWrite s off v = regWrite s off v := by
  simp [wordWrite, awake, Nat.not_le.mpr below, listed, running, takes, undomained]

/-! ### What follows a write, and the fields it sets -/

/-- The registers whose write refreshes others: the kennel's and the PEEK selections (R158, R200, R223, R239, R263, R347). -/
abbrev selections : List Nat :=
  [Reg.hifKnlSel, Reg.mapPeekSlot, Reg.protPeekSel, Reg.mrgPeekSel, Reg.symPeekSel, Reg.cemPeekSel]

/-- Outside the timing block, a write of no selection has no consequence of its own. -/
theorem afterWrite_same (s : State) (off : Nat) (untimed : off / 0x10000 ≠ 0x8)
    (unselected : selections.contains off = false) : afterWrite s off = s := by
  simp only [selections, List.contains_cons, List.contains_nil, Bool.or_eq_false_iff, beq_eq_false_iff_ne] at unselected
  obtain ⟨knl, map, prot, mrg, sym, cem, -⟩ := unselected
  simp only [afterWrite, untimed, knl, map, prot, mrg, sym, cem, if_false]

/-- In SERVICE a register with no writable field but RWL ones is written back as it stands after the ignored write (R6, R7). -/
theorem fieldWrite_locked (s : State) (r : RegRow) (off : Nat) (v : Word) (service : inService s = true)
    (noRw : accMask r .rw = 0) (rwl : accMask r .rwl ≠ 0) (noW1c : accMask r .w1c = 0) (unmixed : mixedLock off = false) :
    fieldWrite s r off v = wr (ignoredWrite s off) off (rd (ignoredWrite s off) off) := by
  have lock : (inService s && accMask r .rwl != 0) = true := by rw [service, bne_iff_ne.mpr rwl, Bool.and_self]
  simp only [fieldWrite, lock, noRw, noW1c, unmixed, Bool.false_eq_true, if_true, if_false]
  simp only [BitVec.ofNat_eq_ofNat, BitVec.and_zero, BitVec.not_zero, BitVec.and_allOnes, BitVec.or_zero]

/-- Outside SERVICE a register's RW and RWL fields take their bits, and every other bit is kept (R5, R6). -/
theorem fieldWrite_unlocked (s : State) (r : RegRow) (off : Nat) (v : Word) (service : inService s = false)
    (noW1c : accMask r .w1c = 0) :
    fieldWrite s r off v = wr s off
      ((rd s off &&& ~~~ (accMask r .rw ||| accMask r .rwl)) ||| (v &&& (accMask r .rw ||| accMask r .rwl))) := by
  simp only [fieldWrite, service, noW1c, Bool.false_and, Bool.false_eq_true, if_false,
    BitVec.ofNat_eq_ofNat, BitVec.and_zero, BitVec.not_zero, BitVec.and_allOnes]

/-- One aligned word written to a listed register with no rule of its own sets its fields, unless its description refuses the value
before the lock is asked (R5 to R7). -/
theorem exec_registerWrite_fields (s : State) (off : Nat) (r : RegRow) (v : Word) (awake : hostDeaf s = false)
    (free : regLocked s = false) (running : replay s = false) (aligned : off % 4 = 0) (below : off < 0x3FF0000)
    (listed : regRow? off = some r) (takes : r.writable = true) (undomained : regDomain off = none)
    (untimed : off / 0x10000 ≠ 0x8) (unselected : selections.contains off = false) (ruleless : ownWrite s off v = none)
    (taken : (badValue off v && !(inService s && accMask r .rw == 0)) = false) :
    exec (.registerWrite off 4 (v.setWidth 64)) s = .next (fieldWrite s r off v) := by
  have low : (v.setWidth 64).extractLsb' 0 32 = v :=
    (BitVec.extractLsb'_setWidth_of_le (by omega)).trans BitVec.extractLsb'_eq_self
  calc exec (.registerWrite off 4 (v.setWidth 64)) s
      = .next (wordWrite s off v) := by rw [exec_registerWrite_word s off _ awake free aligned, low]
    _ = .next (plainWrite s off v) := by
        rw [wordWrite_acts s off v r awake below listed running takes undomained, regWrite, ruleless, Option.getD_none]
    _ = .next (fieldWrite s r off v) := by
        simp only [plainWrite, listed, taken, Bool.false_eq_true, if_false, afterWrite_same _ off untimed unselected]

end Sys2Proof.Machine
end

section
/-! SUPPORT. The RWL lock over every plain register (R5 to R7, R438). -/

open Sys2Proof.Machine

/-- Settles O39: in SERVICE the register is written back as it stands after the ignored write, outside it the fields take their bits. -/
theorem lockedRegistersIgnoreWritesInService : Obligations.LockedRegistersIgnoreWritesInService := by
  unfold Obligations.LockedRegistersIgnoreWritesInService
  constructor
  · intro s t off r v awake free running service aligned below listed takes noRw rwl noW1c unmixed undomained untimed unselected
      ruleless ran
    have taken : (badValue off v && !(inService s && accMask r .rw == 0)) = false := by simp [service, noRw]
    rw [exec_registerWrite_fields s off r v awake free running aligned below listed takes undomained untimed unselected ruleless
      taken, fieldWrite_locked s r off v service noRw rwl noW1c unmixed, Host.Outcome.next.injEq] at ran
    subst ran
    exact ⟨rd_wr_self _ off, offRegs_ignoredWrite s off⟩
  · intro s off r v awake free running service aligned below listed takes noW1c undomained untimed unselected ruleless good
    have taken : (badValue off v && !(inService s && accMask r .rw == 0)) = false := by simp [good]
    rw [exec_registerWrite_fields s off r v awake free running aligned below listed takes undomained untimed unselected ruleless
      taken, fieldWrite_unlocked s r off v service noW1c]
end

section
/-! SUPPORT. What mode changes, resets and the replay of the journal do under the conditions of their rules (R21 to R27, R178, R369, R423,
R458). -/

namespace Sys2Proof.Machine

/-! ### Modes -/

/-- An allowed request for another mode, with no mode or power request pending, waits and stops fetching (R21 to R23). -/
theorem exec_glbModeWrite_accepted (s : State) (v : Word) (awake : hostDeaf s = false) (free : regLocked s = false)
    (running : replay s = false) (noMode : modePending s = false) (noPower : pwrPending s = false) (other : fld v 1 0 ≠ mode s)
    (allowed : modeAllowed (mode s) (fld v 1 0) = true) :
    exec (.glbModeWrite v) s = .next { bset (fset s Reg.glbStatus 1 0 (fld v 1 0)) Reg.glbStatus 2 true with
      glb := { s.glb with modeGo := true }, rng := { s.rng with stopped := true } } := by
  change execGlbModeWrite v s = _
  simp only [execGlbModeWrite, hostWrite_acts _ _ _ _ awake free running, noMode, noPower, other, allowed, Bool.or_self,
    Bool.not_true, Bool.false_eq_true, if_false]
  rfl

/-- A request that waits takes effect once every fetched descriptor has ended (R23). -/
theorem exec_modeSwitch_ended (s : State) (waits : s.glb.modeGo = true) (ended : allEnded s = true) :
    exec .modeSwitch s = .next { bset (fset s Reg.glbMode 1 0 (fget s Reg.glbStatus 1 0)) Reg.glbStatus 2 false with
      glb := { s.glb with modeGo := false }, rng := { s.rng with stopped := false } } := by
  change execModeSwitch s = _
  simp only [execModeSwitch, waits, ended, Bool.and_self, if_true]
  rfl

/-! ### Cold reset -/

theorem pmbus_glb (s : State) (n : Nat) (cmd : String) (data : List Byte) : (pmbus s n cmd data).glb = s.glb := by
  unfold pmbus
  split <;> rfl

/-- Turning rails off draws no free value. -/
theorem railsOff_glb (s : State) (l : List Nat) : (railsOff s l).glb = s.glb := by
  refine List.foldlRecOn (motive := fun t : State => t.glb = s.glb) l _ rfl fun t ht n _ => ?_
  split
  · rw [pmbus_glb]
    exact ht
  · exact ht

theorem railsOff_pending (s : State) (l : List Nat) : (railsOff s l).pending = s.pending :=
  congrArg Kept.pending (kept_railsOff s l)

theorem railsOff_minSvn (s : State) (l : List Nat) : (railsOff s l).pwr.minSvn = s.pwr.minSvn :=
  congrArg Kept.minSvn (kept_railsOff s l)

/-- A cold reset keeps the fuse, VDD_AON, the commands that wait, the count of free values and the record of what was sent out, which the
rails' turning off lengthens (R25, R422, R429; log entries 1 and 75, the model's choice). -/
theorem exec_coldReset (s : State) : exec .coldReset s = .next { State.reset with
    pending := s.pending
    out := (railsOff s [5, 4, 3, 2, 1, 0]).out
    glb := { State.reset.glb with free := s.glb.free }
    pwr := { State.reset.pwr with minSvn := s.pwr.minSvn, rstLow := true, aonOk := s.pwr.aonOk } } := by
  change execColdReset s = _
  simp only [execColdReset, coldState, railsOff_pending, railsOff_glb, railsOff_minSvn]

/-! ### Warm reset and replay -/

/-- WARM_RESET_N rises after a fall, and both halves boot (R26, R458). -/
theorem exec_warmResetRise_low (s : State) (low : s.pwr.warmLow = true) : exec .warmResetRise s =
    .next (setHalf (setHalf { s with pwr := { s.pwr with warmLow := false } } false 1) true 1) := by
  change execWarmResetRise s = _
  simp only [execWarmResetRise, low, if_true]

/-- The log as the replay reads it: these copies are found damaged. -/
def readBack (damage : List JrnDamage) (s : State) : State :=
  damage.foldl markDamage (editGth s (fun x => { x with replayed := true }))

/-- Every record with a damaged copy is repaired or given up, and the commits that were lost are void (R176, R178). -/
def checkedLog (t : State) : State :=
  (lostSlots t).foldl voidCommit (((List.range t.gth.jrn.length).filter (fun k =>
    !(t.gth.jrn.getD k {}).main || (t.gth.jrn.getD k {}).badA || (t.gth.jrn.getD k {}).badB)).foldl checkRecord t)

/-- During a replay the holder of the leash reads the log, and discards the gathers that are open or whose commit was lost
(R26, R176, R178). -/
theorem exec_journalReplay_held (s : State) (damage : List JrnDamage) (replays : replay s = true) (held : s.mtx.held = true)
    (high : s.pwr.warmLow = false) :
    exec (.journalReplay damage) s =
      .next (((List.range 16).filter (fun i =>
        (((checkedLog (readBack damage s)).gth.slots.filter (fun p => p.2.st == 1 || p.2.st == 2)).map (fun p => p.1)).contains i ||
          (lostSlots (readBack damage s)).contains i)).foldl discardGather (checkedLog (readBack damage s))) := by
  change execJournalReplay damage s = _
  simp only [execJournalReplay, replays, held, high, Bool.not_false, Bool.and_self, if_true]
  rfl

/-- Once the log has been read, a replay ends with the TLB empty and REPLAY 0: the records that wait, the held events and the recorded
doorbells go out, and fetching goes on (R26, R27). -/
theorem exec_replayEnd_replayed (s t u : State) (replays : replay s = true) (held : s.mtx.held = true)
    (high : s.pwr.warmLow = false) (replayed : s.gth.replayed = true)
    (ht : t = bset (bset { s with xlat := { s.xlat with tlb := [], inv := none } } Reg.hifXlatStatus 0 false) Reg.glbStatus 3 false)
    (hu : u = flushEvents (endStopped (flushCpl { t with rng := { t.rng with stopped := false } }))) :
    exec .replayEnd s = .next (if u.rng.bme then actResumes (actDoorbells u) {} else u) := by
  change execReplayEnd s = _
  simp only [execReplayEnd, replays, held, high, replayed, Bool.not_false, Bool.and_self, if_true]
  rw [hu, ht]

/-- A new holder that recovers outside a replay writes the records that wait (R27, R369). -/
theorem exec_handoverRecoveryDone_held (s : State) (recovers : s.mtx.recover = true) (held : s.mtx.held = true)
    (running : replay s = false) :
    exec .handoverRecoveryDone s = .next (endStopped (flushCpl { s with mtx := { s.mtx with recover := false } })) := by
  change execHandoverRecoveryDone s = _
  simp only [execHandoverRecoveryDone, recovers, held, running, Bool.not_false, Bool.and_self, if_true]

end Sys2Proof.Machine
end

section
/-! SUPPORT. Register writes, mode changes, resets and the replay of the journal (R21 to R27, R178, R304, R423, R458). -/

open Sys2Proof.Machine

/-- Settles O1: a clause for each command, from the lemma about it; HOT_RESET, COLD_RESET_RELEASE and WARM_RESET_START have no condition
of their own in `exec`. -/
theorem modesResetsAndRegisterWritesAct : Obligations.ModesResetsAndRegisterWritesAct := by
  unfold Obligations.ModesResetsAndRegisterWritesAct
  refine ⟨fun off v s => exec_registerWrite_word s off v, fun off v s => exec_registerWrite_pair s off v,
    fun v s => exec_glbModeWrite_accepted s v, exec_modeSwitch_ended, fun _ => rfl, exec_coldReset, fun _ => rfl,
    ?warmStart, exec_warmResetRise_low, ?replay, exec_replayEnd_replayed, exec_handoverRecoveryDone_held⟩
  case warmStart =>
    rintro s _ - - - rfl
    rfl
  case replay =>
    rintro damage s _ _ replays held high rfl rfl
    exact exec_journalReplay_held s damage replays held high
end

section
/-! SUPPORT. What a BAR0 write does while REPLAY is 1 and outside it, for every command that is one host write (R26, R325, R376). -/

namespace Sys2Proof.Machine

/-! ### Host writes in REPLAY and outside it -/

section
variable {s : State} (awake : hostDeaf s = false) (free : regLocked s = false)
include awake free

theorem hostWrite_replay (off : Nat) (v : Word) (f : State → State) (replays : replay s = true) :
    hostWrite s off v f = ignoredWrite s off := by
  simp only [hostWrite, awake, free, replays, Bool.false_eq_true, if_false, if_true]

/-- A command that is one host write is ignored and counted in REPLAY; `domainWrite` is a host write too. -/
theorem exec_hostWrite_replay {c : Instr} {off : Nat} {v : Word} {f : State → State} (replays : replay s = true)
    (write : exec c s = .next (hostWrite s off v f)) : exec c s = .next (ignoredWrite s off) := by
  rw [write, hostWrite_replay awake free off v f replays]

/-- A command that is one host write acts outside REPLAY. -/
theorem exec_hostWrite_acts {c : Instr} {off : Nat} {v : Word} {f : State → State} (running : replay s = false)
    (write : exec c s = .next (hostWrite s off v f)) : exec c s = .next (f s) := by
  rw [write, hostWrite_acts s off v f awake free running]

end

/-- A write of a listed register in REPLAY is ignored and counted, a read-only register's too (log entry 7, the model's choice). -/
theorem wordWrite_replay {s : State} {off : Nat} {r : RegRow} (v : Word) (awake : hostDeaf s = false)
    (replays : replay s = true) (below : off < 0x3FF0000) (listed : regRow? off = some r) : wordWrite s off v = ignoredWrite s off := by
  simp only [wordWrite, awake, Nat.not_le.mpr below, listed, replays, Bool.false_eq_true, if_false, if_true]

/-! ### Reads in REPLAY -/

/-- In REPLAY every word below the MSI-X table reads ones, GLB_STATUS apart; an unassigned or unaligned offset too (log entry 80, the
model's choice). -/
theorem readBar0_replay {s : State} {off : Nat} (replays : replay s = true) (below : off < 0x3FF0000) :
    readBar0 s off = if off = Reg.glbStatus then readReg s Reg.glbStatus else 0xFFFFFFFF := by
  by_cases status : off = Reg.glbStatus
  · subst status
    simp [readBar0, Nat.not_le.mpr below]
  · simp [readBar0, Nat.not_le.mpr below, replays, status]

/-- In REPLAY a read of TOD_NS, whether it arrives, waits or returns ones, leaves the time counter and its latches (R26, R290). -/
theorem exec_todNsRead_replay_tod {s t : State} (replays : replay s = true) (ran : exec .todNsRead s = .next t) : t.tod = s.tod := by
  change execTodNsRead s = .next t at ran
  simp only [execTodNsRead, replays, if_true, Host.Outcome.next.injEq] at ran
  subst ran
  split
  · rfl
  · split <;> rfl

end Sys2Proof.Machine
end

section
/-! SUPPORT. Writes and reads while REPLAY is 1 (R26, R325; log entries 7 and 80). -/

open Sys2Proof.Machine

/-- Settles O33: every command named is one host write, which REPLAY refuses; the reads are those of `readBar0` and of TOD_NS. -/
theorem writesDuringReplayAreIgnored : Obligations.WritesDuringReplayAreIgnored := by
  unfold Obligations.WritesDuringReplayAreIgnored
  refine ⟨?listed,
    fun s v awake free replays => exec_hostWrite_replay awake free replays rfl,
    fun s v awake free replays => exec_hostWrite_replay awake free replays rfl,
    fun s v awake free replays => exec_hostWrite_replay awake free replays rfl,
    fun s n v awake free replays => exec_hostWrite_replay awake free replays rfl,
    fun s n v awake free replays => exec_hostWrite_replay awake free replays rfl,
    fun s n v awake free replays => exec_hostWrite_replay awake free replays rfl,
    fun s v awake free replays => exec_hostWrite_replay awake free replays rfl,
    fun s k v awake free replays => exec_hostWrite_replay awake free replays rfl,
    fun s k v awake free replays => exec_hostWrite_replay awake free replays rfl,
    fun s n awake free replays => ⟨exec_hostWrite_replay awake free replays rfl, exec_hostWrite_replay awake free replays rfl⟩,
    fun s n v awake free replays => ⟨exec_hostWrite_replay awake free replays rfl, exec_hostWrite_replay awake free replays rfl⟩,
    fun s off replays below => readBar0_replay replays below,
    fun s t replays ran => exec_todNsRead_replay_tod replays ran⟩
  case listed =>
    intro s off r v awake free replays aligned below listed
    rw [exec_registerWrite_word s off v awake free aligned, wordWrite_replay _ awake replays below listed]
end

section
/-! SUPPORT. What the frame, superframe and TU multiframe boundaries do when they are due (R12, R123, R171; the order of their work is
log entry 52's). -/

namespace Sys2Proof.Machine

theorem exec_frameBoundary_running {s : State} (running : inReset s = false) : exec .frameBoundary s =
    .next (captureStart (framePeeks (refreshConds (frameLatch (frameApply (frameStart (frameSend
      (leaseFrame (testFrame (captureFrame s)))))))))) := by
  change execFrameBoundary s = _
  simp only [execFrameBoundary, running, Bool.false_eq_true, if_false]

theorem exec_superframeBoundary_due {s : State} (due : s.glb.sfDue = true) : exec .superframeBoundary s =
    .next (cemPeek (symPeek (probesSuperframe
      { s with glb := { s.glb with sfDue := false, sfc := (s.glb.sfc + 1) % 65536 } }))) := by
  change execSuperframeBoundary s = _
  simp only [execSuperframeBoundary, due, if_true]

/-- What a TU multiframe boundary brings into force: the merges' choices, the held delays, the changes and the selections (R173, R188). -/
def multiframeApply (s : State) : State :=
  applySelections (applyBoundary (guardsHold (mergesMultiframe { s with glb := { s.glb with mfDue := false } }) true) true) true

/-- The low-order elastic stores and outputs of a TU multiframe (R81, R93). -/
def multiframeSend (t : State) : State := multiframeOuts ((periodPaths t false).foldl storePeriod t)

theorem exec_tuMultiframeBoundary_due {s : State} (due : s.glb.mfDue = true) (noGather : gathersDue s = []) :
    exec .tuMultiframeBoundary s = .next (claimPages (mrgPeekAt (protPeek (mapPeek (refreshConds (dropLatencies (syncStorage
      (multiframeSend (multiframeApply s))))))) true)) := by
  change execTuMultiframeBoundary s = _
  simp only [execTuMultiframeBoundary, due, noGather, List.isEmpty_nil, Bool.and_self, if_true]
  rfl

end Sys2Proof.Machine
end

section
/-! SUPPORT. The frame grid (R12, R123, R171). -/

open Sys2Proof.Machine

/-- Settles O8: each boundary's clause is the lemma of its command. -/
theorem boundariesAdvanceTheFrameGrid : Obligations.BoundariesAdvanceTheFrameGrid := by
  unfold Obligations.BoundariesAdvanceTheFrameGrid
  refine ⟨fun s running => exec_frameBoundary_running running, fun s due => exec_superframeBoundary_due due, ?multiframe⟩
  case multiframe =>
    rintro s _ due noGather rfl
    exact ⟨_, _, rfl, rfl, exec_tuMultiframeBoundary_due due noGather⟩
end

section
/-! SUPPORT. Register writes of the timing block, and the heel of the frame-pulse outputs (R266, R270, R273, R281 to R285). -/

namespace Sys2Proof.Machine

/-! ### Register writes that are taken -/

section
variable {s : State} (awake : hostDeaf s = false) (free : regLocked s = false) (running : replay s = false)
include awake free running

/-- A TIM_REF_CFG word that is taken disqualifies the candidate exactly where EN, FREQ, KIND or ID changes (R266, R270). -/
theorem exec_timRefCfgWrite_taken {r : Fin 24} {v : Word} (good : refCfgBad s r v = false) :
    exec (.timRefCfgWrite r v) s = .next (showTim
      (if (v ^^^ rd s (Reg.timRefCfg r)) &&& 0xFFFF7F = 0 then wr s (Reg.timRefCfg r) (v &&& 0x1FFFFF7F)
      else loseRef (wr s (Reg.timRefCfg r) (v &&& 0x1FFFFF7F)) r)) := by
  rw [exec_hostWrite_acts awake free running (c := .timRefCfgWrite r v) rfl]
  simp only [good, Bool.false_eq_true, if_false]

/-- A TIM_DPLL_CTL word with another MODE, or another FORCE_REF in FORCED, is kept for the next decision (R272, R273). -/
theorem exec_dpllCtlWrite_mode {d : Fin 4} {v : Word} (good : dpllBad d 0 v = false)
    (new : fld (v ^^^ rd s (Reg.timDpllCtl d)) 1 0 ≠ 0 ∨ fld v 1 0 = 1 ∧ fld (v ^^^ rd s (Reg.timDpllCtl d)) 6 2 ≠ 0) :
    exec (.dpllCtlWrite d 0 v) s =
      .next (editDpll (wr s (Reg.timDpllCtl d) (v &&& 0x3FFFFF)) d (fun x => { x with modeNew := true })) := by
  rw [exec_hostWrite_acts awake free running (c := .dpllCtlWrite d 0 v) rfl]
  simp [good, dpllReg, new]

/-- Every other register of a DPLL takes the bits of its fields, and decides nothing (R275, R284). -/
theorem exec_dpllCtlWrite_setting {d : Fin 4} {reg : Fin 6} {v : Word} (good : dpllBad d reg v = false) (setting : reg ≠ 0) :
    exec (.dpllCtlWrite d reg v) s = .next (wr s (dpllReg d reg)
      (v &&& if reg = 1 then 0xFFFFF else if reg = 2 then 0x7FF else 0xFFFFFFFF)) := by
  rw [exec_hostWrite_acts awake free running (c := .dpllCtlWrite d reg v) rfl]
  simp only [good, Bool.false_eq_true, if_false]
  fin_cases reg
  · exact absurd rfl setting
  all_goals rfl

/-- A TIM_FPOUT_CTL word that is taken: EN 0 ends the move, EN newly 1 takes the first heel in one step, and another HEEL_SRC or REHEEL
moves the output to its new heel (R281, R282). -/
theorem exec_fpoutCtlWrite_taken {j : Fin 4} {v old : Word} {at_ : Int} {t : State} (good : fpBad s v = false)
    (hold : old = rd s (Reg.timFpoutCtl j)) (ht : t = wr s (Reg.timFpoutCtl j) ((old &&& 0xF00000) ||| (v &&& 0xFFFFF))) :
    exec (.fpoutCtlWrite j v at_) s = .next (
      if bit v 0 = false then bset t (Reg.timFpoutCtl j) 23 false
      else if bit old 0 = false then takeHeel t j (heelPoint t j at_) true
      else if bit v 20 = true ∨ fld (v ^^^ old) 9 5 ≠ 0 then takeHeel t j (heelPoint t j at_) false
      else t) := by
  rw [exec_hostWrite_acts awake free running (c := .fpoutCtlWrite j v at_) rfl, ht, hold]
  simp only [good, Bool.false_eq_true, if_false, Bool.not_eq_true', Bool.or_eq_true, bne_iff_ne]

/-- REHEEL of an enabled output takes the heel again and moves to it (R282). -/
theorem exec_fpoutReheel_enabled {j : Fin 4} {at_ : Int} (enabled : bget s (Reg.timFpoutCtl j) 0 = true) :
    exec (.fpoutReheel j at_) s = .next (takeHeel s j (heelPoint s j at_) false) := by
  rw [exec_hostWrite_acts awake free running (c := .fpoutReheel j at_) rfl]
  simp only [enabled, if_true]

end

/-! ### The heel of an output that runs on one -/

section
variable {s : State} {j : Fin 4} (runs : heelRuns s j = true)
include runs

/-- In ONCE a source pulse shows that the source is there, and moves nothing (R282). -/
theorem exec_heelSourcePulse_once {dev : Int} (once : bget (setHeelLost s j false) (Reg.timFpoutCtl j) 10 = false) :
    exec (.heelSourcePulse j dev) s = .next (setHeelLost s j false) := by
  change execHeelSourcePulse j dev s = _
  simp only [execHeelSourcePulse, runs, once, Bool.not_true, Bool.not_false, Bool.false_eq_true, if_false, if_true]

/-- In TRACK the third pulse in a row beyond 8 ns moves the heel by its deviation (R282). -/
theorem exec_heelSourcePulse_third {dev : Int} (track : bget (setHeelLost s j false) (Reg.timFpoutCtl j) 10 = true)
    (beyond : 8 < iabs dev) (third : 2 ≤ (fpSt (setHeelLost s j false) j).dev) :
    exec (.heelSourcePulse j dev) s = .next (takeHeel (setHeelLost s j false) j ((fpSt (setHeelLost s j false) j).heel + dev) false) := by
  change execHeelSourcePulse j dev s = _
  simp only [execHeelSourcePulse, runs, track, Nat.not_le.mpr beyond, Nat.not_lt.mpr third, Bool.not_true, Bool.false_eq_true,
    if_false]

theorem exec_heelLost_running :
    exec (.heelLost j) s = .next (setHeelLost (editFp s j (fun x => { x with dev := 0 })) j true) := by
  change execHeelLost j s = _
  simp only [execHeelLost, runs, if_true]

end

end Sys2Proof.Machine
end

section
/-! SUPPORT. Timing register writes and the heels of the frame-pulse outputs (R266, R270, R273, R281 to R285). -/

open Sys2Proof.Machine

/-- Settles O19: a clause for each command, from the lemma about it; FPOUT_MOVE_END has no condition of its own in `exec`. -/
theorem timingWritesAndHeelsTakeEffect : Obligations.TimingWritesAndHeelsTakeEffect := by
  unfold Obligations.TimingWritesAndHeelsTakeEffect
  refine ⟨?refCfg,
    fun d v s awake free running good new => exec_dpllCtlWrite_mode awake free running good new,
    fun d v s awake free running good => exec_dpllCtlWrite_setting awake free running (reg := 1) good (by decide),
    fun d v s awake free running good => exec_dpllCtlWrite_setting awake free running (reg := 2) good (by decide),
    ?priorities, ?fpout,
    fun j at_ s awake free running enabled => exec_fpoutReheel_enabled awake free running enabled,
    ?pulse, fun j s runs => exec_heelLost_running runs, fun _ _ => rfl⟩
  case refCfg =>
    rintro r v s _ awake free running good rfl
    have taken := exec_timRefCfgWrite_taken awake free running good
    exact ⟨fun same => by rw [taken, if_pos same], fun other => by rw [taken, if_neg other]⟩
  case priorities =>
    intro d v s awake free running
    exact ⟨exec_dpllCtlWrite_setting awake free running (reg := 3) rfl (by decide),
      exec_dpllCtlWrite_setting awake free running (reg := 4) rfl (by decide),
      exec_dpllCtlWrite_setting awake free running (reg := 5) rfl (by decide)⟩
  case fpout =>
    intro j v old at_ s t awake free running good hold ht
    have taken := exec_fpoutCtlWrite_taken awake free running (at_ := at_) good hold ht
    refine ⟨fun off => ?_, fun on wasOff => ?_, fun on wasOn moves => ?_⟩
    · rw [taken, if_pos off]
    · rw [taken, if_neg (by simp [on]), if_pos wasOff]
    · rw [taken, if_neg (by simp [on]), if_neg (by simp [wasOn]), if_pos moves]
  case pulse =>
    rintro j dev s _ runs rfl
    exact ⟨exec_heelSourcePulse_once runs, exec_heelSourcePulse_third runs⟩
end

section
/-! SUPPORT. Which lanes a quad and a group hold (R28). -/

namespace Sys2Proof.Machine

/-- Quad `q` is lanes 4q to 4q+3. -/
theorem quadFirst_eq_iff (n q : Nat) : quadFirst n = 4 * q ↔ 4 * q ≤ n ∧ n ≤ 4 * q + 3 := by
  unfold quadFirst
  omega

/-- A quad never straddles two groups: a group of eight lanes is two whole quads. -/
theorem laneGroup_eq_of_quadFirst_eq {n m : Nat} (sameQuad : quadFirst n = quadFirst m) : laneGroup n = laneGroup m := by
  unfold quadFirst at sameQuad
  unfold laneGroup
  omega

end Sys2Proof.Machine
end

section
/-! SUPPORT. The place of a lane among groups and quads (R28). -/

open Sys2Proof.Machine

/-- Settles O32: the numbers by the two lemmas on quads; the group's number and its sensor are the model's definitions. -/
theorem lanesLieInGroupsAndQuads : Obligations.LanesLieInGroupsAndQuads := by
  unfold Obligations.LanesLieInGroupsAndQuads
  exact ⟨fun n => ⟨rfl, Nat.mul_comm _ 4⟩, fun n q => quadFirst_eq_iff n q, fun _ _ => laneGroup_eq_of_quadFirst_eq, fun _ _ => rfl⟩
end

section
/-! SUPPORT. What a command does whose condition holds, for the commands of a lane that ask one condition and are else without effect, and
what a write to a register of a lane does while its group is powered in ACTIVE (R410). -/

namespace Sys2Proof.Machine

/-- A command that asks one condition does its work where that holds. -/
theorem exec_ite_pos {c : Instr} {s t u : State} {p : Prop} [Decidable p] (holds : p)
    (asks : exec c s = .next (if p then t else u)) : exec c s = .next t := by
  rw [asks, if_pos holds]

theorem exec_ite_neg {c : Instr} {s t u : State} {p : Prop} [Decidable p] (fails : ¬p)
    (asks : exec c s = .next (if p then t else u)) : exec c s = .next u := by
  rw [asks, if_neg fails]

/-- A command that is one write to a power domain acts while the domain is ready for it (R410). -/
theorem exec_domainWrite_acts {c : Instr} {s : State} {dom off : Nat} {v : Word} {f : State → State} (ready : hostReady s dom)
    (write : exec c s = .next (domainWrite s dom off v f)) : exec c s = .next (f s) := by
  rw [write, domainWrite_acts s dom off v f ready]

end Sys2Proof.Machine
end

section
/-! SUPPORT. LANE_CTL, LANE_PRBS and LANE_EYE_CTL writes that are taken (R29 to R31, R34, R43, R46, R47, R168). -/

namespace Sys2Proof.Machine

/-! ### LANE_CTL -/

/-- A LANE_CTL word that no rule refuses is accepted. -/
theorem applyCtl_admitted {s : State} {n : Nat} {v : Word} (admitted : ctlAdmitted s n v) (noGather : quadTakes s n v = false) :
    applyCtl s n v = acceptCtl s n v := by
  obtain ⟨good, notMember, quadOk, settingOk, guardOk, noBlock⟩ := admitted
  simp only [applyCtl, good, notMember, quadOk, settingOk, guardOk, noBlock, noGather, Bool.or_self, Bool.false_eq_true, if_false]

/-- With no calibration in its way a LANE_CTL write is checked at once, -/
theorem ctlWrite_idle {s : State} {n : Nat} {v : Word} (idle : ctlBusy s n v = false) : ctlWrite s n v = applyCtl s n v := by
  simp only [ctlWrite, idle, Bool.false_eq_true, false_and, if_false]

/-- and one that changes EN, MODE or FEC while a calibration runs is held whole (R43). -/
theorem ctlWrite_busy {s : State} {n : Nat} {v : Word} (busy : ctlBusy s n v = true)
    (changes : (laneCtl s n ^^^ v) &&& 0x41F ≠ 0) :
    ctlWrite s n v = editLane s n (fun l => { l with heldCtl := some (v &&& 0xFFF) }) :=
  if_pos ⟨busy, changes⟩

/-- The held write is checked as any other, once the calibration has ended (R43). -/
theorem exec_laneCtlHeldRelease_idle {s : State} {lane : LaneId} {v : Word} (held : (laneSt s lane).heldCtl = some v)
    (idle : ctlBusy s lane v = false) : exec (.laneCtlHeldRelease lane) s =
      .next (applyCtl (editLane s lane (fun l => { l with heldCtl := none })) lane v) := by
  change execLaneCtlHeldRelease lane s = _
  simp only [execLaneCtlHeldRelease, held, idle, Bool.false_eq_true, if_false]

/-! ### LANE_PRBS and LANE_EYE_CTL -/

/-- No mode below SERVICE has the live guard (R34). -/
theorem guarded_of_mode_lt_two {s : State} (low : mode s < 2) : guarded s = false := by
  simp only [guarded, Bool.or_eq_false_iff, beq_eq_false_iff_ne]
  omega

/-- A good LANE_PRBS word on a lane that is not live, in BRINGUP or TEST, with the checker off, the generator on and ERR_INJ: the
checker begins anew, the generator goes on where it ran with the same pattern, and one error waits to be sent (R46, R48). -/
theorem prbsWrite_errInj {s : State} {n : Nat} {v : Word} (unguarded : mode s < 2) (idle : laneLive s n = false)
    (genGood : fld v 2 0 ≠ 7) (chkGood : fld v 5 3 ≠ 7) (chkOff : bit v 7 = false) (genRuns : bit v 6 = true) (inject : bit v 9 = true) :
    prbsWrite s n v = editLane (wr s (Reg.lanePrbs n) (setBit (v &&& 0xFF) 8 false)) n (fun l => { l with
      chk := {}
      gen := if bget s (Reg.lanePrbs n) 6 && fget s (Reg.lanePrbs n) 2 0 == fld v 2 0 then l.gen else {}
      errInj := true }) := by
  simp only [prbsWrite, guarded_of_mode_lt_two unguarded, idle, genGood, chkGood, chkOff, genRuns, inject, Bool.false_and,
    Bool.and_false, Bool.or_true, Bool.and_true, Bool.false_eq_true, or_self, and_false, if_false]
  rfl

/-- START with a good phase on a lane in UP that is not oversampled clears the last result and runs the scan, paused while a re-trim
runs (R42, R47). -/
theorem eyeWrite_start {s t : State} {n : Nat} {v : Word} (idle : (laneSt s n).eyeRun = false) (start : bit v 31 = true)
    (low : 10 ≤ fld v 19 14) (high : fld v 19 14 ≤ 40) (ht : t = wr s (Reg.laneEyeCtl n) (v &&& 0xFFFFF))
    (fullRate : oversampled (laneMode t n) = false) (up : laneState t n = 4) :
    eyeWrite s n v = editLane (wr t (Reg.laneEyeRes n) (setFld (rd t (Reg.laneEyeRes n)) 2 0 0)) n
      (fun l => { l with eyeRun := true, eyePaused := retrimBusy t n }) := by
  subst ht
  simp only [eyeWrite, idle, start, Nat.not_lt.mpr low, Nat.not_lt.mpr high, fullRate, up, Bool.false_eq_true, or_self, and_false,
    ne_eq, not_true, Bool.not_true, if_false]

end Sys2Proof.Machine
end

section
/-! SUPPORT. Lane register writes and lane tests (R34, R43, R46, R47, R410). -/

open Sys2Proof.Machine

/-- Settles O2: a write is one write to the lane's group, and takes effect by the lemma of its register; a test's result is shown under its
one condition. -/
theorem laneWritesTakeEffect : Obligations.LaneWritesTakeEffect := by
  unfold Obligations.LaneWritesTakeEffect
  refine ⟨?ctl, ?ctlHeld, ?release, ?errInj, ?eyeStart, ?prbs,
    fun lane errs s runs goesOn => exec_ite_pos ⟨runs, by simp [goesOn]⟩ rfl,
    fun lane height width s enabled => exec_ite_pos enabled rfl⟩
  case ctl =>
    intro lane v s ready idle admitted noGather
    rw [exec_domainWrite_acts ready (c := .laneCtlWrite lane v) rfl, ctlWrite_idle idle, applyCtl_admitted admitted noGather]
  case ctlHeld =>
    intro lane v s ready busy changes
    rw [exec_domainWrite_acts ready (c := .laneCtlWrite lane v) rfl, ctlWrite_busy busy changes]
  case release =>
    rintro lane v s _ held idle rfl admitted noGather
    rw [exec_laneCtlHeldRelease_idle held idle, applyCtl_admitted admitted noGather]
  case errInj =>
    intro lane v s ready unguarded idle genGood chkGood chkOff genRuns inject
    rw [exec_domainWrite_acts ready (c := .prbsErrInj lane v) rfl,
      prbsWrite_errInj unguarded idle genGood chkGood chkOff genRuns inject]
  case eyeStart =>
    intro lane v s ready idle start low high fullRate up
    rw [exec_domainWrite_acts ready (c := .eyeScanStart lane v) rfl, eyeWrite_start idle start low high rfl fullRate up]
  case prbs =>
    rintro lane balls s _ checks rfl
    exact exec_ite_neg (by simpa [bget] using checks) rfl
end

section
/-! SUPPORT. How a full calibration ends and begins, and which LANE_CAL descriptors begin their work (R36, R37, R42). -/

namespace Sys2Proof.Machine

/-! ### LANE_CAL_END and LANE_PLL_LOCKED -/

/-- CAL_BUSY and TRIM_COUNT are cleared, SIG shows `sig` (log entry 88, the model's choice), and the re-trims that only the temperature asked
for are forgotten (R39, R42, R48). -/
def calCleared (s : State) (lane : LaneId) (sig : Bool) : State :=
  editGroup (fset (setLaneBit (setLaneBit s lane 7 false) lane 3 sig) (Reg.laneStatus lane) 23 16 0) (laneGroup lane)
    (fun x => { x with retrimWait := x.retrimWait.filter (fun p => p.1 != lane.val || p.2.isSome) })

/-- The lane leaves CAL for ACQ with its new values, or for CAL_FAIL with an idle transmitter and the step that failed (R36, R37, R49). -/
def calLeaves (s : State) (lane : LaneId) (fail : Option (Fin 5)) (eq us : Word) : State := match fail with
  | none => laneEvent (editLane (setLaneState (setEq (fset s (Reg.laneStatus lane) 31 24 (laneTemp s lane)) lane eq) lane 3) lane
      (fun l => { l with calRun := none, txIdle := false })) lane 1 us
  | some i => laneEvent (editLane (setLaneState s lane 5) lane (fun l => { l with calRun := none, txIdle := true })) lane 2 (w32 i.val)

/-- The LANE_CAL descriptor `d` that asked for the calibration completes (R42). -/
def calAnswers (s : State) (lane : LaneId) (us : Word) (d : Option Nat) : State := match d with
  | some d => completeOk s d (calResult s lane) us
  | none => s

/-- A calibration that runs ends in these steps, and a re-trim waiting in the group is served unless one runs (R36, R39, R42). -/
theorem exec_laneCalEnd_busy {s v : State} {lane : LaneId} {fail : Option (Fin 5)} {eq us : Word} {sig : Bool}
    (busy : calBusy s lane = true)
    (hv : v = calAnswers (calLeaves (calCleared s lane sig) lane fail eq us) lane us (laneSt s lane).calRun) :
    exec (.laneCalEnd lane fail eq us sig) s =
      .next (if (groupSt v (laneGroup lane)).retrimRun.isNone then serveRetrim v (laneGroup lane) else v) := by
  subst hv
  cases fail <;> exact exec_ite_pos busy rfl

end Sys2Proof.Machine
end

section
/-! SUPPORT. The start-up of a lane and the loss of a group's PLL (R36, R41, R43, R48, R49). -/

open Sys2Proof.Machine

/-- Settles O3: each command asks one condition, which its clause gives; the end of a calibration goes by its own lemma. SIG with CDR_LOCK is
log entry 88's, the model's choice. -/
theorem laneStartUpFollowsItsStates : Obligations.LaneStartUpFollowsItsStates := by
  unfold Obligations.LaneStartUpFollowsItsStates
  refine ⟨?pllLocked, ?calOk, ?calFail,
    fun lane s acq => exec_ite_pos acq rfl,
    fun lane sig s up => exec_ite_pos up rfl,
    fun lane eq s up => exec_ite_pos up rfl,
    ?pllUnlock,
    fun g eth s lost => exec_ite_pos lost rfl,
    ?pllRelock⟩
  case pllLocked =>
    rintro lane s _ waits enabled notLost fresh rfl
    exact exec_ite_pos ⟨waits, enabled, by simp [notLost], by simp [fresh]⟩ rfl
  case calOk =>
    rintro lane eq us sig s _ _ _ busy rfl rfl hv
    exact exec_laneCalEnd_busy busy hv
  case calFail =>
    rintro lane i eq us sig s _ _ _ busy rfl rfl hv
    exact exec_laneCalEnd_busy busy hv
  case pllUnlock =>
    rintro g eth s _ locked rfl
    exact exec_ite_pos locked rfl
  case pllRelock =>
    rintro g eth s _ lost rfl
    exact exec_ite_pos lost rfl
end

section
/-! SUPPORT. When a re-trim begins, and when a LANE_CAL descriptor begins its work (R39, R42). -/

namespace Sys2Proof.Machine

/-- A re-trim that is due begins at once where none runs in the group and the lane is not in calibration (R39). -/
theorem dueRetrim_free {s : State} {n : Nat} {d : Option Nat} (groupFree : (groupSt s (laneGroup n)).retrimRun = none)
    (idle : calBusy s n = false) : dueRetrim s n d = startRetrim s n d := by
  simp only [dueRetrim, groupFree, idle, Bool.false_eq_true, false_and, Option.isNone_none, Bool.not_false, and_self, if_false, if_true]

/-- A descriptor that may be taken, on an enabled lane that need not be waited for, begins the work of its kind (R42). -/
theorem takeCal_runs {s : State} {id kind : Nat} {x : Desc} {run : State → Desc → Nat → State}
    (taken : takeDesc s id 0x22 = some x) (isKind : calKind x = kind) (known : kind ≠ 3) (enabled : laneEn s (calLane x) = true)
    (ready : calWaits s (calLane x) = false) : takeCal s id kind run = run s x (calLane x) := by
  simp only [takeCal, taken, isKind, known, enabled, ready, ne_eq, not_true, Bool.not_true, Bool.false_eq_true, if_false]

end Sys2Proof.Machine
end

section
/-! SUPPORT. The monitors of a lane and the LANE_CAL descriptors (R38 to R40, R42). -/

open Sys2Proof.Machine

/-- Settles O4: a monitor reports under its one condition, a LANE_CAL descriptor begins by `takeCal_runs`. Where the temperature is compared is
log entry 82's, and that only SIG shows where no offset is measured log entry 88's, the model's choices. -/
theorem laneMonitorsReportWhatTheyMeasure : Obligations.LaneMonitorsReportWhatTheyMeasure := by
  unfold Obligations.LaneMonitorsReportWhatTheyMeasure
  refine ⟨?limit, ?temp, fun lane us s runs => exec_ite_pos runs rfl, ?boostEnd, ?offset,
    fun lane ofs sig s notOff notUp => exec_ite_pos ⟨notOff, notUp⟩ rfl,
    fun lane s alarm small => exec_ite_pos ⟨alarm, small⟩ rfl,
    ?full, ?adapt, ?retrim⟩
  case limit =>
    rintro lane value eq s _ up rfl atEnd unreported fullRate
    rw [exec_ite_pos (c := .adaptLimit lane value eq) up rfl,
      if_pos ⟨atEnd, by simp only [unreported, Bool.not_false], .inr (by simp [fullRate])⟩]
  case temp =>
    intro lane s measured apart groupFree idle
    rw [exec_ite_pos (c := .laneTempCheck lane) ⟨measured, apart⟩ rfl, dueRetrim_free groupFree idle]
  case boostEnd =>
    intro lane us d s boosted
    change execAdaptBoostEnd lane us s = _
    simp only [execAdaptBoostEnd, boosted]
  case offset =>
    rintro lane ofs sig s _ offOrUp locked rfl
    rw [exec_ite_neg (c := .laneFofsMeasure lane ofs sig) (by omega) rfl, if_pos locked]
  case full =>
    intro d x s taken isFull enabled ready low
    change execLaneCalFull d s = _
    rw [execLaneCalFull, takeCal_runs taken isFull (by decide) enabled ready, guarded_of_mode_lt_two low]
    rfl
  case adapt =>
    intro d x s taken isAdapt enabled ready noBoost
    change execLaneCalAdapt d s = _
    rw [execLaneCalAdapt, takeCal_runs taken isAdapt (by decide) enabled ready, noBoost]
    rfl
  case retrim =>
    intro d x s taken isRetrim enabled ready
    change execLaneCalRetrim d s = _
    rw [execLaneCalRetrim, takeCal_runs taken isRetrim (by decide) enabled ready]
end

section
/-! SUPPORT. What LANE_FRM_CTL writes, received trace messages and declared line defects do under the conditions of their rules (R34, R54 to
R59, R71). -/

namespace Sys2Proof.Machine

/-! ### LANE_FRM_CTL -/

/-- The framer after an accepted LANE_FRM_CTL word `v` over `old`: a detector whose exponent changes begins its window anew, and the
injections of the word arm (R58, R71). -/
def frmTakes (old v : Word) (f : FrmSt) : FrmSt := { f with
  excSteps := if fld old 7 6 = fld v 7 6 then f.excSteps else []
  excAcc := if fld old 7 6 = fld v 7 6 then f.excAcc else 0
  degSteps := if fld old 10 8 = fld v 10 8 then f.degSteps else []
  degAcc := if fld old 10 8 = fld v 10 8 then f.degAcc else 0
  b1Inv := f.b1Inv || bit v 15
  b2Inv := f.b2Inv || bit v 16 }

/-- A word with a reserved exponent is ignored (R71). -/
theorem frmWrite_reserved {s : State} {n : Nat} {v : Word} (reserved : fld v 7 6 = 3 ∨ 5 ≤ fld v 10 8) :
    frmWrite s n v = ignoredWrite s (Reg.laneFrmCtl n) :=
  if_pos reserved

/-- On a lane that is not live no change is guarded, and with a J0_MODE other than 0 RS-TIM is kept: the word is taken as it stands
(R34, R59, R71). -/
theorem frmWrite_accepted {s t : State} {n : Nat} {v : Word} (excGood : fld v 7 6 ≠ 3) (degGood : fld v 10 8 < 5)
    (idle : laneLive s n = false) (traced : fld v 3 2 ≠ 0)
    (ht : t = editFrm (wr s (Reg.laneFrmCtl n) (v &&& 0x7FFF)) n (frmTakes (frmCtl s n) v)) :
    frmWrite s n v = refreshConds (refreshLanePaths (noteSecond (showFrm t n) n) n) := by
  simp only [frmWrite, excGood, Nat.not_le.mpr degGood, idle, traced, Bool.and_false, Bool.false_eq_true, or_self, if_false]
  rw [ht]
  rfl

/-! ### Line defects and trace messages -/

/-- A detector whose persistence is met changes; LOS and LOF take the data channels' frames with them (R54 to R57, R66). -/
theorem exec_lineDefectChange_due {s t : State} {lane : LaneId} {x : LineDefect} {b : Bool} (on : sdhOn s lane = true)
    (changes : (frm s lane).det.has x ≠ b) (due : defectDue s lane x b = true)
    (ht : t = editFrm s lane (fun f => if x = .ais then { f with aisRun := 0 } else if x = .rdi then { f with rdiRun := 0 }
      else if x = .los ∨ x = .lof then { f with k1Run := 0, k1Win := 0, m1Tx := 0 } else f)) :
    exec (.lineDefectChange lane x b) s = .next
      (if b = true ∧ (x = .los ∨ x = .lof) then setDefects (dccLost t lane) lane ((frm (dccLost t lane) lane).det.put x b)
      else setDefects t lane ((frm t lane).det.put x b)) := by
  subst ht
  rw [exec_ite_pos (c := .lineDefectChange lane x b) (by simp [on, changes, due]) rfl]
  cases x <;> cases b <;> rfl

/-- A valid message other than the last one begins a new run of messages (R59). -/
theorem exec_j0MessageRx_new {s t : State} {lane : LaneId} {msg : List Byte} {l : List (List Byte)}
    (found : (frm s lane).j0Due = msg :: l) (valid : traceValid (frm s lane).j0Mode msg = true)
    (ht : t = editFrm s lane (fun f => { f with j0Due := l })) (new : (frm t lane).j0Last ≠ msg) :
    exec (.j0MessageRx lane) s = .next (editFrm t lane (fun f => { f with j0Run := 1, j0Last := msg })) := by
  subst ht
  change execJ0MessageRx lane s = _
  simp only [execJ0MessageRx, found, valid, new, Nat.one_lt_ofNat, Bool.not_true, Bool.false_eq_true, if_true, if_false]

end Sys2Proof.Machine
end

section
/-! SUPPORT. Regenerator and multiplex sections (R50 to R61, R70, R71). -/

open Sys2Proof.Machine

/-- Settles O5: a LANE_FRM_CTL write and its two injections are one write to the lane's group, taken by `frmWrite_accepted`; the other
commands ask one condition, which their clauses give, and PM_SECOND_CLASSIFY asks none. -/
theorem regeneratorSectionsFollowTheirFrames : Obligations.RegeneratorSectionsFollowTheirFrames := by
  unfold Obligations.RegeneratorSectionsFollowTheirFrames
  refine ⟨?reserved, ?accepted, ?search, ?inFrame,
    fun lane x b s t on changes due ht => exec_lineDefectChange_due on changes due ht, ?degStep, ?excStep,
    fun lane msg l s t found valid ht new => exec_j0MessageRx_new found valid ht new,
    fun _ _ => rfl, fun _ _ => rfl, fun _ _ => rfl⟩
  case reserved =>
    intro lane v s ready reserved
    rw [exec_domainWrite_acts ready (c := .laneFrmCtlWrite lane v) rfl, frmWrite_reserved reserved]
  case accepted =>
    intro lane v w s t ready excGood degGood idle traced ht
    have taken := frmWrite_accepted excGood degGood idle traced ht
    refine ⟨?write, ?b1, ?b2⟩
    case write => rw [exec_domainWrite_acts ready (c := .laneFrmCtlWrite lane w) rfl, taken]
    case b1 =>
      rintro rfl
      rw [exec_domainWrite_acts ready (c := .b1Inj lane v) rfl, taken]
    case b2 =>
      rintro rfl
      rw [exec_domainWrite_acts ready (c := .b2Inj lane v) rfl, taken]
  case search =>
    intro lane k s on up searching ownGood
    have seen : (loopOf s lane != 1 || framePatternOk (laneSt s lane).serOut (laneN s lane)) = true := by
      by_cases own : loopOf s lane = 1
      · rw [ownGood own, Bool.or_true]
      · rw [bne_iff_ne.mpr own, Bool.true_or]
    exact exec_ite_pos (by simp only [on, up, searching, seen, beq_self_eq_true, Bool.and_self]) rfl
  case inFrame =>
    intro lane k balls s on up whole framed near
    rw [exec_ite_pos (c := .laneFrameRx lane k balls)
      (by simp only [on, up, whole, beq_self_eq_true, Bool.and_self]) rfl]
    simp only [near, framed, Bool.false_eq_true, false_and, if_false]
  case degStep =>
    rintro lane s _ on rfl
    exact exec_ite_pos on rfl
  case excStep =>
    rintro lane s _ on rfl
    exact exec_ite_pos on rfl
end

section
/-! SUPPORT. The registers of the overhead processor, its receive buffers and the frames of its data channels, under the conditions of their
rules (R63 to R68, R72). -/

namespace Sys2Proof.Machine

/-! ### Register writes that are taken -/

section
variable {s : State} (ready : hostReady s 17)
include ready

/-- A disabled channel takes any word that conflicts with no other channel (R63). -/
theorem exec_dccCtlWrite_taken {c : Fin 256} {v : Word} (disabled : bget s (Reg.ohpDccCtl c) 0 = false)
    (apart : dccConflict s c v = false) :
    exec (.dccCtlWrite c v) s = .next (wr s (Reg.ohpDccCtl c) (v &&& 0x7FFFFFFF)) := by
  have off : bit (rd s (Reg.ohpDccCtl c)) 0 = false := disabled
  rw [exec_domainWrite_acts ready (c := .dccCtlWrite c v) rfl]
  simp only [off, apart, Bool.false_and, Bool.false_eq_true, if_false]

/-- A disabled port takes any RATE that exists (R72). -/
theorem exec_ospCtlWrite_taken {p : Fin 8} {v : Word} (good : fld v 2 1 ≠ 3) (disabled : bget s (Reg.ohpOspCtl p) 0 = false) :
    exec (.ospCtlWrite p v) s = .next (wr s (Reg.ohpOspCtl p) (v &&& 7)) := by
  rw [exec_domainWrite_acts ready (c := .ospCtlWrite p v) rfl, if_neg (by simp [good, disabled])]

/-- A triple that is not enabled conflicts with none (R64, R72). -/
theorem exec_ospOwWrite_disabled {i : Fin 96} {v : Word} (disabled : bit v 7 = false) :
    exec (.ospOwWrite i v) s = .next (wr s (Reg.ohpOspOw i) (v &&& 0xFF)) := by
  rw [exec_domainWrite_acts ready (c := .ospOwWrite i v) rfl, if_neg (by simp [disabled])]

end

/-! ### Received frames -/

/-- A receive buffer that may be posted waits behind those posted before it on the channel of its ring (R68). -/
theorem exec_dccRxBuf_posted {d c : Nat} {x : Desc} {s : State} (inFlight : desc? s d = some x) (isBuf : x.op = 0x29)
    (free : mayPost s x = true) (inRange : rangeBad s x = false) (ofRing : dccRing s x.ring = some c) :
    exec (.dccRxBuf d) s = .next
      (editDcc (editDesc s d (fun x => { x with st := 1, bound := some (0x29, c) })) c (fun q => { q with rxb := q.rxb ++ [d] })) := by
  change execDccRxBuf d s = _
  simp only [execDccRxBuf, inFlight, isBuf, free, inRange, ofRing, and_self, Bool.false_eq_true, if_true, if_false]

section
variable {s : State} {c : Fin 256} {f : HdlcRx} {r : List HdlcRx} {io : HostIO} (oldest : (dcc s c).rxDone = f :: r)
include oldest

/-- A bad frame is counted and goes nowhere (R66). -/
theorem exec_dccFrameRx_bad (bad : hdlcBad (dcc s c).ctl f = true) : exec (.dccFrameRx c io) s =
    .next (count (editDcc s c (fun q => { q with rxDone := r })) (Reg.ohpDccRxBad c) 1) := by
  change execDccFrameRx c io s = _
  simp only [execDccFrameRx, oldest, bad, if_true]

/-- A good frame without its FCS is written to the oldest buffer, where that is long enough and nothing keeps the host's memory from being
written (R66, R68). -/
theorem exec_dccFrameRx_delivered {t : State} {x : Desc} {l : List Desc} {body : List Byte} (good : hdlcBad (dcc s c).ctl f = false)
    (hbody : body = f.bytes.take (f.bytes.length - fcsLen (dcc s c).ctl))
    (ht : t = editDcc s c (fun q => { q with rxDone := r })) (first : (dcc t c).rxb.filterMap (desc? t) = x :: l)
    (running : replay t = false) (held : t.mtx.held = true) (master : t.rng.bme = true) (thawed : x.frozen = false)
    (fits : body.length ≤ x.len) :
    exec (.dccFrameRx c io) s = .next (deliver (editDcc (setDesc t x.id 2) c (fun q => { q with rxb := setDel q.rxb x.id })) io x
      body (w32 body.length) (w32 c)) := by
  subst ht hbody
  change execDccFrameRx c io s = _
  simp only [execDccFrameRx, oldest, good, first, running, held, master, thawed, Nat.not_lt.mpr fits, Bool.not_true, Bool.or_self,
    decide_false, Bool.false_eq_true, if_false]

end

/-! ### Transmitted frames -/

/-- A frame of 1 to 1600 bytes for an enabled host-mode channel of an enabled lane joins the channel's queue while that holds fewer than
eight (R67). -/
theorem exec_dccTx_queued {d c : Nat} {io : HostIO} {x : Desc} {s t : State} (taken : takeInput s d 0x28 = some (t, x))
    (inRange : rangeBad s x = false) (hc : c = fld (x.w 6) 7 0) (enabled : bit (dcc s c).ctl 0 = true)
    (hostMode : bit (dcc s c).ctl 9 = true) (laneOn : laneEn s (dccLane (dcc s c).ctl) = true) (nonempty : x.len ≠ 0)
    (short : x.len ≤ 1600) (room : (dcc s c).txq.length < 8) :
    exec (.dccTx d io) s = .next (withInput t io x x.len (fun s b =>
      editDcc (editDesc s d (fun y => { y with st := 1, bound := some (0x28, c) })) c
        (fun q => { q with txq := q.txq ++ [(d, b)] }))) := by
  subst hc
  change execDccTx d io s = _
  simp only [execDccTx, taken, inRange, enabled, hostMode, laneOn, beq_eq_false_iff_ne.mpr nonempty, Nat.not_lt.mpr short,
    Nat.not_le.mpr room, Bool.not_true, Bool.or_self, decide_false, Bool.false_eq_true, if_false]

/-- The frame whose closing flag has been sent completes with its bytes and FCS (R66, R67). -/
theorem exec_dccTxSent_closed {c : Fin 256} {d : Nat} {b : List Byte} {r : List (Nat × List Byte)} {s : State}
    (first : (dcc s c).txq = (d, b) :: r) (opened : (dcc s c).opened = true) (closed : (dcc s c).txLeft = 0) :
    exec (.dccTxSent c) s = .next (completeOk (editDcc s c (fun q => { q with txq := r, opened := false })) d
      (w32 (b.length + fcsLen (dcc s c).ctl)) 0) := by
  change execDccTxSent c s = _
  simp only [execDccTxSent, first, opened, closed, beq_self_eq_true, Bool.and_self, if_true]

/-- An enabled port sends its fields and triples and takes the input's, read as zeros beyond its end (R64, R65). -/
theorem exec_ospFrame_enabled {p : Fin 8} {di x : List Byte} {w : Word} {n k : Nat} {s t : State} (inForce : w = Tab.get s.ohp.osp p 0)
    (enabled : bit w 0 = true) (hn : n = ospFields (fld w 2 1)) (hk : k = ospTriples (fld w 2 1))
    (hx : x = di ++ List.replicate (9 * n + 3 * k - di.length) 0)
    (ht : t = wire { s with glb := { s.glb with free := s.glb.free + 324 } } "osp" p
      ((List.range n).flatMap (fieldOut s p) ++ (List.range k).flatMap (tripleOut s p))) :
    exec (.ospFrame p di) s = .next ((List.range k).foldl (fun s j => tripleIn s p n j x)
      ((List.range n).foldl (fun s f => fieldIn s p f x) t)) := by
  subst inForce hn hk hx ht
  change execOspFrame p di s = _
  simp only [execOspFrame, enabled, if_true]

end Sys2Proof.Machine
end

section
/-! SUPPORT. Data channels, overhead serial ports and order wires (R63 to R68, R72). -/

open Sys2Proof.Machine

/-- Settles O6: a clause for each command, from the lemma about it. -/
theorem dataChannelsAndSerialPortsCarryTheirFrames : Obligations.DataChannelsAndSerialPortsCarryTheirFrames := by
  unfold Obligations.DataChannelsAndSerialPortsCarryTheirFrames
  exact ⟨fun c v s ready disabled apart => exec_dccCtlWrite_taken ready disabled apart,
    fun p v s ready good disabled => exec_ospCtlWrite_taken ready good disabled,
    fun i v s ready disabled => exec_ospOwWrite_disabled ready disabled,
    fun d c x s inFlight isBuf free inRange ofRing => exec_dccRxBuf_posted inFlight isBuf free inRange ofRing,
    fun c f r io s oldest bad => exec_dccFrameRx_bad oldest bad,
    fun c f r io x l s t oldest good ht first running held master thawed fits =>
      exec_dccFrameRx_delivered oldest good rfl ht first running held master thawed fits,
    fun d c io x s t taken inRange hc enabled hostMode laneOn nonempty short room =>
      exec_dccTx_queued taken inRange hc enabled hostMode laneOn nonempty short room,
    fun c d b r s first opened closed => exec_dccTxSent_closed first opened closed,
    fun p di x w n k s t inForce enabled hn hk hx ht => exec_ospFrame_enabled inForce enabled hn hk hx ht⟩
end

section
/-! SUPPORT. Pointers, multiframes, desynchronizers, marker channels and PATH_CFG under the conditions of their rules (R73 to R96, R123). -/

namespace Sys2Proof.Machine

/-! ### Pointers -/

/-- The pointer of a high-order path that runs: all ones while its lane has AU-AIS downstream (R56, R57, R77). -/
theorem exec_pointerRx_highOrder {a : Word} {m : Nat} {b0 b1 : Byte} {b : List Byte} {s : State} (runs : pathRx s a = true)
    (member : m < memberCount s a) (high : saTier a = 0) (hb : b = pathTaken s a (ownHead s a m) [b0, b1]) :
    exec (.pointerRx a m b0 b1) s = .next
      (if (frm s (saLane a)).auAis then pointerStep s a m 0xFF 0xFF else pointerStep s a m (b.getD 0 0) (b.getD 1 0)) := by
  subst hb
  change execPointerRx a m b0 b1 s = _
  simp only [execPointerRx, runs, Nat.not_le.mpr member, high, Bool.not_true, Bool.or_self, decide_false, Bool.false_eq_true, if_false,
    if_true]

/-- The pointer of a TU is read while its high-order path is in NORM and not in LOM (R77, R82). -/
theorem exec_pointerRx_lowOrder {a : Word} {m : Nat} {b0 b1 : Byte} {b : List Byte} {s : State} (runs : pathRx s a = true)
    (member : m < memberCount s a) (low : saTier a ≠ 0) (norm : hoNorm s (hoOf s a) = true) (inFrame : (path s (hoOf s a)).lom = false)
    (hb : b = pathTaken s a (ownHead s a m) [b0, b1]) :
    exec (.pointerRx a m b0 b1) s = .next (pointerStep s a m (b.getD 0 0) (b.getD 1 0)) := by
  subst hb
  change execPointerRx a m b0 b1 s = _
  simp only [execPointerRx, runs, Nat.not_le.mpr member, low, norm, inFrame, Bool.not_true, Bool.not_false, Bool.or_self, Bool.and_self,
    decide_false, Bool.false_eq_true, if_false, if_true]

/-! ### TU multiframes -/

/-- The path after one H4 value: its multiframe alignment, and LOM after 8 frames out of it or in it (R82). -/
def lomStep (h4 : Byte) (p : PathSt) : PathSt := { h4Step p (h4.toNat % 4) with
  lom := if (h4Step p (h4.toNat % 4)).oomRun = 8 then true
    else if (h4Step p (h4.toNat % 4)).mfRun = 8 then false else (h4Step p (h4.toNat % 4)).lom }

section
variable {a : Word} {v h4 : Byte} {s t : State} (runs : pathRx s a = true) (high : saTier a = 0) (structured : (tusOf s a).isEmpty = false)
include runs high structured

/-- Out of multiframe alignment the overhead of the TUs is not read; a change of LOM reaches the TUs and the defects (R82, R86). -/
theorem exec_lomChange_norm (norm : hoNorm s a = true)
    (hh4 : h4 = (pathTaken s a [(ownOut s a).sent.getD (5 * (contBytes s a / 9)) 0] [v]).getD 0 0)
    (ht : t = editPath s a (lomStep h4)) {u : State}
    (hu : u = if (path t a).inMf then t else (tusOf t a).foldl (fun s c => editPath s c PathSt.unread) t) :
    exec (.lomChange a v) s = .next
      (if (path u a).lom = (path s a).lom then u else followPath (if (path u a).lom then tusAis u a else u) a) := by
  subst hh4 ht hu
  change execLomChange a v s = _
  simp only [execLomChange, runs, high, structured, norm, Bool.not_true, bne_self_eq_false, Bool.or_self, Bool.false_eq_true, if_false,
    beq_iff_eq]
  rfl

/-- Outside NORM only the phase goes on (R82). -/
theorem exec_lomChange_notNorm (notNorm : hoNorm s a = false) : exec (.lomChange a v) s =
    .next (editPath s a (fun p => { p with h4Last := (p.h4Last + 1) % 4, mfPhase := (p.mfPhase + 1) % 4 })) := by
  change execLomChange a v s = _
  simp only [execLomChange, runs, high, structured, notNorm, Bool.not_true, Bool.not_false, bne_self_eq_false, Bool.or_self,
    Bool.false_eq_true, if_false, if_true]

end

/-! ### Overhead, desynchronizers and marker channels -/

section
variable {a : Word} {balls bytes : List Byte} {s : State} (runs : pathRx s a = true)
  (received : bytes = pathTaken s a (ownOut s a).sent balls) (whole : bytes.length = contBytes s a)
include runs received whole

/-- A whole container goes into the store, and the overhead of a monitored path is read where the period shows it (R80, R83). -/
theorem exec_pohRx_whole : exec (.pohRx a balls) s = .next (
    if monitored (storeData s a bytes) a = false then storeData s a bytes
    else if pohRead (storeData s a bytes) a = true then pohStep (storeData s a bytes) a bytes
    else editPath (storeData s a bytes) a (fun p => { p.unread with ebs := (false :: p.ebs).take 3300 })) := by
  subst received
  change execPohRx a balls s = _
  simp only [execPohRx, runs, whole, beq_self_eq_true, Bool.and_self, if_true, Bool.not_eq_true']

/-- A whole multiframe goes to every demapped TU of its type that the path feeds (R92, R193). -/
theorem exec_demapMultiframe_whole (read : Nat) : exec (.demapMultiframe a balls read) s = .next (((demapOwners s a).filter (fun c =>
    demapped s c && tuType? s c == tuType? s a)).foldl (fun s c => demapInto s a c bytes read) s) := by
  subst received
  exact exec_ite_pos (by simp only [runs, whole, beq_self_eq_true, Bool.and_self]) rfl

end

/-- Of a path that is demapped and feeds itself alone, the filter of DEMAP_MULTIFRAME keeps the path itself. -/
theorem demapOwners_filter_self {a : Word} {s : State} (demaps : demapped s a = true) (alone : demapOwners s a = [a]) :
    (demapOwners s a).filter (fun c => demapped s c && tuType? s c == tuType? s a) = [a] := by
  rw [alone, List.filter_singleton, demaps, beq_self_eq_true, Bool.and_self, cond_true]

/-- The desynchronizer of a path that feeds itself takes the multiframe's data bits, or ones at the nominal count in AIS or LOP and where the
lane's channel is switched away; `read` bits leave it, of which the last 8,192 are kept (R92, R95, R193; log entry 108, the model's choice). -/
theorem demapInto_self {a : Word} {bytes : List Byte} {read : Nat} {b : List Bool} {s : State}
    (hb : b = if (path s a).ptr = 0 ∧ mspTaken s a = false then demapData (tuType? s a == some 0) (demapInput s a bytes)
      else List.replicate (if tuType? s a = some 0 then 1024 else 772) true) :
    demapInto s a a bytes read = desyncMove (editPath s a (fun p => { p with
      dsq := (p.dsq ++ b).drop read
      dsOut := (p.dsOut ++ fitBits read ((p.dsq ++ b).take read)).drop
        ((p.dsOut ++ fitBits read ((p.dsq ++ b).take read)).length - 8192) })) a ((b.length : Int) - (read : Int)) := by
  subst hb
  simp only [demapInto, Bool.and_eq_true, decide_eq_true_eq, beq_iff_eq, Bool.not_eq_true']

/-- A unit of a marker channel that is read goes to the channel lock, the marver's records and the guards of the path; the marver's
arrival time is the timebase's (R90, R211, R227; log entry 139, the model's choice). -/
theorem exec_markerGroupRx_read {a : Word} {unit : Byte} {s t : State} (on : pathOn s a = true) (reads : bit (pathCfg s a).w7 10 = true)
    (ht : t = (match (markUnit s a unit).2 with
      | some m => mergeMarkers (markUnit s a unit).1 a m (2 * s.tod.ticks)
      | none => (markUnit s a unit).1)) :
    exec (.markerGroupRx a unit) s = .next
      (if pohRead t a then (guardsAt t a).foldl (fun u g => guardUnit u g a unit (nsNow u).toNat) t else t) := by
  subst ht
  exact exec_ite_neg (by simp [on, reads]) rfl

/-! ### PATH_CFG -/

section
variable {d : Nat} {io : HostIO} {x : Desc} {s t : State} (taken : takeInput s d 0x20 = some (t, x)) (inRange : rangeBad s x = false)
  (admitted : cfgReason s x = none)
include taken inRange admitted

/-- A PATH_CFG that no rule refuses waits for its boundary past its commit point, without expected traces at once, -/
theorem exec_pathCfg_untraced (empty : x.len = 0) : exec (.pathCfg d io) s = .next { setDesc t d 2 with deferred := t.deferred ++
    [{ tu := saTier (x.w 6) == 1, act := .path x.words [], d := d }] } := by
  change execPathCfg d io s = _
  simp only [execPathCfg, taken, inRange, admitted, empty, Bool.false_eq_true, if_false, if_true]

/-- and with them once they have been read from host memory (R74 to R76). -/
theorem exec_pathCfg_traced (traced : x.len ≠ 0) : exec (.pathCfg d io) s =
    .next (withInput t io x 128 (fun u b => { setDesc u d 2 with deferred := u.deferred ++
      [{ tu := saTier (x.w 6) == 1, act := .path x.words b, d := d }] })) := by
  change execPathCfg d io s = _
  simp only [execPathCfg, taken, inRange, admitted, traced, Bool.false_eq_true, if_false]

end

end Sys2Proof.Machine
end

section
/-! SUPPORT. Paths: pointers, multiframes, overhead, seconds, desynchronizers, marker channels and configuration (R73 to R96, R123). -/

open Sys2Proof.Machine

/-- Settles O7: a clause for each command, from the lemma about it. That the arrival time of a marker is the timebase's is log entry 139's,
and that 8,192 bits of a demapped signal are kept log entry 108's, the model's choices. -/
theorem pathsFollowTheirPointersAndOverhead : Obligations.PathsFollowTheirPointersAndOverhead := by
  unfold Obligations.PathsFollowTheirPointersAndOverhead
  refine ⟨fun a m b0 b1 b s runs member high hb => exec_pointerRx_highOrder runs member high hb,
    fun a m b0 b1 b s runs member low norm inFrame hb => exec_pointerRx_lowOrder runs member low norm inFrame hb,
    ?lomKept, ?lomDeclared,
    fun a h4 s runs high structured notNorm => exec_lomChange_notNorm runs high structured notNorm,
    fun a balls data s runs received whole => exec_pohRx_whole runs received whole,
    ?second,
    fun a balls bytes read s runs received whole => exec_demapMultiframe_whole runs received whole read,
    ?ownDemap, ?leak,
    fun a unit s t on reads ht => exec_markerGroupRx_read on reads ht,
    fun d io x s t taken inRange admitted empty => exec_pathCfg_untraced taken inRange admitted empty,
    fun d io x s t taken inRange admitted traced => exec_pathCfg_traced taken inRange admitted traced⟩
  case lomKept =>
    intro a v h4 s t runs high structured norm hh4 ht inMf same
    rw [exec_lomChange_norm runs high structured norm hh4 ht (if_pos inMf).symm, if_pos same]
  case lomDeclared =>
    intro a v h4 s t u runs high structured norm hh4 ht outOfMf hu declared was
    rw [exec_lomChange_norm runs high structured norm hh4 ht (hu.trans (if_neg (by simp [outOfMf])).symm),
      if_neg (by simp [declared, was]), if_pos declared]
  case second =>
    rintro a s _ on monitors due rfl
    exact exec_ite_pos (by simp only [on, monitors, due, Bool.and_self]) rfl
  case ownDemap =>
    intro a balls bytes read b s runs demaps alone received whole hb
    rw [exec_demapMultiframe_whole runs received whole read, demapOwners_filter_self demaps alone, List.foldl_cons, List.foldl_nil,
      demapInto_self hb]
  case leak =>
    intro a s demaps queued aged
    exact exec_ite_pos (by simp [demaps, queued, aged]) rfl
end

section
/-! SUPPORT. When a bulk read is given to an engine, and what a PATH_STATUS asks of its lane (R99, R333, R341). -/

namespace Sys2Proof.Machine

/-- A bulk read that may be taken, whose buffer lies in the address space and which no rule refuses, goes to an engine (R333, R341). -/
theorem takeRead_admitted {s : State} {io : HostIO} {id op : Nat} {x : Desc} (taken : takeDesc s id op = some x)
    (inRange : rangeBad s x = false) (admitted : bulkReason s x = none) : takeRead s io id op = startBulk s io x := by
  simp only [takeRead, taken, inRange, admitted, Bool.false_eq_true, if_false]

/-- A command whose whole work is to take a bulk read gives that read to an engine. -/
theorem exec_takeRead_admitted {c : Instr} {s t : State} {io : HostIO} {id op : Nat} {x : Desc}
    (reads : exec c s = .next (takeRead t io id op)) (taken : takeDesc t id op = some x) (inRange : rangeBad t x = false)
    (admitted : bulkReason t x = none) : exec c s = .next (startBulk t io x) := by
  rw [reads, takeRead_admitted taken inRange admitted]

/-- No rule refuses a PATH_STATUS of a lane that is enabled in a framed mode (R99). -/
theorem bulkReason_pathStatus {s : State} {x : Desc} (isStatus : x.op = 0x21) (enabled : laneEn s (fld (x.w 6) 6 0) = true)
    (framed : laneMode s (fld (x.w 6) 6 0) ≤ 3) : bulkReason s x = none := by
  simp only [bulkReason, isStatus, enabled, framed, decide_true, Bool.and_self, if_true]

end Sys2Proof.Machine
end

section
/-! SUPPORT. The status descriptors (R99, R199, R222, R238, R261, R333, R341, R362, R402). -/

open Sys2Proof.Machine

/-- Settles O12: every command takes one bulk read, which is admitted; PATH_STATUS because its lane is enabled and framed, the others by
their premise. LEASE_QUERY takes it in the state that has drawn its free values. -/
theorem statusReadsGoToABulkEngine : Obligations.StatusReadsGoToABulkEngine := by
  unfold Obligations.StatusReadsGoToABulkEngine
  refine ⟨?pathStatus,
    fun _ _ _ _ => exec_takeRead_admitted rfl,
    fun _ _ _ _ => exec_takeRead_admitted rfl,
    fun _ _ _ _ => exec_takeRead_admitted rfl,
    fun _ _ _ _ => exec_takeRead_admitted rfl,
    fun _ _ _ _ => exec_takeRead_admitted rfl,
    ?leaseQuery⟩
  case pathStatus =>
    intro d io x s taken inRange enabled framed isStatus
    exact exec_takeRead_admitted rfl taken inRange (bulkReason_pathStatus isStatus enabled framed)
  case leaseQuery =>
    rintro d io x s _ rfl taken inRange admitted
    exact exec_takeRead_admitted rfl taken inRange admitted
end

section
/-! SUPPORT. Writes of a tributary port, its line interface, the search of a PDH framer and the frames it receives, under the conditions of
their rules (R103 to R118). -/

namespace Sys2Proof.Machine

/-! ### Ports -/

/-- A TRIB_CTL word that no rule refuses is in force at once on a port that was off: only fields of a port that runs on in its mode wait
for the frame boundary (R103, R119). -/
theorem exec_tribCtlWrite_off {p : PortId} {v w : Word} {s : State} (ready : hostReady s 16) (hw : w = v &&& 0xFFFFF)
    (good : tribBad w = false) (unguarded : portGuarded s p (bit w 13) = false) (noGather : gatherBlocksPort s p w (portFrm s p) = false)
    (fitsNow : portExceeds s p w (portFrm s p) = false) (fitsNext : portExceeds s p w (rd s (Reg.tribFrm p)) = false)
    (off : bget s (Reg.tribCtl p) 0 = false) :
    exec (.tribCtlWrite p v) s = .next (putPort (wr (portForced s p (rd s (Reg.tribCtl p)) w) (Reg.tribCtl p) w) p w
      (portFrm (portForced s p (rd s (Reg.tribCtl p)) w) p)) := by
  subst hw
  rw [bget] at off
  rw [exec_domainWrite_acts ready (c := .tribCtlWrite p v) rfl]
  simp only [good, unguarded, noGather, fitsNow, fitsNext, off, Bool.and_false, Bool.false_and, Bool.or_self, Bool.false_eq_true, if_false]

/-- A TRIB_FRM word that no rule refuses stands in the register, and on a port that is not live without FORCED_OP (R103, R106). -/
theorem exec_tribFrmWrite_unused {p : PortId} {v w : Word} {s : State} (ready : hostReady s 16) (hw : w = v &&& 0x1FFF)
    (good : frmBad (rd s (Reg.tribCtl p)) w = false) (unguarded : portGuarded s p (bget s (Reg.tribCtl p) 13) = false)
    (noGather : gatherBlocksPort s p (rd s (Reg.tribCtl p)) w = false) (fits : portExceeds s p (rd s (Reg.tribCtl p)) w = false)
    (unused : portLive s p = false) : exec (.tribFrmWrite p v) s = .next (wr s (Reg.tribFrm p) w) := by
  subst hw
  rw [bget] at unguarded
  rw [exec_domainWrite_acts ready (c := .tribFrmWrite p v) rfl]
  simp only [good, unguarded, noGather, fits, unused, Bool.and_false, Bool.or_self, Bool.false_eq_true, false_and, and_false, if_false]

/-- In ACQ the equalizer takes the code that it has acquired (R105). -/
theorem exec_tribLiuAdjust_acquired {p : PortId} {eq : BitVec 5} {s : State} (analog : tribMode (portCtl s p) ≤ 1)
    (acquires : portState s p = 2) :
    exec (.tribLiuAdjust p (.acquired eq)) s = .next (fset s (Reg.tribLiu p) 10 6 eq.toNat) :=
  exec_ite_pos acquires (exec_ite_pos ⟨analog, acquires.ge⟩ rfl)

/-! ### The frame search -/

/-- A search out of frame takes every sighting, but the checked qualification of a confirmed candidate is no new one (R107 to R109). -/
theorem exec_pdhFramePattern_searching {u : PdhUnit} {pos t : Nat} {qual : Option Bool} {s : State} {l : List PdhCand}
    (runs : pdhRuns s u = true) (framed : pdhKind s u ≠ 0) (searching : (pdh s u).oof = true)
    (hl : l = if (qual.isSome && (lateCands (pdhKind s u) (pdh s u) t).any (fun c => c.pos == pos && c.conf)) = true
      then lateCands (pdhKind s u) (pdh s u) t else sight (pdhKind s u) (lateCands (pdhKind s u) (pdh s u) t) pos t) :
    exec (.pdhFramePattern u pos t qual) s = .next
      (settle (editPdh s u (fun x => { x with cands := l, failMfa := failsMfa (pdhKind s u) x t })) u pos t qual) := by
  subst hl
  exact exec_ite_pos (by simp [runs, framed, searching]) rfl

/-! ### Received frames -/

/-- A unit that runs receives each whole frame that its line, mapping or pseudowire gives it (R94, R96). -/
theorem exec_pdhFrameRx_taken {u : PdhUnit} {f g : PdhRx} {s r : State} (runs : pdhRuns s u = true) (taken : takeFrame s u f = some (r, g)) :
    exec (.pdhFrameRx u f) s = .next (pdhReceive r u (pdhKind s u) g) := by
  change execPdhFrameRx u f s = _
  simp only [execPdhFrameRx, runs, if_true, taken]

section
variable {u : PdhUnit} {k : Nat} {g h : PdhRx} {r t x y : State} (ht : t = portReturns r u g) (hh : h = portReceives t u g)
  (hx : x = if h.cv = 0 then t else pdhCount t u 0 h.cv) (hy : y = slipTxRead (if h.exz = 0 then x else pdhCount x u 1 h.exz) u)
include ht hh hx hy

/-- Without framing the frame goes on as it is, after loopbacks and line counters (R101, R114, R115). -/
theorem pdhReceive_unframed (unframed : k = 0) : pdhReceive r u k g = editPdh y u (fun q => { q with
    rxLast := plainFrame y u h.bytes, ccOut := q.ccOut ++ clearBits y u h }) := by
  subst ht hh hx hy unframed
  simp only [pdhReceive, if_true]

section
variable {z : State} (hz : z = editPdh y u (fun q => aisStep k q h)) (framed : k ≠ 0)
include hz framed

/-- Out of frame only its zeros count, for AIS (R110, R117). -/
theorem pdhReceive_outOfFrame (searching : (pdh z u).oof = true) : pdhReceive r u k g = z := by
  subst ht hh hx hy hz
  simp only [pdhReceive, framed, searching, if_false, if_true]

/-- In frame the overhead, the block check, the frame word and the slip buffer follow one another, the last two while OOF has not been
entered, and the marver's checks of the frame end it (R107 to R110, R117, R218). -/
theorem pdhReceive_inFrame {w : Option Bool} {a b c : State} {l : List Bool} (inFrame : (pdh z u).oof = false) (hw : w = wordError k h)
    (ha : a = blockStep (overheadStep z u h) u h w)
    (hb : b = if w = none ∨ (pdh a u).oof = true then a else wordStep a u k (w == some true))
    (hc : c = if (pdh b u).oof = true then b else slipWrite b u h.bytes)
    (hl : l = failStep k (pdh c u).fails (w == some true || sideError k h) (h.crc == some true && usesCrc c u)) :
    pdhReceive r u k g = followPdh (editPdh c u (fun q => { q with ebLast := l.headD false, fails := l })) u := by
  subst ht hh hx hy hz ha hl
  simp only [pdhReceive, framed, inFrame, Bool.false_eq_true, if_false, ← hw]
  cases w with
  | none => simp only [hc, hb, true_or, if_true]
  | some bad => cases bad <;> simp only [hc, hb, reduceCtorEq, false_or] <;> rfl

end
end

/-! ### Defects -/

/-- A framer whose count of frames against the present state of `d` begins anew (R110). -/
def restartRun (d : PdhDefect) (x : PdhSt) : PdhSt :=
  if d = .rai then { x with raiRun := 0 } else if d = .nmis then { x with nRun := 0 }
  else if d = .casLom then { x with casRun := 0 } else x

/-- A change of a defect that is due in a terminated signal begins the count of its frames anew, and the detector changes (R110). -/
theorem exec_pdhDefectChange_term {n : Fin 65536} {d : PdhDefect} {present : Bool} {s t : State}
    (changes : (pdh s (.term n)).det.has d ≠ present) (due : pdhDue s (.term n) d present = true)
    (ht : t = editPdh s (.term n) (restartRun d)) :
    exec (.pdhDefectChange (.term n) d present) s = .next (setPdhDet t (.term n) ((pdh t (.term n)).det.put d present)) := by
  subst ht
  have asked : ((pdh s (.term n)).det.has d != present && pdhDue s (.term n) d present) = true := by simp [changes, due]
  exact exec_ite_pos asked (by cases d <;> rfl)

end Sys2Proof.Machine
end

section
/-! SUPPORT. Tributary ports and PDH framers (R103 to R118). -/

open Sys2Proof.Machine

/-- Settles O9: a clause for each command, from the lemma about it or from the one condition it asks; a received frame is unframed, out of
frame or in frame. -/
theorem tributaryFramersAndPortsFollowTheirSignals : Obligations.TributaryFramersAndPortsFollowTheirSignals := by
  unfold Obligations.TributaryFramersAndPortsFollowTheirSignals
  refine ⟨fun p v w s ready hw good unguarded noGather fitsNow fitsNext off =>
      exec_tribCtlWrite_off ready hw good unguarded noGather fitsNow fitsNext off,
    fun p v w s ready hw good unguarded noGather fits unused => exec_tribFrmWrite_unused ready hw good unguarded noGather fits unused,
    fun p trim s trims => exec_ite_pos trims rfl,
    fun p eq s analog acquires => exec_tribLiuAdjust_acquired analog acquires,
    fun p est s analog acquires => exec_ite_pos ⟨analog, acquires⟩ rfl,
    ?lossHigh, ?txFault, ?sighting, ?qualified, ?mfaTimeout, ?interworkTimeout, ?frame,
    fun n d b s t changes due ht => exec_pdhDefectChange_term changes due ht⟩
  case lossHigh =>
    intro p s enabled analog low high
    exact exec_ite_pos (by simp only [enabled, analog, low, high, decide_true, Bool.and_self, if_true]; rfl) rfl
  case txFault =>
    intro p b s enabled analog changes
    exact exec_ite_pos (by simp [enabled, analog, changes]) rfl
  case sighting =>
    intro u pos t s runs framed searching
    exact exec_pdhFramePattern_searching runs framed searching rfl
  case qualified =>
    intro u pos t q s runs framed searching confirmed
    exact exec_pdhFramePattern_searching runs framed searching (if_pos (by rw [confirmed]; rfl)).symm
  case mfaTimeout =>
    intro u s runs crc4 inFrame noMfa basic
    exact exec_ite_pos (by simp [runs, crc4, inFrame, noMfa, basic]) rfl
  case interworkTimeout =>
    intro u s runs kind inFrame noMfa basic confirmed
    exact exec_ite_pos (by simp [runs, kind, inFrame, noMfa, basic, confirmed]) rfl
  case frame =>
    intro u f g h s r t x y z runs taken ht hh hx hy
    rw [exec_pdhFrameRx_taken runs taken]
    refine ⟨fun unframed => ?unframed, fun hz framed searching => ?outOfFrame, fun w a b c hz framed inFrame hw ha hb hc => ?inFrame⟩
    case unframed => rw [pdhReceive_unframed ht hh hx hy unframed]
    case outOfFrame => rw [pdhReceive_outOfFrame ht hh hx hy hz framed searching]
    case inFrame => rw [pdhReceive_inFrame ht hh hx hy hz framed inFrame hw ha hb hc rfl]
end

section
/-! SUPPORT. Slot memory reads, the pattern monitors' registers and the latency of an output, under the conditions of their rules (R126 to
R142). -/

namespace Sys2Proof.Machine

/-! ### Slot memory -/

/-- A pair that has held no content for 1 s is gated off (R126). -/
theorem exec_pairGateOff_idle {p : Fin 32} {s : State} (empty : pairUsed s p = false) (idle : 8000 ≤ Tab.get s.fab.pairIdle p 0) :
    exec (.pairGateOff p) s = .next (bset s Reg.fabBankOn p false) :=
  exec_ite_neg (by simp [empty, idle]) rfl

/-- The first failing read of a word in a frame is counted: recovered where every section is sound in a bank that serves, unrecovered
in the sections `b` that are not. A bank on lease does not serve, nor until its contents are written again (R127, R138 to R141). -/
theorem readWord_firstFailure {s : State} {p l : Nat} {upPrim upRepl x y b : Word} (hx : x = failing s p l upPrim)
    (hy : y = failing s (p + 32) l upRepl)
    (hb : b = if bget s Reg.fabBankLease p = true ∨ Tab.get s.fab.tailP p 0 ≠ 0 then y
      else if bget s Reg.fabBankLeaseR p = true ∨ Tab.get s.fab.tailR p 0 ≠ 0 then x else x &&& y)
    (fails : (if bget s Reg.fabBankLease p = true ∨ Tab.get s.fab.tailP p 0 ≠ 0 then y else x) ≠ 0)
    (fresh : s.fab.counted.contains (p, l) = false) :
    readWord s p l upPrim upRepl =
      if b = 0 then recovered (editFab s (fun f => { f with counted := (p, l) :: f.counted })) p l x
      else unrecovered (editFab s (fun f => { f with counted := (p, l) :: f.counted })) p
        (b2n (bget s Reg.fabBankLease p || Tab.get s.fab.tailP p 0 != 0)) l b := by
  subst hx hy hb
  simp only [readWord, Bool.or_eq_true, bne_iff_ne, fails, fresh, Bool.false_eq_true, or_self, if_false]

/-! ### Register writes that are taken -/

section
variable {s : State} (ready : hostReady s 17)
include ready

/-- ARM arms the injection below SERVICE (R34, R142). -/
theorem exec_parityInjectArm_armed {v : Word} (unguarded : mode s < 2) (arm : bit v 31 = true) :
    exec (.parityInjectArm v) s = .next (editFab s (fun f => { f with inj := some v })) := by
  rw [exec_domainWrite_acts ready (c := .parityInjectArm v) rfl]
  simp only [guarded_of_mode_lt_two unguarded, arm, Bool.false_eq_true, if_false, if_true]

/-- A good FAB_PMON_CTL word leaves LOCK as it is, and restarts a monitor that is off or has another pattern (R134, R142). -/
theorem exec_pmonCtlWrite_control {m : Fin 8} {v : Word} {t : State} (good : pmonBad s v (rd s (Reg.fabPmonSlot m)) = false)
    (ht : t = wr s (Reg.fabPmonCtl m) (setBit (v &&& 7) 3 (bget s (Reg.fabPmonCtl m) 3))) :
    exec (.pmonCtlWrite m false v) s =
      .next (if bit v 0 = true ∧ fld v 2 1 = fget s (Reg.fabPmonCtl m) 2 1 then t else pmonRestart t m) := by
  subst ht
  rw [exec_domainWrite_acts ready (c := .pmonCtlWrite m false v) rfl]
  simp only [good, Bool.false_eq_true, if_false]
  exact congrArg Host.Outcome.next (if_congr (by rw [Bool.and_eq_true, beq_iff_eq]; rfl) rfl rfl)

/-- Another slot restarts the monitor (R134, R142). -/
theorem exec_pmonCtlWrite_slot {m : Fin 8} {v : Word} (good : pmonBad s (rd s (Reg.fabPmonCtl m)) v = false)
    (other : rd s (Reg.fabPmonSlot m) ≠ v) :
    exec (.pmonCtlWrite m true v) s = .next (pmonRestart (wr s (Reg.fabPmonSlot m) v) m) := by
  rw [exec_domainWrite_acts ready (c := .pmonCtlWrite m true v) rfl]
  simp only [good, other, Bool.false_eq_true, if_false, if_true]

end

/-! ### What monitors and outputs measure -/

/-- An enabled monitor counts what its checker finds in the content that has come, and raises an event for each change of lock, in their
order (R134, R143). -/
theorem exec_pmonLockChange_enabled {m : Fin 8} {r : CheckSum} {s t u : State} (enabled : bget s (Reg.fabPmonCtl m) 0 = true)
    (hr : r = checkBits (pmonPrbs (fget s (Reg.fabPmonCtl m) 2 1)) 0 (Tab.get s.fab.pmonSt m {}) (bget s (Reg.fabPmonCtl m) 3)
      (bytesBits (Tab.get s.fab.pmonIn m [])))
    (ht : t = count (count s (Reg.fabPmonErr m) (r.errs % 2 ^ 32)) (Reg.fabPmonBits m)
      ((Tab.get s.fab.pmonFrac m 0 + r.bits) / 1024 % 2 ^ 32))
    (hu : u = editFab (bset t (Reg.fabPmonCtl m) 3 r.lock) (fun f => { f with
      pmonFrac := Tab.put f.pmonFrac m ((Tab.get s.fab.pmonFrac m 0 + r.bits) % 1024)
      pmonSt := Tab.put f.pmonSt m r.x, pmonIn := Tab.drop f.pmonIn m })) :
    exec (.pmonLockChange m) s = .next
      (r.flips.reverse.foldl (fun x q => pmonEvent x m q.1 (rd s (Reg.fabPmonErr m) + w32 q.2)) u) := by
  subst hr ht hu
  exact exec_ite_neg (by simp [enabled]) rfl

/-- The latency of an output with an entry and a live source is kept in steps of 2 ns, with the source it holds for (R136, R137). -/
theorem exec_latencyMeasure_live {out a : Word} {ns : Nat} {s : State} (entered : hasEntry s out = true)
    (live : latSource s (latOut s out) = some a) :
    exec (.latencyMeasure out ns) s = .next (editFab s (fun f => { f with
      lat := Tab.put f.lat (latOut s out).toNat (ns / 2 * 2 % 2 ^ 29)
      latSrc := Tab.put f.latSrc (latOut s out).toNat a })) := by
  change execLatencyMeasure out ns s = _
  simp only [execLatencyMeasure, entered, live, if_true]

end Sys2Proof.Machine
end

section
/-! SUPPORT. Slot memory reads, parity injection, pattern monitors, pair gating and latency (R126, R127, R134 to R143). -/

open Sys2Proof.Machine

/-- Settles O10: a clause for each command, from the lemma about it. -/
theorem fabricMonitorsAndPairsAnswer : Obligations.FabricMonitorsAndPairsAnswer := by
  unfold Obligations.FabricMonitorsAndPairsAnswer
  refine ⟨fun p s empty idle => exec_pairGateOff_idle empty idle, ?wordRead,
    fun v s ready unguarded arm => exec_parityInjectArm_armed ready unguarded arm,
    fun m v s t ready good ht => exec_pmonCtlWrite_control ready good ht,
    fun m v s ready good other => exec_pmonCtlWrite_slot ready good other,
    fun m r s t u enabled hr ht hu => exec_pmonLockChange_enabled enabled hr ht hu,
    fun out a ns s entered live => exec_latencyMeasure_live entered live⟩
  case wordRead =>
    intro r s x y b hx hy hb fails fresh
    exact congrArg Host.Outcome.next (readWord_firstFailure hx hy hb fails fresh)
end

section
/-! SUPPORT. When a change outside a gather waits for its boundary, and when the buffer of a MAP_EDIT goes to an engine (R152 to R157,
R341). -/

namespace Sys2Proof.Machine

/-- A change outside a gather that no reason refuses, neither one of its own nor reason 8 or 9, waits for its TU multiframe boundary
(R154, R155). -/
theorem direct_admitted {s : State} {x : Desc} {i : Staged} {reason : Option Nat} {act : DefAct} (sound : reason = none)
    (fits : lateReason s x i = none) : direct s x i reason act = defer s x.id true act := by
  simp only [direct, sound, fits, Option.or_none]

section
variable {d : Nat} {x : Desc} {w : List Word} {s : State} (hw : w = cfgWords x)

section
variable (taken : takeMap s d 0x1A false = some x) (fits : lateReason s x (.term w) = none)
include hw taken fits

theorem exec_termCfg_admitted (makes : termSrc w ≠ 0) (sound : termReason s w = none) :
    exec (.termCfg d) s = .next (defer s x.id true (.term w)) := by
  subst hw
  change execTermCfg d s = _
  simp only [execTermCfg, taken, makes, if_false, direct_admitted sound fits]

/-- A number is released that no entry, selector, guard or gather names (R154, R168). -/
theorem exec_termRelease_admitted (releases : termSrc w = 0)
    (unused : releaseReason s w (numberUsed s (termNum w) || gatherNames s (Staged.names (onNumber (termNum w)))) = none) :
    exec (.termRelease d) s = .next (defer s x.id true (.term w)) := by
  subst hw
  change execTermRelease d s = _
  simp only [execTermRelease, taken, releases, ne_eq, not_true, if_false, direct_admitted unused fits]

end

section
variable (taken : takeMap s d 0x1B false = some x) (fits : lateReason s x (.cc w) = none)
include hw taken fits

theorem exec_ccCfg_admitted (makes : ccRel w = false) (sound : ccReason s w = none) :
    exec (.ccCfg d) s = .next (defer s x.id true (.cc w)) := by
  subst hw
  change execCcCfg d s = _
  simp only [execCcCfg, taken, makes, Bool.false_eq_true, if_false, direct_admitted sound fits]

/-- A connection is released whose endpoints no entry, selector, guard or gather names (R154, R168). -/
theorem exec_ccRelease_admitted (releases : ccRel w = true)
    (unused : ccReleaseReason s w (fun c => gatherNames s (fun i => Staged.names (onEndpoint c) i || Staged.namesEnd c i)) = none) :
    exec (.ccRelease d) s = .next (defer s x.id true (.cc w)) := by
  subst hw
  change execCcRelease d s = _
  simp only [execCcRelease, taken, releases, Bool.not_true, Bool.false_eq_true, if_false, direct_admitted unused fits]

end
end

section
variable {d : Nat} {io : HostIO} {x : Desc} {s : State} (inRange : rangeBad s x = false) (whole : editLenBad x.len = false)
include inRange whole

/-- The buffer of a MAP_EDIT that is whole records in the address space goes to an engine, outside a gather -/
theorem exec_mapEditDirect_admitted (taken : takeMap s d 0x18 false = some x) :
    exec (.mapEditDirect d io) s = .next (startBulk s io x) := by
  change execMapEditDirect d io s = _
  simp only [execMapEditDirect, taken, inRange, whole, Bool.false_eq_true, if_false]

/-- and in one (R155, R164, R341). -/
theorem exec_mapEditStage_admitted (taken : takeMap s d 0x18 true = some x) :
    exec (.mapEditStage d io) s = .next (startBulk s io x) := by
  change execMapEditStage d io s = _
  simp only [execMapEditStage, taken, inRange, whole, Bool.false_eq_true, if_false]

end

end Sys2Proof.Machine
end

section
/-! SUPPORT. Map, termination and clear-channel descriptors (R126, R152 to R157, R341). -/

open Sys2Proof.Machine

/-- Settles O11: a clause for each command, from the lemma about it; MAP_READ is a bulk read as the status descriptors are. -/
theorem mapDescriptorsOutsideAGatherWaitForTheirBoundary : Obligations.MapDescriptorsOutsideAGatherWaitForTheirBoundary := by
  unfold Obligations.MapDescriptorsOutsideAGatherWaitForTheirBoundary
  exact ⟨fun d x w s taken hw makes sound fits => exec_termCfg_admitted hw taken fits makes sound,
    fun d x w s taken hw releases unused fits => exec_termRelease_admitted hw taken fits releases unused,
    fun d x w s taken hw makes sound fits => exec_ccCfg_admitted hw taken fits makes sound,
    fun d x w s taken hw releases unused fits => exec_ccRelease_admitted hw taken fits releases unused,
    fun d io x s taken inRange whole => exec_mapEditDirect_admitted inRange whole taken,
    fun d io x s taken inRange whole => exec_mapEditStage_admitted inRange whole taken,
    fun d io x s taken inRange admitted => exec_takeRead_admitted rfl taken inRange admitted⟩
end

section
/-! SUPPORT. A gather's descriptors, its validation, its commit record and its application, under the conditions of their rules (R160 to
R180). -/

namespace Sys2Proof.Machine

/-! ### Descriptors -/

/-- A GATHER_OPEN that no reason refuses opens the FREE slot with the lowest number (R160, R163). -/
theorem exec_gatherOpen_opens {d i : Nat} {x : Desc} {s : State} (taken : takeDesc s d 0x10 = some x)
    (fresh : gatherIn s x.gather 1 3 = none) (admitted : openReason s x = none) (free : gatherFree s = some i) :
    exec (.gatherOpen d) s = .next (completeOk (setGslot s i { st := 1, gid := x.gather }) d (w32 i) 0) := by
  change execGatherOpen d s = _
  simp only [execGatherOpen, taken, fresh, admitted, free, Option.isSome_none, Bool.false_eq_true, and_false, if_false]

/-- An item joins the OPEN gather that its descriptor names, while the gather and the storage of all gathers have room for it (R161,
R163). -/
theorem stage_joins {k : Nat} {x : Desc} {j : Staged} {s t : State} (inGather : gatherIn s x.gather 1 1 = some k)
    (named : x.gather ≠ 0) (fits : (gslot s k).edits + j.size ≤ 65536) (fitsAll : stagedAll s + j.size ≤ 262144)
    (ht : t = setGslot s k { gslot s k with items := (gslot s k).items ++ [j] }) :
    stage s x j = completeOk t x.id (w32 (gslot t k).edits) (w32 (stagedAll t)) := by
  subst ht
  simp only [stage, inGather, named, fits.not_gt, fitsAll.not_gt, or_self, if_false]

/-- TERM_CFG and CC_CFG in a gather stage one item each (R152, R153). -/
theorem exec_termCfgStage_taken {d : Nat} {x : Desc} {s : State} (taken : takeMap s d 0x1A true = some x) :
    exec (.termCfgStage d) s = .next (stage s x (.term (cfgWords x))) := by
  change execTermCfgStage d s = _
  simp only [execTermCfgStage, taken]

theorem exec_ccCfgStage_taken {d : Nat} {x : Desc} {s : State} (taken : takeMap s d 0x1B true = some x) :
    exec (.ccCfgStage d) s = .next (stage s x (.cc (cfgWords x))) := by
  change execCcCfgStage d s = _
  simp only [execCcCfgStage, taken]

/-- A GATHER_COMMIT of an OPEN gather makes it VALIDATING and joins the engine's queue (R160, R167). -/
theorem exec_gatherCommit_queued {d i : Nat} {x : Desc} {s t : State} (taken : takeDesc s d 0x11 = some x) (named : x.gather ≠ 0)
    (inGather : gatherIn s x.gather 1 1 = some i)
    (ht : t = setGslot s i { gslot s i with st := 2, commit := some d, tag := (x.w 1).toNat, named := x.w 6 }) :
    exec (.gatherCommit d) s = .next (editGth (editDesc t d (fun e => { e with st := 1, bound := some (0x11, i) }))
      (fun g => { g with queue := g.queue ++ [i] })) := by
  subst ht
  change execGatherCommit d s = _
  simp only [execGatherCommit, taken, named, if_false, inGather]

section
variable {d i : Nat} {x : Desc} {s : State} (taken : takeDesc s d 0x12 = some x) (named : x.gather ≠ 0)
  (inGather : gatherIn s x.gather 1 3 = some i)
include taken named inGather

/-- A GATHER_ABORT of a gather that is not SCHEDULED and whose commit does not wait discards it, with a record of TYPE 4 (R175, R177). -/
theorem exec_gatherAbort_discards {t : State} (unscheduled : (gslot s i).st ≠ 3) (uncommitted : (gslot s i).commit = none)
    (ht : t = journal (freeSlot s i) (jrnWords (freeSlot s i) 4 i (gslot s i) 0 0 0 (x.w 1) 0) true) :
    exec (.gatherAbort d) s = .next (completeOk (gthEvent t i (gslot s i).gid 5 (w32 (gslot s i).edits)) d
      (w32 (gslot s i).edits) 0) := by
  subst ht
  change execGatherAbort d s = _
  simp only [execGatherAbort, taken, named, inGather, unscheduled, uncommitted, if_false]

/-- A GATHER_ABORT of a SCHEDULED gather comes too late: TOO_LATE, and nothing else (R162, R177). That its result
words are 0 is log entry 67's, the model's choice. -/
theorem exec_gatherAbort_tooLate (scheduled : (gslot s i).st = 3) : exec (.gatherAbort d) s = .next (complete s d 2 0 0) := by
  change execGatherAbort d s = _
  simp only [execGatherAbort, taken, named, inGather, scheduled, if_false, if_true]

end

/-! ### Validation -/

section
variable {i : Fin 16} {s : State} (runs : s.gth.run = some i.val) (validating : (gslot s i).st = 2)
  (unended : (gslot s i).valid = false)
include runs validating unended

/-- The end of a validation that fails rejects the gather (R166) -/
theorem exec_gatherValidationEnd_fails {e : Nat × Nat} (fails : (checkGather s i).1 = some e) :
    exec (.gatherValidationEnd i) s = .next (reject s i e) := by
  change execGatherValidationEnd i s = _
  simp only [execGatherValidationEnd, runs, validating, unended, fails, ne_eq, not_true, Bool.false_eq_true, or_self, if_false]

/-- and one that passes gives it its order, its frame and its sources; its commit record begins while a half holds the leash (R166,
R167, R169). -/
theorem exec_gatherValidationEnd_passes {t : State} (passes : (checkGather s i).1 = none)
    (ht : t = takeSources (editGth (setGslot s i { gslot s i with
        valid := true, items := (checkGather s i).2, order := s.gth.orderNext,
        sfc := (commitFrame s i (gslot s i).named).1, moved := (commitFrame s i (gslot s i).named).2 })
      (fun g => { g with run := none, orderNext := g.orderNext + 1 })) ((checkGather s i).2.flatMap Staged.sources)) :
    exec (.gatherValidationEnd i) s = .next (if t.mtx.held then beginRecord t i else t) := by
  subst ht
  change execGatherValidationEnd i s = _
  simp only [execGatherValidationEnd, runs, validating, unended, passes, ne_eq, not_true, Bool.false_eq_true, or_self, if_false]

end

/-! ### Commit and application -/

/-- A begun commit record that is held makes its gather SCHEDULED, and the GATHER_COMMIT that waits completes OK (R162, R174). -/
theorem exec_commitRecordHeld_schedules {i : Fin 16} {d : Nat} {s t u : State} (validating : (gslot s i).st = 2)
    (ended : (gslot s i).valid = true) (leashed : s.mtx.held = true) (live : replay s = false) (begun : (gslot s i).begun = true)
    (ht : t = holdRecord s i) (waits : (gslot t i).commit = some d)
    (hu : u = setGslot t i { gslot t i with st := 3, commit := none }) :
    exec (.commitRecordHeld i false) s = .next (gthEvent
      (completeOk (setDesc u d 2) d (w32 ((gslot t i).sfc + 65536 * b2n (gslot t i).moved)) (w32 (gslot t i).edits))
      i (gslot t i).gid 1 (w32 ((gslot t i).sfc + 65536 * b2n (gslot t i).moved))) := by
  subst ht hu
  change execCommitRecordHeld i false s = _
  simp only [execCommitRecordHeld, validating, ended, leashed, live, begun, waits, ne_eq, not_true, Bool.not_true, Bool.false_eq_true,
    or_self, if_false, if_true]

/-- The gather that is due first is applied and discarded, with a record of TYPE 3; the changes that wait for the frame and the PEEK
registers follow (R158, R170, R173, R175). -/
theorem exec_gatherApply_due {i : Fin 16} {s t u v : State} (due : (gathersDue s).head? = some i.val)
    (ht : t = freeSlot (mapChanged (putItems s (gslot s i).items)) i)
    (hu : u = journal t (jrnWords t 3 i (gslot s i) (w32 ((gslot s i).sfc + 65536 * b2n (gslot s i).moved)) 0 0
      (w32 (gslot s i).tag) (rd t Reg.mapGen)) true)
    (hv : v = gthEvent u i (gslot s i).gid 2 (rd u Reg.mapGen)) :
    exec (.gatherApply i) s = .next (protPeek (mapPeek (applyBoundary v false))) := by
  subst ht hu hv
  exact exec_ite_neg (not_not_intro due) rfl

end Sys2Proof.Machine
end

section
/-! SUPPORT. Gathers (R160 to R177). -/

open Sys2Proof.Machine

/-- Settles O13: a clause for each case of a command, from the lemma about it or from the one condition it asks. That an abort
that comes too late completes with results 0 is log entry 67's, the model's choice. -/
theorem gathersOpenStageCommitAndApply : Obligations.GathersOpenStageCommitAndApply := by
  unfold Obligations.GathersOpenStageCommitAndApply
  refine ⟨fun d i x s taken _ fresh admitted free => exec_gatherOpen_opens taken fresh admitted free,
    ?termCfgStage, ?ccCfgStage,
    fun d i x s t taken named inGather ht => exec_gatherCommit_queued taken named inGather ht,
    fun d i x s t taken named inGather unscheduled uncommitted ht =>
      exec_gatherAbort_discards taken named inGather unscheduled uncommitted ht,
    fun d i x s taken named inGather scheduled => exec_gatherAbort_tooLate taken named inGather scheduled,
    ?validationStart,
    fun i e s runs validating unended fails => exec_gatherValidationEnd_fails runs validating unended fails,
    fun i s t runs validating unended passes ht => exec_gatherValidationEnd_passes runs validating unended passes ht,
    fun i d s t u validating ended leashed live begun ht waits hu =>
      exec_commitRecordHeld_schedules validating ended leashed live begun ht waits hu,
    fun i s bridged => exec_ite_pos bridged rfl,
    fun i s t u v due ht hu hv => exec_gatherApply_due due ht hu hv⟩
  case termCfgStage =>
    intro d k x s t taken inGather named fits fitsAll ht
    rw [exec_termCfgStage_taken taken, stage_joins inGather named fits fitsAll ht]
  case ccCfgStage =>
    intro d k x s t taken inGather named fits fitsAll ht
    rw [exec_ccCfgStage_taken taken, stage_joins inGather named fits fitsAll ht]
  case validationStart =>
    intro i s idle first
    exact exec_ite_pos ⟨Option.isNone_iff_eq_none.mpr idle, first⟩ rfl
end

section
/-! SUPPORT. What a decision of a selector makes of its command, its conditions and its timers (R186, R187, R189). -/

namespace Sys2Proof.Machine

/-! ### Ranks -/

/-- No condition, or one of rank 7, 8 or 10 (R186). -/
theorem condRank_cases (x : Sel) : x.condRank = 0 ∨ x.condRank = 7 ∨ x.condRank = 8 ∨ x.condRank = 10 := by
  unfold Sel.condRank
  split_ifs <;> simp

/-- No command, or one of rank 4, 6, 9 or 11 (R186, R189). -/
theorem selCmdRank_cases (c : Nat) :
    selCmdRank c = 0 ∨ selCmdRank c = 4 ∨ selCmdRank c = 6 ∨ selCmdRank c = 9 ∨ selCmdRank c = 11 := by
  unfold selCmdRank
  split <;> simp

/-- The higher of a selector's conditions and its command (R186). -/
def topRank (x : Sel) : Nat := max x.condRank (selCmdRank x.cmd)

/-- Below the rank of WTR there is only an exercise. -/
theorem topRank_cases (x : Sel) : topRank x = 0 ∨ topRank x = 4 ∨ (5 < topRank x ∧ topRank x ≤ 11) := by
  have cond := condRank_cases x
  have cmd := selCmdRank_cases x.cmd
  unfold topRank
  omega

/-! ### The command -/

/-- A decision drops an MS, MS_W or EXER command below a condition, and an EXER command below WTR (R189). -/
def dropsCmd (x : Sel) : Bool :=
  decide (4 ≤ x.cmd) && decide (selCmdRank x.cmd < max x.condRank (if x.wtr.isSome && x.cmd == 6 then 5 else 0))

/-- The selector as it decides: without the command that it drops. -/
def keptSel (x : Sel) : Sel := if dropsCmd x then { x with cmd := 0, exer := none } else x

theorem keptSel_cmd (x : Sel) : (keptSel x).cmd = if dropsCmd x then 0 else x.cmd := apply_ite Sel.cmd ..

/-- Its conditions, its timers and its copies stand. -/
theorem keptSel_eq (x : Sel) : keptSel x = { x with cmd := (keptSel x).cmd, exer := (keptSel x).exer } := by
  unfold keptSel
  split_ifs <;> rfl

@[simp] theorem keptSel_want (x : Sel) : (keptSel x).want = x.want := by rw [keptSel_eq]
@[simp] theorem keptSel_revert (x : Sel) : (keptSel x).revert = x.revert := by rw [keptSel_eq]; rfl
@[simp] theorem keptSel_condRank (x : Sel) : (keptSel x).condRank = x.condRank := by rw [keptSel_eq]; rfl
@[simp] theorem keptSel_wtr (x : Sel) : (keptSel x).wtr = x.wtr := by rw [keptSel_eq]

/-! ### The decision -/

/-- The protection copy was selected for SF or SD of the working copy, and no request as high is left (R187). -/
def fallsBack (k : Sel) : Bool := k.want && (k.req == 7 || k.req == 8) && decide (topRank k < 7)

/-- WTR ends with a request above it, and starts as the selector falls back (R187). -/
def nextWtr (k : Sel) : Option Nat := if 5 < topRank k then none else if fallsBack k && k.revert then some 0 else k.wtr

/-- The rank of the request with WTR among the requests (R186). -/
def timedRank (k : Sel) : Nat := if (nextWtr k).isSome then max (topRank k) 5 else topRank k

/-- Do not revert applies (R187). -/
def keepsProt (k : Sel) : Bool := k.want && !k.revert && decide (timedRank k < 3)

/-- The request in force (R186). -/
def nextReq (k : Sel) : Nat := if keepsProt k then 3 else if timedRank k = 0 then 2 else timedRank k

/-- Do not revert stands on behind an exercise (R187, R190). -/
def nextDnr (k : Sel) : Bool :=
  keepsProt k || (k.want && !k.revert && decide (timedRank k = 4) && (k.dnr || fallsBack k))

/-- What a decision makes of a selector, and the command it drops. -/
theorem decideSel_eq (x : Sel) : decideSel x =
    ({ keptSel x with req := nextReq (keptSel x), wtr := nextWtr (keptSel x), dnr := nextDnr (keptSel x)
                      want := (keptSel x).selects (nextReq (keptSel x)) },
      if dropsCmd x then x.cmd else 0) := by
  simp only [nextDnr, nextReq, keepsProt, timedRank, nextWtr, fallsBack, topRank, keptSel_condRank]
  rfl

/-- WTR runs below the highest request alone, and is then the highest. -/
theorem timedRank_cases (k : Sel) :
    (nextWtr k = none ∧ timedRank k = topRank k) ∨ ((nextWtr k).isSome = true ∧ topRank k < 5 ∧ timedRank k = 5) := by
  cases runs : nextWtr k with
  | none => exact .inl ⟨rfl, by simp [timedRank, runs]⟩
  | some n =>
    have low : topRank k ≤ 5 := not_lt.mp fun high => by simp [nextWtr, high] at runs
    have ranks := topRank_cases k
    exact .inr ⟨rfl, by omega, by simp [timedRank, runs, low]⟩

/-- WTR that has not expired runs on below a higher request. -/
theorem nextWtr_isSome {k : Sel} (runs : k.wtr.isSome = true) (low : topRank k ≤ 5) : (nextWtr k).isSome = true := by
  rw [nextWtr, if_neg low.not_gt]
  split_ifs
  · rfl
  · exact runs

/-- The request in force is the highest one, WTR, Do not revert or NR (R186, R187). -/
theorem nextReq_cases (k : Sel) :
    (5 < topRank k ∧ nextReq k = topRank k ∧ nextWtr k = none ∧ nextDnr k = false) ∨
    (topRank k < 5 ∧ nextReq k = 5 ∧ (nextWtr k).isSome = true ∧ nextDnr k = false) ∨
    (topRank k = 4 ∧ nextReq k = 4 ∧ nextWtr k = none) ∨
    (topRank k = 0 ∧ nextReq k = 3 ∧ nextWtr k = none ∧ nextDnr k = true) ∨
    (topRank k = 0 ∧ nextReq k = 2 ∧ nextWtr k = none ∧ nextDnr k = false ∧ (k.want && !k.revert) = false) := by
  rcases timedRank_cases k with ⟨ended, timed⟩ | ⟨runs, low, timed⟩
  · rcases topRank_cases k with top | top | top
    · cases stays : k.want && !k.revert <;> simp [nextReq, nextDnr, keepsProt, timed, ended, top, stays]
    · simp [nextReq, keepsProt, timed, ended, top]
    · have kept : keepsProt k = false := by simp [keepsProt, timed]; omega
      have requested : topRank k ≠ 0 := by omega
      have noExercise : topRank k ≠ 4 := by omega
      exact .inl ⟨top.1, by simp [nextReq, kept, timed, requested], ended, by simp [nextDnr, kept, timed, noExercise]⟩
  · exact .inr (.inl ⟨low, by simp [nextReq, keepsProt, timed], runs, by simp [nextDnr, keepsProt, timed]⟩)

theorem decideSel_gone (x : Sel) : (decideSel x).2 = if dropsCmd x then x.cmd else 0 := by rw [decideSel_eq]

section
variable {x y : Sel} (hy : y = (decideSel x).1)
include hy

theorem decideSel_condRank : y.condRank = x.condRank := by
  rw [hy, decideSel_eq]
  exact keptSel_condRank x

theorem decideSel_cmd : y.cmd = if dropsCmd x then 0 else x.cmd := by
  rw [hy, decideSel_eq]
  exact keptSel_cmd x

/-- The copy decided is the one that the request in force selects, of the command that is kept (R186). -/
theorem decideSel_want : y.want = { x with cmd := y.cmd }.selects y.req := by
  rw [hy, decideSel_eq]
  change (keptSel x).selects _ = _
  rw [keptSel_eq]
  rfl

/-- The cases of a decision, in the selector that it leaves. -/
theorem decideSel_cases :
    (5 < topRank y ∧ y.req = topRank y ∧ y.wtr = none ∧ y.dnr = false) ∨
    (topRank y < 5 ∧ y.req = 5 ∧ y.wtr.isSome = true ∧ y.dnr = false) ∨
    (topRank y = 4 ∧ y.req = 4 ∧ y.wtr = none) ∨
    (topRank y = 0 ∧ y.req = 3 ∧ y.wtr = none ∧ y.dnr = true) ∨
    (topRank y = 0 ∧ y.req = 2 ∧ y.wtr = none ∧ y.dnr = false ∧ (x.want && !x.revert) = false) := by
  have atKept := nextReq_cases (keptSel x)
  rw [keptSel_want, keptSel_revert] at atKept
  rw [hy, decideSel_eq]
  exact atKept

/-- A decision leaves a request from NR to LOCKOUT (R186). -/
theorem decideSel_req_bounds : 2 ≤ y.req ∧ y.req ≤ 11 := by
  have top := topRank_cases y
  have req := decideSel_cases hy
  omega

/-- The request in force is as high as every condition, the command, WTR and Do not revert (R186), -/
theorem decideSel_req_highest : y.condRank ≤ y.req ∧ selCmdRank y.cmd ≤ y.req ∧
    (y.wtr.isSome = true → 5 ≤ y.req) ∧ (y.dnr = true → 3 ≤ y.req) := by
  have cond : y.condRank ≤ topRank y := le_max_left ..
  have cmd : selCmdRank y.cmd ≤ topRank y := le_max_right ..
  rcases decideSel_cases hy with h | h | h | h | h <;> simp [h] <;> omega

/-- and is one of these, or NR. -/
theorem decideSel_req_is : y.req = y.condRank ∨ y.req = selCmdRank y.cmd ∨ (y.wtr.isSome = true ∧ y.req = 5) ∨
    (y.dnr = true ∧ y.req = 3) ∨ y.req = 2 := by
  have top : topRank y = y.condRank ∨ topRank y = selCmdRank y.cmd := max_choice ..
  rcases decideSel_cases hy with ⟨_, req, _⟩ | ⟨_, req, runs, _⟩ | ⟨h, req, _⟩ | ⟨_, req, _, stands⟩ | ⟨_, req, _⟩
  · omega
  · exact .inr (.inr (.inl ⟨runs, req⟩))
  · omega
  · exact .inr (.inr (.inr (.inl ⟨stands, req⟩)))
  · omega

/-- No request below WTR is in force while WTR has not expired (R187). -/
theorem decideSel_req_of_wtr (runs : x.wtr.isSome = true) : 5 ≤ y.req := by
  have high := (decideSel_req_highest hy).2.2.1
  rcases le_or_gt (topRank y) 5 with low | above
  · refine high ?_
    rw [hy, decideSel_eq] at low ⊢
    exact nextWtr_isSome (by rwa [keptSel_wtr]) low
  · rcases decideSel_cases hy with h | h | h | h | h <;> omega

/-- A command is dropped below a condition or WTR, which are requests then (R189). -/
theorem decideSel_drops_below (drops : dropsCmd x = true) : selCmdRank x.cmd < y.req := by
  have cond : x.condRank ≤ y.req := decideSel_condRank hy ▸ (decideSel_req_highest hy).1
  simp only [dropsCmd, Bool.and_eq_true, decide_eq_true_eq, lt_max_iff] at drops
  rcases drops.2 with below | below
  · omega
  · split_ifs at below with wtr
    · have := decideSel_req_of_wtr hy wtr.1
      omega
    · omega

/-- NR selects working: a selector that would stay on protection has Do not revert (R186, R187). -/
theorem decideSel_noRequest (noRequest : y.req = 2) : (x.want && !x.revert) = false := by
  rcases decideSel_cases hy with h | h | h | h | ⟨_, _, _, _, reverts⟩
  case inr.inr.inr.inr => exact reverts
  all_goals omega

/-- The copy that each request selects (R186). -/
theorem decideSel_copies : (y.req = 11 ∨ y.req = 10 ∨ y.req = 2 → y.want = false) ∧
    (y.req = 8 ∨ y.req = 5 ∨ y.req = 3 → y.want = true) ∧ (y.req = 9 → y.want = decide (y.cmd = 2)) ∧
    (y.req = 6 → y.want = decide (y.cmd = 4)) ∧ (y.req = 4 → y.want = x.want) ∧
    (y.req = 7 → y.want = if x.w.isSd && x.p.isSd then x.want else x.w.isSd) := by
  have want := decideSel_want hy
  refine ⟨?working, ?protection, ?_, ?_, ?_, ?_⟩
  case working =>
    rintro (req | req | req)
    · rw [want, req]; rfl
    · rw [want, req]; rfl
    · rw [want, req]; exact (decideSel_noRequest hy req :)
  case protection => rintro (req | req | req) <;> rw [want, req] <;> rfl
  all_goals
    intro req
    rw [want, req]
    rfl

end

end Sys2Proof.Machine
end

section
/-! SUPPORT. The request in force of a selector (R186, R187, R189). -/

open Sys2Proof.Machine

/-- Settles O41: the request of a decision is one of five cases (`decideSel_cases`), from which its bounds and its copy follow; a command
drops by `dropsCmd`, below a request that stands after the decision. -/
theorem selectorsFollowTheHighestRequest : Obligations.SelectorsFollowTheHighestRequest := by
  unfold Obligations.SelectorsFollowTheHighestRequest
  refine ⟨fun x _ => decideSel_req_bounds rfl, ?highest, fun x y hy _ => decideSel_copies hy, ?drops, ?keeps⟩
  case highest =>
    intro x y hy
    obtain ⟨cond, cmd, wtr, dnr⟩ := decideSel_req_highest hy
    exact ⟨decideSel_condRank hy, cond, cmd, wtr, dnr, decideSel_req_is hy⟩
  case drops =>
    intro x gone
    rw [decideSel_gone] at gone ⊢
    split_ifs at gone ⊢ with drops
    · exact ⟨rfl, by rw [decideSel_cmd rfl, if_pos drops], decideSel_drops_below rfl drops⟩
    · exact absurd rfl gone
  case keeps =>
    intro x kept
    rw [decideSel_gone] at kept
    rw [decideSel_cmd rfl]
    split_ifs at kept ⊢
    · exact kept.symm
    · rfl
end

section
/-! SUPPORT. What the timers, the configuration and the commands of selectors and groups do, for those that exist and descriptors that no
reason refuses (R183 to R190). -/

namespace Sys2Proof.Machine

/-! ### Timers of a selector and of a group -/

section
variable {k : Nat} {x : Sel} {s : State} (configured : sel? s k = some x)
include configured

theorem exec_holdoffExpiry_working : exec (.holdoffExpiry (.sel k) 0) s =
    .next (setSel s k { x with w := x.w.expire (holdFrames (fld x.par 9 3)) }) := by
  change execHoldoffExpiry (.sel k) 0 s = _
  simp only [execHoldoffExpiry, configured, if_true]

theorem exec_holdoffExpiry_protection : exec (.holdoffExpiry (.sel k) 1) s =
    .next (setSel s k { x with p := x.p.expire (holdFrames (fld x.par 9 3)) }) := by
  change execHoldoffExpiry (.sel k) 1 s = _
  simp only [execHoldoffExpiry, configured, one_ne_zero, if_false, if_true]

/-- WTR that has run its time ends; a WTR of 0 has after one frame (R187). -/
theorem exec_wtrExpiry_sel {n : Nat} (runs : x.wtr = some n) (ran : max 1 (wtrFrames (fld x.par 25 16)) ≤ n) :
    exec (.wtrExpiry (.sel k)) s = .next (setSel s k { x with wtr := none }) := by
  change execWtrExpiry (.sel k) s = _
  simp only [execWtrExpiry, configured, runs, ran, if_true]

/-- An exercise that has run 1 s ends with its result, and the selector decides (R190). -/
theorem exec_selExerEnd_ends {ok : Bool} (exercises : x.exer = some ok) (ran : 8000 ≤ x.exerRun) : exec (.selExerEnd k) s =
    .next (decide' (selEvent (setSel s k { x with cmd := 0, exer := none }) k 4 0 (b2n ok)) k) := by
  change execSelExerEnd k s = _
  simp only [execSelExerEnd, configured, exercises, ran.not_gt, if_false]

end

section
variable {i : Fin 64} {g : Grp} {s : State} (configured : grp? s i = some g)
include configured

theorem exec_holdoffExpiry_grp (c : Nat) : exec (.holdoffExpiry (.grp i) c) s = .next (setGrp s i { g with
    lanes := listPut g.lanes c ((g.lanes.getD c {}).expire (holdFrames (fld g.w7 11 5))) }) := by
  change execHoldoffExpiry (.grp i) c s = _
  simp only [execHoldoffExpiry, configured]

theorem exec_wtrExpiry_grp {w : Nat × Nat} (runs : g.wtr = some w) (ran : max 1 (wtrFrames (fld g.w7 25 16)) ≤ w.1) :
    exec (.wtrExpiry (.grp i)) s = .next (setGrp s i { g with wtr := none }) := by
  change execWtrExpiry (.grp i) s = _
  simp only [execWtrExpiry, configured, runs, ran, if_true]

end

/-! ### SEL_CFG and SEL_CMD -/

/-- A SEL_CFG that no reason refuses waits for the next frame boundary (R185). -/
theorem selCfg_defers {d : Nat} {remove : Bool} {x : Desc} {s : State} (taken : takeDesc s d 0x30 = some x)
    (admitted : selReason s x = none) (row : bit (x.w 6) 31 = remove) :
    selCfg d remove s = defer s d false (.sel (cfgWords x)) := by
  subst row
  simp only [selCfg, taken, admitted, bne_self_eq_false, Bool.false_eq_true, if_false]

section
variable {d c : Nat} {x : Desc} {s : State} (taken : takeDesc s d 0x31 = some x) (admitted : cmdReason s x = none)
  (row : fld (x.w 7) 3 0 = c)
include taken admitted row

/-- A row of SEL_CMD that no reason refuses is the command of its selector, -/
theorem exec_selCmd_selector (ofSel : fld (x.w 6) 18 17 ≠ 3) :
    (.next (selCmd c d s) : Out) = .next (selCommand s d (wordKey (x.w 6)) c) := by
  subst row
  simp only [selCmd, taken, admitted, ofSel, ne_eq, not_true, and_false, if_false]

/-- or of its group (R189). -/
theorem exec_selCmd_group (ofGrp : fld (x.w 6) 18 17 = 3) :
    (.next (selCmd c d s) : Out) = .next (grpCommand s d (fld (x.w 6) 5 0) c (fld (x.w 7) 11 8)) := by
  subst row
  simp only [selCmd, taken, admitted, ofGrp, ne_eq, not_true, and_false, if_false, if_true]

end

end Sys2Proof.Machine
end

section
/-! SUPPORT. Selectors, their timers and their commands (R183 to R190). -/

open Sys2Proof.Machine

/-- Settles O14: a clause for each command, from the lemma about it; PROTECTION_DECISION is the decision itself, and the seven rows of
SEL_CMD are one meaning that takes the row's CMD. -/
theorem selectorsAndTheirCommandsAct : Obligations.SelectorsAndTheirCommandsAct := by
  unfold Obligations.SelectorsAndTheirCommandsAct
  refine ⟨fun k x s configured => ⟨exec_holdoffExpiry_working configured, exec_holdoffExpiry_protection configured⟩,
    fun i c g s configured => exec_holdoffExpiry_grp configured c,
    fun _ _ => rfl,
    fun _ _ => rfl,
    fun k n x s configured runs ran => exec_wtrExpiry_sel configured runs ran,
    fun i w g s configured runs ran => exec_wtrExpiry_grp configured runs ran,
    ?selCfg, ?ofSelector, ?ofGroup,
    fun k x ok s configured exercises ran => exec_selExerEnd_ends configured exercises ran⟩
  case selCfg =>
    intro d x s taken admitted
    exact ⟨fun row => congrArg Host.Outcome.next (selCfg_defers taken admitted row),
      fun row => congrArg Host.Outcome.next (selCfg_defers taken admitted row)⟩
  case ofSelector =>
    rintro d _ _ x s taken admitted rfl ofSel rfl
    have commands := fun c row => exec_selCmd_selector taken admitted row ofSel (c := c)
    exact ⟨commands 0, commands 1, commands 2, commands 3, commands 4, commands 5, commands 6⟩
  case ofGroup =>
    rintro d _ _ _ x s taken admitted rfl ofGrp rfl rfl
    have commands := fun c row => exec_selCmd_group taken admitted row ofGrp (c := c)
    exact ⟨commands 0, commands 1, commands 2, commands 4, commands 6⟩
end

section
/-! SUPPORT. What the configuration of an MSP group, its exercises, the pairs accepted and the far-end violations do, for a group that exists
and has met the count of its rule (R190 to R196). -/

namespace Sys2Proof.Machine

/-- An APS_CFG that no reason refuses waits for the next frame boundary (R192). -/
theorem apsCfg_defers {d : Nat} {remove : Bool} {x : Desc} {s : State} (taken : takeDesc s d 0x33 = some x)
    (admitted : apsReason s x = none) (row : bit (x.w 6) 31 = remove) :
    apsCfg d remove s = defer s d false (.aps (cfgWords x)) := by
  subst row
  simp only [apsCfg, taken, admitted, bne_self_eq_false, Bool.false_eq_true, if_false]

/-- A violation is raised while its own part of a pair is not valid, and ends where neither part is invalid (R196). -/
theorem fopInvalid_eq (own other raised : Bool) :
    (if own then raised && !(own && other) else true) = (!own || (raised && !other)) := by
  cases own <;> rfl

theorem fopChannel_eq (own other raised : Bool) :
    (if own then raised && !(other && own) else true) = (!own || (raised && !other)) := by
  rw [Bool.and_comm other own, fopInvalid_eq]

section
variable {g : Fin 64} {x : Grp} {s : State} (configured : grp? s g = some x)
include configured

/-- What is valid of the pair accepted becomes the K1 and the K2 in use, but no K2 code of a defect; FOP_INVALID or FOP_CHANNEL is raised
for the part that is not valid, and both are cleared where both parts are valid (R195, R196). -/
theorem exec_apsKAccept_accepted {k1 k2 : Nat} {t u : State} (accepted : (frm s x.protLane).kRun = 3)
    (hk1 : k1 = fget s (Reg.laneK12 x.protLane) 7 0) (hk2 : k2 = fget s (Reg.laneK12 x.protLane) 15 8)
    (ht : t = setGrp s g { x with
      k1Used := if k1Valid x k1 then k1 else x.k1Used
      k2Used := if k2Valid x k2 = true ∧ k2 % 8 < 6 then k2 else x.k2Used
      kAcc := some (k1, k2), kStable := if x.kAcc = some (k1, k2) then x.kStable else 0 })
    (hu : u = setFop t g 0 (!k1Valid x k1 || (x.fop.getD 0 false && !k2Valid x k2)) (rawK s x)) :
    exec (.apsKAccept g) s = .next (setFop u g 1
      (if 6 ≤ k2 % 8 then x.fop.getD 1 false else !k2Valid x k2 || (x.fop.getD 1 false && !k1Valid x k1)) (rawK s x)) := by
  subst hk1 hk2 ht hu
  change execApsKAccept g s = _
  simp only [execApsKAccept, configured, accepted, ne_eq, not_true, if_false, fopInvalid_eq, fopChannel_eq, Bool.and_eq_true,
    Bool.not_eq_true', decide_eq_true_eq, decide_eq_false_iff_not, not_le]

/-- An exercise ends as the far end answers or after 50 ms, with its result, and the group decides (R190). -/
theorem exec_apsExerEnd_ends {c n : Nat} (exercises : x.exer = some (c, n)) (ends : answered x c = true ∨ 400 ≤ n) :
    exec (.apsExerEnd g) s = .next (decideGroup (grpEvent (setGrp s g { x with cmd := 0, cmdCh := 0, exer := none }) g 9
      false (w32 (b2n (answered x c) + 256 * c))) g) := by
  have ended : (!answered x c && decide (n < 400)) = false := by
    rcases ends with answers | ran <;> simp [*]
  change execApsExerEnd g s = _
  simp only [execApsExerEnd, configured, exercises, ended, Bool.false_eq_true, if_false]

/-! ### Far-end violations -/

/-- FOP_ARCH and FOP_MODE change after 50 ms against their state, -/
theorem exec_fopArch_ran (ran : 400 ≤ x.archRun) : exec (.fopArch g) s =
    .next (setFop (setGrp s g { x with archRun := 0 }) g 2 (!x.fop.getD 2 false) (rawK s x)) := by
  change execFopArch g s = _
  simp only [execFopArch, configured, ran.not_gt, if_false]

theorem exec_fopMode_ran (ran : 400 ≤ x.modeRun) : exec (.fopMode g) s =
    .next (setFop (setGrp s g { x with modeRun := 0 }) g 3 (!x.fop.getD 3 false) (rawK s x)) := by
  change execFopMode g s = _
  simp only [execFopMode, configured, ran.not_gt, if_false]

/-- FOP_NORESP is declared 50 ms after K1 changed without an answer, -/
theorem exec_fopNoresp_ran (ran : 400 ≤ x.noresp) (without : unanswered x = true) :
    exec (.fopNoresp g) s = .next (setFop s g 4 true (norespWord x)) := by
  change execFopNoresp g s = _
  simp only [execFopNoresp, configured, ran.not_gt, without, Bool.not_true, Bool.false_eq_true, or_self, if_false]

/-- FOP_FLAP with the fifth change within 1 s, and it ends after 1 s of one pair (R196). -/
theorem exec_fopFlap_fifth (fifth : 5 ≤ x.flaps.length) :
    exec (.fopFlap g) s = .next (setFop s g 5 true (w32 x.flaps.length)) := by
  change execFopFlap g s = _
  simp only [execFopFlap, configured, fifth.not_gt, if_false]

theorem exec_fopFlapClear_stable (stable : 8000 ≤ x.kStable) :
    exec (.fopFlapClear g) s = .next (setFop s g 5 false (w32 x.flaps.length)) := by
  change execFopFlapClear g s = _
  simp only [execFopFlapClear, configured, stable.not_gt, if_false]

end

end Sys2Proof.Machine
end

section
/-! SUPPORT. MSP groups and their far end (R190 to R196). -/

open Sys2Proof.Machine

/-- Settles O15: a clause for each command, from the lemma about it. -/
theorem mspGroupsFollowTheirFarEnd : Obligations.MspGroupsFollowTheirFarEnd := by
  unfold Obligations.MspGroupsFollowTheirFarEnd
  refine ⟨?apsCfg,
    fun g k1 k2 x s t u configured accepted hk1 hk2 ht hu => exec_apsKAccept_accepted configured accepted hk1 hk2 ht hu,
    fun g c n x s configured exercises ends => exec_apsExerEnd_ends configured exercises ends,
    fun g x s configured ran => exec_fopArch_ran configured ran,
    fun g x s configured ran => exec_fopMode_ran configured ran,
    fun g x s configured ran without => exec_fopNoresp_ran configured ran without,
    fun g x s configured fifth => exec_fopFlap_fifth configured fifth,
    fun g x s configured stable => exec_fopFlapClear_stable configured stable⟩
  case apsCfg =>
    intro d x s taken admitted
    exact ⟨fun row => congrArg Host.Outcome.next (apsCfg_defers taken admitted row),
      fun row => congrArg Host.Outcome.next (apsCfg_defers taken admitted row)⟩
end

section
/-! SUPPORT. What the configuration of merges and guards, their alignment, their windows, the probes received and the guards' timers do, for
those that exist and have met the count of their rule (R204 to R217, R225 to R237). -/

namespace Sys2Proof.Machine

/-! ### MERGE_CFG and GUARD_CFG -/

/-- A MERGE_CFG that no reason refuses waits for the boundary of its selector's switching period (R188, R206), -/
theorem mergeCfg_defers {d : Nat} {off : Bool} {x : Desc} {s : State} (taken : takeDesc s d 0x38 = some x)
    (admitted : mergeReason s x = none) (row : bit (x.w 6) 31 = off) :
    mergeCfg d off s = defer s d (keyTier (wordKey (x.w 6)) == 1) (.merge (cfgWords x)) := by
  subst row
  simp only [mergeCfg, taken, admitted, bne_self_eq_false, Bool.false_eq_true, if_false]

/-- and a GUARD_CFG for the next frame boundary (R226). -/
theorem guardCfg_defers {d : Nat} {remove : Bool} {x : Desc} {s : State} (taken : takeDesc s d 0x40 = some x)
    (admitted : guardReason s (cfgWords x) = none) (row : bit (x.w 6) 31 = remove) :
    guardCfg d remove s = defer s d false (.guard (cfgWords x)) := by
  subst row
  simp only [guardCfg, taken, admitted, bne_self_eq_false, Bool.false_eq_true, if_false]

/-! ### Alignment and windows of a merge -/

section
variable {key : Nat} {x : Merge} {y : Sel} {s : State} (merges : merge? s key = some x) (selects : sel? s key = some y)
include merges selects

/-- A merge that acquires is aligned once its history covers the offset confirmed (R207 to R209). -/
theorem exec_mergeAlignReached_acquiring {o : Int} (acquires : x.st = 0) (confirmed : x.delta = some o)
    (covers : iabs o ≤ x.hist) : exec (.mergeAlignReached key) s = .next (enterAligned s key y x o) := by
  change execMergeAlignReached key s = _
  simp only [execMergeAlignReached, merges, selects, acquires, confirmed, covers, if_true]

/-- A comparison window whose blocks have come is one of acquisition or of tracking (R213 to R217). -/
theorem exec_mergeWindowEnd_whole (correlates : x.corr = true) (whole : winBlocks s y.working ≤ x.winRun) :
    exec (.mergeWindowEnd key) s = .next (if x.st = 0 then windowAcquire s key y { x with winRun := 0 }
      else windowTrack s key y { x with winRun := 0 }) := by
  change execMergeWindowEnd key s = _
  simp only [execMergeWindowEnd, merges, selects, correlates, whole.not_gt, Bool.not_true, decide_false, Bool.or_self,
    Bool.false_eq_true, if_false]

end

/-! ### Leiv probes received -/

/-- The oldest message received is taken off its queue and then examined, on an SDH lane whose probes are on (R69, R228). -/
theorem exec_leivProbeRx_oldest {lane : LaneId} {msg : List Byte} {q : List (List Byte)} {s t : State}
    (oldest : (frm s lane).probeDue = msg :: q) (ht : t = editFrm s lane (fun f => { f with probeDue := q }))
    (sdh : sdhOn t lane = true) (probes : (frm t lane).probeOn = true) :
    exec (.leivProbeRx lane) s = .next (probeTake t lane msg) := by
  subst ht
  change execLeivProbeRx lane s = _
  simp only [execLeivProbeRx, oldest, sdh, probes, Bool.and_self, if_true]

/-- A faulty message is counted and reported (R237). -/
theorem probeTake_faulty {s : State} {l r : Nat} {msg : List Byte} (faulty : probeFault msg = some r) :
    probeTake s l msg = raiseOnce (probeBad s) l 0x70 l (w32 (0x70 + 256 * l)) (w32 r) := by
  simp only [probeTake, faulty]

section
variable {s : State} {l : Nat} {msg : List Byte} (sound : probeFault msg = none)
include sound

/-- A sound message reaches every guard of its node on the lane, counts as bad where a reserved bit is set, and then gives its four records
(R228 to R237). -/
theorem probeTake_known {gs : List Nat} {t u : State}
    (hgs : gs = ((s.sym.guards.filter (fun p => p.2.onLane l)).filter (fun p => p.2.partner == w32 (msgNat msg 4 4))).map
      (fun p => p.1))
    (known : gs ≠ []) (hu : u = gs.foldl (fun s g => heardPartner s g ((msg.getD 2 0).getLsbD 7)) s)
    (ht : t = if (msg.getD 2 0).toNat % 16 = 0 ∧ (msg.drop 8).take 4 = List.replicate 4 0 then u else probeBad u) :
    probeTake s l msg = (List.range 4).foldl (fun s i =>
      rxRecord s l (w32 (msgNat msg 4 4)) ((msg.drop (12 + 12 * i)).take 12)) t := by
  subst ht hu
  have heard : gs.isEmpty = false := List.isEmpty_eq_false_iff.mpr known
  subst hgs
  simp only [probeTake, sound, heard, Bool.false_eq_true, if_false, ne_eq, ← not_and_or, ite_not]

/-- A sound message of a node that no guard of the lane has as its partner is counted, and reported for each guard of the lane (R237). -/
theorem probeTake_unknown
    (unknown : (s.sym.guards.filter (fun p => p.2.onLane l)).filter (fun p => p.2.partner == w32 (msgNat msg 4 4)) = []) :
    probeTake s l msg = (s.sym.guards.filter (fun p => p.2.onLane l)).foldl (fun s p =>
      raiseOnce s (0x580 + p.1 / 32) 9 p.1 (guardWord p.1 9 false false) (w32 (msgNat msg 4 4))) (probeBad s) := by
  simp only [probeTake, sound, unknown, List.map_nil, List.isEmpty_nil, if_true]

end

/-! ### Timers and compensation of a guard -/

section
variable {g : Fin 4096} {x : Guard} {s : State} (configured : guard? s g = some x)
include configured

/-- ASYM ends after 100 ms below 0.9 of its threshold, -/
theorem exec_guardAsymClear_ran (stands : x.asym = true) (ran : 800 ≤ x.asymRun) : exec (.guardAsymClear g) s =
    .next (guardEvent (setGuard s g { x with asym := false }) g 3 false false (guardAsym s g)) := by
  change execGuardAsymClear g s = _
  simp only [execGuardAsymClear, configured, stands, ran, decide_true, Bool.and_self, if_true]

/-- and the partner is lost after 100 ms without a valid message of it (R233). -/
theorem exec_partnerLost_ran (heard : x.stale = false) (ran : 800 ≤ x.silent) : exec (.partnerLost g) s =
    .next (guardEvent (setGuard s g { x with stale := true }) g 5 true false x.partner) := by
  change execPartnerLost g s = _
  simp only [execPartnerLost, configured, heard, ran, Bool.not_false, decide_true, Bool.and_self, if_true]

/-- An announced step is taken in frame 0 of its superframe, and the target is followed on from there (R235). -/
theorem exec_guardCompStepDue_reached {n sfc : Nat} (announced : x.ann = some (n, sfc)) (first : s.glb.frame = 0)
    (reached : frameSfc s = sfc) : exec (.guardCompStepDue g) s = .next (followTarget (stepComp s g n) g) := by
  change execGuardCompStepDue g s = _
  simp only [execGuardCompStepDue, configured, announced, first, reached, and_self, if_true]

/-- The hold of GUARD_PULSE ends once HOLD ms have passed (R236). -/
theorem exec_guardPulseHoldEnd_ran {n : Nat} (holds : x.holdRun = some n) (ran : 8 * fld (x.w 14) 16 9 ≤ n) :
    exec (.guardPulseHoldEnd g) s = .next (setGuard s g { x with holdRun := none }) := by
  change execGuardPulseHoldEnd g s = _
  simp only [execGuardPulseHoldEnd, configured, holds, ran, if_true]

end

/-- The guard whose c_in a slew has moved to `c`: the slew ends where that is its target (R235). -/
theorem slewed_eq (x : Guard) (t c : Nat) :
    (if c = t then { x with cIn := c, slewGap := 0, slew := none } else { x with cIn := c, slewGap := 0 }) =
      { x with cIn := c, slewGap := 0, slew := if c = t then none else x.slew } := by
  split_ifs <;> rfl

/-- A slew that may move does so by one unit towards its target, with a COMP record each 10 µs and at its end; the adjustment of the path
starts its own distance, and each output fed through the guard counts a justification (R80, R81, R235). -/
theorem exec_guardSlewUnit_moves {g : Fin 4096} {t : Nat} {x y z : Guard} {a : Word} {s u v : State}
    (configured : guard? s g = some x) (slews : x.slew = some t) (heard : x.stale = false) (due : slewFrames s x ≤ x.slewGap)
    (receives : guardRx s x = some a) (apart : 3 ≤ (path s a).adjGap) (away : t ≠ x.cIn)
    (hy : y = { x with cIn := if x.cIn < t then x.cIn + 1 else x.cIn - 1, slewGap := 0
                       slew := if (if x.cIn < t then x.cIn + 1 else x.cIn - 1) = t then none else x.slew })
    (hz : z = if 10000 ≤ iabs ((guardC s y : Int) - x.lastComp) ∨ y.slew = none then queueComp s y else y)
    (hu : u = editPath (setGuard s g z) a (fun p => { p with adjGap := 0 }))
    (hv : v = ((usedOutputs u).filter (fun o => (outGuard u o).map (fun p => p.1) == some g.val)).foldl
      (fun s o => pcount s o (if x.cIn < t then 13 else 14) 1) u) :
    exec (.guardSlewUnit g) s =
      .next (guardAlarms (shiftLatency v g ((guardC v z : Int) - (guardC v x : Int))) g) := by
  have free : ¬(x.stale = true ∨ x.slewGap < slewFrames s x ∨ decide ((path s a).adjGap < 3) = true ∨ t = x.cIn) := by
    simp [heard, due, apart, away]
  rw [← slewed_eq] at hy
  subst hv hu hz hy
  change execGuardSlewUnit g s = _
  simp only [execGuardSlewUnit, configured, slews, receives, Option.any_some, free, if_false]
  simp only [decide_eq_true_eq, Bool.or_eq_true, Option.isNone_iff_eq_none]

end Sys2Proof.Machine
end

section
/-! SUPPORT. Merges and guards (R204 to R217, R225 to R237). -/

open Sys2Proof.Machine

/-- Settles O16: a clause for each command, from the lemma about it; the three clauses of LEIV_PROBE_RX share the taking of the oldest message
and differ in what `probeTake` does with it. -/
theorem mergesAndGuardsFollowTheirDelays : Obligations.MergesAndGuardsFollowTheirDelays := by
  unfold Obligations.MergesAndGuardsFollowTheirDelays
  refine ⟨?mergeCfg, ?guardCfg,
    fun key o x y s merges selects acquires confirmed covers =>
      exec_mergeAlignReached_acquiring merges selects acquires confirmed covers,
    fun key x y s merges selects correlates whole => exec_mergeWindowEnd_whole merges selects correlates whole,
    ?faulty, ?known, ?unknown,
    fun g x s configured stands ran => exec_guardAsymClear_ran configured stands ran,
    fun g x s configured heard ran => exec_partnerLost_ran configured heard ran,
    fun g n sfc x s configured announced first reached => exec_guardCompStepDue_reached configured announced first reached,
    fun g t x y z a s u v configured slews heard due receives apart away hy hz hu hv =>
      exec_guardSlewUnit_moves configured slews heard due receives apart away hy hz hu hv,
    fun g n x s configured holds ran => exec_guardPulseHoldEnd_ran configured holds ran⟩
  case mergeCfg =>
    intro d x s taken admitted
    exact ⟨fun row => congrArg Host.Outcome.next (mergeCfg_defers taken admitted row),
      fun row => congrArg Host.Outcome.next (mergeCfg_defers taken admitted row)⟩
  case guardCfg =>
    intro d x s taken admitted
    exact ⟨fun row => congrArg Host.Outcome.next (guardCfg_defers taken admitted row),
      fun row => congrArg Host.Outcome.next (guardCfg_defers taken admitted row)⟩
  case faulty =>
    intro lane msg q r s t oldest ht sdh probes faulty
    rw [exec_leivProbeRx_oldest oldest ht sdh probes, probeTake_faulty faulty]
  case known =>
    intro lane msg q l r s t u oldest hs sdh probes sound hl known hu ht
    rw [exec_leivProbeRx_oldest oldest hs sdh probes, probeTake_known sound hl known hu ht]
  case unknown =>
    intro lane msg q r s oldest hs sdh probes sound unknown
    rw [exec_leivProbeRx_oldest oldest hs sdh probes, probeTake_unknown sound unknown]
end

section
/-! SUPPORT. What the registers, links and frames of Ethernet lanes and the configuration, the packets and the playout of pseudowires do, under
the conditions of their rules (R242 to R256, R262). -/

namespace Sys2Proof.Machine

/-! ### Ethernet lanes -/

/-- A word with an MTU in range and no host-frame ring is taken by a lane that carries its own signal (R262). -/
theorem exec_ethCtlWrite_noRing {lane : LaneId} {v : Word} {s : State} (ready : hostReady s (lane.val / 8))
    (alone : quadMember s lane = false) (low : 64 ≤ fld v 13 0) (high : fld v 13 0 ≤ 9216) (noRing : fld v 27 16 = 0) :
    exec (.ethCtlWrite lane v) s = .next (wr s (Reg.laneEthCtl lane) (v &&& 0x0FFFFFFF)) := by
  rw [exec_domainWrite_acts ready (c := .ethCtlWrite lane v) rfl]
  simp only [alone, low.not_gt, high.not_gt, noRing, ne_eq, not_true_eq_false, false_and, or_self, Bool.false_eq_true, if_false]

/-- A link change shows the latency of a new alignment, the five status bits, what the lane sends to its far end, and the frame that a link come
up lets begin (R242, R243, R264). -/
theorem exec_ethLinkChange_shown {lane : LaneId} {block align hiBer lf rf : Bool} {k : Nat} {s t u v : State}
    (ethernet : ethLane s lane = true)
    (ht : t = if align = true ∧ 6 ≤ laneMode s lane ∧ bget s (Reg.laneEthStatus lane) 1 = false then
      editEth s lane (fun e => { e with deskew := min 2880 k }) else s)
    (hu : u = if laneLat t lane = laneLat s lane then t else laneEvent t lane 0x37 (laneLat t lane))
    (hv : v = ethBit (ethBit (ethBit (ethBit (ethBit u lane 0 0x31 block) lane 1 0x35 (align && decide (6 ≤ laneMode s lane)))
      lane 2 0x32 hiBer) lane 3 0x33 lf) lane 4 0x34 rf) :
    exec (.ethLinkChange lane block align hiBer lf rf k) s =
      .next (ethStart (rsFollow (rsSends s lane) (followLink v lane) lane) lane) := by
  subst hv hu ht
  change execEthLinkChange lane block align hiBer lf rf k s = _
  simp only [execEthLinkChange, ethernet, Bool.not_true, Bool.false_eq_true, if_false, Bool.and_eq_true, decide_eq_true_eq,
    Bool.not_eq_true', and_assoc]

/-! ### Host frames -/

/-- A receive buffer that may be posted waits behind those posted before it on the lane of its ring (R68, R245). -/
theorem exec_ethRxBuf_posted {d c : Nat} {x : Desc} {s : State} (inFlight : desc? s d = some x) (isBuf : x.op = 0x4B)
    (free : mayPost s x = true) (inRange : rangeBad s x = false) (ofRing : ethRing s x.ring = some c) :
    exec (.ethRxBuf d) s = .next
      (editEth (editDesc s d (fun x => { x with st := 1, bound := some (0x4B, c) })) c (fun q => { q with rxb := q.rxb ++ [d] })) := by
  change execEthRxBuf d s = _
  simp only [execEthRxBuf, inFlight, isBuf, free, inRange, ofRing, and_self, Bool.false_eq_true, if_true, if_false]

/-- A frame of 60 bytes up to the MTU, whose correctionField lies in it, joins the queue of its Ethernet lane (R242, R246). -/
theorem exec_ethTx_queued {d n : Nat} {io : HostIO} {x : Desc} {s t : State} (taken : takeInput s d 0x4A = some (t, x))
    (inRange : rangeBad s x = false) (hn : n = fld (x.w 6) 6 0) (ethernet : ethLane s n = true) (long : 60 ≤ x.len)
    (short : x.len + 4 ≤ fget s (Reg.laneEthCtl n) 13 0) (inFrame : bit (x.w 6) 8 = true → fld (x.w 7) 15 0 + 8 ≤ x.len) :
    exec (.ethTx d io) s = .next (withInput t io x x.len (fun s b =>
      ethStart (editEth (editDesc s d (fun y => { y with st := 1, bound := some (0x4A, n) })) n
        (fun q => { q with txq := q.txq ++ [(d, b)] })) n)) := by
  subst hn
  have corrected : (bit (x.w 6) 8 && decide (x.len < fld (x.w 7) 15 0 + 8)) = false := by
    simpa only [Bool.and_eq_false_imp, decide_eq_false_iff_not, not_lt] using inFrame
  change execEthTx d io s = _
  simp only [execEthTx, taken, inRange, ethernet, long.not_gt, short.not_gt, corrected, Bool.not_true, Bool.or_self,
    decide_false, Bool.false_eq_true, if_false]

/-- The oldest frame, being sent, leaves with its one-step correction; the packets held behind it follow, and its descriptor completes with the
stamp and its form (R241, R243, R244, R246). -/
theorem exec_ethTxSent_sending {lane : LaneId} {d : Nat} {f g : List Byte} {r : List (Nat × List Byte)} {p : Nat × Nat} {s t u : State}
    (oldest : (eth s lane).txq = (d, f) :: r) (ht : t = ethStart s lane) (sending : (eth t lane).sending = true)
    (hp : p = stampForm t lane (((laneLat t lane).toNat / 65536 : Nat) : Int))
    (hg : g = (match desc? t d with
      | some x => if bit (x.w 6) 8 then correct f (fld (x.w 7) 15 0) p.1 p.2 (x.w 8) else f
      | none => f))
    (hu : u = heldLeave (ethSend (editEth t lane (fun e => { e with txq := r, sending := false })) lane g) lane) :
    exec (.ethTxSent lane) s = .next (ethStart (completeOk u d (ethTxWord u lane p.2) (w32 p.1)) lane) := by
  subst hu hg hp ht
  change execEthTxSent lane s = _
  cases inFlight : desc? (ethStart s lane) d with
  | none | some x => simp only [execEthTxSent, oldest, sending, inFlight, Bool.not_true, Bool.false_eq_true, if_false]

/-! ### Frames received -/

section
variable {s : State} {n : Nat} {g b : List Byte} {io : HostIO} (hb : b = g.take (g.length - 4))
include hb

/-- A frame too short, too long or with a bad FCS is counted and goes nowhere (R241). -/
theorem macReceive_bad (bad : g.length < 64 ∨ fget s (Reg.laneEthCtl n) 13 0 < g.length ∨ g.drop (g.length - 4) ≠ ethFcs b) :
    macReceive s n g io = count s (Reg.laneEthRxFcs n) 1 := by
  subst hb
  exact if_pos bad

section
variable (long : 64 ≤ g.length) (short : g.length ≤ fget s (Reg.laneEthCtl n) 13 0) (sound : g.drop (g.length - 4) = ethFcs b)
include long short sound

/-- A PAUSE frame is counted and not obeyed (R241). -/
theorem macReceive_pause (pause : frame16 b 12 = 0x8808) : macReceive s n g io = count s (Reg.laneEthRxPause n) 1 := by
  subst hb
  simp only [macReceive, long.not_gt, short.not_gt, sound, pause, ne_eq, not_true_eq_false, or_self, if_false, if_true]

variable {v : State} (noPause : frame16 b 12 ≠ 0x8808) (hv : v = count s (Reg.laneEthRxOk n) 1)
include noPause hv

/-- Any other good frame goes to the pseudowire that claims it (R252), -/
theorem macReceive_claimed {k c : Nat} {x : Pw} (claimed : pwOf v n b = some (k, x, c)) :
    macReceive s n g io = pwReceive v k x b c := by
  subst hb hv
  simp only [macReceive, long.not_gt, short.not_gt, sound, noPause, claimed, ne_eq, not_true_eq_false, or_self, if_false]

/-- and where none does, to the host, or it matches nothing (R245). -/
theorem macReceive_unclaimed (unclaimed : pwOf v n b = none) :
    macReceive s n g io = if hostFrame v n b then hostDeliver v n b io else count v (Reg.laneEthRxNomatch n) 1 := by
  subst hb hv
  simp only [macReceive, long.not_gt, short.not_gt, sound, noPause, unclaimed, ne_eq, not_true_eq_false, or_self, if_false]

end
end

section
variable {lane : LaneId} {f : EthRx} {io : HostIO} {s t u : State} (ethernet : ethLane s lane = true) (up : laneState s lane = 4)
  (ht : t = ethLoops s lane f.bytes) (inLock : bget t (Reg.laneEthStatus lane) 0 = true)
  (hu : u = if fecOn t lane then fecCounts t lane f.corr f.uncorr else t)
include ethernet up ht inLock hu

/-- On a lane that is up and whose PCS has block lock, the frame that the receive path takes reaches the MAC (R32, R45, R241). -/
theorem exec_ethFrameRx_taken {g : List Byte} (taken : ethTaken s lane f.bytes = some g) :
    exec (.ethFrameRx lane f io) s = .next (macReceive u lane g io) := by
  subst hu ht
  change execEthFrameRx lane f io s = _
  simp only [execEthFrameRx, ethernet, up, inLock, taken, bne_self_eq_false, Bool.not_true, Bool.or_self, Bool.false_eq_true, if_false]

/-- Where a loopback brings it none, only the codewords are counted (R32, R45). -/
theorem exec_ethFrameRx_none (nothing : ethTaken s lane f.bytes = none) : exec (.ethFrameRx lane f io) s = .next u := by
  subst hu ht
  change execEthFrameRx lane f io s = _
  simp only [execEthFrameRx, ethernet, up, inLock, nothing, bne_self_eq_false, Bool.not_true, Bool.or_self, Bool.false_eq_true, if_false]

end

/-! ### PW_CFG -/

/-- A PW_CFG that no reason refuses waits for the next frame boundary (R249). -/
theorem pwCfg_defers {s : State} {x : Desc} {buf : List Byte} (admitted : pwReason s (cfgWords x) x.len buf = none) :
    pwCfg s x buf = defer s x.id false (.pw (cfgWords x) buf) := by
  simp only [pwCfg, admitted]

section
variable {d : Nat} {io : HostIO} {x : Desc} {s t : State} (taken : takeInput s d 0x48 = some (t, x)) (keeps : bit (x.w 6) 31 = false)
  (inRange : rangeBad s x = false)
include taken keeps inRange

/-- A PW_CFG without a template is checked at once (R249), -/
theorem exec_pwCfg_noTemplate (noTemplate : x.len = 0) : exec (.pwCfg d io) s = .next (pwCfg t x []) := by
  change execPwCfg d io s = _
  simp only [execPwCfg, taken, keeps, inRange, noTemplate, Bool.false_eq_true, if_false, if_true]

/-- and one with a template of 14 to 128 bytes once that has been read (R248, R249). -/
theorem exec_pwCfg_template (long : 14 ≤ x.len) (short : x.len ≤ 128) :
    exec (.pwCfg d io) s = .next (withInput t io x x.len (fun u b => pwCfg u x b)) := by
  have hasTemplate : x.len ≠ 0 := by omega
  change execPwCfg d io s = _
  simp only [execPwCfg, taken, keeps, inRange, hasTemplate, long.not_gt, short.not_gt, Bool.false_eq_true, or_self, if_false]

end

/-- REMOVE has no template, and is checked at once (R249). -/
theorem exec_pwRemove_checked {d : Nat} {x : Desc} {s : State} (taken : takeDesc s d 0x48 = some x) (removes : bit (x.w 6) 31 = true)
    (inRange : rangeBad s x = false) : exec (.pwRemove d) s = .next (pwCfg s x []) := by
  change execPwRemove d s = _
  simp only [execPwRemove, taken, removes, inRange, Bool.not_true, Bool.false_eq_true, if_false]

/-! ### Packets sent and played -/

section
variable {n : Fin 16384} {x : Pw} {s : State} (configured : pw? s n = some x)
include configured

/-- A packet is due once its payload has been collected, or where there is no signal to collect (R250, R251). -/
theorem exec_pwPacketTx_due {y : Pw} (collected : 8 * x.payload ≤ x.txBits.length ∨ pwIdle s n x = true)
    (hy : y = { x with
      txBits := x.txBits.drop (8 * x.payload), seqTx := (x.seqTx + 1) % 65536, ipId := (x.ipId + 1) % 65536
      tsTx := (x.tsTx + (if x.ces then x.frames else 8 * x.payload)) % (2 ^ 32 * x.tsUnit) }) :
    exec (.pwPacketTx n) s = .next (pwDue (setPw s n y) x.lane
      (n, pwFrame n x (pwL s n x) (fitBytes x.payload (bitsBytes (x.txBits.take (8 * x.payload)))) x.abcd)) := by
  subst hy
  have goes : ¬(x.txBits.length < 8 * x.payload ∧ (!pwIdle s n x) = true) := by
    simpa only [not_and_or, not_lt, Bool.not_eq_true', Bool.not_eq_false] using collected
  change execPwPacketTx n s = _
  simp only [execPwPacketTx, configured, goes, if_false]

/-- Outside PLAY all ones are played (R254). -/
theorem exec_pwPlayout_mutes (idle : x.st ≠ 2) : exec (.pwPlayout n) s = .next (setPw s n x.mute) := by
  change execPwPlayout n s = _
  simp only [execPwPlayout, configured, idle, ne_eq, not_false_eq_true, if_true]

variable (inPlay : x.st = 2) (read : x.played = true)
include inPlay read

/-- The packet of the slot that is due is played; a SAToP pseudowire whose buffer is then empty re-centres (R254 to R257). -/
theorem exec_pwPlayout_plays {z y : Pw} {p : PwPkt} (stackUp : s.hbm.rail4 = true)
    (there : x.buf.find? (fun p => p.seq == x.e) = some p)
    (hz : z = Pw.plays { x with
      e := (x.e + 1) % 65536, freq := iclamp (-200000) 200000 (sgn 32 (freeNow s).toNat)
      buf := x.buf.filter (fun q => q.seq != x.e), playOk := !p.l, missRun := 0 } x.e p.data)
    (hy : y = if p.sig.isEmpty then z else { z with casRx := p.sig }) :
    exec (.pwPlayout n) s = .next (if x.ces = false ∧ y.buf = [] then
      pwEvent (setPw (freeNext s) n y.recentre) n 5 false (w32 y.e) else setPw (freeNext s) n y) := by
  change execPwPlayout n s = _
  simp only [execPwPlayout, configured, not_not.mpr inPlay, read, freeNext_hbm, stackUp, there, Bool.not_true,
    Bool.false_eq_true, if_false, if_true, ← hz, ← hy]
  cases x.ces with
  | true => simp only [if_true, Bool.true_eq_false, false_and, if_false]
  | false => simp only [Bool.false_eq_true, if_false, true_and, List.isEmpty_iff]

/-- In the place of a packet that is missing its fill is played; with the last of a run of them the pseudowire declares loss of packets (R255,
R256). -/
theorem exec_pwPlayout_fills {y z : Pw} (missing : s.hbm.rail4 = true → x.buf.find? (fun p => p.seq == x.e) = none)
    (hy : y = (Pw.plays { x with
      e := (x.e + 1) % 65536, freq := iclamp (-200000) 200000 (sgn 32 (freeNow s).toNat), playOk := false
      missRun := x.missRun + 1 } x.e x.fill).tally 2)
    (hz : z = ({ y with st := 3, buf := [], missRun := 0, inRun := 0 } : Pw).tally 7) :
    exec (.pwPlayout n) s = .next (if fld x.w10 15 12 ≤ y.missRun then
      refreshConds (pwEvent (setPw (freeNext s) n z) n 1 true (z.cntOf 2)) else setPw (freeNext s) n y) := by
  subst hz
  have noPacket : (if (freeNext s).hbm.rail4 = true then x.buf.find? (fun p => p.seq == x.e) else none) = none := ite_eq_right_iff.mpr missing
  change execPwPlayout n s = _
  simp only [execPwPlayout, configured, not_not.mpr inPlay, read, noPacket, Bool.not_true,
    Bool.false_eq_true, if_false, ← hy]

end

end Sys2Proof.Machine
end

section
/-! SUPPORT. Ethernet lanes and pseudowires (R242 to R256, R262). -/

open Sys2Proof.Machine

/-- Settles O17: a clause for each command, from the lemma about it; the outcomes of a received frame are those of `macReceive`, and a PW_CFG
is checked by `pwCfg`. -/
theorem ethernetLanesAndPseudowiresCarryTheirFrames : Obligations.EthernetLanesAndPseudowiresCarryTheirFrames := by
  unfold Obligations.EthernetLanesAndPseudowiresCarryTheirFrames
  refine ⟨fun lane v s ready alone low high noRing => exec_ethCtlWrite_noRing ready alone low high noRing,
    fun lane block align hiBer lf rf k s t u v ethernet ht hu hv => exec_ethLinkChange_shown ethernet ht hu hv,
    fun d c x s inFlight isBuf free inRange ofRing => exec_ethRxBuf_posted inFlight isBuf free inRange ofRing,
    fun d n io x s t taken inRange hn ethernet long short inFrame =>
      exec_ethTx_queued taken inRange hn ethernet long short inFrame,
    fun lane d f g r p s t u oldest ht sending hp hg hu => exec_ethTxSent_sending oldest ht sending hp hg hu,
    ?received, ?noTemplate,
    fun d io x s t taken keeps inRange long short => exec_pwCfg_template taken keeps inRange long short,
    ?removed,
    fun n x y s configured collected hy => exec_pwPacketTx_due configured collected hy,
    fun n x s configured idle => exec_pwPlayout_mutes configured idle,
    fun n x z y p s configured inPlay read stackUp there hz hy =>
      exec_pwPlayout_plays configured inPlay read stackUp there hz hy,
    fun n x y s configured inPlay read missing hy => exec_pwPlayout_fills configured inPlay read missing hy rfl⟩
  case received =>
    intro lane f io s t u ethernet up ht inLock hu
    refine ⟨exec_ethFrameRx_none ethernet up ht inLock hu, fun g b taken hb => ?_⟩
    rw [exec_ethFrameRx_taken ethernet up ht inLock hu taken]
    exact ⟨fun bad => congrArg Host.Outcome.next (macReceive_bad hb bad), fun long short sound =>
      ⟨fun pause => congrArg Host.Outcome.next (macReceive_pause hb long short sound pause), fun v noPause hv =>
        ⟨fun k c x claimed => congrArg Host.Outcome.next (macReceive_claimed hb long short sound noPause hv claimed),
          fun unclaimed => congrArg Host.Outcome.next (macReceive_unclaimed hb long short sound noPause hv unclaimed)⟩⟩⟩
  case noTemplate =>
    intro d io x s t taken keeps inRange noTemplate admitted
    rw [exec_pwCfg_noTemplate taken keeps inRange noTemplate, pwCfg_defers admitted]
  case removed =>
    intro d x s taken removes inRange admitted
    rw [exec_pwRemove_checked taken removes inRange, pwCfg_defers admitted]
end

section
/-! SUPPORT. What every command does to the queue, the fuse and the form of the memories (R379, R380, R387, R429; log entries 1 and 4). -/

namespace Sys2Proof.Machine

/-! ### Every command ends in a next state -/

/-- No arm of `exec` faults or refuses (log entry 4). -/
theorem exec_next (c : Instr) (s : State) : exec c s = .next (Out.or (exec c s) s) := by
  cases c <;> rfl

theorem exec_or {c : Instr} {s t : State} (ran : exec c s = .next t) : Out.or (exec c s) s = t := by
  rw [ran]; rfl

/-- A command that `writesMemory` does not list, SVN_COMMIT apart, keeps the memories, the fuse and the commands that wait. -/
theorem kept_exec (c : Instr) (s : State) (frame : writesMemory c = false) (noCommit : ∀ v, c ≠ .svnCommit v) :
    kept (Out.or (exec c s) s) = kept s := by
  cases c with
  | glbModeWrite v => exact kept_execGlbModeWrite v s s
  | modeSwitch => exact kept_execModeSwitch s s
  | warmResetRise => exact kept_execWarmResetRise s s
  | journalReplay damage => exact kept_execJournalReplay damage s s
  | replayEnd => exact kept_execReplayEnd s s
  | coldResetRelease => exact kept_execColdResetRelease s s
  | boardBlockLoaded bytes => exact kept_execBoardBlockLoaded bytes s s
  | boardBlockRetry bytes => exact kept_execBoardBlockRetry bytes s s
  | railGood n vout status => exact kept_execRailGood n vout status s s
  | railRampTimeout n vout status => exact kept_execRailRampTimeout n vout status s s
  | railRetry => exact kept_execRailRetry s s
  | superframeBoundary => exact kept_execSuperframeBoundary s s
  | domainGateTimeout dom => exact kept_execDomainGateTimeout dom s s
  | pwrReqStandby v => exact kept_execPwrReqStandby v s s
  | pwrReqDormant v => exact kept_execPwrReqDormant v s s
  | pwrReqWithdraw v => exact kept_execPwrReqWithdraw v s s
  | wakePin => exact kept_execWakePin s s
  | wakeTimerExpiry => exact kept_execWakeTimerExpiry s s
  | laneCtlWrite lane v => exact kept_execLaneCtlWrite lane v s s
  | laneCtlHeldRelease lane => exact kept_execLaneCtlHeldRelease lane s s
  | lanePllLocked lane => exact kept_execLanePllLocked lane s s
  | laneCalEnd lane fail eq us sig => exact kept_execLaneCalEnd lane fail eq us sig s s
  | laneCdrLock lane => exact kept_execLaneCdrLock lane s s
  | laneCdrUnlock lane sig => exact kept_execLaneCdrUnlock lane sig s s
  | adaptConverged lane eq => exact kept_execAdaptConverged lane eq s s
  | adaptLimit lane value eq => exact kept_execAdaptLimit lane value eq s s
  | laneTempCheck lane => exact kept_execLaneTempCheck lane s s
  | retrimEnd lane us => exact kept_execRetrimEnd lane us s s
  | laneFofsMeasure lane ofs sig => exact kept_execLaneFofsMeasure lane ofs sig s s
  | fofsOff lane => exact kept_execFofsOff lane s s
  | groupPllUnlock group eth => exact kept_execGroupPllUnlock group eth s s
  | pllRelockTimeout group eth => exact kept_execPllRelockTimeout group eth s s
  | groupPllRelock group eth => exact kept_execGroupPllRelock group eth s s
  | laneCalFull d => exact kept_execLaneCalFull d s s
  | laneCalAdapt d => exact kept_execLaneCalAdapt d s s
  | adaptBoostEnd lane us => exact kept_execAdaptBoostEnd lane us s s
  | laneCalRetrim d => exact kept_execLaneCalRetrim d s s
  | prbsErrInj lane v => exact kept_execPrbsErrInj lane v s s
  | prbsLockChange lane balls => exact kept_execPrbsLockChange lane balls s s
  | eyeScanStart lane v => exact kept_execEyeScanStart lane v s s
  | eyeScanDone lane errs => exact kept_execEyeScanDone lane errs s s
  | eyeSumRefresh lane height width => exact kept_execEyeSumRefresh lane height width s s
  | laneFrmCtlWrite lane v => exact kept_execLaneFrmCtlWrite lane v s s
  | b1Inj lane v => exact kept_execB1Inj lane v s s
  | b2Inj lane v => exact kept_execB2Inj lane v s s
  | framePatternMatch lane t => exact kept_execFramePatternMatch lane t s s
  | laneFrameRx lane t bytes => exact kept_execLaneFrameRx lane t bytes s s
  | lineDefectChange lane defect present => exact kept_execLineDefectChange lane defect present s s
  | berStepEnd lane deg => exact kept_execBerStepEnd lane deg s s
  | j0MessageRx lane => exact kept_execJ0MessageRx lane s s
  | dccCtlWrite c v => exact kept_execDccCtlWrite c v s s
  | ospCtlWrite p v => exact kept_execOspCtlWrite p v s s
  | ospOwWrite idx v => exact kept_execOspOwWrite idx v s s
  | ospFrame p di => exact kept_execOspFrame p di s s
  | dccFrameRx c io => exact kept_execDccFrameRx c io s s
  | dccTx d io => exact kept_execDccTx d io s s
  | dccTxSent c => exact kept_execDccTxSent c s s
  | dccRxBuf d => exact kept_execDccRxBuf d s s
  | pmSecondClassify unit => exact kept_execPmSecondClassify unit s s
  | pathCfg d io => exact kept_execPathCfg d io s s
  | pointerRx path member b0 b1 => exact kept_execPointerRx path member b0 b1 s s
  | lomChange path h4 => exact kept_execLomChange path h4 s s
  | pohRx path data => exact kept_execPohRx path data s s
  | pathSecondEval path => exact kept_execPathSecondEval path s s
  | markerGroupRx path unit => exact kept_execMarkerGroupRx path unit s s
  | demapMultiframe path bytes read => exact kept_execDemapMultiframe path bytes read s s
  | leakRelease path => exact kept_execLeakRelease path s s
  | pathStatus d io => exact kept_execPathStatus d io s s
  | tribCtlWrite p v => exact kept_execTribCtlWrite p v s s
  | tribFrmWrite p v => exact kept_execTribFrmWrite p v s s
  | tribTrimDone p trim => exact kept_execTribTrimDone p trim s s
  | tribLiuAdjust p what => exact kept_execTribLiuAdjust p what s s
  | lossHigh p high => exact kept_execLossHigh p high s s
  | tribTxFaultChange p fault => exact kept_execTribTxFaultChange p fault s s
  | pdhFramePattern u pos t qual => exact kept_execPdhFramePattern u pos t qual s s
  | mfaTimeout u => exact kept_execMfaTimeout u s s
  | interworkTimeout u => exact kept_execInterworkTimeout u s s
  | pdhFrameRx u f => exact kept_execPdhFrameRx u f s s
  | pdhDefectChange u defect present => exact kept_execPdhDefectChange u defect present s s
  | parityInjectArm v => exact kept_execParityInjectArm v s s
  | fabricWordRead r => exact kept_execFabricWordRead r s s
  | pairGateOff pair => exact kept_execPairGateOff pair s s
  | pmonCtlWrite m slotReg v => exact kept_execPmonCtlWrite m slotReg v s s
  | pmonLockChange m => exact kept_execPmonLockChange m s s
  | latencyMeasure out ns => exact kept_execLatencyMeasure out ns s s
  | mapEditDirect d io => exact kept_execMapEditDirect d io s s
  | mapEditStage d io => exact kept_execMapEditStage d io s s
  | termCfg d => exact kept_execTermCfg d s s
  | termCfgStage d => exact kept_execTermCfgStage d s s
  | termRelease d => exact kept_execTermRelease d s s
  | ccCfg d => exact kept_execCcCfg d s s
  | ccCfgStage d => exact kept_execCcCfgStage d s s
  | ccRelease d => exact kept_execCcRelease d s s
  | mapRead d io => exact kept_execMapRead d io s s
  | gatherOpen d => exact kept_execGatherOpen d s s
  | gatherCommit d => exact kept_execGatherCommit d s s
  | gatherAbort d => exact kept_execGatherAbort d s s
  | gatherValidationStart slot => exact kept_execGatherValidationStart slot s s
  | gatherValidationEnd slot => exact kept_execGatherValidationEnd slot s s
  | commitRecordHeld slot uncorr => exact kept_execCommitRecordHeld slot uncorr s s
  | bridgeReady slot => exact kept_execBridgeReady slot s s
  | gatherApply slot => exact kept_execGatherApply slot s s
  | holdoffExpiry t copy => exact kept_execHoldoffExpiry t copy s s
  | protectionDecision t => exact kept_execProtectionDecision t s s
  | wtrExpiry t => exact kept_execWtrExpiry t s s
  | selCfg d => exact kept_execSelCfg d s s
  | selRemove d => exact kept_execSelRemove d s s
  | selCmdClear d => exact kept_execSelCmdClear d s s
  | selCmdLockout d => exact kept_execSelCmdLockout d s s
  | selCmdFs d => exact kept_execSelCmdFs d s s
  | selCmdFsW d => exact kept_execSelCmdFsW d s s
  | selCmdMs d => exact kept_execSelCmdMs d s s
  | selCmdMsW d => exact kept_execSelCmdMsW d s s
  | selCmdExer d => exact kept_execSelCmdExer d s s
  | selExerEnd key => exact kept_execSelExerEnd key s s
  | apsExerEnd g => exact kept_execApsExerEnd g s s
  | apsCfg d => exact kept_execApsCfg d s s
  | apsRemove d => exact kept_execApsRemove d s s
  | apsKAccept g => exact kept_execApsKAccept g s s
  | fopArch g => exact kept_execFopArch g s s
  | fopMode g => exact kept_execFopMode g s s
  | fopNoresp g => exact kept_execFopNoresp g s s
  | fopFlap g => exact kept_execFopFlap g s s
  | selStatus d io => exact kept_execSelStatus d io s s
  | mergeCfg d => exact kept_execMergeCfg d s s
  | mergeOff d => exact kept_execMergeOff d s s
  | mergeAlignReached key => exact kept_execMergeAlignReached key s s
  | mergeWindowEnd key => exact kept_execMergeWindowEnd key s s
  | mergeStatus d io => exact kept_execMergeStatus d io s s
  | guardCfg d => exact kept_execGuardCfg d s s
  | guardRemove d => exact kept_execGuardRemove d s s
  | leivProbeRx lane => exact kept_execLeivProbeRx lane s s
  | guardAsymClear g => exact kept_execGuardAsymClear g s s
  | partnerLost g => exact kept_execPartnerLost g s s
  | guardCompStepDue g => exact kept_execGuardCompStepDue g s s
  | guardSlewUnit g => exact kept_execGuardSlewUnit g s s
  | guardPulseHoldEnd g => exact kept_execGuardPulseHoldEnd g s s
  | guardStatus d io => exact kept_execGuardStatus d io s s
  | ethLinkChange lane block align hiBer localF remoteF deskew => exact kept_execEthLinkChange lane block align hiBer localF remoteF deskew s s
  | ethFrameRx lane f io => exact kept_execEthFrameRx lane f io s s
  | ethTx d io => exact kept_execEthTx d io s s
  | ethTxSent lane => exact kept_execEthTxSent lane s s
  | ethRxBuf d => exact kept_execEthRxBuf d s s
  | ethCtlWrite lane v => exact kept_execEthCtlWrite lane v s s
  | pwCfg d io => exact kept_execPwCfg d io s s
  | pwRemove d => exact kept_execPwRemove d s s
  | pwPacketTx n => exact kept_execPwPacketTx n s s
  | pwPlayout n => exact kept_execPwPlayout n s s
  | pwStatus d io => exact kept_execPwStatus d io s s
  | refMeasure r ofs => exact kept_execRefMeasure r ofs s s
  | refActivityLoss r => exact kept_execRefActivityLoss r s s
  | refActivityRegain r => exact kept_execRefActivityRegain r s s
  | refWtrExpiry r => exact kept_execRefWtrExpiry r s s
  | dpllDecision d phase => exact kept_execDpllDecision d phase s s
  | dpllLockReached d => exact kept_execDpllLockReached d s s
  | lehrEnd d moved => exact kept_execLehrEnd d moved s s
  | dpllHistorySample d freq => exact kept_execDpllHistorySample d freq s s
  | oscinStop => exact kept_execOscinStop s s
  | oscinReturn => exact kept_execOscinReturn s s
  | timRefCfgWrite r v => exact kept_execTimRefCfgWrite r v s s
  | dpllCtlWrite d reg v => exact kept_execDpllCtlWrite d reg v s s
  | fpoutCtlWrite j v at_ => exact kept_execFpoutCtlWrite j v at_ s s
  | fpoutReheel j at_ => exact kept_execFpoutReheel j at_ s s
  | heelSourcePulse j dev => exact kept_execHeelSourcePulse j dev s s
  | heelLost j => exact kept_execHeelLost j s s
  | fpoutMoveEnd j => exact kept_execFpoutMoveEnd j s s
  | clockPllUnlock pll stack locked => exact kept_execClockPllUnlock pll stack locked s s
  | ppsTick => exact kept_execPpsTick s s
  | timeWrap => exact kept_execTimeWrap s s
  | todNsRead => exact kept_execTodNsRead s s
  | timeSetSet d => exact kept_execTimeSetSet d s s
  | timeSetStep d => exact kept_execTimeSetStep d s s
  | timeSetRate d => exact kept_execTimeSetRate d s s
  | timeSetOffset d => exact kept_execTimeSetOffset d s s
  | timeSetReacquire d => exact kept_execTimeSetReacquire d s s
  | timeSetApply => exact kept_execTimeSetApply s s
  | servoSample => exact kept_execServoSample s s
  | servoHoldoverTimeout => exact kept_execServoHoldoverTimeout s s
  | todLockExpiry => exact kept_execTodLockExpiry s s
  | doorbellProducer ring bytes w0 => exact kept_execDoorbellProducer ring bytes w0 s s
  | doorbellConsumer ring bytes w0 => exact kept_execDoorbellConsumer ring bytes w0 s s
  | resumeDoorbell w0 bytes w1 io => exact kept_execResumeDoorbell w0 bytes w1 io s s
  | descriptorFetch ring words => exact kept_execDescriptorFetch ring words s s
  | fetchError ring => exact kept_execFetchError ring s s
  | ringEnable ring => exact kept_execRingEnable ring s s
  | ringDisable ring => exact kept_execRingDisable ring s s
  | ringDisableDone ring => exact kept_execRingDisableDone ring s s
  | ringCfgWrite ring reg v => exact kept_execRingCfgWrite ring reg v s s
  | nop d => exact kept_execNop d s s
  | fence d => exact kept_execFence d s s
  | abort d entry => exact kept_execAbort d entry s s
  | busMasterEnable cfg io => exact kept_execBusMasterEnable cfg io s s
  | coalesceTimeout v => exact kept_execCoalesceTimeout v s s
  | kennelTimeout slot => exact kept_execKennelTimeout slot s s
  | bulkCheckpoint engine io => exact kept_execBulkCheckpoint engine io s s
  | engineTake engine io => exact kept_execEngineTake engine io s s
  | tlbInvalidate v => exact kept_execTlbInvalidate v s s
  | tlbInvDone => exact kept_execTlbInvDone s s
  | xlatConfigWrite reg v => exact kept_execXlatConfigWrite reg v s s
  | heldRecordFlush => exact kept_execHeldRecordFlush s s
  | evtRouteWrite n v => exact kept_execEvtRouteWrite n v s s
  | evtCoalWrite v w => exact kept_execEvtCoalWrite v w s s
  | evtTestFire v => exact kept_execEvtTestFire v s s
  | pmhistWrite => exact kept_execPmhistWrite s s
  | counterCarry off n => exact kept_execCounterCarry off n s s
  | chainHiRead k => exact kept_execChainHiRead k s s
  | chainHiWrite k v => exact kept_execChainHiWrite k v s s
  | chainCfgWrite k v => exact kept_execChainCfgWrite k v s s
  | snapSeqRead => exact kept_execSnapSeqRead s s
  | pmDump d io => exact kept_execPmDump d io s s
  | heartbeat half => exact kept_execHeartbeat half s s
  | leashLapse => exact kept_execLeashLapse s s
  | leashClaim half epoch => exact kept_execLeashClaim half epoch s s
  | controlLost => exact kept_execControlLost s s
  | plannedHandover v => exact kept_execPlannedHandover v s s
  | leashRelease => exact kept_execLeashRelease s s
  | handoverRecoveryDone => exact kept_execHandoverRecoveryDone s s
  | bootFailTimeout => exact kept_execBootFailTimeout s s
  | hbmRegionWrite r v => exact kept_execHbmRegionWrite r v s s
  | hbmReadCheck addr bad user => exact kept_execHbmReadCheck addr bad user s s
  | rowRetire => exact kept_execRowRetire s s
  | bglReqGo v => exact kept_execBglReqGo v s s
  | leaseRevoke kind bad => exact kept_execLeaseRevoke kind bad s s
  | selftestDone failed rows banks => exact kept_execSelftestDone failed rows banks s s
  | captureRecord d => exact kept_execCaptureRecord d s s
  | captureRecordDone => exact kept_execCaptureRecordDone s s
  | leaseQuery d io => exact kept_execLeaseQuery d io s s
  | avsReading ask => exact kept_execAvsReading ask s s
  | vdiffCheck mv => exact kept_execVdiffCheck mv s s
  | flashRead v => exact kept_execFlashRead v s s
  | flashProgram v => exact kept_execFlashProgram v s s
  | flashErase v => exact kept_execFlashErase v s s
  | flashCmdDone page => exact kept_execFlashCmdDone page s s
  | fopFlapClear g => exact kept_execFopFlapClear g s s
  | busMasterDisable d3 => exact kept_execBusMasterDisable d3 s s
  | pcieLinkUp => exact kept_execPcieLinkUp s s
  | msixVectorUnmask v => exact kept_execMsixVectorUnmask v s s
  | svnCommit v => exact absurd rfl (noCommit v)
  | _ => cases frame
end Sys2Proof.Machine
end

section
/-! SUPPORT. What every operation on the memories does to the queue, the fuse and the memories' form (R379, R380, R387, R429). -/

namespace Sys2Proof.Machine

/-- `t` comes after `s` with the commands that wait as they were, a fuse that has not decreased, and its memories in canonical form where those
of `s` were. -/
structure Steady (s t : State) : Prop where
  queue : t.pending = s.pending
  fuse : s.pwr.minSvn ≤ t.pwr.minSvn
  form : memWf s = true → memWf t = true

namespace Steady

variable {s t u : State}

theorem refl (s : State) : Steady s s := ⟨rfl, le_rfl, id⟩

theorem trans (h : Steady s t) (g : Steady t u) : Steady s u :=
  ⟨g.queue.trans h.queue, h.fuse.trans g.fuse, g.form ∘ h.form⟩

theorem of_kept (h : kept t = kept s) : Steady s t :=
  ⟨congrArg Kept.pending h, (congrArg Kept.minSvn h).ge, fun w => (memWf_kept h).trans w⟩

/-- What keeps the memories, the fuse and the queue may follow. -/
theorem under (h : kept u = kept t) (g : Steady s t) : Steady s u := g.trans (of_kept h)

/-- What keeps them may come first. -/
theorem after (g : Steady t u) (h : kept t = kept s) : Steady s u := (of_kept h).trans g

theorem foldl {α : Type} {f : State → α → State} (h : ∀ t x, Steady t (f t x)) (l : List α) (s : State) : Steady s (l.foldl f s) :=
  foldl_keeps (Steady s) f (fun t x g => g.trans (h t x)) l s (refl s)

theorem ite {c : Prop} [Decidable c] (ht : Steady s t) (hu : Steady s u) : Steady s (if c then t else u) := by
  split
  · exact ht
  · exact hu

end Steady

/-! ### Buffer memory, mailbox and scratchpad -/

theorem steady_hbmPut (s : State) (a : Nat) (b : Byte) : Steady s (hbmPut s a b) := ⟨rfl, le_rfl, hbmPut_wf s a b⟩

theorem steady_hbmPuts (s : State) (at_ : Nat → Nat) (l : List Byte) : Steady s (hbmPuts s at_ l) := by
  refine .foldl (fun t p => ?_) _ s
  exact steady_hbmPut t _ _

theorem steady_mboxPut (s : State) (o : Nat) (b : Byte) : Steady s (mboxPut s o b) := ⟨rfl, le_rfl, mboxPut_wf s o b⟩

theorem steady_mboxStore (s : State) (w : MboxWrite) (i : Nat) : Steady s (mboxStore s w i) := by
  refine .foldl (fun t o => ?_) _ s
  split
  · exact steady_mboxPut t _ _
  · exact .refl t

theorem steady_supStore (s : State) (w : MboxWrite) (i : Nat) : Steady s (supSignal (mboxStore s w i) i) :=
  .under (kept_supSignal _ _) (steady_mboxStore s w i)

theorem steady_mboxSup (s : State) (w : MboxWrite) : Steady s (mboxSup s w) := .foldl (fun t i => steady_supStore t w i) _ s

theorem steady_mboxBoth (s : State) (w p : MboxWrite) (i : Nat) : Steady s (mboxBoth s w p i) := by
  refine .ite ?_ (.under (kept_hostSignal _ _) (steady_mboxStore s w i))
  exact .under (kept_supSignal _ _) (.under (kept_hostSignal _ _) (.under (kept_mboxColl _ _)
    ((steady_mboxStore s p i).trans (steady_mboxStore _ w i))))

theorem steady_scratchPut (s : State) (o : Nat) (b : Byte) : Steady s (scratchPut s o b) := ⟨rfl, le_rfl, scratchPut_wf s o b⟩

theorem steady_scratchPuts (s : State) (o : Nat) (b : List Byte) : Steady s (scratchPuts s o b) := by
  refine .foldl (fun t p => ?_) _ s
  exact steady_scratchPut t _ _

theorem steady_loadScratch (s : State) (c : SlotCheck) : Steady s (loadScratch s c) := ⟨rfl, le_rfl, loadScratch_wf s c⟩

/-- Buffer memory and map-memory window with another content in canonical form. -/
theorem memWf_refill {s t : State} (mem : Tab.wf t.hbm.mem = true ∧ noDefaults t.hbm.mem (fun _ => (0 : Byte)) = true)
    (win : Tab.wf t.mtx.mapWin = true) (box : t.mtx.mailbox = s.mtx.mailbox) (pad : t.mtx.scratch = s.mtx.scratch)
    (fw : t.mtx.fw = s.mtx.fw) (h : memWf s = true) : memWf t = true := by
  rw [memWf_iff] at h ⊢
  obtain ⟨-, -, boxWf, boxMin, -, padWf, padMin⟩ := h
  rw [box, pad, fw]
  exact ⟨mem.1, mem.2, boxWf, boxMin, win, padWf, padMin⟩

/-- Memories that hold nothing are in canonical form. -/
theorem memWf_empty {t : State} (mem : t.hbm.mem = []) (mtx : t.mtx.mailbox = [] ∧ t.mtx.mapWin = [] ∧ t.mtx.scratch = []) :
    memWf t = true := by
  obtain ⟨box, win, pad⟩ := mtx
  simp [memWf_iff, mem, box, win, pad, Tab.wf, noDefaults]

theorem memWf_mem {s : State} (h : memWf s = true) : Tab.wf s.hbm.mem = true ∧ noDefaults s.hbm.mem (fun _ => (0 : Byte)) = true :=
  let ⟨wf, min, _⟩ := (memWf_iff s).mp h
  ⟨wf, min⟩

theorem memWf_mapWin {s : State} (h : memWf s = true) : Tab.wf s.mtx.mapWin = true :=
  let ⟨_, _, _, _, wf, _⟩ := (memWf_iff s).mp h
  wf

/-- Cells taken out of buffer memory leave its form. -/
theorem memWf_filterMem {s t : State} (c : Host.Cell → Bool) (mem : t.hbm.mem = s.hbm.mem.filter c) (mtx : t.mtx = s.mtx)
    (h : memWf s = true) : memWf t = true := by
  have old := memWf_mem h
  refine memWf_refill ?_ (mtx ▸ memWf_mapWin h) (congrArg _ mtx) (congrArg _ mtx) (congrArg _ mtx) h
  rw [mem]
  exact ⟨Tab.wf_filter c old.1, Tab.noDefaults_filter c old.2⟩

/-! ### The masters' resets, the halves and the leash -/

theorem steady_endRotated (s : State) (m : Nat) : Steady s (endRotated s m) :=
  .foldl (fun t _ => steady_scratchPuts t _ _) _ s

theorem steady_resetMaster (s : State) (m : Nat) : Steady s (resetMaster s m) :=
  .under (kept_raise _ _ _ _) (.under (t := dropLocks (endRotated s m) m) rfl (.under (kept_dropLocks _ _) (steady_endRotated s m)))

theorem steady_halfReset (s : State) (h : Bool) : Steady s (halfReset s h) :=
  .ite (.refl s) (.after (steady_resetMaster _ _) ((kept_bset _ _ _ _).trans (kept_setHalf _ _ _)))

theorem steady_halfReboot (s : State) (h : Bool) : Steady s (halfReboot s h) := .under (kept_setHalf _ _ _) (steady_halfReset s h)

theorem steady_reloaded (s : State) (c : SlotCheck) : Steady s (reloaded s c) := .ite (steady_loadScratch s c) (.refl s)

theorem steady_putInForce (s : State) (i : Nat) (fell : Bool) (c : BootCheck) : Steady s (putInForce s i fell c) := by
  unfold putInForce
  extract_lets k dbg key a b d e ext f
  have shown : kept d = kept s := rfl
  exact .under (kept_raise _ _ _ _) (.under (t := e) rfl (.under (kept_bset _ _ _ _) (.after (steady_loadScratch d k) shown)))

theorem steady_halfBootDone (s : State) (half : Bool) (chk : BootCheck) : Steady s (halfBootDone s half chk) := by
  have failed : Steady s (setHalf s half 4) := .of_kept (kept_setHalf _ _ _)
  have boots (i : Nat) (fell : Bool) : Steady s (halfStandby (putInForce s i fell chk) half) :=
    .under (kept_halfStandby _ _) (steady_putInForce s i fell chk)
  refine .ite (.ite (boots _ _) failed) (.ite (.ite ?inForce failed) ?chooses)
  case inForce => exact .under (kept_halfStandby _ _) (steady_reloaded s _)
  case chooses =>
    split
    · exact boots _ _
    · exact failed

theorem steady_grant (s : State) (w : Bool) (e : Nat) (two : Bool) : Steady s (grant s w e two) := by
  unfold grant
  extract_lets other loses a b c vacant m d f
  have f_kept : kept f = kept s := (kept_setHalf d w 3).trans rfl
  exact .under (kept_raise _ _ _ _) (.ite (.after (steady_halfReboot f other) f_kept) (.of_kept f_kept))

theorem steady_claimWindowEnd (s : State) : Steady s (claimWindowEnd s) := by
  unfold claimWindowEnd
  split
  · exact .refl s
  · rename_i w e res lost _
    extract_lets two a b c d
    have b_steady : Steady s b := .after (steady_grant a w e two) rfl
    have c_steady : Steady s c := .ite (.under (kept_raise _ _ _ _) b_steady) b_steady
    exact .under (kept_flushEvents _) (.ite c_steady (.under (t := stopAll c false) rfl (.under (kept_stopAll _ _) c_steady)))

theorem steady_warmResetStart (s : State) : Steady s (warmResetStart s) := by
  refine .ite (.refl s) ?_
  refine .trans ?_ (steady_resetMaster _ 3)
  refine .trans (.trans ?_ (steady_halfReset _ false)) (steady_halfReset _ true)
  exact .of_kept ((kept_stopAll _ _).trans ((kept_voidRecords _).trans rfl))

/-! ### Power -/

/-- What a move of the power state loses leaves no byte of buffer memory. -/
theorem steady_loseConfig (s : State) : Steady s (loseConfig s) :=
  ⟨rfl, le_rfl, fun h => memWf_refill (s := s) ⟨rfl, rfl⟩ (memWf_mapWin (s := s) h) rfl rfl rfl h⟩

theorem steady_toStandby (s : State) : Steady s (toStandby s) := by
  unfold toStandby
  extract_lets a evt win rng b c
  have b_steady : Steady s b :=
    ⟨rfl, le_rfl, fun h => memWf_refill (s := s) ⟨rfl, rfl⟩ rfl rfl rfl rfl h⟩
  exact .under (kept_setPower _ _) (.under (t := c) rfl (.under (kept_clearPower _) (.under (kept_railsOff _ _) b_steady)))

theorem steady_powerDown (s : State) : Steady s (powerDown s) := by
  unfold powerDown
  extract_lets a b c
  have b_steady : Steady s b := ⟨rfl, le_rfl, fun _ => memWf_empty rfl ⟨rfl, rfl, rfl⟩⟩
  exact .under (t := c) rfl (.under (kept_clearPower _) (.under (kept_railsOff _ _) b_steady))

theorem steady_toDormant (s : State) : Steady s (toDormant s) := by
  unfold toDormant
  extract_lets o a b
  have a_steady : Steady s a := .under (kept_setPower _ _) (steady_powerDown s)
  have raises (t : State) (p : Bool × Nat) :
      Steady t (if p.2 = 0 then t else raise t (if p.1 then 0x702 else 0x701) (w32 (0x10 + 2048 * p.2)) 0) :=
    .ite (.refl t) (.of_kept (kept_raise _ _ _ _))
  exact .under (kept_dpllsHold _) (.under (t := b) rfl (a_steady.trans (.foldl raises o a)))

theorem steady_trip (s : State) : Steady s (trip s) :=
  .under (t := setPower (powerDown s) 0) rfl (.under (kept_setPower _ _) (steady_powerDown s))

theorem steady_serDown (s : State) : Steady s (serDown s) :=
  .after (steady_resetMaster _ 2) ((kept_hotReset _).trans (kept_foldl _ _ _ fun t g => kept_gateGroup t g))

/-- A cold reset keeps the fuse and the commands that wait (R25, R429). -/
theorem steady_coldState (s : State) (low aon : Bool) : Steady s (coldState s low aon) := ⟨rfl, le_rfl, fun _ => rfl⟩

theorem steady_extensionLoadDone (ok : Bool) (s : State) : Steady s (extensionLoadDone ok s) := by
  have reboots (t : State) (h : Bool) : Steady t (if halfState t h = 4 then t else halfReboot t h) :=
    .ite (.refl t) (steady_halfReboot t h)
  refine .ite (.refl s) (.ite ?loaded (.ite ?falls ?dead))
  case loaded => exact .of_kept ((kept_railDemand _).trans rfl)
  case falls => exact .after (.foldl reboots [false, true] _) rfl
  case dead => exact .of_kept ((kept_setFault _ _).trans ((kept_setPower _ _).trans ((kept_railsOff _ _).trans rfl)))

/-! ### Leases, SELFTEST and captures -/

theorem kept_beginLease (s : State) (k u : Nat) (named : Bool) : kept (beginLease s k u named) = kept s := by
  unfold beginLease
  extract_lets l a b
  split <;> rfl

theorem steady_copyIn (s : State) (l : Lease) : Steady s (copyIn s l) := by
  refine .after (t := hbmWritten s (saveAddr l.unit) blockBytes) ⟨rfl, le_rfl, ?_⟩ (kept_hbmWritten _ _ _)
  exact memWf_filterMem (fun c => !decide (blockAddr l.unit ≤ c.1 ∧ c.1 < blockAddr (l.unit + 1))) rfl rfl

theorem steady_copyBack (s : State) (l : Lease) : Steady s (copyBack s l) :=
  .ite (.refl s) ⟨rfl, le_rfl, fun h => memWf_refill (s := s) (storeAll_wf _ _ (memWf_mem h)) (memWf_mapWin (s := s) h) rfl rfl rfl h⟩

theorem steady_leaseFrame (s : State) : Steady s (leaseFrame s) := by
  unfold leaseFrame
  split
  · exact .ite (.refl s) (.ite (steady_copyIn s _) (.of_kept rfl))
  · exact .refl s

theorem steady_endLease (s : State) (k : Nat) (l : Lease) : Steady s (endLease s k l) := by
  unfold endLease
  extract_lets m a b
  refine .ite (.under (kept_stackRefresh _) (.after (steady_copyBack b l) rfl)) (.ite ?_ (.of_kept rfl))
  exact .of_kept ((kept_editFab _ _).trans rfl)

theorem steady_loseHbm (s : State) : Steady s (loseHbm s) := by
  exact ⟨rfl, le_rfl, fun h => memWf_refill (s := s) ⟨rfl, rfl⟩ (memWf_mapWin (s := s) h) rfl rfl rfl h⟩

theorem steady_testFrom (fuel : Nat) (s : State) (t : SelfTest) (p : Nat) : Steady s (testFrom fuel s t p) := by
  induction fuel generalizing p with
  | zero => exact .of_kept rfl
  | succ n ih =>
    refine .ite (.after (.ite (steady_loseHbm _) (.ite (.of_kept (kept_testSweep _ _)) (.refl _))) rfl) (ih (p + 1))

theorem steady_nextPart (s : State) : Steady s (nextPart s) := by
  unfold nextPart
  split
  · exact steady_testFrom _ s _ _
  · exact .refl s

theorem steady_testFrame (s : State) : Steady s (testFrame s) := by
  unfold testFrame
  split
  · exact .after (.ite (.refl _) (steady_nextPart _)) rfl
  · exact .refl s

theorem steady_sweepDone (s : State) (k : Nat) : Steady s (sweepDone s k) := by
  unfold sweepDone
  extract_lets a m b
  have b_kept : kept b = kept s := (kept_raise s _ _ _).trans rfl
  exact .after (.ite (steady_nextPart b) (.refl b)) b_kept

theorem steady_sweepLease (s : State) (k : Nat) : Steady s (sweepLease s k) := by
  unfold sweepLease
  split
  · exact .of_kept (kept_beginLease _ _ _ _)
  · refine .ite (.refl s) ((steady_sweepDone s k).trans (.ite (.refl _) ?_))
    split
    · exact .of_kept (kept_beginLease _ _ _ _)
    · exact .refl _

theorem steady_sweepOn (s : State) (k u : Nat) : Steady s (sweepOn s k u) :=
  .after (.ite (steady_sweepDone _ k) (.refl _)) rfl

theorem steady_restoreLease (s : State) (k : Nat) : Steady s (restoreLease s k) := by
  unfold restoreLease
  split
  · exact .refl s
  · rename_i l _
    refine .ite (.refl s) ?_
    extract_lets a b c
    have b_steady : Steady s b := .under (kept_raiseOnce _ _ _ _ _ _) (.under (kept_count _ _ _) (steady_endLease s k l))
    have c_steady : Steady s c := .ite b_steady (.under (kept_unitFailed _ _ _ _) b_steady)
    exact .ite c_steady (.under (t := c) rfl c_steady)

/-- A claim on a lease stops and restores it (R397). -/
theorem steady_claimLease (s : State) : Steady s (restoreLease (revokeLease s 1 []) 1) :=
  .after (steady_restoreLease _ 1) (kept_revokeLease _ _ _)

theorem steady_claimAddr (s : State) (a : Nat) : Steady s (claimAddr s a) := by
  unfold claimAddr
  split
  · exact .ite (steady_claimLease s) (.refl s)
  · exact .refl s

theorem steady_zeroPages (s : State) (r : Nat) : Steady s (zeroPages s r) := ⟨rfl, le_rfl, memWf_filterMem _ rfl rfl⟩

theorem steady_claimPages (s : State) : Steady s (claimPages s) := by
  refine .trans ?_ ((steady_zeroPages _ 0).trans (steady_zeroPages _ 1))
  split
  · exact .ite (steady_claimLease s) (.refl s)
  · exact .refl s

theorem steady_captureTake (s : State) (c : Capture) (b : List Byte) : Steady s (captureTake s c b) := by
  unfold captureTake
  extract_lets at_ a
  exact .under (t := a) rfl (((steady_claimAddr s _).trans (steady_claimAddr _ _)).trans (steady_hbmPuts _ _ _))

theorem steady_captureFrame (s : State) : Steady s (captureFrame s) := by
  unfold captureFrame
  split
  · exact .ite (steady_captureTake s _ _) (.refl s)
  · exact .refl s

theorem steady_frameApply (s : State) : Steady s (frameApply s) := by
  unfold frameApply
  exact
  .after (steady_claimPages _) ((kept_startBridges _).trans ((kept_fabricFrame _).trans ((kept_groupsFrame _).trans
    ((kept_applySelections _ _).trans ((kept_applyBoundary _ _).trans (kept_freeStorage _))))))

end Sys2Proof.Machine
end

section
/-! SUPPORT. What register writes, wakes, the control matrix and the boundaries do to the queue, the fuse and the memories' form, and so every
command and every step. -/

namespace Sys2Proof.Machine

/-! ### Register writes -/

/-- The state after an outcome that is a next state. -/
theorem or_next (t s : State) : Out.or (.next t) s = t := rfl

/-- SVN_COMMIT in BRINGUP raises a fuse below the SVN of the slot in force, as GLB_FW_SVN shows (R429); -/
theorem exec_svnCommit_raises {s : State} {v : Word} (awake : hostDeaf s = false) (free : regLocked s = false) (running : replay s = false)
    (bringup : mode s = 0) (commit : bit v 5 = true) (below : s.pwr.minSvn < fget s Reg.glbFwSvn 7 0) :
    exec (.svnCommit v) s = .next (fset { s with pwr := { s.pwr with minSvn := fget s Reg.glbFwSvn 7 0 } }
      Reg.glbFwSvn 15 8 (fget s Reg.glbFwSvn 7 0)) := by
  change execSvnCommit v s = _
  simp only [execSvnCommit, hostWrite_acts _ _ _ _ awake free running, commit, bringup, Nat.not_le.mpr below, Bool.not_true,
    Bool.false_eq_true, ne_eq, not_true_eq_false, or_self, if_false]

/-- in any other mode, or with the fuse at or above that SVN, the write is ignored, as it is in REPLAY (R26, R429). -/
theorem exec_svnCommit_ignored {s : State} {v : Word} (awake : hostDeaf s = false) (free : regLocked s = false) (commit : bit v 5 = true)
    (refused : mode s ≠ 0 ∨ fget s Reg.glbFwSvn 7 0 ≤ s.pwr.minSvn) :
    exec (.svnCommit v) s = .next (ignoredWrite s Reg.glbBoot) := by
  change execSvnCommit v s = _
  simp only [execSvnCommit, hostWrite, awake, free, commit, refused, Bool.not_true, Bool.false_eq_true, if_false, if_true, ite_self]

theorem steady_hostWrite (s : State) (off : Nat) (v : Word) {f : State → State} (h : ∀ t, Steady t (f t)) :
    Steady s (hostWrite s off v f) :=
  .ite (.refl s) (.ite (.of_kept (kept_hostWait _ _ _ _ _)) (.ite (.of_kept (kept_ignoredWrite _ _)) (h s)))

theorem steady_domainWrite (s : State) (dom off : Nat) (v : Word) {f : State → State} (h : ∀ t, Steady t (f t)) :
    Steady s (domainWrite s dom off v f) :=
  steady_hostWrite s off v fun t => .ite (h t) (.of_kept (kept_holdWrite t dom off v))

/-- SVN_COMMIT never lowers the fuse (R429). -/
theorem steady_svnCommit (v : Word) (s : State) : Steady s (Out.or (execSvnCommit v s) s) := by
  unfold execSvnCommit
  rw [or_next]
  refine steady_hostWrite s _ v fun t => .ite (.refl t) ?_
  dsimp only
  split
  · exact .of_kept (kept_ignoredWrite t _)
  · rename_i raises
    exact ⟨rfl, (Nat.lt_of_not_le (not_or.mp raises).2).le, id⟩

/-- A register's own rule, where it has one, is steady. -/
def OwnSteady (s : State) (o : Option State) : Prop := ∀ t, o = some t → Steady s t

namespace OwnSteady

variable {s t : State} {o p : Option State}

theorem none : OwnSteady s none := fun _ h => nomatch h

theorem some (h : Steady s t) : OwnSteady s (some t) := fun _ e => Option.some.inj e ▸ h

/-- A rule that keeps the memories, the fuse and the queue. -/
theorem kept (h : kept t = kept s) : OwnSteady s (.some t) := .some (.of_kept h)

theorem ite {c : Prop} [Decidable c] (ho : OwnSteady s o) (hp : OwnSteady s p) : OwnSteady s (if c then o else p) := by
  split
  · exact ho
  · exact hp

end OwnSteady

theorem ownSteady_laneWrite (s : State) (n o : Nat) (v : Word) : OwnSteady s (laneWrite s n o v) := by
  unfold laneWrite
  dsimp only
  split
  · exact .kept (kept_execLaneCtlWrite _ v s s)
  · exact .kept (kept_txfirWrite s n v)
  · exact .kept (kept_prbsWrite s n v)
  · exact .kept (kept_eyeWrite s n v)
  · exact .kept (kept_frmWrite s n v)
  · exact .kept (kept_execEthCtlWrite _ v s s)
  · exact .ite (.kept (kept_memberMacWrite s _)) .none
  · exact .ite (.kept (kept_memberMacWrite s _)) .none
  · exact .none

theorem ownSteady_hifWrite (s : State) (o : Nat) (v : Word) : OwnSteady s (hifWrite s o v) := by
  unfold hifWrite
  split
  · exact .kept (kept_execXlatConfigWrite 0 v s s)
  · exact .kept (kept_execXlatConfigWrite 1 v s s)
  · exact .kept (kept_execXlatConfigWrite 2 v s s)
  · exact .kept (kept_execTlbInvalidate v s s)
  · exact .none

theorem ownSteady_timWrite (s : State) (o : Nat) (v : Word) : OwnSteady s (timWrite s o v) := by
  refine .ite (.kept (kept_execTimRefCfgWrite _ v s s)) (.ite (.kept (kept_execDpllCtlWrite _ _ v s s)) (.ite (.some ?_)
    (.ite (.kept (kept_monWtrWrite s v)) .none)))
  exact .ite (.of_kept (kept_fpoutWrite s _ v)) (.of_kept (kept_fpHeelWrite s _ v))

theorem ownSteady_fabricWrite (s : State) (off : Nat) (v : Word) : OwnSteady s (fabricWrite s off v) :=
  .ite (.kept (kept_execDccCtlWrite _ v s s)) (.ite (.kept (kept_execOspCtlWrite _ v s s)) (.ite (.kept (kept_execOspOwWrite _ v s s))
    (.ite (.kept (kept_execParityInjectArm v s s)) (.ite (.kept (kept_execPmonCtlWrite _ _ v s s)) .none))))

/-- Every register whose write has an effect of its own (R5). -/
theorem ownSteady_ownWrite (s : State) (off : Nat) (v : Word) : OwnSteady s (ownWrite s off v) := by
  have events : OwnSteady s (if off < 0x42000 then some (Out.or (execEvtRouteWrite (Fin.ofNat 2048 (off % 0x10000 / 4)) v s) s)
      else if off < 0x42100 then some (Out.or (execEvtCoalWrite (Fin.ofNat 64 ((off % 0x10000 - 0x2000) / 4)) v s) s)
      else if off = Reg.evtTest then some (Out.or (execEvtTestFire v s) s) else none) :=
    .ite (.kept (kept_execEvtRouteWrite _ v s s)) (.ite (.kept (kept_execEvtCoalWrite _ v s s))
      (.ite (.kept (kept_execEvtTestFire v s s)) .none))
  unfold ownWrite
  refine .ite (.kept (kept_execGlbModeWrite v s s)) (.ite (.some (steady_svnCommit v s)) (.ite (.kept (kept_flashCmd s v))
    (.ite (.kept (kept_pwrCtlWrite s v)) (.ite (.kept (kept_avsWrite s v)) (.ite (.kept (kept_execPlannedHandover v s s))
    (.ite (ownSteady_hifWrite s _ v) (.ite events (.ite (ownSteady_timWrite s _ v) (.ite (ownSteady_laneWrite s _ _ v)
    (.ite ?ports (.ite (ownSteady_fabricWrite s off v) (.ite ?chains (.ite ?rings (.ite (.kept (kept_regionWrite s _ v))
    (.ite (.kept (kept_bglReqWrite s v)) .none)))))))))))))))
  case ports => exact .ite (.kept (kept_execTribCtlWrite _ v s s)) (.ite (.kept (kept_execTribFrmWrite _ v s s)) .none)
  case chains => exact .ite (.kept (kept_execChainCfgWrite _ v s s)) (.ite (.kept (kept_execChainHiWrite _ v s s)) .none)
  case rings =>
    refine .ite (.kept (kept_execRingCfgWrite _ _ v s s)) (.ite (.some ?_) .none)
    split
    · exact .of_kept (kept_execRingEnable _ s s)
    · exact .of_kept (kept_execRingDisable _ s s)

theorem steady_regWrite (s : State) (off : Nat) (v : Word) : Steady s (regWrite s off v) := by
  unfold regWrite
  cases h : ownWrite s off v with
  | none => exact .of_kept (kept_plainWrite s off v)
  | some t => exact ownSteady_ownWrite s off v t h

theorem steady_wordWrite (s : State) (off : Nat) (v : Word) : Steady s (wordWrite s off v) := by
  unfold wordWrite
  refine .ite (.refl s) (.ite (.of_kept (kept_msixWrite s off v)) ?_)
  split
  · exact .refl s
  · refine .ite (.of_kept (kept_ignoredWrite s off)) (.ite (.refl s) ?_)
    split
    · exact steady_regWrite s off v
    · exact steady_domainWrite s _ off v fun t => steady_regWrite t off v

theorem steady_registerWrite (off size : Nat) (v : BitVec 64) (s : State) : Steady s (Out.or (execRegisterWrite off size v s) s) :=
  .ite (.refl s) (.ite (.of_kept (kept_hostWait s _ _ _ _)) (.ite (steady_wordWrite s off _)
    (.ite ((steady_wordWrite s off _).trans (steady_wordWrite _ _ _)) (.ite (.refl s) (.of_kept (kept_ignoredWrite s off))))))

/-! ### Wakes -/

theorem steady_unlocked (s : State) {f : State → State} (h : ∀ t, Steady t (f t)) : Steady s (unlocked s f) :=
  .ite (h s) (.under (kept_fset _ _ _ _ _) (.after (h _) (kept_fset _ _ _ _ _)))

theorem steady_doWorks (s : State) : Steady s (doWorks s) := by
  unfold doWorks
  extract_lets up l pwr a
  exact .after (steady_unlocked a fun t => .foldl (fun u (p : Nat × Word) => steady_regWrite u p.1 p.2) _ t) rfl

theorem steady_wakeDone (s : State) (d : Nat) : Steady s (wakeDone s d) := by
  refine .ite (.refl s) (.after (steady_doWorks _) ((kept_startLoad _).trans ?_))
  dsimp only
  split
  · rw [kept_startGroup, kept_idleMark, kept_powerUp]; rfl
  · split
    · rw [kept_startPorts, kept_idleMark, kept_powerUp]; rfl
    · rw [kept_powerUp]; rfl

/-! ### The control matrix -/

theorem steady_readWords (s : State) (m o n : Nat) : Steady s (readWords s m o n).1 := by
  refine foldl_keeps (fun r : State × List Byte => Steady s r.1) _ (fun r w h => ?_) _ (s, []) (.refl s)
  exact h.trans (.ite (.of_kept (kept_readEffect r.1 w)) (.refl r.1))

theorem steady_readBeat (s : State) (m t o n : Nat) : Steady s (readBeat s m t o n).1 := by
  unfold readBeat
  dsimp only
  split
  case h_3 => exact steady_readWords s m o n
  case h_5 => exact .under (kept_readBad _ _) (.under (kept_freeBytesNext _) (steady_claimAddr s o))
  all_goals exact .of_kept rfl

theorem steady_matrixRegWrite (s : State) (m off o : Nat) (b : List Byte) : Steady s (matrixRegWrite s m off o b) := by
  unfold matrixRegWrite
  split
  · exact .ite (.of_kept (kept_msixWrite s off _)) (.refl s)
  · extract_lets v t u
    have written : Steady s t := by
      unfold t
      split
      · exact steady_unlocked s fun x => steady_regWrite x off v
      · exact .ite (steady_unlocked s fun x => steady_regWrite x off v) (.of_kept (kept_holdWrite s _ off v))
    have counted : Steady s u := .under (kept_foldl _ _ _ fun x y => kept_wr x y _) written
    exact .ite (.under (kept_bset _ _ _ _) counted) counted

theorem steady_mapWinWrite (s : State) (o : Nat) (b : List Byte) : Steady s { s with mtx := { s.mtx with
    mapWin := (b.zipIdx).foldl (fun t p => Tab.put t (o + p.2) p.1) s.mtx.mapWin } } := by
  refine ⟨rfl, le_rfl, fun h => memWf_refill (s := s) (memWf_mem (s := s) h) ?_ rfl rfl rfl h⟩
  exact foldl_keeps (fun t : Tab Byte => Tab.wf t = true) _ (fun t p w => Tab.wf_put _ _ w) _ _ (memWf_mapWin h)

theorem steady_writeBeat (s : State) (m t o : Nat) (b : List Byte) : Steady s (writeBeat s m t o b) := by
  unfold writeBeat
  split
  · exact steady_scratchPuts s o b
  · exact .ite (steady_registerWrite o _ _ s) (.foldl (fun x off => steady_matrixRegWrite x m off o b) _ s)
  · exact steady_mapWinWrite s o b
  · exact (steady_claimAddr s o).trans (steady_hbmPuts _ _ b)
  · exact steady_mboxSup s _
  · exact .of_kept (kept_wire s _ _ _)
  · exact .refl s

theorem steady_acceptBeat (s : State) (m : Nat) (b : Burst) : Steady s (acceptBeat s m b).1 := by
  unfold acceptBeat
  dsimp only
  split
  · exact .ite (.refl s) (steady_writeBeat s m _ _ _)
  · exact steady_readBeat s m _ _ _

theorem steady_acceptBeats (n : Nat) (s : State) (m : Nat) (b : Burst) : Steady s (acceptBeats n s m b).1 := by
  induction n generalizing s b with
  | zero => exact .refl s
  | succ k ih => exact (steady_acceptBeat s m b).trans (ih _ _)

theorem steady_endAccess (s : State) (m : Nat) (b : Burst) : Steady s (endAccess s m b) := by
  unfold endAccess
  extract_lets a d x t u
  have written : Steady s u := .after (.ite (steady_writeBeat t m 3 _ _) (.refl t)) rfl
  exact .ite (.ite (.under (kept_setLock _ _ _) written) written) (.of_kept ((kept_wire t _ _ _).trans rfl))

theorem steady_rotCycle (s : State) (w : MtxWait) (i n : Nat) : Steady s (rotCycle s w i n).1 := by
  unfold rotCycle
  split
  · exact steady_scratchPuts s _ _
  · exact .refl s

theorem steady_rotFirst (s : State) (w : MtxWait) : Steady s (rotFirst s w) :=
  .under (t := (rotCycle s w 0 (firstPart w.acc)).1) rfl (steady_rotCycle s w _ _)

theorem steady_rotSecond (s : State) (w : MtxWait) (got : List Byte) : Steady s (rotSecond s w got) :=
  (steady_rotCycle s w _ _).trans (steady_endAccess _ _ _)

theorem steady_runBurst (s : State) (m n : Nat) (b : Burst) : Steady s (runBurst s m n b) := by
  unfold runBurst
  extract_lets r
  have accepted : Steady s r.1 := steady_acceptBeats _ s m b
  exact .ite (.under (t := r.1) rfl accepted) (accepted.trans (steady_endAccess r.1 m r.2))

theorem steady_finishBursts (s : State) (m t : Nat) : Steady s (finishBursts s m t) := by
  unfold finishBursts
  exact .foldl (fun u (p : Nat × Burst) => steady_runBurst u p.1 16 p.2) _ s

theorem steady_perform (s : State) (w : MtxWait) : Steady s (perform s w) := by
  unfold perform
  split
  · exact steady_mboxSup s _
  · exact steady_rotSecond s w _
  · exact .ite (steady_rotFirst s w) (steady_runBurst s _ _ _)

theorem steady_serve (s : State) (w : MtxWait) : Steady s (serve s w) := by
  unfold serve
  extract_lets m t a mtx b lost c
  have b_steady : Steady s b := .under (t := a) rfl (steady_finishBursts s m t)
  have c_steady : Steady s c := .ite (.under (kept_setLock _ _ _) (.under (t := b) rfl b_steady)) b_steady
  refine .trans (.trans c_steady ?_) (steady_perform _ w)
  split
  · exact .of_kept rfl
  · exact .refl c

theorem steady_grantN (fuel : Nat) (s : State) : Steady s (grantN fuel s) := by
  induction fuel generalizing s with
  | zero => exact .refl s
  | succ k ih =>
    unfold grantN
    split
    · exact .refl s
    · split
      · exact .refl s
      · exact .after ((steady_serve _ _).trans (ih _)) rfl

theorem steady_grantWaits (s : State) : Steady s (grantWaits s) := steady_grantN _ s

theorem steady_request (s : State) (w : MtxWait) : Steady s (request s w) := by
  unfold request
  refine .ite (.refl s) ?_
  split
  · exact .of_kept (kept_refuseAccess s w _)
  · refine .ite (steady_serve s w) ?_
    dsimp only
    split
    · exact .of_kept ((kept_needDomain _ _).trans rfl)
    · exact .of_kept rfl

theorem steady_issue (s : State) (a : Access) (lock : Bool) : Steady s (issue s a lock) :=
  .trans (.trans (.under (kept_release _ _) (.after (steady_grantWaits _) (kept_release s _))) (steady_request _ _)) (steady_grantWaits _)

/-! ### Temperature and the boundaries -/

theorem steady_setTherm (s : State) (i : Nat) (b : Bool) : Steady s (setTherm s i b) := .of_kept (kept_setTherm s i b)

theorem steady_thermalSample (temps : List Int) (s : State) : Steady s (Out.or (execThermalSample temps s) s) := by
  unfold execThermalSample
  extract_lets t hi lo warn grad a shown warned pwr bgl cooled bgl' critical on against pwr' graded
  have shown_steady : Steady s shown := .of_kept ((kept_fset _ _ _ _ _).trans ((kept_fset _ _ _ _ _).trans (kept_showTemps s t)))
  have warned_steady : Steady s warned :=
    shown_steady.trans (.ite (steady_setTherm shown 0 true) (.ite (steady_setTherm shown 0 false) (.refl shown)))
  have cooled_steady : Steady s cooled := .under (t := warned) rfl warned_steady
  have critical_steady : Steady s critical :=
    .ite (warned_steady.trans (.ite (.of_kept rfl) (.after (steady_setTherm _ 1 true) rfl)))
      (cooled_steady.trans (.ite (.after (steady_setTherm _ 1 false) rfl) (.refl cooled)))
  have graded_steady : Steady s graded :=
    critical_steady.trans (.ite (.of_kept rfl) (.ite (.of_kept rfl) (.after (steady_setTherm _ 2 _) rfl)))
  exact .ite (.refl s) (.ite (graded_steady.trans (steady_trip graded)) graded_steady)

theorem steady_frameBoundary (s : State) : Steady s (Out.or (execFrameBoundary s) s) := by
  unfold execFrameBoundary
  rw [or_next]
  refine .ite (.refl s) ?_
  have ends : Steady s (leaseFrame (testFrame (captureFrame s))) :=
    ((steady_captureFrame s).trans (steady_testFrame _)).trans (steady_leaseFrame _)
  have starts (t : State) : kept (frameStart (frameSend t)) = kept t := (kept_frameStart _).trans (kept_frameSend t)
  have shows (t : State) : kept (captureStart (framePeeks (refreshConds (frameLatch t)))) = kept t :=
    (kept_captureStart _).trans ((kept_framePeeks _).trans ((kept_refreshConds _).trans (kept_frameLatch t)))
  exact .under (shows _) ((ends.under (starts _)).trans (steady_frameApply _))

theorem steady_tuMultiframeBoundary (s : State) : Steady s (Out.or (execTuMultiframeBoundary s) s) := by
  unfold execTuMultiframeBoundary
  rw [or_next]
  extract_lets a b c
  refine .ite (.after (steady_claimPages _) ?_) (.refl s)
  rw [kept_mrgPeekAt, kept_protPeek, kept_mapPeek, kept_refreshConds, kept_dropLatencies, kept_syncStorage, kept_multiframeOuts,
    kept_foldl _ _ _ (fun t a => kept_storePeriod t a), kept_applySelections, kept_applyBoundary, kept_guardsHold, kept_mergesMultiframe]
  rfl

/-! ### Every command and every step -/

theorem steady_railOutOfRange (n : Fin 6) (status : BitVec 16) (s : State) : Steady s (Out.or (execRailOutOfRange n status s) s) := by
  unfold execRailOutOfRange
  extract_lets a b pwr c hbm d
  have b_kept : kept b = kept s := (kept_railFault _ _ _).trans rfl
  have c_kept : kept c = kept s := b_kept
  have d_kept : kept d = kept s := b_kept
  refine .ite (.refl s) (.ite (.after (steady_trip b) b_kept) (.ite ?_ (.ite ?_ (.after (steady_serDown c) c_kept))))
  · exact .of_kept ((kept_foldl _ _ _ fun t i => kept_bset t _ _ _).trans d_kept)
  · exact .of_kept ((kept_tribDown c).trans c_kept)

theorem steady_resizeDone (s : State) : Steady s (Out.or (execResizeDone s) s) := by
  unfold execResizeDone
  extract_lets a p q b
  have a_steady : Steady s a := .ite (steady_claimLease s) (.refl s)
  refine .ite (.refl s) (.under (kept_stackRefresh _) (a_steady.trans ⟨rfl, le_rfl, fun h => ?_⟩))
  exact memWf_refill (s := a) (movedMem_wf p q _) (memWf_mapWin (s := a) h) rfl rfl rfl h

theorem steady_beagleLeaseStart (kind : Fin 3) (s : State) : Steady s (Out.or (execBeagleLeaseStart kind s) s) := by
  unfold execBeagleLeaseStart
  rw [or_next]
  refine .ite (.refl s) ?_
  split
  · exact .after (.ite (.of_kept (kept_beginLease _ _ _ _)) (.refl _)) rfl
  · exact .ite (steady_sweepLease s _) (.refl s)

theorem steady_beagleUnitEnd (kind : Fin 3) (badRows : List Nat) (s : State) :
    Steady s (Out.or (execBeagleUnitEnd kind badRows s) s) := by
  unfold execBeagleUnitEnd
  extract_lets k
  rw [or_next]
  split
  · exact .refl s
  · rename_i l _
    refine .ite (.refl s) ?_
    extract_lets rows a b
    have a_steady : Steady s a := .under (kept_count _ _ _) (steady_endLease s _ l)
    have b_steady : Steady s b := .ite a_steady (.under (kept_unitFailed _ _ _ _) a_steady)
    exact .ite b_steady (b_steady.trans (steady_sweepOn b _ _))

theorem steady_selftest (d : Nat) (s : State) : Steady s (Out.or (execSelftest d s) s) := by
  unfold execSelftest
  rw [or_next]
  split
  · exact .refl s
  · exact .ite (.of_kept (kept_invalidOpen s d)) (.ite (.refl s) (.after (steady_testFrom _ _ _ _) (kept_setDesc _ _ _)))

theorem steady_captureRead (d : Nat) (io : HostIO) (s : State) : Steady s (Out.or (execCaptureRead d io s) s) := by
  unfold execCaptureRead
  rw [or_next]
  split
  · exact .refl s
  · rename_i x _
    refine .ite (.refl s) (.ite (.of_kept (kept_invalid s d _)) (.ite (.of_kept (kept_invalidOpen s d)) ?_))
    refine .under (kept_copyOut _ _ _ _ _ _ _) (.under (kept_freeBytesNext _) (.under (kept_setDesc _ _ _) (.under (kept_readBad _ _) ?_)))
    split
    · exact .ite (steady_claimAddr s _) (.refl s)
    · exact .refl s

theorem steady_mailboxHostWrite (w : MboxWrite) (sup : Option MboxWrite) (s : State) :
    Steady s (Out.or (execMailboxHostWrite w sup s) s) := by
  unfold execMailboxHostWrite
  rw [or_next]
  refine .ite (.refl s) ?_
  exact .trans (.foldl (fun t i => steady_mboxBoth t w _ i) _ s) (.foldl (fun t i => steady_supStore t _ i) _ _)

theorem steady_lockTimeout (target : Fin 8) (s : State) : Steady s (Out.or (execLockTimeout target s) s) := by
  unfold execLockTimeout
  rw [or_next]
  split
  · exact .refl s
  · refine .after (steady_grantWaits _) ((kept_raise _ _ _ _).trans ?_)
    exact (kept_count _ _ _).trans (kept_setLock _ _ _)

/-- Every command leaves the queue as it is, never lowers the fuse and keeps the memories' canonical form. -/
theorem steady_exec (c : Instr) (s : State) : Steady s (Out.or (exec c s) s) := by
  by_cases frame : writesMemory c = false ∧ ∀ v, c ≠ .svnCommit v
  · exact .of_kept (kept_exec c s frame.1 frame.2)
  cases c with
  | svnCommit v => exact steady_svnCommit v s
  | registerWrite off size v => exact steady_registerWrite off size v s
  | warmResetStart => exact (steady_warmResetStart s).trans (steady_grantWaits _)
  | coldReset => exact .after (steady_coldState _ true s.pwr.aonOk) (kept_railsOff s _)
  | frameBoundary => exact steady_frameBoundary s
  | tuMultiframeBoundary => exact steady_tuMultiframeBoundary s
  | domainWakeDone dom => exact .under (kept_stackRefresh _) ((steady_wakeDone s dom).trans (steady_grantWaits _))
  | powerStateChange => exact .ite (.ite (steady_toStandby s) (steady_toDormant s)) (.refl s)
  | hotReset => exact .after ((steady_resetMaster _ 2).trans (steady_grantWaits _)) (kept_hotReset s)
  | claimWindowEnd => exact (steady_claimWindowEnd s).trans (steady_grantWaits _)
  | halfBootDone half chk => exact .ite (.refl s) (.under (kept_bootServed _) (steady_halfBootDone s half chk))
  | matrixAccess a => exact steady_issue s a false
  | lockedRead m a n => exact .ite (steady_issue s _ true) (.refl s)
  | lockTimeout target => exact steady_lockTimeout target s
  | mailboxHostWrite w sup => exact steady_mailboxHostWrite w sup s
  | mailboxSupervisorWrite w => exact .ite (.refl s) (.ite (steady_mboxSup s w) (.of_kept rfl))
  | resizeDone => exact steady_resizeDone s
  | beagleLeaseStart kind => exact steady_beagleLeaseStart kind s
  | beagleUnitEnd kind rows => exact steady_beagleUnitEnd kind rows s
  | leaseRestoreDone kind => exact steady_restoreLease s _
  | selftest d => exact steady_selftest d s
  | captureRead d io => exact steady_captureRead d io s
  | thermalSample temps => exact steady_thermalSample temps s
  | railOutOfRange n status => exact steady_railOutOfRange n status s
  | extensionLoadDone ok => exact (steady_extensionLoadDone ok s).trans (steady_grantWaits _)
  | debugSessionEnd => exact .ite (.after ((steady_resetMaster _ 6).trans (steady_grantWaits _)) rfl) (.refl s)
  | vddAonDetector inRange =>
    exact .ite (.refl s) (.ite (.of_kept rfl) (.after (steady_coldState _ s.pwr.rstLow false) (kept_railsOff s _)))
  | _ => exact absurd ⟨rfl, fun _ => nofun⟩ frame

end Sys2Proof.Machine
end

section
/-! SUPPORT. What a step runs and keeps, and what the commands that are none of memory's leave of it. -/

namespace Sys2Proof.Machine

/-- A step runs the command at the front of the queue with the rest of the queue waiting. -/
theorem step_command {c : Instr} {r : List Instr} {s : State} (front : s.pending = c :: r) :
    step s = exec c { s with pending := r } := by
  rw [step, front]

/-- With no command waiting one tick passes (R286; log entry 1). -/
theorem step_idle {s : State} (empty : s.pending = []) : step s = .next (idleTick s) := by
  rw [step, empty]

theorem step_next (s : State) : ∃ t, step s = .next t := by
  cases h : s.pending with
  | nil => exact ⟨_, step_idle h⟩
  | cons c r => exact ⟨_, (step_command h).trans (exec_next c _)⟩

theorem steady_ran {c : Instr} {s t : State} (ran : exec c s = .next t) : Steady s t := exec_or ran ▸ steady_exec c s

/-- A step takes the command at the front of the queue, never lowers the fuse and keeps the memories' canonical form. -/
theorem step_keeps {s t : State} (ran : step s = .next t) :
    t.pending = s.pending.tail ∧ s.pwr.minSvn ≤ t.pwr.minSvn ∧ (memWf s = true → memWf t = true) := by
  cases h : s.pending with
  | nil =>
    obtain ⟨queue, fuse, form⟩ := Steady.of_kept (kept_idleTick s)
    rw [step_idle h] at ran
    cases ran
    exact ⟨queue.trans h, fuse, form⟩
  | cons c r =>
    rw [step_command h] at ran
    obtain ⟨queue, fuse, form⟩ := steady_ran ran
    exact ⟨queue, fuse, form⟩

/-- SVN_COMMIT changes nothing of the memories. -/
theorem kept_svnCommit (v : Word) (s : State) :
    { kept (Out.or (execSvnCommit v s) s) with minSvn := 0 } = { kept s with minSvn := 0 } := by
  unfold execSvnCommit
  rw [or_next]
  rcases hostWrite_cases s Reg.glbBoot v _ with ⟨-, h⟩ | ⟨-, -, h⟩ | ⟨-, -, -, h⟩ | ⟨-, -, -, h⟩ <;> rw [h]
  · rfl
  · rw [kept_ignoredWrite]
  · dsimp only
    split
    · rfl
    · split
      · rw [kept_ignoredWrite]
      · rfl

/-- A command that `writesMemory` does not list keeps every memory. -/
theorem exec_memories {c : Instr} {s t : State} (frame : writesMemory c = false) (ran : exec c s = .next t) :
    { kept t with minSvn := 0 } = { kept s with minSvn := 0 } := by
  rw [← exec_or ran]
  by_cases commit : ∃ v, c = .svnCommit v
  · obtain ⟨v, rfl⟩ := commit
    exact kept_svnCommit v s
  · rw [kept_exec c s frame (not_exists.mp commit)]

end Sys2Proof.Machine
end

section
/-! SUPPORT. The queue, the fuse and the memories over every command and every step (R379, R380, R387, R429; log entries 1 and 4). -/

open Sys2Proof Sys2Proof.Machine

/-- Settles O46: canonical form is kept by every command and every step, as each operation on a memory keeps it. -/
theorem memoriesKeepTheirForm : Obligations.MemoriesKeepTheirForm := by
  unfold Obligations.MemoriesKeepTheirForm
  refine ⟨fun c s t wf ran => (steady_ran ran).form wf, fun s t wf ran => ?_⟩
  obtain ⟨-, -, form⟩ := step_keeps ran
  exact form wf

/-- Settles O47: a command that is none of memory's keeps the memories, from which the bytes of mailbox and scratchpad read as before. -/
theorem onlyMemoryCommandsChangeMemory : Obligations.OnlyMemoryCommandsChangeMemory := by
  unfold Obligations.OnlyMemoryCommandsChangeMemory
  intro c s t frame ran
  have memories := exec_memories frame ran
  have mailbox : t.mtx.mailbox = s.mtx.mailbox := congrArg Kept.mailbox memories
  have scratch : t.mtx.scratch = s.mtx.scratch := congrArg Kept.scratch memories
  have fw : t.mtx.fw = s.mtx.fw := congrArg Kept.fw memories
  refine ⟨congrArg Kept.mem memories, mailbox, congrArg Kept.mapWin memories, scratch, fw, fun o => ?_, fun o => ?_⟩
  · rw [mboxByte, mailbox, mboxByte]
  · rw [scratchByte, scratch, fw, scratchByte]

/-- Settles O44: the write's two outcomes by its two lemmas; no command and no step lowers the fuse, SVN_COMMIT being the one that moves it. -/
theorem svnCommitRaisesTheFuse : Obligations.SvnCommitRaisesTheFuse := by
  unfold Obligations.SvnCommitRaisesTheFuse
  refine ⟨fun v s awake free running bringup commit below => exec_svnCommit_raises awake free running bringup commit below,
    fun c s t ran => (steady_ran ran).fuse, fun s t ran => ?_,
    fun v s awake free commit refused => exec_svnCommit_ignored awake free commit (refused.imp_right fun same => same.ge)⟩
  obtain ⟨-, fuse, -⟩ := step_keeps ran
  exact fuse

/-- Settles O45: no command touches the queue, and a step takes its front (the queue is log entry 1's, the model's choice). -/
theorem commandsAreTakenInOrder : Obligations.CommandsAreTakenInOrder := by
  unfold Obligations.CommandsAreTakenInOrder
  refine ⟨fun c s t ran => (steady_ran ran).queue, fun s t ran => ?_⟩
  obtain ⟨queue, -, -⟩ := step_keeps ran
  exact queue

/-- Settles O29: the two cases of a step. -/
theorem stepRunsTheCommandAtTheFront : Obligations.StepRunsTheCommandAtTheFront := by
  unfold Obligations.StepRunsTheCommandAtTheFront
  exact ⟨fun c r s front => step_command front, fun s empty => step_idle empty⟩

/-- Settles O30: no arm of `exec` faults or refuses, and neither does the tick (log entry 4, the model's choice). -/
theorem everyCommandEndsInANextState : Obligations.EveryCommandEndsInANextState := by
  unfold Obligations.EveryCommandEndsInANextState
  exact ⟨fun c s => ⟨_, exec_next c s⟩, step_next⟩
end

section
/-! SUPPORT. What counting does to the counter, to the chain slots on it and to every other register, and what an ignored sequence records (R325,
R355, R357). -/

namespace Sys2Proof.Machine

/-! ### Fields -/

theorem fset_other (s : State) (off o hi lo v : Nat) (h : o ≠ off) : rd (fset s off hi lo v) o = rd s o := rd_wr_other _ _ _ _ h

theorem bset_other (s : State) (off o i : Nat) (b : Bool) (h : o ≠ off) : rd (bset s off i b) o = rd s o := rd_wr_other _ _ _ _ h

/-! ### Carries -/

/-- The part of chain slot `k` in a carry of the raw counter at `off` (R357). -/
def carrySlot (off : Nat) (s : State) (k : Nat) : State :=
  if chained s k off then
    bset (wr s (Reg.pmChainHi k) (rd s (Reg.pmChainHi k) + 1)) (Reg.pmChainSt k) 0
      (!bget (wr s (Reg.pmChainHi k) (rd s (Reg.pmChainHi k) + 1)) (Reg.pmChainSt k) 0)
  else s

theorem carry_eq (s : State) (off : Nat) : carry s off = (List.range 256).foldl (carrySlot off) s := rfl

/-- HIGH, status and configuration of the chain slots are 768 different registers. -/
theorem pmChain_apart (j k : Nat) : Reg.pmChainHi j ≠ Reg.pmChainSt k ∧ Reg.pmChainCfg j ≠ Reg.pmChainHi k ∧
    Reg.pmChainCfg j ≠ Reg.pmChainSt k ∧ (j ≠ k → Reg.pmChainHi j ≠ Reg.pmChainHi k ∧ Reg.pmChainSt j ≠ Reg.pmChainSt k) := by
  simp only [Reg.pmChainHi, Reg.pmChainSt, Reg.pmChainCfg]
  omega

/-- A carry's part of a slot writes that slot's HIGH and status alone. -/
theorem carrySlot_other (s : State) (off k o : Nat) (hi : o ≠ Reg.pmChainHi k) (st : o ≠ Reg.pmChainSt k) :
    rd (carrySlot off s k) o = rd s o := by
  unfold carrySlot
  split
  · rw [bset_other _ _ _ _ _ st, rd_wr_other _ _ _ _ hi]
  · rfl

theorem chained_carrySlot (s : State) (off j k : Nat) : chained (carrySlot off s j) k off = chained s k off := by
  obtain ⟨-, hi, st, -⟩ := pmChain_apart k j
  simp only [chained, bget, fget, carrySlot_other s off j _ hi st]

/-- A slot on the counter counts the carry in HIGH, and EPOCH flips; a slot on another counter stays. -/
theorem carrySlot_same (s : State) (off k : Nat) :
    rd (carrySlot off s k) (Reg.pmChainHi k) = (if chained s k off then rd s (Reg.pmChainHi k) + 1 else rd s (Reg.pmChainHi k)) ∧
    bget (carrySlot off s k) (Reg.pmChainSt k) 0 = (bget s (Reg.pmChainSt k) 0 != chained s k off) := by
  obtain ⟨apart, -⟩ := pmChain_apart k k
  unfold carrySlot
  split
  · rename_i on
    refine ⟨by rw [bset_other _ _ _ _ _ apart, rd_wr_same], ?_⟩
    rw [bget_bset_same _ _ _ _ (by decide), bget_wr_other _ _ _ _ _ apart.symm, on, Bool.bne_true]
  · rename_i off_
    rw [Bool.eq_false_iff.mpr off_, Bool.bne_false]
    exact ⟨rfl, rfl⟩

/-- Slots on another counter have no part in a carry. -/
theorem carrySlot_apart (s : State) (off k o : Nat) (h : chained s k off = true → o ≠ Reg.pmChainHi k ∧ o ≠ Reg.pmChainSt k) :
    rd (carrySlot off s k) o = rd s o := by
  by_cases on : chained s k off = true
  · exact carrySlot_other s off k o (h on).1 (h on).2
  · rw [carrySlot, if_neg on]

theorem carrySlots_other (l : List Nat) (s : State) (off o : Nat)
    (h : ∀ j ∈ l, chained s j off = true → o ≠ Reg.pmChainHi j ∧ o ≠ Reg.pmChainSt j) :
    rd (l.foldl (carrySlot off) s) o = rd s o := by
  induction l generalizing s with
  | nil => rfl
  | cons j r ih =>
    rw [List.foldl_cons, ih _ fun i m on => h i (List.mem_cons_of_mem _ m) (by rwa [chained_carrySlot] at on),
      carrySlot_apart s off j o (h j List.mem_cons_self)]

theorem chained_carrySlots (l : List Nat) (s : State) (off k : Nat) : chained (l.foldl (carrySlot off) s) k off = chained s k off := by
  induction l generalizing s with
  | nil => rfl
  | cons j r ih => rw [List.foldl_cons, ih, chained_carrySlot]

/-- A carry changes chain slots on the counter alone. -/
theorem carry_other (s : State) (off o : Nat)
    (h : ∀ j < 256, chained s j off = true → o ≠ Reg.pmChainHi j ∧ o ≠ Reg.pmChainSt j) : rd (carry s off) o = rd s o := by
  rw [carry_eq]
  exact carrySlots_other _ s off o fun j m => h j (List.mem_range.mp m)

/-- A carry adds one to HIGH of a slot on the counter and flips its EPOCH; a slot on another counter stays (R357). -/
theorem carry_slot (s : State) (off k : Nat) (slot : k < 256) :
    rd (carry s off) (Reg.pmChainHi k) = (if chained s k off then rd s (Reg.pmChainHi k) + 1 else rd s (Reg.pmChainHi k)) ∧
    bget (carry s off) (Reg.pmChainSt k) 0 = (bget s (Reg.pmChainSt k) 0 != chained s k off) := by
  obtain ⟨before, later, split⟩ := List.append_of_mem (List.mem_range.mpr slot)
  have once : (before ++ k :: later).Nodup := split ▸ List.nodup_range
  obtain ⟨-, tail, apart⟩ := List.nodup_append.mp once
  have others (t : State) (l : List Nat) (h : k ∉ l) :
      rd (l.foldl (carrySlot off) t) (Reg.pmChainHi k) = rd t (Reg.pmChainHi k) ∧
      rd (l.foldl (carrySlot off) t) (Reg.pmChainSt k) = rd t (Reg.pmChainSt k) := by
    have ne (j : Nat) (m : j ∈ l) : k ≠ j := fun e => h (e ▸ m)
    exact ⟨carrySlots_other l t off _ fun j m _ => ⟨((pmChain_apart k j).2.2.2 (ne j m)).1, (pmChain_apart k j).1⟩,
      carrySlots_other l t off _ fun j m _ => ⟨(pmChain_apart j k).1.symm, ((pmChain_apart k j).2.2.2 (ne j m)).2⟩⟩
  have hiBefore := others s before fun m => apart k m k List.mem_cons_self rfl
  rw [carry_eq, split, List.foldl_append, List.foldl_cons]
  obtain ⟨hiAfter, stAfter⟩ := others (carrySlot off (before.foldl (carrySlot off) s) k) later (List.nodup_cons.mp tail).1
  obtain ⟨hiSame, stSame⟩ := carrySlot_same (before.foldl (carrySlot off) s) off k
  rw [chained_carrySlots] at hiSame stSame
  rw [bget, hiAfter, stAfter, hiSame, ← bget, stSame, bget, hiBefore.1, hiBefore.2]
  exact ⟨rfl, rfl⟩

/-! ### Counting -/

/-- A counter that is no register of a chain slot. -/
def outOfChain (off : Nat) : Prop := ∀ j < 256, off ≠ Reg.pmChainHi j ∧ off ≠ Reg.pmChainSt j ∧ off ≠ Reg.pmChainCfg j

theorem chained_wr (s : State) (off k o : Nat) (v : Word) (h : Reg.pmChainCfg k ≠ o) : chained (wr s o v) k off = chained s k off := by
  simp only [chained, bget_wr_other _ _ _ _ _ h, fget_wr_other _ _ _ _ _ _ h]

/-- Counting changes the counter and the chain slots on it alone. -/
theorem count_other (s : State) (off n o : Nat) (counter : o ≠ off) (raw : outOfChain off)
    (h : ∀ j < 256, chained s j off = true → o ≠ Reg.pmChainHi j ∧ o ≠ Reg.pmChainSt j) : rd (count s off n) o = rd s o := by
  unfold count
  dsimp only
  split
  · rw [rd_wr_other _ _ _ _ counter]
  · rw [carry_other _ _ _ fun j slot on => ?_, rd_wr_other _ _ _ _ counter]
    obtain ⟨-, -, cfg⟩ := raw j slot
    exact h j slot (by rwa [chained_wr _ _ _ _ _ cfg.symm] at on)

theorem w32_succ (w : Word) : w32 (w.toNat + 1) = w + 1 := by
  apply BitVec.eq_of_toNat_eq
  simp only [w32, BitVec.toNat_ofNat, BitVec.toNat_add, BitVec.reduceToNat]

/-- The counter goes on modulo 2^32 (R355). -/
theorem count_counter (s : State) (off n : Nat) (raw : outOfChain off) :
    rd (count s off n) off = w32 ((rd s off).toNat + n) := by
  unfold count
  dsimp only
  split
  · rw [rd_wr_same]
  · rw [carry_other _ _ _ fun j slot _ => ⟨(raw j slot).1, (raw j slot).2.1⟩, rd_wr_same]

/-- What counting does to a chain slot: HIGH and EPOCH move where the counter passes 2^32 and the slot is on it (R355, R357). -/
theorem count_slot (s : State) (off n k : Nat) (slot : k < 256) (raw : outOfChain off) :
    rd (count s off n) (Reg.pmChainHi k) = (if chained s k off ∧ 2 ^ 32 ≤ (rd s off).toNat + n then rd s (Reg.pmChainHi k) + 1
      else rd s (Reg.pmChainHi k)) ∧
    bget (count s off n) (Reg.pmChainSt k) 0 =
      (bget s (Reg.pmChainSt k) 0 != (chained s k off && decide (2 ^ 32 ≤ (rd s off).toNat + n))) := by
  obtain ⟨hi, st, cfg⟩ := raw k slot
  unfold count
  dsimp only
  split
  · rename_i low
    have noCarry : ¬2 ^ 32 ≤ (rd s off).toNat + n := Nat.not_le.mpr low
    rw [rd_wr_other _ _ _ _ hi.symm, bget_wr_other _ _ _ _ _ st.symm, if_neg (fun h => noCarry h.2), decide_eq_false noCarry,
      Bool.and_false, Bool.bne_false]
    exact ⟨rfl, rfl⟩
  · rename_i high
    have carries : 2 ^ 32 ≤ (rd s off).toNat + n := Nat.not_lt.mp high
    obtain ⟨hiMoves, stMoves⟩ := carry_slot (wr s off (w32 ((rd s off).toNat + n))) off k slot
    rw [hiMoves, stMoves, chained_wr _ _ _ _ _ cfg.symm, rd_wr_other _ _ _ _ hi.symm, bget_wr_other _ _ _ _ _ st.symm,
      decide_eq_true carries, Bool.and_true]
    simp only [carries, and_true, and_self]

/-- HIGH and the counter together count as one 64-bit value (R357). -/
theorem count_pair (s : State) (off n k : Nat) (slot : k < 256) (small : n < 2 ^ 32) (on : chained s k off = true)
    (raw : outOfChain off) :
    (rd (count s off n) (Reg.pmChainHi k)).toNat * 2 ^ 32 + (rd (count s off n) off).toNat =
      ((rd s (Reg.pmChainHi k)).toNat * 2 ^ 32 + (rd s off).toNat + n) % 2 ^ 64 := by
  have hiBound := (rd s (Reg.pmChainHi k)).isLt
  have offBound := (rd s off).isLt
  obtain ⟨hiMoves, -⟩ := count_slot s off n k slot raw
  rw [hiMoves, count_counter s off n raw, w32, BitVec.toNat_ofNat]
  simp only [on, true_and]
  split
  · have one : (1 : Word).toNat = 1 := rfl
    rw [BitVec.toNat_add, one]
    omega
  · omega

/-! ### Ignored sequences -/

/-- HIF_IGNORED_CNT is no register of a chain slot. -/
theorem hifIgnoredCnt_outOfChain : outOfChain Reg.hifIgnoredCnt := by
  intro j _
  simp only [Reg.hifIgnoredCnt, Reg.pmChainHi, Reg.pmChainSt, Reg.pmChainCfg]
  omega

/-- An ignored sequence is counted and recorded, and a register other than the three of R325 reads as counting leaves it. -/
theorem ignored_other (s : State) (kind ring off o : Nat) (last : o ≠ Reg.hifIgnoredLast) (addr : o ≠ Reg.hifIgnoredAddr) :
    rd (ignored s kind ring off) o = rd (count s Reg.hifIgnoredCnt 1) o := by
  unfold ignored
  dsimp only
  rw [rd_wr_other _ _ _ _ addr, rd_wr_other _ _ _ _ last]

/-- HIF_IGNORED_LAST holds KIND and, for the kinds that have one, RING; HIF_IGNORED_ADDR the offset (R325). -/
theorem ignored_records (s : State) (kind ring off : Nat) :
    rd (ignored s kind ring off) Reg.hifIgnoredLast = w32 (kind % 8 + 16 * (if 2 ≤ kind ∧ kind ≤ 6 then ring % 4096 else 0)) ∧
    rd (ignored s kind ring off) Reg.hifIgnoredAddr = w32 (off % 2 ^ 26) := by
  unfold ignored
  dsimp only
  exact ⟨by rw [rd_wr_other _ _ _ _ (by decide), rd_wr_same], rd_wr_same _ _ _⟩

/-- KIND and RING of the word that HIF_IGNORED_LAST takes. -/
theorem ignoredLast_fields (k r : Nat) (kind : k < 8) (ring : r < 4096) :
    fld (w32 (k + 16 * r)) 2 0 = k ∧ fld (w32 (k + 16 * r)) 15 4 = r := by
  simp only [fld, nbits, w32, BitVec.toNat_ofNat]
  omega

end Sys2Proof.Machine
end

section
/-! SUPPORT. The raw counters, their chain slots and the ignored sequences (R325, R355, R357). -/

open Sys2Proof Sys2Proof.Machine

/-- Settles O38: a slot on the counter by `count_pair` and `count_slot`; a slot on another counter, whose parts of the carry are none. -/
theorem chainPairsCountAsOneValue : Obligations.ChainPairsCountAsOneValue := by
  unfold Obligations.ChainPairsCountAsOneValue
  refine ⟨fun s k off n slot small on raw => count_pair s off n k slot small on raw, fun s k off n slot small on raw => ?_,
    fun s k off n slot apart raw => ?_⟩
  · obtain ⟨-, epoch⟩ := count_slot s off n k slot raw
    rw [epoch, on, Bool.true_and]
  · obtain ⟨hi, st, -⟩ := raw k slot
    have others (j : Nat) (on : chained s j off = true) : k ≠ j := fun same => Bool.false_ne_true (apart.symm.trans (same ▸ on))
    exact ⟨count_other s off n _ hi.symm raw fun j _ on => ⟨((pmChain_apart k j).2.2.2 (others j on)).1, (pmChain_apart k j).1⟩,
      count_other s off n _ st.symm raw fun j _ on => ⟨(pmChain_apart j k).1.symm, ((pmChain_apart k j).2.2.2 (others j on)).2⟩⟩

/-- Settles O37: an ignored sequence is registers alone, and of them the three of R325 and what counting moves. -/
theorem ignoredSequencesChangeNothingElse : Obligations.IgnoredSequencesChangeNothingElse := by
  unfold Obligations.IgnoredSequencesChangeNothingElse
  refine ⟨fun s k r a => offRegs_ignored s k r a, fun s k r a o cnt last addr chain => ?_, fun s k r a o cnt last addr none => ?_,
    fun s k r a => ?_⟩
  · rw [ignored_other s k r a o last addr, count_other s _ 1 o cnt hifIgnoredCnt_outOfChain fun j slot _ => chain j slot]
  · rw [ignored_other s k r a o last addr, count_other s _ 1 o cnt hifIgnoredCnt_outOfChain fun j slot on => absurd on (by rw [none j slot]; decide)]
  · obtain ⟨lastWord, addrWord⟩ := ignored_records s k r a
    have ring : (if 2 ≤ k ∧ k ≤ 6 then r % 4096 else 0) < 4096 := by split <;> omega
    obtain ⟨kindField, ringField⟩ := ignoredLast_fields (k % 8) _ (Nat.mod_lt _ (by decide)) ring
    have counted : rd (count s Reg.hifIgnoredCnt 1) Reg.hifIgnoredCnt = rd s Reg.hifIgnoredCnt + 1 := by
      rw [count_counter s _ 1 hifIgnoredCnt_outOfChain, w32_succ]
    refine ⟨?_, by rw [fget, lastWord, kindField], addrWord, by rw [fget, lastWord, ringField]⟩
    rw [ignored_other s k r a _ (by decide) (by decide), counted]
end

section
/-! SUPPORT. What events and completions change: registers of rings, the event unit, the rings and what is sent out, and nothing else (R305 to
R324, R349 to R354). -/

namespace Sys2Proof.Machine

/-! ### Everything but registers, events and what is sent out -/

/-- The state without its registers, its event unit and its record of what was sent out: what raising an event leaves equal. -/
def offEvents (s : State) : State := { s with regs := [], evt := {}, out := [] }

@[simp] theorem offEvents_wr (s : State) (off : Nat) (v : Word) : offEvents (wr s off v) = offEvents s := rfl

@[simp] theorem offEvents_bset (s : State) (off i : Nat) (b : Bool) : offEvents (bset s off i b) = offEvents s := rfl

@[simp] theorem offEvents_fset (s : State) (off hi lo v : Nat) : offEvents (fset s off hi lo v) = offEvents s := rfl

@[simp] theorem offEvents_emit (s : State) (o : Output) : offEvents (emit s o) = offEvents s := rfl

@[simp] theorem offEvents_setHeld (s : State) (src : Nat) (l : List EvRec) : offEvents (setHeld s src l) = offEvents s := rfl

@[simp] theorem offEvents_evt (s : State) (e : EvtSt) : offEvents { s with evt := e } = offEvents s := rfl

theorem offEvents_count (s : State) (off n : Nat) : offEvents (count s off n) = offEvents s :=
  congrArg (fun t : State => { t with evt := {}, out := [] }) (offRegs_count s off n)

@[simp] theorem offEvents_advance (s : State) (n : Nat) : offEvents (advance s n) = offEvents s := by
  unfold advance
  dsimp only
  split <;> rfl

@[simp] theorem offEvents_msix (s : State) (v : Nat) : offEvents (msix s v) = offEvents s := by
  unfold msix
  split <;> rfl

@[simp] theorem offEvents_signal (s : State) (r : Nat) : offEvents (signal s r) = offEvents s := by
  rw [signal, offEvents_msix, offEvents_evt]

@[simp] theorem offEvents_announce (s : State) (r sev src : Nat) : offEvents (announce s r sev src) = offEvents s := by
  unfold announce
  extract_lets v u u' t c
  split_ifs
  · rw [offEvents_signal, offEvents_evt]
  · rfl

@[simp] theorem offEvents_writeEvent (s : State) (n : Nat) (r : EvRec) : offEvents (writeEvent s n r) = offEvents s := by
  unfold writeEvent
  rw [offEvents_announce, offEvents_advance, offEvents_evt, offEvents_emit]

@[simp] theorem offEvents_flushHeld (fuel : Nat) (s : State) : offEvents (flushHeld fuel s) = offEvents s := by
  induction fuel generalizing s with
  | zero => rfl
  | succ n ih =>
    unfold flushHeld
    split
    · rfl
    · split
      · rfl
      · rw [ih, offEvents_writeEvent, offEvents_setHeld]

@[simp] theorem offEvents_flushEvents (s : State) : offEvents (flushEvents s) = offEvents s := offEvents_flushHeld _ s

@[simp] theorem offEvents_raiseFrom (s : State) (src : Nat) : offEvents (raiseFrom s src) = offEvents s := by
  unfold raiseFrom
  split
  · rfl
  · exact offEvents_flushEvents s

/-- Raising an event changes registers, the event unit and what is sent out alone (R350 to R353). -/
@[simp] theorem offEvents_raise (s : State) (src : Nat) (d0 d1 : Word) : offEvents (raise s src d0 d1) = offEvents s := by
  rcases raise_cases s src d0 d1 with ⟨-, -, h⟩ | ⟨l, h, -⟩ | ⟨r, h⟩ | ⟨n, r, -, -, -, -, -, h⟩
  · rw [h]
  · rw [h, offEvents_setHeld]
  · rw [h, offEvents_setHeld, offEvents_raiseFrom]
  · rw [h, offEvents_writeEvent, offEvents_raiseFrom]

@[simp] theorem offEvents_raiseOnce (s : State) (src cause inst : Nat) (d0 d1 : Word) :
    offEvents (raiseOnce s src cause inst d0 d1) = offEvents s := by
  unfold raiseOnce
  split
  · rfl
  · rw [offEvents_raise, offEvents_evt]

/-! ### The registers of the rings -/

/-- A register that is neither producer nor control of a ring. -/
def offRingRegs (o : Nat) : Prop := ∀ n < 4096, o ≠ Reg.ringProd n ∧ o ≠ Reg.ringCtl n

section
variable {o : Nat} (apart : offRingRegs o)
include apart

theorem rd_advance (s : State) (n : Nat) (ring : n < 4096) : rd (advance s n) o = rd s o := by
  unfold advance
  dsimp only
  split <;> exact rd_wr_other _ _ _ _ (apart n ring).1

omit apart in
theorem rd_msix (s : State) (v : Nat) : rd (msix s v) o = rd s o := by
  unfold msix
  split <;> rfl

omit apart in
theorem rd_announce (s : State) (r sev src : Nat) : rd (announce s r sev src) o = rd s o := by
  unfold announce
  extract_lets v u u' t c
  split_ifs
  · exact rd_msix _ _
  · rfl

theorem rd_writeEvent (s : State) (n : Nat) (r : EvRec) (ring : n < 4096) : rd (writeEvent s n r) o = rd s o := by
  unfold writeEvent
  dsimp only
  rw [rd_announce, rd_advance apart _ n ring]
  rfl

omit apart in
/-- An event goes to one of the 4,096 rings (R351). -/
theorem eventRing_lt {s : State} {src n : Nat} (h : eventRing s src = some n) : n < 4096 := by
  have ring (m : Nat) (e : isEventRing s m = true) : m < 4096 := by
    simp only [isEventRing, Bool.and_eq_true, decide_eq_true_eq] at e
    exact e.1.1
  unfold eventRing at h
  dsimp only at h
  split_ifs at h <;> obtain rfl := Option.some.inj h
  all_goals exact ring _ ‹_›

theorem rd_flushHeld (fuel : Nat) (s : State) : rd (flushHeld fuel s) o = rd s o := by
  induction fuel generalizing s with
  | zero => rfl
  | succ n ih =>
    unfold flushHeld
    split
    · rfl
    · split
      · rfl
      · rename_i ring found
        rw [ih, rd_writeEvent apart _ _ _ (eventRing_lt found)]
        rfl

theorem rd_raiseFrom (s : State) (src : Nat) : rd (raiseFrom s src) o = rd s o := by
  unfold raiseFrom
  split
  · rfl
  · exact rd_flushHeld apart _ s

/-- Raising an event leaves every register but those of the rings. -/
theorem rd_raise (s : State) (src : Nat) (d0 d1 : Word) : rd (raise s src d0 d1) o = rd s o := by
  rcases raise_cases s src d0 d1 with ⟨-, -, h⟩ | ⟨l, h, -⟩ | ⟨r, h⟩ | ⟨n, r, ring, -, -, -, -, h⟩
  · rw [h]
  · rw [h]; rfl
  · rw [h]; exact rd_raiseFrom apart s src
  · rw [h, rd_writeEvent apart _ _ _ (eventRing_lt ring), rd_raiseFrom apart]

theorem rd_raiseOnce (s : State) (src cause inst : Nat) (d0 d1 : Word) : rd (raiseOnce s src cause inst d0 d1) o = rd s o := by
  unfold raiseOnce
  split
  · rfl
  · rw [rd_raise apart]; rfl

/-! ### Completions -/

theorem rd_writeCpl (s : State) (c : Cpl) (ring : c.ring < 4096) : rd (writeCpl s c) o = rd s o := by
  unfold writeCpl
  dsimp only
  have written : rd (dropDesc (advance (emit s (.record c.ring (ringProd s c.ring) (ringAddr s c.ring (ringProd s c.ring))
      (cplWords s c (bget s (Reg.ringProd c.ring) 16)))) c.ring) c.d) o = rd s o := rd_advance apart _ _ ring
  split
  · rw [rd_announce, written]
  · exact written

theorem rd_stall (s : State) (ring : Nat) (h : ring < 4096) : rd (stall s ring) o = rd s o := by
  unfold stall
  split
  · rfl
  · rw [rd_raise apart, bset_other _ _ _ _ _ (apart ring h).2]

theorem rd_postCpl0 (s : State) (c : Cpl) (ring : c.ring < 4096) : rd (postCpl0 s c) o = rd s o := by
  unfold postCpl0
  split
  · dsimp only
    split
    · exact rd_stall apart s c.ring ring
    · rfl
  · exact rd_writeCpl apart s c ring

omit apart in
/-- A completion record goes to one of the 4,096 rings (R312, R313). -/
theorem cplOf_ring (s : State) (d : Desc) (status : Nat) (r0 r1 : Word) : (cplOf s d status r0 r1).ring < 4096 := by
  have bound : fld (d.w 2) 27 16 < 4096 := Nat.mod_lt _ (by decide)
  unfold cplOf
  dsimp only
  split
  · exact bound
  · decide

theorem rd_endWaiter (s : State) (w : Nat × Nat × Bool) (status : Nat) : rd (endWaiter s w status) o = rd s o := by
  unfold endWaiter
  dsimp only
  split
  · rfl
  · rw [rd_postCpl0 apart _ _ (cplOf_ring _ _ _ _ _)]
    rfl

theorem rd_endWaiters (s : State) (target status : Nat) : rd (endWaiters s target status) o = rd s o :=
  foldl_keeps (fun t => rd t o = rd s o) _ (fun t w h => (rd_endWaiter apart t w status).trans h) _ s rfl

theorem rd_postCpl (s : State) (c : Cpl) (ring : c.ring < 4096) : rd (postCpl s c) o = rd s o := by
  unfold postCpl
  dsimp only
  split
  · exact rd_postCpl0 apart s c ring
  · rw [rd_endWaiters apart, rd_postCpl0 apart s c ring]

/-- Ending a descriptor leaves every register but producers and controls of the rings. -/
theorem rd_complete (s : State) (id status : Nat) (r0 r1 : Word) : rd (complete s id status r0 r1) o = rd s o := by
  unfold complete
  split
  · rfl
  · split
    · exact rd_endWaiters apart _ _ _
    · rw [rd_postCpl apart _ _ (cplOf_ring _ _ _ _ _)]
      rfl

end

/-! ### Everything but registers, rings, events and what is sent out -/

/-- The state without its rings as well: what ending a descriptor leaves equal. -/
def offRings (s : State) : State := { s with regs := [], rng := {}, evt := {}, out := [] }

theorem offRings_of_offEvents {s t : State} (h : offEvents s = offEvents t) : offRings s = offRings t :=
  congrArg (fun u : State => { u with rng := {} }) h

@[simp] theorem offRings_rng (s : State) (r : RngSt) : offRings { s with rng := r } = offRings s := rfl

@[simp] theorem offRings_stall (s : State) (ring : Nat) : offRings (stall s ring) = offRings s := by
  unfold stall
  split
  · rfl
  · exact offRings_of_offEvents (offEvents_raise _ _ _ _)

@[simp] theorem offRings_writeCpl (s : State) (c : Cpl) : offRings (writeCpl s c) = offRings s := by
  unfold writeCpl
  dsimp only
  have written (e : State) : offRings (dropDesc (advance e c.ring) c.d) = offRings e :=
    congrArg (fun u : State => { u with rng := {} }) (offEvents_advance e c.ring)
  split
  · rw [offRings_of_offEvents (offEvents_announce _ _ _ _), written]
    rfl
  · exact written _

@[simp] theorem offRings_postCpl0 (s : State) (c : Cpl) : offRings (postCpl0 s c) = offRings s := by
  unfold postCpl0
  split
  · rw [offRings_rng]
    split
    · exact offRings_stall s c.ring
    · rfl
  · exact offRings_writeCpl s c

@[simp] theorem offRings_endWaiter (s : State) (w : Nat × Nat × Bool) (status : Nat) : offRings (endWaiter s w status) = offRings s := by
  unfold endWaiter
  dsimp only
  split
  · rfl
  · rw [offRings_postCpl0]
    rfl

@[simp] theorem offRings_endWaiters (s : State) (target status : Nat) : offRings (endWaiters s target status) = offRings s :=
  foldl_keeps (fun t => offRings t = offRings s) _ (fun t w h => (offRings_endWaiter t w status).trans h) _ s rfl

@[simp] theorem offRings_postCpl (s : State) (c : Cpl) : offRings (postCpl s c) = offRings s := by
  unfold postCpl
  dsimp only
  split
  · exact offRings_postCpl0 s c
  · rw [offRings_endWaiters, offRings_postCpl0]

/-- Ending a descriptor changes registers, the rings, the event unit and what is sent out alone. -/
@[simp] theorem offRings_complete (s : State) (id status : Nat) (r0 r1 : Word) :
    offRings (complete s id status r0 r1) = offRings s := by
  unfold complete
  split
  · rfl
  · split
    · rw [offRings_endWaiters]; rfl
    · rw [offRings_postCpl]; rfl

/-! ### Records that wait -/

theorem stall_rng (s : State) (ring : Nat) : (stall s ring).rng = s.rng := by
  unfold stall
  split
  · rfl
  · change (offEvents (raise (bset s (Reg.ringCtl ring) 2 true) 0x680 1 (w32 ring))).rng = (offEvents s).rng
    rw [offEvents_raise]
    rfl

/-- A record that cannot be written waits as the last of those that wait (R305, R311, R366). -/
theorem postCpl_waits (s : State) (c : Cpl) (blocked : cplBlocked s c.ring = true) :
    (postCpl s c).rng.cplWait = s.rng.cplWait ++ [c] := by
  rcases postCpl0_cases s c with ⟨free, -⟩ | ⟨-, waits⟩
  · exact absurd blocked (by rw [free]; decide)
  · rw [postCpl, if_pos blocked, waits]
    split
    · rw [stall_rng]
    · rfl

/-- Without Bus Master Enable, without a half that holds the leash and in REPLAY no record is written (R26, R305, R366). -/
theorem cplBlocked_of (s : State) (ring : Nat) (h : s.rng.bme = false ∨ s.mtx.held = false ∨ replay s = true) :
    cplBlocked s ring = true := by
  rcases h with h | h | h <;> simp [cplBlocked, h]

end Sys2Proof.Machine
end

section
/-! SUPPORT. What ending a descriptor changes (R305, R311, R313, R316, R324). -/

open Sys2Proof Sys2Proof.Machine

/-- Settles O43: each operation of a completion leaves what is not of the rings; a record that is blocked waits as the last. -/
theorem completionsChangeOnlyTheirRings : Obligations.CompletionsChangeOnlyTheirRings := by
  unfold Obligations.CompletionsChangeOnlyTheirRings
  refine ⟨fun s id st r0 r1 => offRings_complete s id st r0 r1, fun s id st o r0 r1 apart => rd_complete apart s id st r0 r1,
    fun s id st r0 r1 absent => complete_absent s id st r0 r1 absent, fun s d st r0 r1 inFlight status blocked => ?_⟩
  have notOk : ¬(st = 0 ∧ bit (d.w 0) 17 = true ∧ d.op ≠ 2) := fun h => status h.1
  rw [complete, inFlight]
  dsimp only
  rw [if_neg notOk, postCpl_waits _ _ (cplBlocked_of (setDesc s d.id 3) _ blocked)]
  rfl
end

section
/-! SUPPORT. One tick of the timebase (R286 to R289; log entry 1). -/

namespace Sys2Proof.Machine

/-! ### The counter apart from its servo -/

/-- The time counter without what the servo's mode and its runs of samples hold: what raising an event and the 1PPS leave equal. -/
def clock (s : State) : TodSt := { s.tod with servo := 0, lockEnd := 0, samples := [], okRun := 0, badRun := 0 }

theorem clock_of_tod {s t : State} (h : s.tod = t.tod) : clock s = clock t := by
  rw [clock, clock, h]

theorem tod_raise (s : State) (src : Nat) (d0 d1 : Word) : (raise s src d0 d1).tod = s.tod := by
  change (offEvents (raise s src d0 d1)).tod = (offEvents s).tod
  rw [offEvents_raise]

theorem tod_setServo (s : State) (st : Nat) : (setServo s st).tod = s.tod := by
  unfold setServo
  dsimp only
  split
  · rfl
  · exact tod_raise _ _ _ _

theorem tod_setLarge (s : State) (b : Bool) : (setLarge s b).tod = s.tod := by
  unfold setLarge
  split
  · rfl
  · exact tod_raise _ _ _ _

/-! ### What the 1PPS leaves of it -/

theorem tod_snapshot (s : State) : (snapshot s).tod = s.tod := by
  unfold snapshot
  split <;> rfl

theorem tod_editPdh (s : State) (u : PdhUnit) (f : PdhSt → PdhSt) : (editPdh s u f).tod = s.tod := by
  cases u <;> rfl

theorem tod_endPdhSecond (s : State) (u : PdhUnit) : (endPdhSecond s u).tod = s.tod := by
  rw [endPdhSecond, notePdh, tod_editPdh, tod_editPdh]

theorem tod_endSeconds (s : State) : (endSeconds s).tod = s.tod := by
  unfold endSeconds
  extract_lets lanes paths ports
  have ofLanes : lanes.tod = s.tod := foldl_keeps (fun t => t.tod = s.tod) endLaneSecond (fun _ _ (h : State.tod _ = _) => h) _ s rfl
  have ofPaths : paths.tod = s.tod := foldl_keeps (fun t => t.tod = s.tod) endPathSecond (fun _ _ (h : State.tod _ = _) => h) _ _ ofLanes
  have ofPorts : ports.tod = s.tod :=
    foldl_keeps (fun t => t.tod = s.tod) _ (fun t p h => (tod_endPdhSecond t _).trans h) _ _ ofPaths
  exact foldl_keeps (fun t => t.tod = s.tod) _ (fun t n h => (tod_endPdhSecond t _).trans h) _ _ ofPorts

theorem tod_culletEvents (s : State) : (culletEvents s).tod = s.tod := by
  unfold culletEvents
  exact foldl_keeps (fun t => t.tod = s.tod) (fun t (p : Nat × Nat) => raise t (0x780 + p.1) 2 (w32 p.2))
    (fun t p h => (tod_raise t _ _ _).trans h) _ _ rfl

theorem clock_takeServo (s : State) : clock (takeServo s) = clock s := by
  unfold takeServo
  dsimp only
  split
  · rfl
  · split
    · rw [clock, tod_setServo, tod_setLarge]
      rfl
    · rw [acquire, clock, tod_setServo]
      rfl

theorem clock_ppsEffect (s : State) : clock (ppsEffect s) = clock s := by
  unfold ppsEffect
  rw [clock_takeServo]
  apply clock_of_tod
  change (culletEvents (endSeconds (snapshot s))).tod = s.tod
  rw [tod_culletEvents, tod_endSeconds, tod_snapshot]

/-- Counting takes the counter on, whatever wrap or 1PPS the ticks pass (R286 to R289). -/
theorem clock_countTicks (s : State) (k : Nat) : clock (countTicks s k) = clock { s with tod := s.tod.count k } := by
  unfold countTicks
  extract_lets before counted wrapped
  have ofWrap : clock wrapped = clock counted := by
    unfold wrapped
    split
    · exact clock_of_tod (tod_raise _ _ _ _)
    · rfl
  split
  · rw [clock_ppsEffect, ofWrap]
  · exact ofWrap

/-! ### One tick -/

theorem count_one_acc (t : TodSt) : (t.count 1).acc = t.acc + t.inc := by
  apply BitVec.eq_of_toNat_eq
  simp [TodSt.count]

/-- Less than a second passes in the tick, so SUBSEC rolls over once at the most (R287). -/
theorem count_one_subsec (t : TodSt) (d : Nat) (within : t.subsec < 1000000000)
    (passed : d = (t.acc.toNat + t.inc.toNat) / 2 ^ 32 - t.acc.toNat / 2 ^ 32) (short : d < 1000000000) :
    (t.count 1).subsec = (t.subsec + d) % 1000000000 := by
  simp only [TodSt.count, one_mul, ← passed]
  split <;> omega

/-- What one counted tick makes of the counter, field by field. -/
theorem tick_clock (s : State) :
    let t := (countTicks s 1).tod
    t.acc = s.tod.acc + s.tod.inc ∧ t.subsec = (s.tod.count 1).subsec ∧ t.inc = s.tod.inc ∧
      t.wraps = (if 2 ^ 64 ≤ s.tod.acc.toNat + s.tod.inc.toNat then s.tod.wraps + 1 else s.tod.wraps) ∧
      t.latFrac = s.tod.latFrac ∧ t.latSub = s.tod.latSub ∧ t.latWraps = s.tod.latWraps ∧ t.waiting = s.tod.waiting := by
  have ticked := clock_countTicks s 1
  simp only [clock, TodSt.mk.injEq] at ticked
  obtain ⟨acc, inc, subsec, wraps, frac, sub, wrapsRead, -, -, -, -, -, -, waiting, -⟩ := ticked
  refine ⟨acc.trans (count_one_acc s.tod), subsec, inc, wraps.trans ?_, frac, sub, wrapsRead, waiting⟩
  simp only [TodSt.count, one_mul]

theorem idleTick_counts {s : State} (running : inReset s = false) (none_due : setsDue s = false) : idleTick s = countTicks s 1 := by
  simp [idleTick, running, none_due]

theorem setsDue_none {s : State} (h : s.tod.waiting = []) : setsDue s = false := by simp [setsDue, h]

theorem setsDue_free {s : State} (h : s.mtx.held = false) : setsDue s = false := by simp [setsDue, h]

theorem memories_of_kept {s t : State} (h : kept t = kept s) :
    t.hbm.mem = s.hbm.mem ∧ t.mtx.mailbox = s.mtx.mailbox ∧ t.mtx.scratch = s.mtx.scratch ∧ t.pending = s.pending :=
  ⟨congrArg Kept.mem h, congrArg Kept.mailbox h, congrArg Kept.scratch h, congrArg Kept.pending h⟩

/-- A waiting TIME_SET takes the tick, as TIME_SET_APPLY takes it (R294, R366). -/
theorem idleTick_sets {s : State} (running : inReset s = false) (due : setsDue s = true) :
    .next (idleTick s) = exec .timeSetApply s := by
  change _ = execTimeSetApply s
  simp [idleTick, execTimeSetApply, running, due]

end Sys2Proof.Machine
end

section
/-! SUPPORT. One tick on an empty queue (R286 to R289; log entry 1). -/

open Sys2Proof Sys2Proof.Machine

/-- Settles O42: the idle tick counts one tick, and what a wrap or a 1PPS does leaves the counter's clock (log entry 1, the model's choice). -/
theorem oneTickAddsTheIncrement : Obligations.OneTickAddsTheIncrement := by
  unfold Obligations.OneTickAddsTheIncrement
  refine ⟨fun s empty running idle => ⟨_, step_idle empty, ?_⟩, fun s d within empty running idle passed short =>
    ⟨_, step_idle empty, ?_⟩, fun s empty running some_wait holder => ?_, fun s empty running free => ⟨_, step_idle empty, ?_⟩,
    fun s empty reset => ?_⟩
  · have memories := kept_idleTick s
    rw [idleTick_counts running (setsDue_none idle)] at memories ⊢
    obtain ⟨acc, -, inc, wraps, frac, sub, wrapsRead, -⟩ := tick_clock s
    obtain ⟨mem, mailbox, scratch, queue⟩ := memories_of_kept memories
    exact ⟨acc, inc, frac, sub, wrapsRead, wraps, mem, mailbox, scratch, queue.trans empty⟩
  · rw [idleTick_counts running (setsDue_none idle)]
    obtain ⟨-, subsec, -⟩ := tick_clock s
    exact subsec.trans (count_one_subsec s.tod d within passed short)
  · rw [step_idle empty]
    refine idleTick_sets running ?_
    simpa [setsDue, holder] using some_wait
  · rw [idleTick_counts running (setsDue_free free)]
    obtain ⟨acc, -, -, -, -, -, -, waiting⟩ := tick_clock s
    exact ⟨acc, waiting⟩
  · rw [step_idle empty, idleTick, if_pos reset]
end

section
/-! SUPPORT. The mailbox's bytes after the writes of either port, and the signals of its last words (R380 to R382). -/

namespace Sys2Proof.Machine

/-! ### What a write reaches -/

theorem mem_rangeFrom (a n o : Nat) : o ∈ rangeFrom a n ↔ a ≤ o ∧ o < a + n := by
  simp only [rangeFrom, List.mem_map, List.mem_range]
  exact ⟨fun ⟨i, h, e⟩ => by omega, fun h => ⟨o - a, by omega, by omega⟩⟩

theorem rangeFrom_ascends (a n : Nat) : (rangeFrom a n).Pairwise (· < ·) :=
  List.pairwise_map.mpr (List.pairwise_lt_range.imp (fun h => Nat.add_lt_add_left h a))

theorem mboxHits_iff (w : MboxWrite) (i : Nat) : mboxHits w i = true ↔ ∃ o, o / 8 = i ∧ (mboxLane w o).isSome = true := by
  simp only [mboxHits, List.any_eq_true, mem_rangeFrom]
  exact ⟨fun ⟨o, h, e⟩ => ⟨o, by omega, e⟩, fun ⟨o, h, e⟩ => ⟨o, by omega, e⟩⟩

/-- A word that the write does not reach holds none of its bytes. -/
theorem mboxLane_none {w : MboxWrite} {o : Nat} (h : mboxHits w (o / 8) = false) : mboxLane w o = none := by
  by_contra some_byte
  rw [(mboxHits_iff w (o / 8)).mpr ⟨o, rfl, Option.isSome_iff_ne_none.mpr some_byte⟩] at h
  cases h

theorem mboxLane_within {w : MboxWrite} {o : Nat} (h : (mboxLane w o).isSome = true) :
    w.offset ≤ o ∧ o < w.offset + w.lanes.length := by
  unfold mboxLane at h
  split at h
  · cases h
  · by_contra out
    rw [List.getElem?_eq_none (by omega)] at h
    cases h

theorem mem_mboxWords (w : MboxWrite) (i : Nat) : i ∈ mboxWords w ↔ i < 8192 ∧ mboxHits w i = true := by
  simp only [mboxWords, List.mem_filter, mem_rangeFrom, Bool.and_eq_true, decide_eq_true_eq, and_iff_right_iff_imp]
  rintro ⟨-, hits⟩
  obtain ⟨o, rfl, byte⟩ := (mboxHits_iff w i).mp hits
  have within := mboxLane_within byte
  omega

theorem mboxWords_ascends (w : MboxWrite) : (mboxWords w).Pairwise (· < ·) := (rangeFrom_ascends _ _).filter _

theorem mboxWords_nodup (w : MboxWrite) : (mboxWords w).Nodup := (mboxWords_ascends w).imp (fun h => Nat.ne_of_lt h)

/-- Word 8,191 is the last that a write can reach. -/
theorem mboxWords_last {w : MboxWrite} (h : mboxHits w 8191 = true) : ∃ l, mboxWords w = l ++ [8191] ∧ 8191 ∉ l := by
  obtain ⟨l, r, parts⟩ := List.append_of_mem ((mem_mboxWords w 8191).mpr ⟨by decide, h⟩)
  have ascends := mboxWords_ascends w
  rw [parts, List.pairwise_append, List.pairwise_cons] at ascends
  obtain ⟨-, ⟨after, -⟩, before⟩ := ascends
  have no_more : r = [] := by
    refine List.eq_nil_iff_forall_not_mem.mpr (fun i inside => ?_)
    have above := after i inside
    have below := ((mem_mboxWords w i).mp (by rw [parts]; simp [inside])).1
    omega
  rw [no_more] at parts
  exact ⟨l, parts, fun inside => Nat.lt_irrefl _ (before 8191 inside 8191 (by simp))⟩

/-- A port that does not write in the cycle. -/
theorem mboxHits_absent (i : Nat) : mboxHits {} i = false := by
  rw [Bool.eq_false_iff]
  intro hits
  obtain ⟨o, -, byte⟩ := (mboxHits_iff {} i).mp hits
  exact absurd (mboxLane_within byte).2 (Nat.not_lt.mpr (mboxLane_within byte).1)

theorem mboxWords_absent : mboxWords {} = [] :=
  List.eq_nil_iff_forall_not_mem.mpr (fun i inside => by simpa [mboxHits_absent] using (mem_mboxWords {} i).mp inside)

/-! ### Bytes -/

/-- Where the step of each item gives byte `o` what `x` holds for its own item `k` and leaves it for every other, the steps of a list do so
together. -/
theorem mboxByte_foldl {f : State → Nat → State} {o k : Nat} {x : Option Byte}
    (step : ∀ s i, mboxByte (f s i) o = if k = i then x.getD (mboxByte s o) else mboxByte s o) (l : List Nat) (s : State) :
    mboxByte (l.foldl f s) o = if k ∈ l then x.getD (mboxByte s o) else mboxByte s o := by
  induction l generalizing s with
  | nil => rfl
  | cons c r ih =>
    rw [List.foldl_cons, ih, step]
    by_cases same : k = c
    · cases x <;> simp [same]
    · simp [same]

/-- A word takes the bytes that the write holds for it, and every other word stays (R380). -/
theorem mboxByte_store (s : State) (w : MboxWrite) (i o : Nat) :
    mboxByte (mboxStore s w i) o = if o / 8 = i then (mboxLane w o).getD (mboxByte s o) else mboxByte s o := by
  have word : o ∈ rangeFrom (8 * i) 8 ↔ o / 8 = i := by rw [mem_rangeFrom]; omega
  simp only [← word]
  refine mboxByte_foldl (fun t c => ?_) _ s
  by_cases same : o = c
  · subst same
    cases mboxLane w o <;> simp [mboxPut_get]
  · cases mboxLane w c <;> simp [mboxPut_get, same]

/-- A write leaves each byte of the mailbox as it holds it, where it writes that byte, and as before elsewhere (R380). -/
theorem mboxByte_write {f : State → Nat → State} {w : MboxWrite} {o : Nat} (inside : o < 65536)
    (step : ∀ s i, mboxByte (f s i) o = if o / 8 = i then (mboxLane w o).getD (mboxByte s o) else mboxByte s o) (s : State) :
    mboxByte ((mboxWords w).foldl f s) o = (mboxLane w o).getD (mboxByte s o) := by
  rw [mboxByte_foldl step]
  split
  · rfl
  · rename_i missed
    have unreached : mboxHits w (o / 8) = false := by
      rw [Bool.eq_false_iff]
      exact fun hits => missed ((mem_mboxWords w (o / 8)).mpr ⟨by omega, hits⟩)
    rw [mboxLane_none unreached]
    rfl

/-! ### What a write leaves -/

/-- The state without the bytes of its mailbox. -/
def offMailbox (s : State) : State := { s with mtx := { s.mtx with mailbox := [] } }

theorem offMailbox_store (s : State) (w : MboxWrite) (i : Nat) : offMailbox (mboxStore s w i) = offMailbox s := by
  refine foldl_keeps (fun t => offMailbox t = offMailbox s) _ (fun t o h => ?_) _ s rfl
  split
  · exact h
  · exact h

theorem offMailbox_stores (w : MboxWrite) (l : List Nat) (s : State) :
    offMailbox (l.foldl (fun s i => mboxStore s w i) s) = offMailbox s :=
  foldl_keeps (fun t => offMailbox t = offMailbox s) _ (fun t i h => (offMailbox_store t w i).trans h) l s rfl

/-- What a state that differs in the mailbox's bytes alone has in common with the other. -/
theorem same_of_offMailbox {s t : State} (h : offMailbox t = offMailbox s) :
    t.mtx.irq = s.mtx.irq ∧ t.evt = s.evt ∧ t.out = s.out ∧ t.regs = s.regs := by
  have irq := congrArg (fun u : State => u.mtx.irq) h
  have evt := congrArg State.evt h
  have out := congrArg State.out h
  have regs := congrArg State.regs h
  exact ⟨irq, evt, out, regs⟩

/-! ### The two ports -/

theorem supSignal_other (s : State) {i : Nat} (h : i ≠ 8191) : supSignal s i = s := if_neg h

theorem mtx_of_offEvents {s t : State} (h : offEvents t = offEvents s) : t.mtx = s.mtx := by
  have mtx := congrArg State.mtx h
  exact mtx

theorem mtx_supSignal (s : State) (i : Nat) : (supSignal s i).mtx = s.mtx := by
  unfold supSignal
  split
  · exact mtx_of_offEvents (offEvents_raise _ _ _ _)
  · rfl

theorem mtx_mboxColl (s : State) (i : Nat) : (mboxColl s i).mtx = s.mtx := by
  unfold mboxColl
  generalize w32 (i + 8192) = record
  exact (mtx_of_offEvents (offEvents_raiseOnce _ _ _ _ _ _)).trans (mtx_of_offEvents (offEvents_count _ _ _))

theorem mboxByte_of_mtx {s t : State} (h : t.mtx = s.mtx) (o : Nat) : mboxByte t o = mboxByte s o := by rw [mboxByte, h, mboxByte]

theorem mboxByte_hostSignal (s : State) (i o : Nat) : mboxByte (hostSignal s i) o = mboxByte s o := by
  unfold hostSignal
  split <;> rfl

theorem irq_hostSignal (s : State) (i : Nat) : (hostSignal s i).mtx.irq = s.mtx.irq + if i = 8190 then 1 else 0 := by
  unfold hostSignal
  split <;> rfl

theorem irq_store (s : State) (w : MboxWrite) (i : Nat) : (mboxStore s w i).mtx.irq = s.mtx.irq :=
  (same_of_offMailbox (offMailbox_store s w i)).1

/-- A word that the host's write reaches holds its bytes, and beside them those of a supervisor's write of the same cycle (R381). -/
theorem mboxByte_both (s : State) (w p : MboxWrite) (i o : Nat) :
    mboxByte (mboxBoth s w p i) o = if o / 8 = i then ((mboxLane w o).or (mboxLane p o)).getD (mboxByte s o) else mboxByte s o := by
  unfold mboxBoth
  split
  · rw [mboxByte_of_mtx (mtx_supSignal _ _), mboxByte_hostSignal, mboxByte_of_mtx (mtx_mboxColl _ _), mboxByte_store,
      mboxByte_store]
    split
    · cases mboxLane w o <;> rfl
    · rfl
  · rename_i apart
    rw [mboxByte_hostSignal, mboxByte_store]
    split
    · rename_i word
      rw [mboxLane_none (w := p) (o := o) (by rw [word]; exact Bool.eq_false_iff.mpr apart), Option.or_none]
    · rfl

theorem irq_both (s : State) (w p : MboxWrite) (i : Nat) :
    (mboxBoth s w p i).mtx.irq = s.mtx.irq + if i = 8190 then 1 else 0 := by
  unfold mboxBoth
  split
  · rw [mtx_supSignal, irq_hostSignal, mtx_mboxColl, irq_store, irq_store]
  · rw [irq_hostSignal, irq_store]

theorem mboxByte_sup (s : State) (w : MboxWrite) (i o : Nat) :
    mboxByte (supSignal (mboxStore s w i) i) o = if o / 8 = i then (mboxLane w o).getD (mboxByte s o) else mboxByte s o := by
  rw [mboxByte_of_mtx (mtx_supSignal _ _), mboxByte_store]

/-- Each word is reached once, so word 8,190 interrupts once (R382). -/
theorem irq_words (w p : MboxWrite) (l : List Nat) (once : l.Nodup) (s : State) :
    (l.foldl (fun s i => mboxBoth s w p i) s).mtx.irq = s.mtx.irq + if 8190 ∈ l then 1 else 0 := by
  induction l generalizing s with
  | nil => rfl
  | cons c r ih =>
    obtain ⟨fresh, rest⟩ := List.nodup_cons.mp once
    rw [List.foldl_cons, ih rest, irq_both]
    by_cases signal : c = 8190
    · subst signal
      simp [fresh]
    · simp [signal, Ne.symm signal]

/-! ### MAILBOX_HOST_WRITE -/

/-- The host's write, powered: its words with the supervisor's beside them, then the words the supervisor alone reaches (R380 to R382). -/
def hostWritten (w p : MboxWrite) (s : State) : State :=
  ((mboxWords p).filter (fun i => !mboxHits w i)).foldl (fun s i => supSignal (mboxStore s p i) i)
    ((mboxWords w).foldl (fun s i => mboxBoth s w p i) s)

theorem exec_mailboxHostWrite {s : State} (w : MboxWrite) (sup : Option MboxWrite) (on : s.pwr.st ≠ 0) :
    exec (.mailboxHostWrite w sup) s = .next (hostWritten w (sup.getD {}) s) := by
  change execMailboxHostWrite w sup s = _
  rw [execMailboxHostWrite, if_neg on]
  rfl

/-- Both writes together leave the merged bytes (R380, R381). -/
theorem mboxByte_hostWritten (w p : MboxWrite) (s : State) {o : Nat} (inside : o < 65536) :
    mboxByte (hostWritten w p s) o = ((mboxLane w o).or (mboxLane p o)).getD (mboxByte s o) := by
  rw [hostWritten, mboxByte_foldl (fun t i => mboxByte_sup t p i o), mboxByte_foldl (fun t i => mboxByte_both t w p i o)]
  simp only [List.mem_filter, mem_mboxWords, Bool.not_eq_true']
  have word : o / 8 < 8192 := by omega
  cases host : mboxHits w (o / 8) with
  | true => simp [word]
  | false =>
    rw [mboxLane_none host]
    cases sup : mboxHits p (o / 8) with
    | true => simp [word]
    | false => simp [mboxLane_none sup]

/-- The host's write interrupts the supervisor once, where it reaches word 8,190 (R382). -/
theorem irq_hostWritten (w p : MboxWrite) (s : State) :
    (hostWritten w p s).mtx.irq = s.mtx.irq + if mboxHits w 8190 then 1 else 0 := by
  have host := irq_words w p (mboxWords w) (mboxWords_nodup w) s
  simp only [mem_mboxWords, Nat.reduceLT, true_and] at host
  exact foldl_keeps (fun t => t.mtx.irq = s.mtx.irq + if mboxHits w 8190 then 1 else 0) (fun t i => supSignal (mboxStore t p i) i)
    (fun t i h => by rw [mtx_supSignal, irq_store, h]) _ _ host

/-- Alone it raises nothing (R382). -/
theorem hostWritten_alone (w : MboxWrite) (s : State) :
    (hostWritten w {} s).evt = s.evt ∧ (hostWritten w {} s).out = s.out ∧ (hostWritten w {} s).regs = s.regs := by
  rw [hostWritten, mboxWords_absent]
  refine foldl_keeps (fun t => t.evt = s.evt ∧ t.out = s.out ∧ t.regs = s.regs) (fun t i => mboxBoth t w {} i)
    (fun t i h => ?_) (mboxWords w) s ⟨rfl, rfl, rfl⟩
  rw [mboxBoth, if_neg (by rw [mboxHits_absent]; decide)]
  obtain ⟨-, evt, out, regs⟩ := same_of_offMailbox (offMailbox_store t w i)
  obtain ⟨evt', out', regs'⟩ := h
  rw [hostSignal]
  split
  · exact ⟨evt.trans evt', out.trans out', regs.trans regs'⟩
  · exact ⟨evt.trans evt', out.trans out', regs.trans regs'⟩

/-! ### MAILBOX_SUPERVISOR_WRITE -/

/-- The supervisor's write of the words of `l`, without its signal (R380). -/
def stored (w : MboxWrite) (l : List Nat) (s : State) : State := l.foldl (fun s i => mboxStore s w i) s

theorem supWords_quiet (w : MboxWrite) (l : List Nat) (quiet : 8191 ∉ l) (s : State) :
    l.foldl (fun s i => supSignal (mboxStore s w i) i) s = stored w l s := by
  induction l generalizing s with
  | nil => rfl
  | cons c r ih =>
    obtain ⟨here, rest⟩ := not_or.mp (List.mem_cons.not.mp quiet)
    rw [List.foldl_cons, supSignal_other _ (Ne.symm here), ih rest]
    rfl

theorem mboxSup_quiet {w : MboxWrite} (s : State) (quiet : mboxHits w 8191 = false) : mboxSup s w = stored w (mboxWords w) s :=
  supWords_quiet w _ (fun inside => by simpa [quiet] using (mem_mboxWords w 8191).mp inside) s

/-- Word 8,191, reached last, raises MBOX_SIGNAL with its low 32 bits (R382). -/
theorem mboxSup_signals {w : MboxWrite} (s : State) (hits : mboxHits w 8191 = true) :
    mboxSup s w = raise (stored w (mboxWords w) s) 0x704 0x31 (mboxLow (stored w (mboxWords w) s) 8191) := by
  obtain ⟨l, words, before⟩ := mboxWords_last hits
  have whole : stored w (l ++ [8191]) s = mboxStore (stored w l s) w 8191 := List.foldl_append
  rw [mboxSup, words, List.foldl_append, supWords_quiet w l before, whole]
  rfl

theorem mboxByte_stored (w : MboxWrite) (s : State) {o : Nat} (inside : o < 65536) :
    mboxByte (stored w (mboxWords w) s) o = (mboxLane w o).getD (mboxByte s o) :=
  mboxByte_write inside (fun t i => mboxByte_store t w i o) s

theorem stored_same (w : MboxWrite) (l : List Nat) (s : State) :
    (stored w l s).mtx.irq = s.mtx.irq ∧ (stored w l s).evt = s.evt ∧ (stored w l s).out = s.out ∧ (stored w l s).regs = s.regs :=
  same_of_offMailbox (offMailbox_stores w l s)

/-- At the mailbox's port, free or its own, the write is made at once (R376, R380). -/
theorem exec_mailboxSupervisorWrite {s : State} (w : MboxWrite) {m : Fin 7} (master : m = if holder s then 1 else 0)
    (free : (lockOf s 5).getD m.val = m.val) (on : s.pwr.st ≠ 0) : exec (.mailboxSupervisorWrite w) s = .next (mboxSup s w) := by
  subst master
  change execMailboxSupervisorWrite w s = _
  unfold execMailboxSupervisorWrite
  dsimp only
  rw [if_neg on, if_pos free]

end Sys2Proof.Machine
end

section
/-! SUPPORT. The signal words of the mailbox (R382). -/

open Sys2Proof Sys2Proof.Machine

/-- Settles O34: the bytes and the signals of the two ports' writes, word by word (which master writes, and that it waits, are log entries 113 and 9, the
model's choice). -/
theorem signalWordsInterruptTheOtherSide : Obligations.SignalWordsInterruptTheOtherSide := by
  unfold Obligations.SignalWordsInterruptTheOtherSide
  refine ⟨fun w p s t on ran => ?_, fun w s t on ran => ?_, fun w m s master free on hits => ?_,
    fun w m s t master free on quiet ran => ?_, fun w m s master locked on => ?_, fun w p s u on host sup merged => ?_⟩
  · rw [exec_mailboxHostWrite w p on] at ran
    cases ran
    refine ⟨fun o inside => ?_, irq_hostWritten w _ s⟩
    rw [mboxByte_hostWritten w _ s inside]
    cases p with
    | none => rw [Option.getD_none, mboxLane_none (mboxHits_absent (o / 8)), Option.bind_none]
    | some p => rfl
  · rw [exec_mailboxHostWrite w none on] at ran
    cases ran
    exact hostWritten_alone w s
  · obtain ⟨irq, evt, out, regs⟩ := stored_same w (mboxWords w) s
    exact ⟨stored w (mboxWords w) s, by rw [exec_mailboxSupervisorWrite w master free on, mboxSup_signals s hits],
      fun o inside => mboxByte_stored w s inside, irq, evt, out, regs⟩
  · rw [exec_mailboxSupervisorWrite w master free on, mboxSup_quiet s quiet] at ran
    cases ran
    exact ⟨fun o inside => mboxByte_stored w s inside, stored_same w (mboxWords w) s⟩
  · subst master
    refine ⟨{ acc := { master := if holder s then 1 else 0, write := true }, tgt := (5, w.offset), mbox := some w }, ?_, rfl, rfl⟩
    change execMailboxSupervisorWrite w s = _
    unfold execMailboxSupervisorWrite
    dsimp only
    rw [if_neg on, if_neg locked]
  · have hits (x : MboxWrite) (words : mboxWords x = [8191]) : mboxHits x 8191 = true :=
      ((mem_mboxWords x 8191).mp (by rw [words]; simp)).2
    rw [exec_mailboxHostWrite w (some p) on, hostWritten, Option.getD_some, host, sup]
    simp only [List.filter, hits w host, Bool.not_true, List.foldl_cons, List.foldl_nil, mboxBoth, hits p sup, if_true]
    subst merged
    rfl
end

section
/-! SUPPORT. What a refused access of the matrix changes (R374, R377). -/

namespace Sys2Proof.Machine

/-! ### An error response -/

/-- What raising an event leaves, without the locks that were lost: what an error response leaves equal. -/
def offLost (s : State) : State := { offEvents s with mtx := { s.mtx with lost := [] } }

theorem offLost_of_offEvents {s t : State} (h : offEvents t = offEvents s) : offLost t = offLost s := by
  rw [offLost, offLost, h, mtx_of_offEvents h]

theorem offLost_wire (s : State) (kind : String) (inst : Nat) (b : List Byte) : offLost (wire s kind inst b) = offLost s := rfl

theorem offLost_wr (s : State) (off : Nat) (v : Word) : offLost (wr s off v) = offLost s := rfl

theorem offLost_lost (s : State) (l : List Nat) : offLost { s with mtx := { s.mtx with lost := l } } = offLost s := rfl

/-- An error response performs nothing: it counts, records and announces (R374, R383). -/
theorem offLost_refuseAccess (s : State) (w : MtxWait) (kind : Nat) : offLost (refuseAccess s w kind) = offLost s := by
  unfold refuseAccess
  extract_lets a m t hi counted last addr old lost error read
  rw [offLost_of_offEvents (offEvents_raiseOnce _ _ _ _ _ _)]
  have recorded : offLost error = offLost s := by
    rw [offLost_wire, offLost_lost, offLost_wr, offLost_wr, offLost_wr]
    exact offLost_of_offEvents (offEvents_count s _ _)
  unfold read
  split
  · exact recorded
  · exact (offLost_wire _ _ _ _).trans recorded

theorem mtxErrCnt_out : outOfChain Reg.mtxErrCnt := by
  intro j slot
  simp only [Reg.mtxErrCnt, Reg.pmChainHi, Reg.pmChainSt, Reg.pmChainCfg]
  omega

theorem mtxErrCnt_apart : offRingRegs Reg.mtxErrCnt := by
  intro n ring
  simp only [Reg.mtxErrCnt, Reg.ringProd, Reg.ringCtl]
  omega

/-- An error response is counted (R383). -/
theorem refuseAccess_counts (s : State) (w : MtxWait) (kind : Nat) :
    rd (refuseAccess s w kind) Reg.mtxErrCnt = rd s Reg.mtxErrCnt + 1 := by
  unfold refuseAccess
  extract_lets a m t hi counted last addr old lost error read
  rw [rd_raiseOnce mtxErrCnt_apart]
  have recorded : rd addr Reg.mtxErrCnt = rd s Reg.mtxErrCnt + 1 := by
    rw [rd_wr_other _ _ _ _ (by decide), rd_wr_other _ _ _ _ (by decide), rd_wr_other _ _ _ _ (by decide),
      count_counter s _ _ mtxErrCnt_out, w32_succ]
  unfold read
  split
  · exact recorded
  · exact recorded

/-! ### An access that finds none waiting -/

theorem release_none (s : State) (p : MtxWait → Bool) (idle : s.mtx.waits = []) : release s p = s := by
  have same : s.mtx.waits.map (fun w => if p w then { w with hold := false } else w) = s.mtx.waits := by rw [idle]; rfl
  rw [release, same]

theorem grantWaits_none (s : State) (idle : s.mtx.waits = []) : grantWaits s = s := by
  rw [grantWaits, idle]
  rfl

theorem waits_of_offLost {s t : State} (h : offLost t = offLost s) : t.mtx.waits = s.mtx.waits := by
  have waits := congrArg (fun u : State => u.mtx.waits) h
  exact waits

/-- Where no access waits, one that the matrix refuses is answered with its error and nothing else happens (R374, R377). -/
theorem issue_refused (s : State) (a : Access) (lock : Bool) (k : Nat) (idle : s.mtx.waits = []) (on : matrixOn s a = true)
    (error : errorKind s { acc := a, lock := lock, tgt := targetOf s a.master a.addr.toNat } = some k) :
    issue s a lock = refuseAccess s { acc := a, lock := lock, tgt := targetOf s a.master a.addr.toNat } k := by
  unfold issue
  dsimp only
  rw [release_none _ _ idle, grantWaits_none _ idle, release_none _ _ idle, request, if_neg (by simp [on]), error]
  exact grantWaits_none _ ((waits_of_offLost (offLost_refuseAccess s _ k)).trans idle)

/-- What a refused access leaves, part by part. -/
theorem refused_performs_nothing (s : State) (w : MtxWait) (k : Nat) :
    let t := refuseAccess s w k
    t.hbm = s.hbm ∧ t.bgl = s.bgl ∧ t.map = s.map ∧ t.gth = s.gth ∧ t.pwr = s.pwr ∧ t.tod = s.tod ∧ t.rng = s.rng ∧
      { t.mtx with lost := [] } = { s.mtx with lost := [] } ∧ rd t Reg.mtxErrCnt = rd s Reg.mtxErrCnt + 1 := by
  intro t
  have same : offLost t = offLost s := offLost_refuseAccess s w k
  have hbm := congrArg State.hbm same
  have bgl := congrArg State.bgl same
  have map := congrArg State.map same
  have gth := congrArg State.gth same
  have pwr := congrArg State.pwr same
  have tod := congrArg State.tod same
  have rng := congrArg State.rng same
  have mtx := congrArg State.mtx same
  exact ⟨hbm, bgl, map, gth, pwr, tod, rng, mtx, refuseAccess_counts s w k⟩

end Sys2Proof.Machine
end

section
/-! SUPPORT. Refused accesses of the matrix (R374, R377). -/

open Sys2Proof Sys2Proof.Machine

/-- Settles O35: with none waiting a refused access is its error response and nothing else. -/
theorem refusedMatrixAccessesPerformNothing : Obligations.RefusedMatrixAccessesPerformNothing := by
  unfold Obligations.RefusedMatrixAccessesPerformNothing
  refine ⟨fun a k s t idle on error ran => ?_, fun m a n k s t idle locks on error ran => ?_⟩
  · change execMatrixAccess a s = _ at ran
    rw [execMatrixAccess, issue_refused s a false k idle on error] at ran
    cases ran
    exact refused_performs_nothing s _ k
  · change execLockedRead m a n s = _ at ran
    rw [execLockedRead, if_pos locks, issue_refused s _ true k idle on error] at ran
    cases ran
    exact refused_performs_nothing s _ k
end

section
/-! SUPPORT. What a cold reset leaves (R288, R380, R435; log entry 5). -/

namespace Sys2Proof.Machine

/-- In the reset state every register, stored nowhere, reads its reset word (R435). -/
theorem rd_reset (off : Nat) : rd State.reset off = regReset off := rfl

/-- In the reset state every byte of the mailbox reads 0 (R380). -/
theorem mboxByte_reset (o : Nat) : mboxByte State.reset o = 0 := rfl

/-- The device resets into BRINGUP, which is what GLB_MODE's reset word says (R435). -/
theorem mode_reset : mode State.reset = 0 := by
  rw [mode, fget, rd_reset]
  decide

end Sys2Proof.Machine
end

section
/-! SUPPORT. The state after a cold reset (R288, R380, R435; log entry 5). -/

open Sys2Proof Sys2Proof.Machine

/-- Settles O31: nothing is stored in the reset state, so registers and memories read their reset values (the words the spec does not give are log entry
5's, the model's choice). -/
theorem resetHoldsTheValuesOfTheSpec : Obligations.ResetHoldsTheValuesOfTheSpec := by
  unfold Obligations.ResetHoldsTheValuesOfTheSpec
  exact ⟨rd_reset, mode_reset, ⟨rfl, rfl, rfl, rfl⟩, mboxByte_reset, rfl, rfl, rfl⟩
end

section
/-! SUPPORT. What the measurement of candidates and the DPLLs' decisions do under the conditions of their rules (R267 to R279). -/

namespace Sys2Proof.Machine

/-! ### Candidates -/

/-- The state of an active candidate after its offset and, where valid, its drift have been measured (R268). -/
def measured (t : State) (r : Nat) : State :=
  if driftValid t r then wr t (Reg.timRefDrift r) (i32 (slope (refSt t r).samples)) else t

/-- An active candidate stores the trimmed offset and the drift and takes the step of its state (R268, R270). -/
theorem exec_refMeasure_active {r : Fin 24} {ofs : Int} {s t : State} (runs : bget (thaw s) Reg.timOsc 1 = false)
    (active : refActive (thaw s) r = true)
    (taken : t = editRef (wr (thaw s) (Reg.timRefOfs r) (i32 (trimmed (thaw s) ofs))) r (fun x =>
      { x with samples := (sgn 32 (i32 (trimmed (thaw s) ofs)).toNat :: x.samples).take 1000 })) :
    exec (.refMeasure r ofs) s = .next (showTim (refStep (measured t r) r)) := by
  change execRefMeasure r ofs s = _
  simp only [execRefMeasure, active, runs, Bool.not_true, Bool.or_self, Bool.false_eq_true, if_false]
  rw [taken]
  rfl

/-- In WAIT and within HARD the wait runs one second on (R270). -/
theorem refStep_waits {s : State} {r : Nat} (waits : refState s r = 1) (within : iabs (refOfs s r) ≤ tolHard s) :
    refStep s r = editRef s r (fun x => { x with wtr := x.wtr + 1 }) := by
  rw [refStep, waits]
  exact if_neg (Nat.not_lt.mpr within)

/-- The activity of an input is lost (R267, R270). -/
theorem exec_refActivityLoss_input {r : Fin 24} {s : State} (input : r.val < 8) (active : refActive s r = true) :
    exec (.refActivityLoss r) s = .next (showTim (loseRef s r)) := by
  change execRefActivityLoss r s = _
  simp [execRefActivityLoss, active, input]

/-- A candidate whose source is there again is active (R267). -/
theorem exec_refActivityRegain_idle {r : Fin 24} {s : State} (on : refOn s r = true) (idle : refActive s r = false)
    (source : refSource s r = true) : exec (.refActivityRegain r) s = .next (showTim (bset s (Reg.timRefStatus r) 2 true)) := by
  change execRefActivityRegain r s = _
  simp [execRefActivityRegain, on, idle, source]

/-- A wait that has run ends in QUALIFIED or SUSPECT (R270). -/
theorem exec_refWtrExpiry_run {r : Fin 24} {s : State} (runs : s.tim.frozen = false) (waits : refState s r = 1)
    (ended : fget s Reg.timMonWtr 9 0 ≤ (refSt s r).wtr) : exec (.refWtrExpiry r) s = .next (showTim (setRefState s r
      (if decide (tolSoft s < iabs (refOfs s r)) || driftHigh s r then 3 else 2))) := by
  have ends : endWait s r = setRefState s r (if decide (tolSoft s < iabs (refOfs s r)) || driftHigh s r then 3 else 2) :=
    if_pos ⟨waits, ended⟩
  change execRefWtrExpiry r s = _
  rw [execRefWtrExpiry, runs, if_neg Bool.false_ne_true, ends]

/-! ### Decisions -/

/-- The state at a decision: what was written has taken effect, and every QL is read again (R269, R284). -/
def deciding (s : State) : State := (List.range 24).foldl refreshQl (takeTim s)

/-- What a decision leaves in hidden state (R272, R273). -/
def decided (s : State) (d : Nat) : State :=
  editDpll s d (fun x => { x with modeNew := false, early := false, sinceVol := min 100 (x.sinceVol + b2n (!x.early)) })

/-- While a lehr of a REALIGN runs its phase is shown as measured (R276, R284). -/
def showPhase (s : State) (d : Nat) (phase : Int) : State :=
  if bget s (Reg.timDpllStatus d) 12 = true ∧ (dpllSt s d).real = true then
    wr s (Reg.timDpllPhase d) (i32 (refShortWay s (dpllRef s d) phase)) else s

theorem exec_dpllDecision (d : Fin 4) (phase : Int) (s : State) : exec (.dpllDecision d phase) s =
    .next (showTim (showPhase (if (deciding s).tim.frozen then decideFrozen (deciding s) d
      else decided (decide4 (deciding s) d phase) d) d phase)) := by
  change execDpllDecision d phase s = _
  simp only [showPhase, ← Bool.and_eq_true]
  rfl

theorem showPhase_quiet {s : State} {d : Nat} (phase : Int)
    (quiet : bget s (Reg.timDpllStatus d) 12 = false ∨ (dpllSt s d).real = false) : showPhase s d phase = s :=
  if_neg fun ⟨lehr, real⟩ => by rcases quiet with h | h <;> simp_all

/-- In FORCED, HOLDOVER and FREERUN no candidate votes (R272, R275). -/
def unvoted (s : State) (d : Nat) : State := editDpll (showVote s d [] []) d (fun x => { x with want := 31, wantRun := 0 })

/-- FORCED selects its reference while that is active (R272). -/
theorem decide4_forced {s : State} {d : Nat} (phase : Int) (forced : dpllMode s d = 1)
    (active : refActive (unvoted s d) (fget (unvoted s d) (Reg.timDpllCtl d) 6 2) = true)
    (other : dpllRef (unvoted s d) d ≠ fget (unvoted s d) (Reg.timDpllCtl d) 6 2) :
    decide4 s d phase = enterRef (unvoted s d) d (fget (unvoted s d) (Reg.timDpllCtl d) 6 2) 3 phase := by
  rw [decide4]
  dsimp only
  rw [if_neg (by omega), if_pos forced]
  exact (if_pos active).trans (if_neg other)

/-- HOLDOVER holds over (R272). -/
theorem decide4_holdover {s : State} {d : Nat} (phase : Int) (mode : dpllMode s d = 2) (runs : dpllState (unvoted s d) d ≠ 1) :
    decide4 s d phase = enterHoldover (unvoted s d) d 3 false := by
  rw [decide4]
  dsimp only
  rw [if_neg (by omega), if_neg (by omega), if_pos mode]
  exact if_neg runs

/-- FREERUN runs free (R272). -/
theorem decide4_freerun {s : State} {d : Nat} (phase : Int) (mode : dpllMode s d = 3) (runs : dpllState (unvoted s d) d ≠ 0) :
    decide4 s d phase = enterFree (unvoted s d) d := by
  rw [decide4]
  dsimp only
  rw [if_neg (by omega), if_neg (by omega), if_neg (by omega)]
  exact if_neg runs

/-- While OSCIN is stopped a reference that is active stays selected (R279). -/
theorem decideFrozen_stays {s : State} {d : Nat} (stays : dpllRef s d = 31 ∨ refActive s (dpllRef s d) = true) :
    decideFrozen s d = s := if_pos (by simpa using stays)

/-! ### Locking, lehrs and history -/

theorem setDpllState_new {s : State} {d st : Nat} (other : dpllState s d ≠ st) : setDpllState s d st =
    timEvent (editDpll (fset s (Reg.timDpllStatus d) 2 0 st) d (fun x => { x with whole := false })) (0x118 + d) 0x10 d (2 ^ 13 * st)
      (w32 (dpllRef s d)) := if_neg other

/-- A DPLL in LOCKING whose lehr has ended is LOCKED (R274). -/
theorem exec_dpllLockReached_locking {d : Fin 4} {s : State} (locking : dpllState s d = 2)
    (ended : bget s (Reg.timDpllStatus d) 12 = false) : exec (.dpllLockReached d) s =
      .next (timEvent (editDpll (fset s (Reg.timDpllStatus d) 2 0 3) d (fun x => { x with whole := false })) (0x118 + d) 0x10 d
        (2 ^ 13 * 3) (w32 (dpllRef s d))) := by
  have enters := setDpllState_new (s := s) (d := d) (st := 3) (by rw [locking]; decide)
  change execDpllLockReached d s = _
  rw [execDpllLockReached, if_pos (by simp [locking, ended]), enters]

/-- A lehr ends with the phase it has moved (R276). -/
theorem exec_lehrEnd_running {d : Fin 4} {moved : Int} {s : State} (runs : bget s (Reg.timDpllStatus d) 12 = true) :
    exec (.lehrEnd d moved) s = .next (timEvent (wr (bset s (Reg.timDpllStatus d) 12 false) (Reg.timDpllPhase d) 0)
      (0x118 + d.val) 0x13 d 0 (i32 (if (dpllSt s d).real then
        refShortWay s (dpllRef s d) moved else iclamp (-50) 50 moved))) := by
  change execLehrEnd d moved s = _
  rw [execLehrEnd, runs]
  rfl

/-- A second's frequency is shown and joins the history (R277, R278). -/
theorem exec_dpllHistorySample_runs {d : Fin 4} {freq : Int} {s : State} (runs : (thaw s).tim.frozen = false) :
    exec (.dpllHistorySample d freq) s =
      .next (showTim (editDpll (wr (thaw s) (Reg.timDpllFreq d) (i32 (sampleFreq (thaw s) d freq))) d (fun x =>
        let good := dpllState (thaw s) d == 3 && dpllRef (thaw s) d != 31 && refState (thaw s) (dpllRef (thaw s) d) == 2
        { x with freq := sampleFreq (thaw s) d freq, whole := good
                 hist := if dpllState (thaw s) d = 0 then []
                   else ((sampleFreq (thaw s) d freq, good && (dpllSt (thaw s) d).whole, dpllRef (thaw s) d) :: x.hist).take 2048 }))) := by
  change execDpllHistorySample d freq s = _
  simp only [execDpllHistorySample, runs, Bool.false_eq_true, if_false]

/-! ### The oscillator -/

/-- OSCIN stops: OSC_FAIL is raised and everything freezes (R279, R285). -/
theorem exec_oscinStop_running {s : State} (runs : bget s Reg.timOsc 1 = false) :
    exec .oscinStop s = .next (showTim { timEvent (bset s Reg.timOsc 1 true) 0x120 0x30 0 (2 ^ 15) 0 with
      tim := { (timEvent (bset s Reg.timOsc 1 true) 0x120 0x30 0 (2 ^ 15) 0).tim with frozen := true } }) := by
  have fails : oscFail s true = timEvent (bset s Reg.timOsc 1 true) 0x120 0x30 0 (2 ^ 15) 0 :=
    if_neg (by rw [runs]; decide)
  change execOscinStop s = _
  rw [execOscinStop, fails]

theorem exec_oscinReturn_stopped {s : State} (stopped : bget s Reg.timOsc 1 = true) :
    exec .oscinReturn s = .next (timEvent (bset s Reg.timOsc 1 false) 0x120 0x30 0 0 0) := by
  have returns : oscFail s false = timEvent (bset s Reg.timOsc 1 false) 0x120 0x30 0 0 0 := if_neg (by rw [stopped]; decide)
  change execOscinReturn s = _
  rw [execOscinReturn, returns]

end Sys2Proof.Machine
end

section
/-! SUPPORT. Candidates and DPLLs, command by command (R267 to R279). -/

open Sys2Proof Sys2Proof.Machine

/-- Settles O18: a clause for each command, from the lemma about it; the decisions by mode from `decide4` and `decideFrozen`. -/
theorem candidatesAreMeasuredAndDpllsChoose : Obligations.CandidatesAreMeasuredAndDpllsChoose := by
  unfold Obligations.CandidatesAreMeasuredAndDpllsChoose
  refine ⟨?measure, fun r s input active => exec_refActivityLoss_input input active,
    fun r s on idle source => exec_refActivityRegain_idle on idle source,
    fun r s runs waits ended => exec_refWtrExpiry_run runs waits ended, ?decision, ?modes, ?frozen,
    fun d s locking ended => exec_dpllLockReached_locking locking ended, fun d moved s runs => exec_lehrEnd_running runs, ?sample,
    ?stop, fun s stopped => exec_oscinReturn_stopped stopped⟩
  case measure =>
    rintro r ofs s _ t _ rfl runs active taken rfl
    have steps := exec_refMeasure_active runs active taken
    exact ⟨steps, fun waits within => steps.trans (congrArg (fun u => Host.Outcome.next (showTim u)) (refStep_waits waits within))⟩
  case decision =>
    rintro d phase s _ _ rfl rfl
    exact exec_dpllDecision d phase s
  case modes =>
    intro d phase s q t u v hq runs ht entered hv quiet
    have enters : decide4 q d phase = u := by
      subst ht
      rcases entered with ⟨mode, active, other, rfl⟩ | ⟨mode, other, rfl⟩ | ⟨mode, other, rfl⟩
      · exact decide4_forced phase mode active other
      · exact decide4_holdover phase mode other
      · exact decide4_freerun phase mode other
    have hq : deciding s = q := hq.symm
    have hv : decided u d = v := hv.symm
    rw [exec_dpllDecision, hq, runs, if_neg Bool.false_ne_true, enters, hv, showPhase_quiet phase (.inr quiet)]
  case frozen =>
    intro d phase s q hq stopped stays quiet
    have hq : deciding s = q := hq.symm
    rw [exec_dpllDecision, hq, stopped, if_pos rfl, decideFrozen_stays stays, showPhase_quiet phase (.inl quiet)]
  case sample =>
    rintro d freq _ _ s _ rfl runs rfl rfl
    exact exec_dpllHistorySample_runs runs
  case stop =>
    rintro s _ runs rfl
    exact exec_oscinStop_running runs
end

section
/-! SUPPORT. What the time counter's rows do under the conditions of their rules (R287 to R297; log entries 1, 48, 111, 138 and 140). -/

namespace Sys2Proof.Machine

/-! ### Counting to a rollover and to a wrap -/

/-- Counting that meets no rollover and no wrap on the way stops nowhere (R288, R289). -/
theorem countOn_straight {fuel k : Nat} {t : State} (straight : k ≤ min (ticksToPps t.tod) (ticksToWrap t.tod)) :
    countOn (fuel + 1) t k = countTicks t k := by
  rw [countOn]
  exact if_neg (Nat.not_lt.mpr straight)

/-- A rollover before the next wrap is the 1PPS (R288). -/
theorem countTicks_pps {t : State} {k : Nat} (some_ticks : 0 < k) (rolls : ticksToPps t.tod ≤ k) (no_wrap : k < ticksToWrap t.tod) :
    countTicks t k = ppsEffect { t with tod := t.tod.count k } := by
  rw [countTicks]
  dsimp only
  rw [if_pos ⟨some_ticks, rolls⟩, if_neg (by omega)]

/-- A wrap before the next rollover raises TIME_WRAP (R289). -/
theorem countTicks_wrap {t : State} {k : Nat} (some_ticks : 0 < k) (wraps : ticksToWrap t.tod ≤ k) (no_pps : k < ticksToPps t.tod) :
    countTicks t k = raise { t with tod := t.tod.count k } 0x140 1 (t.tod.count k).wraps := by
  rw [countTicks]
  dsimp only
  rw [if_neg (by omega), if_pos ⟨some_ticks, wraps⟩]

section
variable {s : State} (running : inReset s = false)
include running

/-- The ticks of the waiting TIME_SETs pass first, and where they hold the rollover the row has happened (R288, R294). -/
theorem exec_ppsTick : exec .ppsTick s = .next (if (setsPass s).glb.second ≠ s.glb.second then setsPass s
    else countOn 3 (setsPass s) (ticksToPps (setsPass s).tod)) := by
  change execPpsTick s = _
  rw [execPpsTick, running, if_neg Bool.false_ne_true]

theorem exec_timeWrap : exec .timeWrap s = .next (if (setsPass s).tod.wraps ≠ s.tod.wraps then setsPass s
    else countOn 7 (setsPass s) (ticksToWrap (setsPass s).tod)) := by
  change execTimeWrap s = _
  rw [execTimeWrap, running, if_neg Bool.false_ne_true]

end

/-- A read of NS latches the rest of the time (R290). -/
theorem exec_todNsRead_latches {s : State} (awake : hostDeaf s = false) (free : regLocked s = false) (running : replay s = false) :
    exec .todNsRead s = .next (readOut { s with tod := { s.tod with
      latFrac := s.tod.acc.extractLsb' 0 32, latSub := w32 s.tod.subsec, latWraps := s.tod.wraps } } Reg.todNs (nsNow s)) := by
  change execTodNsRead s = _
  simp only [execTodNsRead, awake, free, running, Bool.false_eq_true, if_false]

/-! ### The servo -/

/-- TOD_OFS shows the sample's offset (R292; log entry 140). -/
def sampleShown (s : State) (o : Int) : State :=
  wr { s with tod := { s.tod with sampled := s.tod.ticks } } Reg.todOfs (i32 (iclamp (-2147483647) 2147483647 (o / 8)))

section
variable {s : State} (auto : s.tod.servo = 1) (input : refPps s (fget s Reg.todPps 2 0) = true)
  (active : refActive s (fget s Reg.todPps 2 0) = true)
include auto input active

/-- In AUTO_PPS an active 1PPS input gives a sample (R292). -/
theorem exec_servoSample_taken : exec .servoSample s = .next (servoStep s (sampleNow s) (extNow s)).1 := by
  change execServoSample s = _
  simp [execServoSample, auto, input, active]

end

/-- What a servo in state `st` does with a sample that is shown (R292). -/
def sampleTaken (s : State) (st : Nat) (o : Int) (t : Nat) : State × Bool := match st with
  | 1 => acquireStep s o t
  | 4 => (trackStep (setServo { s with tod := { s.tod with okRun := 0, badRun := 0 } } 2) o, false)
  | 2 => (trackStep s o, false)
  | 3 => (trackStep s o, false)
  | _ => (s, false)

theorem servoStep_eq (s : State) (o : Int) (t : Nat) :
    servoStep s o t = sampleTaken (sampleShown s o) (servoState (sampleShown s o)) o t := rfl

/-- The first sample in ACQUIRING is kept (R292). -/
theorem acquireStep_first {s : State} {o : Int} {t : Nat} (first : s.tod.samples = []) :
    (acquireStep s o t).1 = { s with tod := { s.tod with samples := [(o, t)] } } := by
  rw [acquireStep, acquireSamples, first]

/-- With no sample in time the servo holds over, at the time its sample was due (R292; log entry 111). -/
theorem exec_servoHoldoverTimeout_tracks {s : State} (tracks : servoTracks s = true) :
    exec .servoHoldoverTimeout s = .next (servoHolds (elapse s (sampleDue s))) := by
  change execServoHoldoverTimeout s = _
  rw [execServoHoldoverTimeout, if_pos tracks]

/-- The HOST lock ends at its time, where it holds still (R293; log entry 111). -/
theorem exec_todLockExpiry_locked {s : State} (locked : hostLocked s = true) : exec .todLockExpiry s =
    .next (if hostLocked (elapse s s.tod.lockEnd) then setServo (elapse s s.tod.lockEnd) 0 else elapse s s.tod.lockEnd) := by
  change execTodLockExpiry s = _
  rw [execTodLockExpiry, if_pos locked]

/-! ### TIME_SET -/

/-- A TIME_SET of the row's KIND that nothing refuses waits for its tick (R294). -/
theorem takeTimeSet_waits {s : State} {d k : Nat} {x : Desc} (took : takeDesc s d 0x50 = some x) (good : setReason s x = none)
    (kind : setKind x = k) :
    takeTimeSet s d k = setDesc { s with tod := { s.tod with waiting := s.tod.waiting ++ [d] } } d 1 := by
  rw [takeTimeSet, took]
  dsimp only
  rw [if_neg (fun h => h.1 kind), good]

/-- The oldest TIME_SET that waits takes its tick and completes OK (R294, R295, R298, R366). -/
theorem exec_timeSetApply_due {s t : State} {d : Nat} {r : List Nat} {x : Desc} (waits : s.tod.waiting = d :: r)
    (held : s.mtx.held = true) (ht : t = setDesc { s with tod := { s.tod with waiting := r } } d 2) (found : desc? s d = some x) :
    exec .timeSetApply s = .next (completeOk (applyTimeSet t x).1 d (applyTimeSet t x).2.1 (applyTimeSet t x).2.2) := by
  have due : setsDue s = true := by simp [setsDue, waits, held]
  have here : desc? { s with tod := { s.tod with waiting := r } } d = some x := found
  change execTimeSetApply s = _
  rw [execTimeSetApply, if_pos due, setTick, waits]
  dsimp only
  rw [here, ht]

end Sys2Proof.Machine
end

section
/-! SUPPORT. The time counter, command by command (R287 to R297). -/

open Sys2Proof Sys2Proof.Machine

/-- Settles O20: each row's lemma, and for a TIME_SET its KIND's. How far time goes with a row, that a row happens at its time, RATE's tick, the offset's folding and TOD_OFS's
rounding are the model's choice (log entries 1, 111, 48, 138, 140). -/
theorem timeCounterCountsAndTakesItsCorrections : Obligations.TimeCounterCountsAndTakesItsCorrections := by
  unfold Obligations.TimeCounterCountsAndTakesItsCorrections
  refine ⟨?pps, ?wrap, fun s awake free running => exec_todNsRead_latches awake free running, ?sample, ?holdover, ?expiry, ?taken,
    ?applied⟩
  case pps =>
    rintro s t running rfl
    have ticks := exec_ppsTick running
    refine ⟨fun passed => by rw [ticks, if_pos passed], fun same => ?_⟩
    rw [if_neg (not_not.mpr same)] at ticks
    refine ⟨ticks, fun some_ticks first => ?_⟩
    rw [ticks, countOn_straight (le_min le_rfl first.le), countTicks_pps some_ticks le_rfl first]
  case wrap =>
    rintro s t running rfl
    have ticks := exec_timeWrap running
    refine ⟨fun passed => by rw [ticks, if_pos passed], fun same => ?_⟩
    rw [if_neg (not_not.mpr same)] at ticks
    refine ⟨ticks, fun some_ticks first => ?_⟩
    rw [ticks, countOn_straight (le_min first.le le_rfl), countTicks_wrap some_ticks le_rfl first]
  case sample =>
    rintro o s t auto input active rfl ht
    have ht : t = sampleShown s (sampleNow s) := ht
    subst ht
    have taken := exec_servoSample_taken auto input active
    rw [servoStep_eq] at taken
    refine ⟨fun tracks => ?_, fun holds => ?_, fun acquires => ?_, fun acquires first => ?_⟩
    · rcases tracks with state | state <;> rw [taken, state, sampleTaken]
    · rw [taken, holds, sampleTaken]
    · rw [taken, acquires, sampleTaken]
    · rw [taken, acquires, sampleTaken, acquireStep_first first]
  case holdover =>
    rintro s t auto tracks rfl
    have timeout := exec_servoHoldoverTimeout_tracks (s := s) (by simpa [servoTracks] using ⟨auto, tracks⟩)
    refine ⟨timeout, fun still => ?_⟩
    rw [timeout, servoHolds, if_pos still]
  case expiry =>
    rintro s t host locked rfl
    have expires := exec_todLockExpiry_locked (s := s) (by simp [hostLocked, host, locked])
    exact ⟨fun still => by rw [expires, if_pos still], fun gone => by rw [expires, gone, if_neg Bool.false_ne_true]⟩
  case taken =>
    rintro d x s t took good rfl
    have waits (k : Nat) (kind : setKind x = k) := congrArg (Host.Outcome.next : State → Out) (takeTimeSet_waits took good kind)
    exact ⟨waits 0, waits 1, waits 2, waits 3, waits 4⟩
  case applied =>
    intro d r x s t u waits held ht found
    have due := exec_timeSetApply_due waits held ht found
    refine ⟨fun kind hu => ?_, fun kind hu => ?_, fun kind hu => ?_, fun q kind hu hq => ?_, fun kind => ?_⟩
    · rw [due, applyTimeSet, kind, hu]
      rfl
    · rw [due, applyTimeSet, kind, hu]
      rfl
    · rw [due, applyTimeSet, kind, hu]
      rfl
    · rw [due, applyTimeSet, kind, hq, hu]
      rfl
    · rw [due, applyTimeSet, kind]
      rfl
end

section
/-! SUPPORT. What rings, doorbells, fetching and the bus do under the conditions of their rules (R305 to R328). -/

namespace Sys2Proof.Machine

section
variable {s : State} (awake : hostDeaf s = false) (free : regLocked s = false) (running : replay s = false)
include awake free running

/-! ### Configuring and enabling -/

/-- Outside SERVICE a ring that is not enabled takes its base (R6, R307). -/
theorem exec_ringCfgWrite_base {n : RingId} {v : Word} (idle : ringEn s n = false) (open_ : inService s = false) :
    exec (.ringCfgWrite n 0 v) s = .next (wr s (Reg.ringBaseLo n) (v &&& 0xFFFFF000)) ∧
      exec (.ringCfgWrite n 1 v) s = .next (wr s (Reg.ringBaseHi n) (v &&& 0xFFFFFFFF)) := by
  constructor
  · rw [exec_hostWrite_acts awake free running (c := .ringCfgWrite n 0 v) rfl]
    simp [idle, open_]
  · rw [exec_hostWrite_acts awake free running (c := .ringCfgWrite n 1 v) rfl]
    simp [idle, open_]

/-- It takes a size of 2^6 to 2^16 and a class, which rings 0 to 3 keep (R307). -/
theorem exec_ringCfgWrite_cfg {n : RingId} {v : Word} (idle : ringEn s n = false) (open_ : inService s = false)
    (large : 6 ≤ fld v 4 0) (small : fld v 4 0 ≤ 16) (class_ : fld v 6 5 ≠ 3) (fixed : n.val < 4 → fld v 6 5 = ringClass s n) :
    exec (.ringCfgWrite n 2 v) s = .next (wr s (Reg.ringCfg n) (v &&& 0x1FFFFFFF)) := by
  have good : ¬(fld v 4 0 < 6 ∨ 16 < fld v 4 0 ∨ fld v 6 5 = 3 ∨ (n.val < 4 ∧ fld v 6 5 ≠ ringClass s n)) := by
    rintro (h | h | h | ⟨h, other⟩)
    · omega
    · omega
    · exact class_ h
    · exact other (fixed h)
  rw [exec_hostWrite_acts awake free running (c := .ringCfgWrite n 2 v) rfl]
  dsimp only
  rw [idle, open_, if_neg Bool.false_ne_true, if_neg Bool.false_ne_true, if_neg fun h => good h.2]
  rfl

/-- A ring starts empty, with its first phase and none of its records' sequence (R308). -/
def ringStarted (s : State) (n : Nat) : State :=
  let t := editRing (wr (wr (wr s (Reg.ringCtl n) 1) (Reg.ringProd n) 0x10000) (Reg.ringCons n) 0) n (fun _ => {})
  { t with evt := { t.evt with seq := Tab.drop t.evt.seq n, unann := Tab.drop t.evt.unann n } }

theorem exec_ringEnable_taken {n : RingId} (idle : ringEn s n = false) (good : enableRefused s n = false) :
    exec (.ringEnable n) s =
      .next (if ringClass (ringStarted s n) n = 2 then flushEvents (ringStarted s n) else ringStarted s n) := by
  rw [exec_hostWrite_acts awake free running (c := .ringEnable n) rfl]
  simp only [idle, good, Bool.false_and, Bool.false_eq_true, if_false]
  rfl

/-! ### Disabling -/

/-- Rings 1 and 3 are disabled where no command ring is enabled, any other ring always (R308). -/
theorem exec_ringDisable_allowed {n : RingId} (allowed : (n.val ≠ 1 ∧ n.val ≠ 3) ∨ (enabledOf s 0).isEmpty = true) :
    exec (.ringDisable n) s = .next (disableRing s n) := by
  rw [exec_hostWrite_acts awake free running (c := .ringDisable n) rfl]
  rw [if_neg]
  rintro ⟨one_three, used⟩
  rcases allowed with ⟨h1, h3⟩ | empty
  · omega
  · rw [empty] at used
    cases used

end

theorem disableRing_enabled {s : State} {n : Nat} (on : ringEn s n = true) (idle : ringBusy s n = false) :
    disableRing s n = if ringClass s n = 2 then
        flushEvents { endDisable s n with evt := { s.evt with unann := Tab.drop s.evt.unann n } }
      else if disableDone s n then endDisable s n else bset s (Reg.ringCtl n) 1 true := by
  rw [disableRing, on, idle]
  rfl

theorem exec_ringDisableDone_done {n : RingId} {s : State} (waits : ringBusy s n = true) (done : disableDone s n = true) :
    exec (.ringDisableDone n) s = .next (wr s (Reg.ringCtl n) 0) := by
  change execRingDisableDone n s = _
  rw [execRingDisableDone, waits, done]
  rfl

/-- A ring whose entry cannot be read is disabled, and FETCH_ERR and RING_FETCH_ERR report it (R328). -/
theorem exec_fetchError_fetching {n : RingId} {s : State} (may : mayFetch s = true) (ready : ringReady s n = true) :
    exec (.fetchError n) s =
      .next (raise (setFault (wr (disableRing s n) Reg.hifFaultRing (w32 n)) 0) 0x680 3 (w32 n)) := by
  change execFetchError n s = _
  rw [execFetchError, may, ready]
  rfl

/-! ### Doorbells -/

/-- A doorbell goes to a ring of its own class: PRODUCER to a command ring, CONSUMER to any other (R310, R311). -/
theorem exec_doorbellProducer_command {n : RingId} {b : Nat} {w : Word} {s : State} (class_ : ringClass s n = 0) :
    exec (.doorbellProducer n b w) s = .next (doorbellWrite s n b w) := by
  change execDoorbellProducer n b w s = _
  rw [execDoorbellProducer, if_pos class_]

theorem exec_doorbellConsumer_record {n : RingId} {b : Nat} {w : Word} {s : State} (class_ : ringClass s n ≠ 0) :
    exec (.doorbellConsumer n b w) s = .next (doorbellWrite s n b w) := by
  change execDoorbellConsumer n b w s = _
  rw [execDoorbellConsumer, if_neg class_]

section
variable {n b : Nat} {w : Word} {s : State} (awake : hostDeaf s = false) (whole : 4 ≤ b)
include awake whole

/-- In REPLAY and while Bus Master Enable is 0 a doorbell is recorded (R26, R305). -/
theorem doorbellWrite_recorded (quiet : replay s = true ∨ s.rng.bme = false) :
    doorbellWrite s n b w = editRing s n (fun r => { r with dbs := r.dbs ++ [fld w 15 0] }) := by
  rw [doorbellWrite, awake, if_neg Bool.false_ne_true, if_neg (Nat.not_lt.mpr whole), if_pos]
  rcases quiet with h | h <;> simp [h]

/-- Otherwise an INDEX that nothing refuses acts (R309). -/
theorem doorbellWrite_acts (running : replay s = false) (master : s.rng.bme = true) (good : indexKind s n (fld w 15 0) = none) :
    doorbellWrite s n b w = indexAct s n (fld w 15 0) := by
  rw [doorbellWrite, awake, if_neg Bool.false_ne_true, if_neg (Nat.not_lt.mpr whole), running, master, doorbell, good]
  rfl

end

/-- An INDEX within an enabled ring, and for a record ring within the records in use, is not ignored (R325). -/
theorem indexKind_none {s : State} {n i : Nat} (on : ringEn s n = true) (inside : i < ringSize s n)
    (used : ringClass s n = 0 ∨ (i + ringSize s n - ringCons s n) % ringSize s n ≤ ringUsed s n) : indexKind s n i = none := by
  rw [indexKind, on, if_neg (by decide), if_neg (Nat.not_le.mpr inside), if_neg]
  rintro ⟨class_, beyond⟩
  rcases used with h | h
  · exact class_ h
  · omega

/-- A record ring frees the records before another consumer index, and writes what waited (R311). -/
theorem indexAct_frees {s : State} {n i : Nat} (class_ : ringClass s n ≠ 0) (moved : i ≠ ringCons s n) :
    indexAct s n i = if ringClass (wr s (Reg.ringCons n) (w32 i)) n = 1 then
        flushCpl (bset (wr s (Reg.ringCons n) (w32 i)) (Reg.ringCtl n) 2 false)
      else flushEvents (wr s (Reg.ringCons n) (w32 i)) := by
  rw [indexAct, if_neg class_, if_neg moved]

/-! ### Fetching -/

/-- A checked descriptor of an ACTIVE device waits to be taken (R313). -/
theorem acceptDesc_passes {s : State} {d : Desc} (good : fetchReason (addDesc s d) d = none) (active : (addDesc s d).pwr.st = 2) :
    acceptDesc s d = addDesc s d := by
  rw [acceptDesc]
  dsimp only
  rw [good]
  exact if_neg fun h => h.1 active

/-- The entry of a ring in its turn, within the limit of descriptors in flight, is read and passed (R310, R319, R320). -/
theorem exec_descriptorFetch_turn {n : RingId} {words : List Word} {s q : State} {d : Desc} (may : mayFetch s = true)
    (none_aborted : passAborted s = s) (ready : ringReady s n = true) (below : inFlight s < fetchLimit n) (turn : ringTurn s n = true)
    (hd : d = { id := s.rng.next, ring := n, idx := ringCons s n, words := words, mode := mode s })
    (hq : q = askHost s (ringAddr s n d.idx) 64) :
    exec (.descriptorFetch n words) s =
      .next (acceptDesc (editRing (passEntry q n) n (fun r => { r with rotate := q.rng.next })) d) := by
  subst hq hd
  change execDescriptorFetch n words s = _
  rw [execDescriptorFetch]
  dsimp only
  rw [may, none_aborted, ready, turn, if_neg (by decide), if_neg (by decide), if_neg (Nat.not_le.mpr below), if_neg (by decide)]

/-! ### NOP, FENCE and ABORT -/

theorem exec_nop_taken {d : Nat} {x : Desc} {s : State} (took : takeDesc s d 0 = some x) :
    exec (.nop d) s = .next (completeOk s d 0 0) := by
  change execNop d s = _
  rw [execNop, took]

theorem exec_fence_taken {d : Nat} {x : Desc} {s : State} (took : takeDesc s d 1 = some x) :
    exec (.fence d) s = .next (completeOk s d 0 0) := by
  change execFence d s = _
  rw [execFence, took]

/-- An ABORT acts at once, on the descriptor in flight that it names (R324). -/
theorem exec_abort_inFlight {d : Nat} {entry : List Word} {a t : Desc} {s : State} (found : desc? s d = some a) (op : a.op = 2)
    (fetched : a.st = 0) (thawed : a.frozen = false) (held : s.mtx.held = true) (class_ : ringClass s (fld (a.w 6) 11 0) = 0)
    (inside : fld (a.w 6) 31 16 < ringSize s (fld (a.w 6) 11 0))
    (target : s.rng.descs.find? (fun t => t.ring == fld (a.w 6) 11 0 && t.idx == fld (a.w 6) 31 16 && t.w 1 == a.w 7 &&
      t.op != 2) = some t) : exec (.abort d entry) s = .next (abortFlight s a.id t) := by
  have acts : a.op = 2 ∧ a.st = 0 ∧ !a.frozen ∧ s.mtx.held := ⟨op, fetched, by rw [thawed]; rfl, held⟩
  change execAbort d entry s = _
  rw [execAbort, found]
  dsimp only
  rw [if_pos acts, abort]
  dsimp only
  rw [if_neg (by omega), target]

/-- Before its commit point the target completes ABORTED (R324). -/
theorem abortFlight_early {s : State} {a : Nat} {t : Desc} (early : t.st < 2) :
    abortFlight s a t = complete (detach (awaitTarget s a t.id true) t.id) t.id 1 0 0 := if_pos early

/-! ### The bus -/

/-- Bus Master Enable with the configuration the root wrote: what waited goes out (R305). -/
def busMaster (cfg : PcieCfg) (s : State) : State :=
  sendPending (flushEvents (flushCpl (bset { s with rng := { s.rng with
    bme := true, cfg := { cfg with d3 := false } } } Reg.hifStatus 17 true)))

/-- Recorded doorbells act at once outside REPLAY (R26, R305). -/
theorem exec_busMasterEnable_up {cfg : PcieCfg} {io : HostIO} {s : State} (up : s.rng.linkUp = true) (off : s.rng.bme = false) :
    exec (.busMasterEnable cfg io) s =
      .next (if replay (busMaster cfg s) then busMaster cfg s else actResumes (actDoorbells (busMaster cfg s)) io) := by
  change execBusMasterEnable cfg io s = _
  rw [execBusMasterEnable, up, off]
  rfl

theorem exec_pcieLinkUp_powered {s : State} (on : s.pwr.st ≠ 0) :
    exec .pcieLinkUp s = .next { s with rng := { s.rng with linkUp := true } } := by
  change execPcieLinkUp s = _
  rw [execPcieLinkUp, if_neg on]

theorem exec_msixVectorUnmask_acts {v : Fin 65} {s : State} (awake : hostDeaf s = false) (free : regLocked s = false) :
    exec (.msixVectorUnmask v) s = .next (sendPending { s with evt := { s.evt with vmask := setDel s.evt.vmask v } }) := by
  change execMsixVectorUnmask v s = _
  rw [execMsixVectorUnmask, awake, free]
  rfl

end Sys2Proof.Machine
end

section
/-! SUPPORT. Rings, doorbells, fetching and the bus, command by command (R305 to R328). -/

open Sys2Proof Sys2Proof.Machine

/-- Settles O21: a clause for each command, from the lemma about it. -/
theorem ringsFetchAndTakeDoorbells : Obligations.RingsFetchAndTakeDoorbells := by
  unfold Obligations.RingsFetchAndTakeDoorbells
  refine ⟨?cfg, ?enable, ?disable, fun n s waits done => exec_ringDisableDone_done waits done,
    fun n s may ready => exec_fetchError_fetching may ready, ?recorded, ?acting, ?fetch, fun d x s took => exec_nop_taken took,
    fun d x s took => exec_fence_taken took, ?abort, ?master, fun _ _ => rfl, fun s on => exec_pcieLinkUp_powered on,
    fun v s awake free => exec_msixVectorUnmask_acts awake free⟩
  case cfg =>
    intro n v s awake free running idle open_
    obtain ⟨low, high⟩ := exec_ringCfgWrite_base awake free running (n := n) (v := v) idle open_
    exact ⟨low, high, fun large small class_ fixed => exec_ringCfgWrite_cfg awake free running idle open_ large small class_ fixed⟩
  case enable =>
    intro n s t u awake free running idle good ht hu
    have hu : ringStarted s n = u := by rw [hu, ht]; rfl
    have taken := exec_ringEnable_taken awake free running idle good
    rw [hu] at taken
    exact ⟨fun other => by rw [taken, if_neg other], fun events => by rw [taken, if_pos events]⟩
  case disable =>
    rintro n s _ awake free running allowed on idle rfl
    have disables := exec_ringDisable_allowed awake free running allowed
    rw [disableRing_enabled on idle] at disables
    refine ⟨fun events => ?_, fun other done => ?_, fun other waits => ?_⟩
    · rw [disables, if_pos events]
      rfl
    · rw [disables, if_neg other, if_pos done]
      rfl
    · rw [disables, if_neg other, waits, if_neg Bool.false_ne_true]
  case recorded =>
    intro n b w s awake whole quiet
    have recorded := doorbellWrite_recorded (n := n) (w := w) awake whole quiet
    exact ⟨fun class_ => by rw [exec_doorbellProducer_command class_, recorded],
      fun class_ => by rw [exec_doorbellConsumer_record class_, recorded]⟩
  case acting =>
    intro n b w s awake whole running master on inside
    refine ⟨fun class_ => ?_, ?_⟩
    · rw [exec_doorbellProducer_command class_,
        doorbellWrite_acts awake whole running master (indexKind_none on inside (.inl class_)), indexAct, if_pos class_]
    · rintro _ used rfl
      have acts := doorbellWrite_acts awake whole running master (indexKind_none on inside (.inr used))
      refine ⟨fun class_ same => ?_, fun class_ still moved => ?_, fun class_ still moved => ?_⟩
      · rw [exec_doorbellConsumer_record class_, acts, indexAct, if_neg class_, if_pos same]
      · rw [exec_doorbellConsumer_record (by omega), acts, indexAct_frees (by omega) moved, if_pos still]
      · rw [exec_doorbellConsumer_record (by omega), acts, indexAct_frees (by omega) moved, if_neg still]
  case fetch =>
    rintro n words d s q _ may none_aborted ready below turn hd hq rfl good active
    rw [exec_descriptorFetch_turn may none_aborted ready below turn hd hq, acceptDesc_passes good active]
  case abort =>
    intro d entry a t s found op fetched thawed held class_ inside target early
    rw [exec_abort_inFlight found op fetched thawed held class_ inside target, abortFlight_early early]
  case master =>
    intro cfg io s t up off ht
    have ht : busMaster cfg s = t := ht.symm
    have goes := exec_busMasterEnable_up (cfg := cfg) (io := io) up off
    rw [ht] at goes
    exact ⟨fun running => by rw [goes, running, if_neg Bool.false_ne_true], fun replays => by rw [goes, if_pos replays]⟩
end

section
/-! SUPPORT. What translation, the kennel and the bulk engines do under the conditions of their rules (R335 to R347; log entries 72, 111 and
146). -/

namespace Sys2Proof.Machine

/-! ### Translation -/

section
variable {s : State} (awake : hostDeaf s = false) (free : regLocked s = false) (running : replay s = false)
include awake free running

/-- Outside SERVICE a root register takes its word, and the whole TLB is invalidated (R6, R335, R347). -/
theorem exec_xlatConfigWrite_root {v : Word} (open_ : inService s = false) :
    exec (.xlatConfigWrite 0 v) s = .next (invalidate (wr s Reg.hifXlatRootLo (v &&& 0xFFFFF000)) 0x80000000) ∧
      exec (.xlatConfigWrite 1 v) s = .next (invalidate (wr s Reg.hifXlatRootHi (v &&& 0xFFFFFFFF)) 0x80000000) := by
  constructor
  · rw [exec_hostWrite_acts awake free running (c := .xlatConfigWrite 0 v) rfl]
    simp [open_]
  · rw [exec_hostWrite_acts awake free running (c := .xlatConfigWrite 1 v) rfl]
    simp [open_]

/-- HIF_XLAT_CTL takes a space of 2^30 to 2^38 bytes (R331, R347). -/
theorem exec_xlatConfigWrite_ctl {v : Word} (open_ : inService s = false) (large : 9 ≤ fld v 12 8) (small : fld v 12 8 ≤ 17) :
    exec (.xlatConfigWrite 2 v) s = .next (invalidate (wr s Reg.hifXlatCtl (v &&& 0x1F01)) 0x80000000) := by
  rw [exec_hostWrite_acts awake free running (c := .xlatConfigWrite 2 v) rfl, open_, if_neg Bool.false_ne_true, if_neg (by omega)]
  rfl

/-- An invalidation with none draining acts at once (R335). -/
theorem exec_tlbInvalidate_taken {v : Word} (drained : s.xlat.inv = none) (scope : fld v 31 30 ≠ 3) :
    exec (.tlbInvalidate v) s = .next (invalidate s v) := by
  rw [exec_hostWrite_acts awake free running (c := .tlbInvalidate v) rfl, if_neg]
  simp [drained, scope]

end

theorem exec_tlbInvDone_draining {s : State} (drains : s.xlat.inv.isSome = true) :
    exec .tlbInvDone s = .next (bset { s with xlat := { s.xlat with inv := none } } Reg.hifXlatStatus 0 false) := by
  change execTlbInvDone s = _
  rw [execTlbInvDone, if_pos drains]

/-! ### Doorbells of ring 3 -/

/-- The INDEX that a doorbell write of ring 3 brings in word 0, if it covers it whole (R309). -/
def indexOf (w0 : Option (Nat × Word)) : Option Nat := (w0.filter (fun p => decide (4 ≤ p.1))).map (fun p => fld p.2 15 0)

theorem ringThree_quiet (s : State) (io : HostIO) : ringThree s io none none [] = s := rfl

/-- A slot in use on an enabled ring 3 is resumed (R309, R338). -/
theorem ringThree_resumes {s : State} {io : HostIO} {i : Nat} (good : resumeKind s i = none) :
    ringThree s io none (some i) [] = resumeSlot s io i := by
  have counted : (Option.bind (some i) (resumeKind s)) = none := good
  simp only [ringThree, counted, Option.isSome_none, Bool.false_eq_true, if_false]
  rfl

/-- An INDEX that is not ignored acts before the resume of the same doorbell (R309; log entry 146). -/
theorem ringThree_both {s : State} {io : HostIO} {i j : Nat} (index : indexKind s 3 j = none)
    (good : resumeKind (indexAct s 3 j) i = none) :
    ringThree s io (some j) (some i) [] = resumeSlot (indexAct s 3 j) io i := by
  have first : (Option.bind (some j) (indexKind s 3)) = none := index
  have second : (Option.bind (some i) (resumeKind (indexAct s 3 j))) = none := good
  simp only [ringThree, first, Option.isSome_none, Bool.false_eq_true, if_false, second]
  rfl

theorem resumeKind_none {s : State} {i : Nat} {k : Knl} (on : ringEn s 3 = true) (found : Tab.find? s.xlat.knl i = some k) :
    resumeKind s i = none := by
  rw [resumeKind, on, found]
  rfl

section
variable {w0 : Option (Nat × Word)} {b : Nat} {w : Word} {io : HostIO} {s : State} (awake : hostDeaf s = false) (whole : 4 ≤ b)
  (resumes : bit w 31 = true) (covered : w0.any (fun p => decide (p.1 < 4)) = false)
include awake whole resumes covered

/-- A doorbell write of ring 3 that covers word 1, and word 0 whole or not at all, is recorded in REPLAY and while Bus Master Enable is 0 (R26,
R305). -/
theorem exec_resumeDoorbell_recorded (quiet : replay s = true ∨ s.rng.bme = false) : exec (.resumeDoorbell w0 b w io) s =
    .next { s with rng := { s.rng with resumes := s.rng.resumes ++ [(indexOf w0, some (fld w 7 0))] } } := by
  have held : (replay s || !s.rng.bme) = true := by rcases quiet with h | h <;> simp [h]
  change execResumeDoorbell w0 b w io s = _
  simp only [execResumeDoorbell, awake, held, covered, whole, resumes, Nat.not_lt.mpr whole, Option.isNone_some, and_self, and_false,
    Bool.false_eq_true, if_true, if_false]
  rfl

/-- Else it acts (R309). -/
theorem exec_resumeDoorbell_acts (running : replay s = false) (master : s.rng.bme = true) :
    exec (.resumeDoorbell w0 b w io) s = .next (ringThree s io (indexOf w0) (some (fld w 7 0)) []) := by
  change execResumeDoorbell w0 b w io s = _
  simp only [execResumeDoorbell, awake, running, master, covered, whole, resumes, Nat.not_lt.mpr whole, Bool.not_true, Bool.or_self,
    and_self, Bool.false_eq_true, if_true, if_false]
  rfl

end

/-! ### The kennel -/

/-- A slot that waits for no page is left (R338). -/
theorem resumeSlot_other {s : State} {io : HostIO} {i : Nat} {k : Knl} (found : Tab.find? s.xlat.knl i = some k) (other : k.st ≠ 1) :
    resumeSlot s io i = s := by
  rw [resumeSlot, found]
  exact if_pos other

/-- With translation off a slot that waits for its page, and carries no frame, is READY (R331, R338). -/
theorem resumeSlot_ready {s : State} {io : HostIO} {i : Nat} {k : Knl} (found : Tab.find? s.xlat.knl i = some k) (waits : k.st = 1)
    (off : xlatEn s = false) (no_frame : k.data.isEmpty = true) : resumeSlot s io i = knlPut s i { k with st := 3 } := by
  simp only [resumeSlot, found, waits, ne_eq, not_true_eq_false, off, no_frame, Bool.not_false, Bool.false_eq_true, if_true, if_false]

/-- A context that has waited out its time ends FAULT_UNRESOLVED (R339; log entry 111). -/
theorem exec_kennelTimeout_due {i : Fin 256} {k : Knl} {x : Desc} {s : State} (found : Tab.find? s.xlat.knl i = some k)
    (waits : k.st = 1) (timed : fget s Reg.hifKnlTimeout 15 0 ≠ 0)
    (inFlight : desc? (elapse s (k.since + fget s Reg.hifKnlTimeout 15 0 * 500000)) k.d = some x) :
    exec (.kennelTimeout i) s = .next (unresolved (raise (knlDrop (elapse s (k.since + fget s Reg.hifKnlTimeout 15 0 * 500000)) i)
      0x682 (w32 (3 + 256 * i.val)) (x.w 1)) k) := by
  have due : knlDue s i = some (k.since + fget s Reg.hifKnlTimeout 15 0 * 500000, k) := by
    rw [knlDue, found]
    exact if_neg (by omega)
  change execKennelTimeout i s = _
  rw [execKennelTimeout, due]
  dsimp only
  rw [inFlight]

/-! ### The engines -/

section
variable {e : Fin 4} {io : HostIO} {g : Eng} {s : State} (busy : Tab.find? s.xlat.engs e = some g)
  (thawed : frozenDesc s g.d = false)
include busy thawed

/-- Short of a checkpoint the descriptor runs on (R341). -/
theorem exec_bulkCheckpoint_between (between : (bulkOf s g.d).atCheck = false) :
    exec (.bulkCheckpoint e io) s = .next (readyUp (runBulk s io g.d)) := by
  change execBulkCheckpoint e io s = _
  rw [execBulkCheckpoint, busy]
  dsimp only
  rw [thawed, between]
  rfl

/-- At one it parks, where it is pre-empted and may (R340, R342). -/
theorem exec_bulkCheckpoint_parks (at_ : (bulkOf s g.d).atCheck = true) (preempts : g.preempt = true) (room : mayPark s = true) :
    exec (.bulkCheckpoint e io) s = .next (readyUp (engTake (preempt s e g) io e)) := by
  change execBulkCheckpoint e io s = _
  rw [execBulkCheckpoint, busy]
  dsimp only
  rw [thawed, at_, preempts, room]
  rfl

theorem exec_bulkCheckpoint_goes (at_ : (bulkOf s g.d).atCheck = true) (stays : g.preempt = false) :
    exec (.bulkCheckpoint e io) s = .next (readyUp (runBulk
      { s with xlat := { s.xlat with engs := Tab.put s.xlat.engs e { g with preempt := false } } } io g.d)) := by
  change execBulkCheckpoint e io s = _
  rw [execBulkCheckpoint, busy]
  dsimp only
  rw [thawed, at_, stays, Bool.false_and, if_neg Bool.false_ne_true, if_neg (by decide), if_neg Bool.false_ne_true]

end

/-- A free engine runs the next piece of work (R343). -/
theorem exec_engineTake_free {e : Fin 4} {io : HostIO} {d : Nat} {s : State} (idle : Tab.find? s.xlat.engs e = none)
    (next : nextWork s = some d) (thawed : frozenDesc s d = false) :
    exec (.engineTake e io) s = .next (readyUp (engRun s io e d)) := by
  have takes : engTake s io e = engRun s io e d := by
    rw [engTake, idle, next]
    rfl
  change execEngineTake e io s = _
  rw [execEngineTake, next]
  dsimp only
  rw [thawed, takes]
  rfl

end Sys2Proof.Machine
end

section
/-! SUPPORT. Translation, the kennel and the bulk engines, command by command (R335 to R347). -/

open Sys2Proof Sys2Proof.Machine

/-- Settles O22: a clause for each command, from the lemma about it. That a timeout comes at its time (log entry 111), that words 0 and 1 are one
doorbell (146) and that a configuration write drains as an invalidation (72) are the model's choice. -/
theorem translationsKennelAndEnginesAct : Obligations.TranslationsKennelAndEnginesAct := by
  unfold Obligations.TranslationsKennelAndEnginesAct
  refine ⟨?config, fun v s awake free running drained scope => exec_tlbInvalidate_taken awake free running drained scope,
    fun s drains => exec_tlbInvDone_draining drains, ?resume, ?both, ?timeout, fun e io g s busy thawed =>
    ⟨exec_bulkCheckpoint_between busy thawed, exec_bulkCheckpoint_parks busy thawed, exec_bulkCheckpoint_goes busy thawed⟩,
    fun e io d s idle next thawed => exec_engineTake_free idle next thawed⟩
  case config =>
    intro v s awake free running open_
    obtain ⟨low, high⟩ := exec_xlatConfigWrite_root awake free running (v := v) open_
    exact ⟨low, high, exec_xlatConfigWrite_ctl awake free running open_⟩
  case resume =>
    intro b w io k s awake whole resumes
    refine ⟨exec_resumeDoorbell_recorded awake whole resumes rfl, fun running master on found => ?_⟩
    have acts : exec (.resumeDoorbell none b w io) s = .next (resumeSlot s io (fld w 7 0)) := by
      rw [exec_resumeDoorbell_acts awake whole resumes rfl running master]
      exact congrArg Host.Outcome.next (ringThree_resumes (resumeKind_none on found))
    exact ⟨acts, fun other => by rw [acts, resumeSlot_other found other],
      fun waits off no_frame => by rw [acts, resumeSlot_ready found waits off no_frame]⟩
  case both =>
    intro b c v w io s t awake whole covers resumes
    have covered : (some (c, v)).any (fun p => decide (p.1 < 4)) = false := by simp [covers]
    have index : indexOf (some (c, v)) = some (fld v 15 0) := by simp [indexOf, Option.filter, covers]
    refine ⟨fun quiet => ?_, fun running master good ht slot => ?_⟩
    · rw [exec_resumeDoorbell_recorded awake whole resumes covered quiet, index]
    · subst ht
      rw [exec_resumeDoorbell_acts awake whole resumes covered running master, index, ringThree_both good slot]
  case timeout =>
    rintro i k x s _ found waits timed rfl inFlight
    exact exec_kennelTimeout_due found waits timed inFlight
end

section
/-! SUPPORT. What event routing, coalescing, chain slots, latching reads and PMHIST do under the conditions of their rules (R350 to R364; log
entry 111). -/

namespace Sys2Proof.Machine

/-! ### Register writes -/

section
variable {s : State} (awake : hostDeaf s = false) (free : regLocked s = false) (running : replay s = false)
include awake free running

/-- A route to an event ring takes effect at once; EN = 0 discards the records held, the page requests' apart (R350, R351, R363). -/
theorem exec_evtRouteWrite_taken {n : Fin 2048} {v : Word} (events : ringClass s (fld v 11 0) = 2) :
    exec (.evtRouteWrite n v) s = .next (flushEvents (if bit v 12 || n.val == 0x681 then wr s (Reg.evtRoute n) (v &&& 0xFFFF)
      else setHeld (wr s (Reg.evtRoute n) (v &&& 0xFFFF)) n [])) := by
  rw [exec_hostWrite_acts awake free running (c := .evtRouteWrite n v) rfl, if_neg (not_not.mpr events)]

/-- Records that the new settings make due are announced (R354, R363). -/
theorem exec_evtCoalWrite_taken {v : Fin 64} {w : Word} {t : State} (counts : fld w 7 0 ≠ 0)
    (ht : t = wr s (Reg.evtCoal v) (w &&& 0x3FFFFFF)) :
    (vectorRing t v = none → exec (.evtCoalWrite v w) s = .next t) ∧
      (∀ r, vectorRing t v = some r → coalDue t r w = true → exec (.evtCoalWrite v w) s = .next (signal t r)) := by
  subst ht
  rw [exec_hostWrite_acts awake free running (c := .evtCoalWrite v w) rfl, if_neg counts]
  dsimp only
  exact ⟨fun no_ring => by rw [no_ring], fun r ring due => by rw [ring]; dsimp only; rw [if_pos due]⟩

theorem exec_evtTestFire_fires {v : Word} (fire : bit v 31 = true) :
    exec (.evtTestFire v) s = .next (raise s (fld v 10 0) 0xFF 0) := by
  rw [exec_hostWrite_acts awake free running (c := .evtTestFire v) rfl, if_pos fire]

/-- Enabling a chain slot, and changing its counter, starts HIGH and EPOCH at 0 (R357, R364). -/
theorem exec_chainCfgWrite_taken {k : Fin 256} {v : Word} {t : State} (good : chainRefused s k v = false)
    (ht : t = wr s (Reg.pmChainCfg k) (v &&& 0x83FFFFFF)) : exec (.chainCfgWrite k v) s = .next (
      if (bit v 31 && !bit (rd s (Reg.pmChainCfg k)) 31) || fld v 25 0 != fld (rd s (Reg.pmChainCfg k)) 25 0 then
        bset (wr t (Reg.pmChainHi k) 0) (Reg.pmChainSt k) 0 false
      else t) := by
  subst ht
  rw [exec_hostWrite_acts awake free running (c := .chainCfgWrite k v) rfl, good, if_neg Bool.false_ne_true]

theorem exec_chainHiWrite_taken {k : Fin 256} {v : Word} : exec (.chainHiWrite k v) s = .next (wr s (Reg.pmChainHi k) v) := by
  rw [exec_hostWrite_acts awake free running (c := .chainHiWrite k v) rfl]

/-! ### Latching reads -/

/-- The read of HIGH latches EPOCH (R358). -/
theorem exec_chainHiRead_latches {k : Fin 256} : exec (.chainHiRead k) s = .next (readOut
    (bset s (Reg.pmChainSt k) 1 (bget s (Reg.pmChainSt k) 0)) (Reg.pmChainHi k) (rd s (Reg.pmChainHi k))) := by
  change execChainHiRead k s = _
  simp only [execChainHiRead, awake, free, running, Bool.false_eq_true, if_false]

/-- The read of SEQ latches the counter that PM_SNAP_ADDR names (R364). -/
theorem exec_snapSeqRead_latches {r : Word × Word × Word} (hr : r = snapRegs s.pm.snap (fget s Reg.pmSnapAddr 25 0)) :
    exec .snapSeqRead s = .next (readOut
      { s with pm := { s.pm with latVal := r.1, latHi := r.2.1, latStat := r.2.2 } } Reg.pmSnapSeq (w32 s.pm.seq)) := by
  subst hr
  change execSnapSeqRead s = _
  simp only [execSnapSeqRead, awake, free, running, Bool.false_eq_true, if_false]

end

/-! ### Announcing, carrying and keeping history -/

/-- When TIME has run, what still waits is announced (R354; log entry 111). -/
theorem exec_coalesceTimeout_due {v : Fin 64} {r : Nat} {s : State} (ring : vectorRing s v = some r)
    (timed : fget s (Reg.evtCoal v) 23 8 ≠ 0) (waits : (Tab.get s.evt.unann r {}).n ≠ 0) :
    let t := elapse s ((Tab.get s.evt.unann r {}).since + fget s (Reg.evtCoal v) 23 8 * 500)
    (∀ p, coalAt t v = some p → exec (.coalesceTimeout v) s = .next (signal t p.2)) ∧
      (coalAt t v = none → exec (.coalesceTimeout v) s = .next t) := by
  intro t
  have due : coalAt s v = some ((Tab.get s.evt.unann r {}).since + fget s (Reg.evtCoal v) 23 8 * 500, r) := by
    rw [coalAt, ring]
    exact if_pos ⟨timed, waits⟩
  change (∀ p, coalAt t v = some p → execCoalesceTimeout v s = _) ∧ (coalAt t v = none → execCoalesceTimeout v s = _)
  rw [execCoalesceTimeout, due]
  dsimp only
  exact ⟨fun p still => by rw [still], fun gone => by rw [gone]⟩

/-- A raw counter that passes its top wraps, and its chain slots carry (R355, R357). -/
theorem exec_counterCarry_passes {off n : Nat} {s : State} (raw : rawCounter off = true) (small : n < 2 ^ 32)
    (passes : 2 ^ 32 ≤ (rd s off).toNat + n) :
    exec (.counterCarry off n) s = .next (carry (wr s off (w32 ((rd s off).toNat + n))) off) := by
  have counts : count s off n = carry (wr s off (w32 ((rd s off).toNat + n))) off := if_neg (Nat.not_lt.mpr passes)
  change execCounterCarry off n s = _
  rw [execCounterCarry, raw, decide_eq_true small, decide_eq_true passes, counts]
  rfl

/-- A snapshot takes its slot, whose former content is gone (R361). -/
theorem histPut_slot {s : State} {x : Snap} (region : histSlot s ≠ 0) :
    histPut s x = { regionWritten s 3 (x.seq % 3600 * histSlot s) (histSlot s) with
      pm := { (regionWritten s 3 (x.seq % 3600 * histSlot s) (histSlot s)).pm with
        hist := { x.fit (histSlot s / 64 - 1) with off := x.seq % 3600 * histSlot s, size := histSlot s } ::
          (regionWritten s 3 (x.seq % 3600 * histSlot s) (histSlot s)).pm.hist.filterMap
            (Snap.under (x.seq % 3600 * histSlot s) (histSlot s)) } } := if_neg region

end Sys2Proof.Machine
end

section
/-! SUPPORT. Events, chained counters and PMHIST, command by command (R350 to R364). -/

open Sys2Proof Sys2Proof.Machine

/-- Settles O23: a clause for each command, from the lemma about it. That COALESCE_TIMEOUT comes at its time is log entry 111's, the model's
choice. -/
theorem eventsAnnounceAndCountersChain : Obligations.EventsAnnounceAndCountersChain := by
  unfold Obligations.EventsAnnounceAndCountersChain
  refine ⟨?route, ?coal, ?timeout, fun v s awake free running fire => exec_evtTestFire_fires awake free running fire, fun _ => rfl,
    fun off n s raw small passes => exec_counterCarry_passes raw small passes, ?chain,
    fun k v s awake free running => exec_chainHiWrite_taken awake free running,
    fun k s awake free running => exec_chainHiRead_latches awake free running,
    fun r s awake free running hr => exec_snapSeqRead_latches awake free running hr, ?history⟩
  case route =>
    intro n v s awake free running events
    have taken := exec_evtRouteWrite_taken awake free running (n := n) events
    refine ⟨fun on => ?_, fun off other => ?_⟩
    · rw [taken, if_pos (by rw [on]; rfl)]
    · rw [taken, if_neg (by simp [off, other])]
  case coal =>
    intro v w r s t awake free running counts ht
    obtain ⟨no_ring, due⟩ := exec_evtCoalWrite_taken awake free running counts ht
    exact ⟨no_ring, due r⟩
  case timeout =>
    rintro v r s _ ring timed waits rfl
    exact exec_coalesceTimeout_due ring timed waits
  case chain =>
    intro k v s t awake free running good ht
    have taken := exec_chainCfgWrite_taken awake free running good ht
    refine ⟨fun starts => ?_, fun off same => ?_⟩
    · rw [taken, if_pos]
      rcases starts with ⟨on, was⟩ | other
      · rw [on, was]; rfl
      · simp [other]
    · rw [taken, if_neg (by simp [off, same])]
  case history =>
    rintro _ s t rfl ht
    have writes : exec .pmhistWrite s = .next (s.pm.toWrite.foldl histPut t) := by
      rw [ht]
      change execPmhistWrite s = _
      rw [execPmhistWrite]
    refine ⟨writes, fun x y n u one hn region hu hy => ?_⟩
    subst hn hu hy
    rw [writes, one, List.foldl_cons, List.foldl_nil, histPut_slot region]
end

section
/-! SUPPORT. What the halves do under the conditions of their rules (R365 to R371, R427; log entries 32, 35 and 111). -/

namespace Sys2Proof.Machine

/-! ### Beat and lapse -/

theorem exec_heartbeat_holder {s : State} (active : halfState s (holder s) = 3) : exec (.heartbeat (holder s)) s =
    .next (bset { s with mtx := { s.mtx with beat := some s.tod.ticks } } Reg.mtxHalf 7 false) := by
  change execHeartbeat (holder s) s = _
  rw [execHeartbeat, if_pos ⟨rfl, active⟩]

/-- 10 ms after the last beat no half holds the leash (R366; log entry 111). -/
theorem exec_leashLapse_held {s : State} {b : Nat} (held : s.mtx.held = true) (beat : s.mtx.beat = some b) :
    exec .leashLapse s = .next (lapsed (elapse s (b + 5000000))) := by
  change execLeashLapse s = _
  rw [execLeashLapse, if_pos held, beat, Option.getD_some]

/-- 20 ms after a lapse without a grant the control is lost (R370; log entry 111). -/
theorem exec_controlLost_vacant {s : State} (free : s.mtx.held = false) (since : s.mtx.vacant = 1) :
    exec .controlLost s = .next (raise (setFault (elapse s (s.mtx.lapse + 10000000)) 2) 0x700 4
      (epochNow (elapse s (s.mtx.lapse + 10000000)))) := by
  change execControlLost s = _
  rw [execControlLost, free, since, if_neg (by decide)]

/-! ### Claims -/

/-- A half that runs firmware claims (R365, R367). -/
theorem exec_leashClaim_runs {h : Bool} {e : Word} {s : State} (runs : halfState s h = 2 ∨ halfState s h = 3) :
    exec (.leashClaim h e) s = .next (claim s h e) := by
  change execLeashClaim h e s = _
  rw [execLeashClaim, if_pos runs]

/-- A claim above the epoch in force, while no half holds the leash, is valid (R367). -/
theorem claim_valid {h : Bool} {e : Word} {s t : State} (ht : t = wr s (claimReg h) e) (free : t.mtx.held = false)
    (above : (epochNow t).toNat < e.toNat) :
    claim s h e = bset { t with mtx := { t.mtx with claims := t.mtx.claims ++ [(h, e)] } } Reg.mtxClaimRes 3 false := by
  subst ht
  rw [claim]
  dsimp only
  rw [if_pos (by rw [free, decide_eq_true above]; rfl)]

/-- Any other is refused (R367, R384). -/
theorem claim_refused {h : Bool} {e : Word} {s t : State} (ht : t = wr s (claimReg h) e)
    (refused : t.mtx.held = true ∨ e.toNat ≤ (epochNow t).toNat) :
    claim s h e = raise (bset (bset t Reg.mtxClaimRes 3 true) Reg.mtxClaimRes 4 h) 0x700 (w32 (3 + 256 * b2n h)) e := by
  subst ht
  rw [claim]
  dsimp only
  rw [if_neg]
  rcases refused with held | below
  · rw [held, Bool.not_true, Bool.false_and]
    exact Bool.false_ne_true
  · rw [decide_eq_false (Nat.not_lt.mpr below), Bool.and_false]
    exact Bool.false_ne_true

/-- Outside REPLAY one half's claim alone is granted, and the descriptors in flight are stopped for recovery (R27, R368, R369; log entry 32). -/
theorem exec_claimWindowEnd_one {w : Bool} {e : Nat} {s t : State} (decided : decideClaims s = some (w, e, 1, 0))
    (ht : t = grant (bset (fset s Reg.mtxClaimRes 1 0 1) Reg.mtxClaimRes 2 w) w e false) (running : replay t = false) :
    exec .claimWindowEnd s = .next (grantWaits (flushEvents
      { stopAll t false with mtx := { (stopAll t false).mtx with recover := true } })) := by
  subst ht
  have ends : claimWindowEnd s = flushEvents
      { stopAll (grant (bset (fset s Reg.mtxClaimRes 1 0 1) Reg.mtxClaimRes 2 w) w e false) false with
        mtx := { (stopAll (grant (bset (fset s Reg.mtxClaimRes 1 0 1) Reg.mtxClaimRes 2 w) w e false) false).mtx with
          recover := true } } := by
    rw [claimWindowEnd, decided]
    dsimp only
    rw [decide_eq_false (by decide), if_neg Bool.false_ne_true, running, if_neg Bool.false_ne_true]
  change execClaimWindowEnd s = _
  rw [execClaimWindowEnd, ends]

/-! ### Planned handover -/

theorem exec_plannedHandover_standby {v : Word} {s : State} (awake : hostDeaf s = false) (free : regLocked s = false)
    (running : replay s = false) (asked : bit v 3 = true) (held : s.mtx.held = true) (standby : halfState s (!holder s) = 2)
    (first : s.mtx.handover = false) :
    exec (.plannedHandover v) s = .next { s with mtx := { s.mtx with handover := true } } := by
  rw [exec_hostWrite_acts awake free running (c := .plannedHandover v) rfl, asked, if_neg (by decide), held, standby, first]
  rfl

/-- The holder releases the leash, and the standby claims with the next epoch (R371; log entry 35). -/
theorem exec_leashRelease_handover {s : State} (handover : s.mtx.handover = true) (held : s.mtx.held = true) :
    exec .leashRelease s =
      .next (claim { s with mtx := { s.mtx with held := false, vacant := 2 } } (!holder s) (epochNow s + 1)) := by
  change execLeashRelease s = _
  rw [execLeashRelease, handover, held, Bool.and_self, if_pos rfl]

/-! ### Boot -/

theorem exec_halfBootDone_boots {h : Bool} {c : BootCheck} {s : State} (boots : halfState s h = 1) :
    exec (.halfBootDone h c) s = .next (bootServed (halfBootDone s h c)) := by
  change execHalfBootDone h c s = _
  rw [execHalfBootDone, if_neg (not_not.mpr boots)]

/-- A half boots into the slot in force, or fails (R365, R427, R428). -/
theorem halfBootDone_inForce {h : Bool} {c : BootCheck} {s : State} (loaded : s.pwr.extFail = false) (chosen : s.pwr.inForce = true) :
    halfBootDone s h c = if slotPasses s c (fget s Reg.glbBoot 0 0) then
        halfStandby (reloaded s (bootSlot c (fget s Reg.glbBoot 0 0))) h
      else setHalf s h 4 := by
  rw [halfBootDone, loaded, if_neg Bool.false_ne_true, chosen, if_pos rfl]

/-- With no slot in force it chooses one (R427). -/
theorem halfBootDone_chooses {h fell : Bool} {i : Nat} {c : BootCheck} {s : State} (loaded : s.pwr.extFail = false)
    (none_chosen : s.pwr.inForce = false) (choice : bootChoice s c = some (i, fell)) :
    halfBootDone s h c = halfStandby (putInForce s i fell c) h := by
  rw [halfBootDone, loaded, if_neg Bool.false_ne_true, none_chosen, if_neg Bool.false_ne_true, choice]

/-- With both halves failed 1 s after power the fault is shown (R427; log entry 111). -/
theorem exec_bootFailTimeout_failed {s : State} (on : s.pwr.st ≠ 0) (a : halfState s false = 4) (b : halfState s true = 4) :
    exec .bootFailTimeout s = .next (setFault (elapse s (s.pwr.ctlAt + 500000000)) 2) := by
  change execBootFailTimeout s = _
  rw [execBootFailTimeout, if_pos ⟨on, a, b⟩, secondTicks]

end Sys2Proof.Machine
end

section
/-! SUPPORT. The leash and the halves, command by command (R365 to R371, R427). -/

open Sys2Proof Sys2Proof.Machine

/-- Settles O24: a clause for each command, from the lemma about it. That a row comes at its time (log entry 111), that LEASH_RELEASE makes the standby's claim
(35) and what a grant stops and recovers (32) are the model's choice. -/
theorem leashPassesBetweenTheHalves : Obligations.LeashPassesBetweenTheHalves := by
  unfold Obligations.LeashPassesBetweenTheHalves
  refine ⟨fun s active => exec_heartbeat_holder active, ?lapse, ?lost, ?claims,
    fun w e s t decided ht running => exec_claimWindowEnd_one decided ht running,
    fun v s awake free running asked held standby first => exec_plannedHandover_standby awake free running asked held standby first,
    fun s handover held => exec_leashRelease_handover handover held, ?inForce, ?chooses,
    fun s on a b => exec_bootFailTimeout_failed on a b⟩
  case lapse =>
    rintro b s _ held beat rfl
    exact exec_leashLapse_held held beat
  case lost =>
    rintro s _ free since rfl
    exact exec_controlLost_vacant free since
  case claims =>
    intro h e s t runs ht
    exact ⟨fun free above => by rw [exec_leashClaim_runs runs, claim_valid ht free above],
      fun refused => by rw [exec_leashClaim_runs runs, claim_refused ht refused]⟩
  case inForce =>
    rintro h _ c s boots loaded chosen rfl
    refine ⟨fun passes => ?_, fun fails => ?_⟩
    · rw [exec_halfBootDone_boots boots, halfBootDone_inForce loaded chosen, if_pos passes, halfStandby]
    · rw [exec_halfBootDone_boots boots, halfBootDone_inForce loaded chosen, fails, if_neg Bool.false_ne_true]
  case chooses =>
    rintro h fell i c s _ boots loaded none_chosen choice rfl
    rw [exec_halfBootDone_boots boots, halfBootDone_chooses loaded none_chosen choice, halfStandby]
end

section
/-! SUPPORT. What the control matrix does for its masters under the conditions of its rules (R372 to R382; log entries 9 and 113). -/

namespace Sys2Proof.Machine

/-! ### The turn of an access -/

/-- What happens before an access is taken: second cycles and waiting accesses have their turn (R373, R375, R379). -/
def turnComes (s : State) (a : Access) : State :=
  release (grantWaits (release s (fun w => w.acc.master == a.master))) (fun _ => true)

/-- An access as the matrix takes it in state `t` (R372, R373). -/
def asTaken (t : State) (a : Access) (lock : Bool) : MtxWait := { acc := a, lock := lock, tgt := targetOf t a.master a.addr.toNat }

theorem issue_eq (s : State) (a : Access) (lock : Bool) :
    issue s a lock = grantWaits (request (turnComes s a) (asTaken (turnComes s a) a lock)) := rfl

section
variable {t : State} {w : MtxWait} (on : matrixOn t w.acc = true)
include on

/-- An error is answered (R374). -/
theorem request_refused {k : Nat} (error : errorKind t w = some k) : request t w = refuseAccess t w k := by
  rw [request, on, error]
  rfl

/-- An access that its port can serve is served (R375). -/
theorem request_served (good : errorKind t w = none) (serves : canServe t w = true) : request t w = serve t w := by
  rw [request, on, good]
  exact if_pos serves

/-- One behind a lock waits; one on a stack that sleeps wakes it and waits (R376, R386; log entry 9). -/
theorem request_waits {u : State} (good : errorKind t w = none) (locked : canServe t w = false)
    (hu : u = { t with mtx := { t.mtx with waits := t.mtx.waits ++ [w] } }) :
    (sleepingStack u w.tgt.1 w.tgt.2 = none → request t w = u) ∧
      (∀ i, sleepingStack u w.tgt.1 w.tgt.2 = some i → request t w = needDomain u (18 + i)) := by
  subst hu
  rw [request, on, if_neg (by decide), good]
  dsimp only
  rw [locked, if_neg Bool.false_ne_true]
  exact ⟨fun awake => by rw [awake], fun i sleeps => by rw [sleeps]⟩

end

theorem exec_lockedRead_locker {m : Fin 7} {addr : BitVec 64} {n : Nat} {s : State} (locker : m.val = 0 ∨ m.val = 1 ∨ m.val = 6) :
    exec (.lockedRead m addr n) s = .next (issue s { master := m, addr := addr, size := n } true) := by
  have locks : [0, 1, 6].contains m.val = true := by simpa using locker
  change execLockedRead m addr n s = _
  rw [execLockedRead, if_pos locks]

/-! ### Locks and the debug session -/

/-- A lock that times out is released and counted, and its loss is announced (R377, R384). -/
theorem exec_lockTimeout_locked {t : Fin 8} {m : Nat} {s u : State} (lock : lockOf s t = some m)
    (hu : u = count (setLock s t 15) Reg.mtxLockToCnt 1) : exec (.lockTimeout t) s = .next (grantWaits (raise
      { u with mtx := { u.mtx with lost := setIns u.mtx.lost (m + 8 * t) } } 0x703 (w32 (0x21 + 256 * m + 4096 * t)) 0)) := by
  subst hu
  change execLockTimeout t s = _
  rw [execLockTimeout, lock]

theorem exec_debugSessionEnd_open {s : State} (session : s.mtx.dbg = true) : exec .debugSessionEnd s =
    .next (grantWaits (resetMaster { s with mtx := { s.mtx with dbg := false } } 6)) := by
  change execDebugSessionEnd s = _
  rw [execDebugSessionEnd, if_pos session]

/-- Behind another master's lock the supervisor's write of the mailbox waits (R376; log entries 9 and 113). -/
theorem exec_mailboxSupervisorWrite_waits {s : State} {w : MboxWrite} {m : Fin 7} (master : m = if holder s then 1 else 0)
    (locked : (lockOf s 5).getD m.val ≠ m.val) (on : s.pwr.st ≠ 0) : exec (.mailboxSupervisorWrite w) s =
      .next { s with mtx := { s.mtx with waits := s.mtx.waits ++
        [{ acc := { master := m, write := true }, tgt := (5, w.offset), mbox := some w }] } } := by
  subst master
  change execMailboxSupervisorWrite w s = _
  unfold execMailboxSupervisorWrite
  dsimp only
  rw [if_neg on, if_neg locked]

end Sys2Proof.Machine
end

section
/-! SUPPORT. The control matrix, command by command (R372 to R382). -/

open Sys2Proof Sys2Proof.Machine

/-- Settles O25: an access by `request`'s outcomes, the other commands by their lemmas. Which master the supervisor's write is (log entry 113) and that an access
waits in the matrix (9) are the model's choice. -/
theorem matrixServesItsMasters : Obligations.MatrixServesItsMasters := by
  unfold Obligations.MatrixServesItsMasters
  refine ⟨?access, ?lockedRead, fun t m s u lock hu => exec_lockTimeout_locked lock hu,
    fun s session => exec_debugSessionEnd_open session, ?supervisor, fun w p s on => exec_mailboxHostWrite w (some p) on⟩
  case access =>
    intro a w s t ht hw on
    have issued : exec (.matrixAccess a) s = .next (grantWaits (request t w)) := by
      rw [hw, ht]
      exact congrArg Host.Outcome.next (issue_eq s a false)
    have onPort : matrixOn t w.acc = true := by rw [hw]; exact on
    refine ⟨fun good serves => ?_, fun k error => ?_, fun u good locked hu => ?_⟩
    · rw [issued, request_served onPort good serves]
    · rw [issued, request_refused onPort error]
    · obtain ⟨awake, sleeps⟩ := request_waits onPort good locked hu
      exact ⟨fun none_sleeps => by rw [issued, awake none_sleeps], fun i stack => by rw [issued, sleeps i stack]⟩
  case lockedRead =>
    intro a m addr n w s t locker ha ht hw on good serves
    have issued : issue s a true = grantWaits (request t w) := by
      rw [hw, ht]
      exact issue_eq s a true
    have onPort : matrixOn t w.acc = true := by rw [hw]; exact on
    rw [exec_lockedRead_locker locker, ← ha, issued, request_served onPort good serves]
  case supervisor =>
    intro w m s on master
    refine ⟨fun free => ?_, fun locked => exec_mailboxSupervisorWrite_waits master locked on⟩
    rw [exec_mailboxSupervisorWrite w master free on, mboxSup]
end

section
/-! SUPPORT. What buffer memory and Beagle do under the conditions of their rules (R387 to R402; log entries 23, 25 and 27). -/

namespace Sys2Proof.Machine

/-! ### Regions -/

/-- A size that nothing refuses takes effect with RESIZE_DONE (R387). -/
theorem exec_hbmRegionWrite_taken {r : Fin 5} {v : Word} {s : State} (ready : hostReady s 18)
    (good : regionRefused s r (fld v 7 0) = false) :
    exec (.hbmRegionWrite r v) s = .next (bset (wr s (Reg.hbmRegion r) (v &&& 0xFF)) Reg.hbmStatus 12 true) := by
  change execHbmRegionWrite r v s = _
  rw [execHbmRegionWrite, domainWrite_acts _ _ _ _ _ ready, regionWrite, good, if_neg Bool.false_ne_true]

/-- The move of a resize, with sizes `q` for `p`: memory, bad beats and snapshots go with their regions (R387; log entry 23). -/
def resized (p q : List Nat) (u : State) : State :=
  { u with
    hbm := { u.hbm with
      placed := q, mem := movedMem p q u.hbm.mem, bad := movedBeats p q u.hbm.bad, again := movedBeats p q u.hbm.again
      peak := (List.range 2).map (fun r => min (u.hbm.peak.getD r 0) (regionSize q r * granule)) }
    pm := { u.pm with hist := u.pm.hist.filter (fun x => decide (x.off < regionSize q 3 * granule)) }
    gth := if regionSize q 2 = 0 then { u.gth with jrn := [] } else u.gth }

/-- A lease in the way ends before the move (R397). -/
theorem exec_resizeDone_resizing {s t : State} (waits : resizing s = true)
    (ht : t = if leaseInRegion s then restoreLease (revokeLease s 1 []) 1 else s) :
    exec .resizeDone s = .next (stackRefresh (resized t.hbm.placed ((List.range 5).map (fun r => fget t (Reg.hbmRegion r) 7 0))
      (bset t Reg.hbmStatus 12 false))) := by
  subst ht
  change execResizeDone s = _
  rw [execResizeDone, waits, if_neg (by decide)]
  rfl

/-! ### Checked reads -/

section
variable {a : BitVec 38} {u : HbmUser} {s v : State} (stack : stackOf a.toNat < 4)
  (hv : v = if lineUser u then hbmWritten s a.toNat 1 else s)
include stack hv

/-- A clean beat and one with a corrected bit (R389). -/
theorem exec_hbmReadCheck_readable {t : State} (up : domainUp s (18 + stackOf a.toNat) = true) (rail : v.hbm.rail4 = true)
    (good : v.hbm.bad.contains (a.toNat / 32) = false)
    (ht : t = { v with hbm := { v.hbm with again := setDel v.hbm.again (a.toNat / 32) } }) :
    exec (.hbmReadCheck a 0 u) s = .next t ∧ exec (.hbmReadCheck a 1 u) s = .next (correctedRead t a.toNat) := by
  have answers : ¬(4 ≤ stackOf a.toNat ∨ (s.hbm.rail4 ∧ !domainUp s (18 + stackOf a.toNat))) := by
    simp [up, stack]
  have readable (n : Nat) (few : n < 2) : ¬(2 ≤ n ∨ !v.hbm.rail4 ∨ v.hbm.bad.contains (a.toNat / 32)) := by
    rw [rail, good]
    simp [few]
  change execHbmReadCheck a 0 u s = _ ∧ execHbmReadCheck a 1 u s = _
  rw [execHbmReadCheck, execHbmReadCheck]
  dsimp only
  rw [← hv, if_neg answers, if_neg answers, if_neg (readable 0 (by decide)), if_neg (readable 1 (by decide)), ht]
  exact ⟨rfl, rfl⟩

/-- Two bits or more wrong, a beat known bad and a lost rail 4 read uncorrectable (R389, R390, R420). -/
theorem exec_hbmReadCheck_uncorrectable {n : Nat} (up : s.hbm.rail4 = true → domainUp s (18 + stackOf a.toNat) = true)
    (bad : 2 ≤ n ∨ v.hbm.rail4 = false ∨ v.hbm.bad.contains (a.toNat / 32) = true) :
    exec (.hbmReadCheck a n u) s = .next (uncorrRead v a.toNat u) := by
  have answers : ¬(4 ≤ stackOf a.toNat ∨ (s.hbm.rail4 ∧ !domainUp s (18 + stackOf a.toNat))) := by
    rintro (beyond | ⟨rail, down⟩)
    · omega
    · rw [up rail] at down
      cases down
  have wrong : 2 ≤ n ∨ !v.hbm.rail4 ∨ v.hbm.bad.contains (a.toNat / 32) := bad.imp_right (Or.imp_left fun lost => by simp [lost])
  change execHbmReadCheck a n u s = _
  rw [execHbmReadCheck]
  dsimp only
  rw [← hv, if_neg answers, if_pos wrong]

end

/-! ### Cullet -/

/-- The oldest row that waits takes a spare of its stack, with an alarm at 90 % of the stack's table and one when it is full (R393, R394). -/
theorem exec_rowRetire_waits {row i n : Nat} {rest : List Nat} {s t u v : State} (waits : s.hbm.due = row :: rest)
    (hi : i = row * 1024 / stackBytes) (hn : n = fget s (Reg.hbmCullet i) 16 0) (spare : n < 65536)
    (fresh : s.hbm.cullet.contains row = false)
    (ht : t = { s with hbm := { s.hbm with due := rest, cullet := setIns s.hbm.cullet row } })
    (hu : u = { fset t (Reg.hbmCullet i) 16 0 (n + 1) with
      hbm := { t.hbm with retired := Tab.put t.hbm.retired i (Tab.get t.hbm.retired i 0 + 1) } })
    (hv : v = if n + 1 = 58982 then raise u (0x780 + i) 3 (w32 (n + 1)) else u) :
    exec .rowRetire s = .next (if n + 1 = 65536 then raise v (0x780 + i) 4 65536 else v) := by
  subst hi hn
  have retires : ¬(65536 ≤ fget s (Reg.hbmCullet (row * 1024 / stackBytes)) 16 0 ∨ s.hbm.cullet.contains row = true) := by
    rintro (full | already)
    · omega
    · rw [fresh] at already
      cases already
  rw [hv, hu, ht]
  change execRowRetire s = _
  rw [execRowRetire, waits]
  dsimp only
  rw [if_neg retires]
  rfl

/-! ### Leases -/

section
variable {k : Fin 3} {s : State}

/-- A unit named by BGL_REQ goes first (R396). -/
theorem exec_beagleLeaseStart_named {r : Nat × Nat} {t : State} (idle : leaseOf s (k + 1) = none) (goes : s.bgl.paused = false)
    (active : s.pwr.st = 2) (named : s.bgl.reqs.find? (fun r => r.1 == k.val + 1) = some r)
    (ht : t = { s with bgl := { s.bgl with reqs := s.bgl.reqs.erase r } }) (good : unitOk t (k + 1) r.2 = true) :
    exec (.beagleLeaseStart k) s = .next (beginLease t (k + 1) r.2 true) := by
  change execBeagleLeaseStart k s = _
  rw [execBeagleLeaseStart]
  dsimp only
  rw [if_neg (by rw [idle, goes, active]; decide), named]
  dsimp only
  rw [← ht, if_pos good]

/-- With none named the sweep goes on (R396). -/
theorem exec_beagleLeaseStart_sweep (idle : leaseOf s (k + 1) = none) (goes : s.bgl.paused = false) (active : s.pwr.st = 2)
    (unnamed : s.bgl.reqs.find? (fun r => r.1 == k.val + 1) = none) (on : sweeps s (k + 1) = true) :
    exec (.beagleLeaseStart k) s = .next (sweepLease s (k + 1)) := by
  change execBeagleLeaseStart k s = _
  rw [execBeagleLeaseStart]
  dsimp only
  rw [idle, goes, active, if_neg (by decide), unnamed]
  dsimp only
  rw [if_pos on]

/-- A unit's test ends with its content back, and a failure is told (R395, R398, R404). -/
theorem exec_beagleUnitEnd_leased {bad : List Nat} {l : Lease} {t u : State} (lease : leaseOf s (k + 1) = some l)
    (runs : l.revoked = false) (ht : t = count (endLease s (k + 1) l) Reg.bglTested 1)
    (hu : u = if rowsIn (k + 1) l.unit bad = [] then t else unitFailed t (k + 1) l.unit (rowsIn (k + 1) l.unit bad)) :
    exec (.beagleUnitEnd k bad) s = .next (if l.named then u else sweepOn u (k + 1) l.unit) := by
  subst ht hu
  change execBeagleUnitEnd k bad s = _
  rw [execBeagleUnitEnd]
  dsimp only
  rw [lease]
  simp only [runs, Bool.false_eq_true, if_false, List.isEmpty_iff]

theorem exec_leaseRevoke_leased {bad : List Nat} {l : Lease} (lease : leaseOf s (k + 1) = some l) :
    exec (.leaseRevoke k bad) s = .next { s with bgl := { s.bgl with
      leases := Tab.put s.bgl.leases (k + 1) { l with revoked := true, bad := rowsIn (k + 1) l.unit bad } } } := by
  change execLeaseRevoke k bad s = _
  rw [execLeaseRevoke, revokeLease, lease]

/-- A revoked lease is restored, counted and released, and what failed by then is told after it (R397, R398; log entry 25). -/
theorem exec_leaseRestoreDone_revoked {l : Lease} {t u v : State} (lease : leaseOf s (k + 1) = some l) (revoked : l.revoked = true)
    (ht : t = count (endLease s (k + 1) l) Reg.bglRevoked 1) (hu : u = raiseOnce t 0x784 0x11 0 0x11 (rd t Reg.bglRevoked))
    (hv : v = if l.bad = [] then u else unitFailed u (k + 1) l.unit l.bad) :
    exec (.leaseRestoreDone k) s =
      .next (if l.named then v else { v with bgl := { v.bgl with pos := Tab.put v.bgl.pos (k.val + 1) (l.unit + 1) } }) := by
  subst ht hu hv
  change execLeaseRestoreDone k s = _
  rw [execLeaseRestoreDone, restoreLease, lease]
  simp only [revoked, Bool.not_true, Bool.false_eq_true, if_false, List.isEmpty_iff]

end

/-- A unit that may be leased is queued ahead of the sweep (R396, R404). -/
theorem exec_bglReqGo_queued {v : Word} {s : State} (ready : hostReady s 18) (go : bit v 31 = true) (kind : fld v 1 0 ≠ 0)
    (good : unitOk s (fld v 1 0) (fld v 18 2) = true) : exec (.bglReqGo v) s =
      .next { s with bgl := { s.bgl with reqs := s.bgl.reqs ++ [(fld v 1 0, fld v 18 2)] } } := by
  have taken : ¬(fld v 1 0 = 0 ∨ !unitOk s (fld v 1 0) (fld v 18 2)) := by simp [kind, good]
  change execBglReqGo v s = _
  rw [execBglReqGo, domainWrite_acts _ _ _ _ _ ready, bglReqWrite]
  dsimp only
  rw [go, if_neg (by decide), if_neg taken]

/-! ### SELFTEST -/

theorem exec_selftest_begins {d parts : Nat} {x : Desc} {s : State} (took : takeDesc s d 0x60 = some x)
    (hp : parts = fld (x.w 6) 7 0) (some_part : parts ≠ 0) (idle : s.bgl.test = none) :
    exec (.selftest d) s = .next (testFrom 8 (setDesc s d 2)
      { d := d, run := testParts s parts, status := if 2 ≤ mode s ∧ 16 ≤ parts then 5 else 0 } 0) := by
  subst hp
  change execSelftest d s = _
  rw [execSelftest, took]
  dsimp only
  rw [if_neg some_part, idle, Option.isSome_none, if_neg Bool.false_ne_true]

/-- Once the last part has run the SELFTEST completes with what failed (R400). -/
theorem exec_selftestDone_ends {failed : Byte} {rows banks l4 l5 : List Nat} {t : SelfTest} {s : State} (runs : s.bgl.test = some t)
    (ends : testEnds t = true) (h4 : l4 = if t.run.testBit 4 then rows else [])
    (h5 : l5 = if t.run.testBit 5 then banks.filter (fun b => decide (b < 64)) else []) :
    exec (.selftestDone failed rows banks) s =
      .next (complete (partFailures { s with bgl := { s.bgl with test := none } } l4 l5) t.d t.status (w32 t.run)
        (w32 ((failed.toNat % 2 + failed.toNat / 64 * 64 + t.failed % 16 + 16 * b2n (!l4.isEmpty) +
          32 * b2n (!l5.isEmpty)) &&& t.run))) := by
  subst h4 h5
  change execSelftestDone failed rows banks s = _
  rw [execSelftestDone, runs]
  dsimp only
  rw [ends, if_neg (by decide)]

/-! ### Captures -/

theorem exec_captureRecord_begins {d : Nat} {x : Desc} {c : Capture} {s : State} (took : takeDesc s d 0x59 = some x)
    (record : bit (x.w 6) 0 = false) (good : recordOk s x = true)
    (hc : c = { d := d, slot := x.w 7, left := (x.w 8).toNat, off := (x.w 9).toNat, bytes := (x.w 8).toNat * frameBytes s (x.w 7),
                size := frameBytes s (x.w 7) }) :
    exec (.captureRecord d) s = .next (setDesc { s with bgl := { s.bgl with cap := some c } } d 1) := by
  subst hc
  change execCaptureRecord d s = _
  rw [execCaptureRecord, took]
  dsimp only
  rw [record, if_neg Bool.false_ne_true, good, if_neg (by decide)]

theorem exec_captureRecordDone_last {c : Capture} {s : State} (runs : s.bgl.cap = some c) (started : c.started = true)
    (last : c.left = 0) : exec .captureRecordDone s =
      .next (completeOk { s with bgl := { s.bgl with cap := none } } c.d (w32 c.bytes) 0) := by
  change execCaptureRecordDone s = _
  rw [execCaptureRecordDone, runs]
  dsimp only
  rw [started, last, if_pos (by decide)]

/-- A leased block that the bytes reach is claimed before they are read (R397, R401). -/
def captureClaims (s : State) (r off len : Nat) : State := match leaseOf s 1 with
  | some l =>
    if (List.range (len / 2 ^ 21 + 2)).any (fun i =>
      regionAddr s.hbm.placed r (min (off + i * 2 ^ 21) (off + len - 1)) / 2 ^ 21 == l.unit) then
      claimAddr s (blockAddr l.unit) else s
  | none => s

/-- The bytes of a capture, an uncorrectable beat's as 0xFF (R390, R401). -/
def captureBytes (t : State) (r off len : Nat) (bad : List Nat) : List Byte :=
  (List.range len).map (fun i =>
    if bad.contains (regionAddr t.hbm.placed r (off + i) / 32) then 0xFF else hbmByte t (regionAddr t.hbm.placed r (off + i)))

theorem exec_captureRead_reads {d : Nat} {io : HostIO} {x : Desc} {s : State} (took : takeDesc s d 0x59 = some x)
    (read : bit (x.w 6) 0 = true) (master : s.rng.bme = true) (range : rangeBad s x = false) (region : fld (x.w 7) 2 0 ≤ 4)
    (inside : (x.w 8).toNat + 2 ^ 32 * (x.w 9).toNat + x.len ≤ regionSize s.hbm.placed (fld (x.w 7) 2 0) * granule) :
    let r := fld (x.w 7) 2 0
    let off := (x.w 8).toNat + 2 ^ 32 * (x.w 9).toNat
    let t := captureClaims s r off x.len
    let bad := badBeats t r off x.len
    exec (.captureRead d io) s = .next (copyOut (freeBytesNext (setDesc (readBad t bad) d 2)) io x 0 (captureBytes t r off x.len bad)
      (w32 x.len) (w32 bad.length)) := by
  have fits : ¬(4 < fld (x.w 7) 2 0 ∨ regionSize s.hbm.placed (fld (x.w 7) 2 0) * granule <
      (x.w 8).toNat + 2 ^ 32 * (x.w 9).toNat + x.len) := by omega
  intro r off t bad
  change execCaptureRead d io s = _
  rw [execCaptureRead, took]
  dsimp only
  rw [read, master, if_neg (by decide), range, if_neg Bool.false_ne_true, if_neg fits]
  rfl

end Sys2Proof.Machine
end

section
/-! SUPPORT. Buffer memory and Beagle, command by command (R387 to R402). -/

open Sys2Proof Sys2Proof.Machine

/-- Settles O26: a clause for each command, from the lemma about it. The snapshots that a resize drops (log entry 23), the count of a revoked lease at its
release (25) and the capture's end (27) are the model's choice. -/
theorem bufferMemoryAndBeagleAct : Obligations.BufferMemoryAndBeagleAct := by
  unfold Obligations.BufferMemoryAndBeagleAct
  refine ⟨fun r v s ready good => exec_hbmRegionWrite_taken ready good, ?resize,
    fun a u s t v stack up hv rail good ht => exec_hbmReadCheck_readable stack hv up rail good ht,
    fun a n u s v stack up hv bad => exec_hbmReadCheck_uncorrectable stack hv up bad,
    fun row i n rest s t u v waits hi hn spare fresh ht hu hv => exec_rowRetire_waits waits hi hn spare fresh ht hu hv, ?start,
    fun k bad l s t u lease runs ht hu => exec_beagleUnitEnd_leased lease runs ht hu,
    fun v s ready go kind good => exec_bglReqGo_queued ready go kind good, fun k bad l s lease => exec_leaseRevoke_leased lease,
    ?restore, fun d parts x s took hp some_part idle => exec_selftest_begins took hp some_part idle,
    fun failed rows banks l4 l5 t s runs ends h4 h5 => exec_selftestDone_ends runs ends h4 h5,
    fun d x c s took record good hc => exec_captureRecord_begins took record good hc,
    fun c s runs started last => exec_captureRecordDone_last runs started last, ?read⟩
  case resize =>
    rintro _ _ s t _ waits ht rfl rfl rfl
    exact exec_resizeDone_resizing waits ht
  case start =>
    intro k r s t idle goes active
    exact ⟨fun named ht good => exec_beagleLeaseStart_named idle goes active named ht good,
      fun unnamed on => exec_beagleLeaseStart_sweep idle goes active unnamed on⟩
  case restore =>
    intro k l s t u v lease revoked ht hu hv
    have done := exec_leaseRestoreDone_revoked lease revoked ht hu hv
    exact ⟨fun named => by rw [done, if_pos named], fun swept => by rw [done, swept, if_neg Bool.false_ne_true]⟩
  case read =>
    rintro d _ _ io x s t bad took read master range rfl rfl region inside ht rfl
    have ht : captureClaims s (fld (x.w 7) 2 0) ((x.w 8).toNat + 2 ^ 32 * (x.w 9).toNat) x.len = t := by rw [ht]; rfl
    have reads := exec_captureRead_reads (io := io) took read master range region inside
    dsimp only at reads
    rw [ht] at reads
    exact reads
end

section
/-! SUPPORT. What power states, rails and domains do under the conditions of their rules (R406 to R414, R420, R428; log entries 38, 42 and 111). -/

namespace Sys2Proof.Machine

/-! ### Power requests -/

/-- PWR_CTL takes the request's word, and the request waits (R411, R431). -/
def powerAsked (s : State) (v : Word) : State :=
  let t := bset (wr s Reg.pwrCtl (v &&& 0x33)) Reg.pwrStatus 2 true
  { t with rng := { t.rng with stopped := true } }

/-- In BRINGUP and TEST, with no request pending, another power state may be asked for (R411). -/
theorem pwrCtlWrite_asks {s : State} {v : Word} (asks : fld v 1 0 = 1 ∨ fld v 1 0 = 2) (low : mode s < 2)
    (noMode : modePending s = false) (noPower : pwrPending s = false) : pwrCtlWrite s v = powerAsked s v := by
  rw [pwrCtlWrite]
  dsimp only
  rw [if_neg (by omega), if_neg (by omega), if_neg (by simp [noMode, noPower, low])]
  rfl

/-- A pending request is withdrawn (R411). -/
theorem pwrCtlWrite_withdraws {s : State} {v : Word} (none_ : fld v 1 0 = 0) (waits : pwrPending s = true) :
    pwrCtlWrite s v = { bset (wr s Reg.pwrCtl (v &&& 0x33)) Reg.pwrStatus 2 false with
      rng := { (bset (wr s Reg.pwrCtl (v &&& 0x33)) Reg.pwrStatus 2 false).rng with stopped := false } } := by
  rw [pwrCtlWrite]
  dsimp only
  rw [if_neg (by omega), if_pos none_, if_pos waits]

section
variable {s : State} (awake : hostDeaf s = false) (free : regLocked s = false) (running : replay s = false)
include awake free running

theorem exec_pwrReqStandby_writes {v : Word} (asks : fld v 1 0 = 1) : exec (.pwrReqStandby v) s = .next (pwrCtlWrite s v) := by
  change execPwrReqStandby v s = _
  rw [execPwrReqStandby, if_pos asks, hostWrite_acts _ _ _ _ awake free running]

theorem exec_pwrReqDormant_writes {v : Word} (asks : fld v 1 0 = 2) : exec (.pwrReqDormant v) s = .next (pwrCtlWrite s v) := by
  change execPwrReqDormant v s = _
  rw [execPwrReqDormant, if_pos asks, hostWrite_acts _ _ _ _ awake free running]

theorem exec_pwrReqWithdraw_writes {v : Word} (none_ : fld v 1 0 = 0) (waits : pwrPending s = true) :
    exec (.pwrReqWithdraw v) s = .next (pwrCtlWrite s v) := by
  change execPwrReqWithdraw v s = _
  rw [execPwrReqWithdraw, if_pos ⟨none_, waits⟩, hostWrite_acts _ _ _ _ awake free running]

end

/-- With nothing in flight and the kennel empty the device enters the state asked for (R411). -/
theorem exec_powerStateChange_idle {s : State} (waits : pwrPending s = true) (descs : s.rng.descs = []) (kennel : s.xlat.knl = []) :
    exec .powerStateChange s = .next (if fget s Reg.pwrCtl 1 0 = 1 then toStandby s else toDormant s) := by
  change execPowerStateChange s = _
  rw [execPowerStateChange, waits, descs, kennel]
  rfl

/-! ### The board block -/

theorem exec_boardBlockLoaded_first {b : List Byte} {s : State} (awaited : boardAwaited s = true) (first : s.pwr.faultN = true) :
    exec (.boardBlockLoaded b) s = .next (takeBoard s b) := by
  change execBoardBlockLoaded b s = _
  rw [execBoardBlockLoaded, awaited, first, Bool.and_self, if_pos rfl]

theorem secondOver_eq (s : State) : secondOver s = elapse s (s.pwr.waitFrom + 500000000) := by rw [secondOver, secondTicks]

/-- After an invalid block it is read again, 1 s later (R407; log entry 111). -/
theorem exec_boardBlockRetry_again {b : List Byte} {s : State} (awaited : boardAwaited s = true) (again : s.pwr.faultN = false) :
    exec (.boardBlockRetry b) s = .next (takeBoard (elapse s (s.pwr.waitFrom + 500000000)) b) := by
  change execBoardBlockRetry b s = _
  rw [execBoardBlockRetry, awaited, again, secondOver_eq, if_pos (by decide)]

theorem takeBoard_valid {b : List Byte} (s : State) (good : boardOk b = true) :
    takeBoard s b = startBoot { s with pwr := { s.pwr with board := some b, faultN := true } } := if_pos good

theorem takeBoard_invalid {b : List Byte} (s : State) (bad : boardOk b = false) :
    takeBoard s b = { s with pwr := { s.pwr with faultN := false, waitFrom := s.tod.ticks } } :=
  if_neg (by rw [bad]; exact Bool.false_ne_true)

/-! ### Rails -/

/-- A rail of the boot sequence that is good raises the next one, and rail 3 reaches STANDBY (R408). -/
theorem exec_railGood_boots {n : Fin 6} {v : BitVec 13} {f : BitVec 16} {s u : State} (polled : s.pwr.rail = some n.val)
    (good : railIsGood s n v.toNat f.toNat = true)
    (hu : u = bset { showRail s n v.toNat f.toNat with pwr := { (showRail s n v.toNat f.toNat).pwr with rail := none } }
      (Reg.pwrRail n) 1 true)
    (kept : u.pwr.lostRails.contains n.val = false) (boot : u.pwr.target = 1) :
    exec (.railGood n v f) s = .next (if n.val < 3 then startRail u (n + 1) else reachStandby u) := by
  change execRailGood n v f s = _
  rw [execRailGood, if_neg (not_not.mpr polled)]
  dsimp only
  rw [← hu, good, if_neg (by decide), kept, if_neg Bool.false_ne_true, if_pos boot]

/-- What follows the failure of the rail that is polled, in the state that shows it (R408, R420). -/
def pollFailed (s : State) (n : Nat) (st : Word) : State :=
  let s := { s with pwr := { s.pwr with rail := none, waitFrom := s.tod.ticks } }
  if s.pwr.lostRails.contains n then railFault (railsOff s [n]) n st
  else
    let s := railsOff s (if s.pwr.target = 1 then [3, 2, 1, 0] else [n])
    let s := if s.pwr.st = 0 then { s with pwr := { s.pwr with railRep := s.pwr.railRep ++ [(n, st)] } }
      else railFault s n st
    let k := s.pwr.fails + 1
    if k < 3 then { s with pwr := { s.pwr with fails := k, retry := true } }
    else { s with pwr := { s.pwr with fails := k, retry := false, faultN := false,
                                      dormant := s.pwr.dormant || s.pwr.target == 1,
                                      booting := s.pwr.booting && s.pwr.target != 1 } }

theorem exec_railRampTimeout_polled {n : Fin 6} {v : BitVec 13} {f : BitVec 16} {s : State} (polled : s.pwr.rail = some n.val) :
    exec (.railRampTimeout n v f) s =
      .next (pollFailed (bset (showRail s n v.toNat f.toNat) (Reg.pwrRail n) 2 true) n (f.setWidth 32)) := by
  change execRailRampTimeout n v f s = _
  rw [execRailRampTimeout, if_neg (not_not.mpr polled)]
  rfl

/-- The first rail that fails in the boot sequence turns the sequence's rails off, and a retry follows (R408). -/
theorem pollFailed_first {n : Nat} {st : Word} {t u : State} (kept : t.pwr.lostRails.contains n = false) (boot : t.pwr.target = 1)
    (hu : u = railsOff { t with pwr := { t.pwr with rail := none, waitFrom := t.tod.ticks } } [3, 2, 1, 0])
    (down : u.pwr.st = 0) (first : u.pwr.fails = 0) :
    pollFailed t n st = { u with pwr := { u.pwr with railRep := u.pwr.railRep ++ [(n, st)], fails := 1, retry := true } } := by
  rw [pollFailed]
  dsimp only
  rw [kept, if_neg Bool.false_ne_true, if_pos boot, ← hu, if_pos down]
  dsimp only
  rw [first, if_pos (by decide)]

/-- A failed sequence begins again 1 s later (R408; log entry 111). -/
theorem exec_railRetry_sequence {s t : State} (idle : s.pwr.rail = none) (retry : s.pwr.retry = true) (ht : t = secondOver s) :
    exec .railRetry s = .next (startRail { t with pwr := { t.pwr with retry := false } } (firstRail t.pwr.target)) := by
  subst ht
  change execRailRetry s = _
  rw [execRailRetry, idle, Option.isSome_none, if_neg Bool.false_ne_true, if_pos retry]

/-- A rail lost in service is raised again 1 s later (R420; log entry 111). -/
theorem exec_railRetry_lost {n : Nat} {l : List Nat} {s : State} (idle : s.pwr.rail = none) (no_retry : s.pwr.retry = false)
    (lost : s.pwr.lostRails = n :: l) : exec .railRetry s = .next (startRail (elapse s (s.pwr.waitFrom + 500000000)) n) := by
  change execRailRetry s = _
  rw [execRailRetry, idle, Option.isSome_none, if_neg Bool.false_ne_true, no_retry, if_neg Bool.false_ne_true, lost, secondOver_eq]

/-- With rail 4 lost the stacks are down, and HBM reads are uncorrectable (R420). -/
theorem exec_railOutOfRange_four {f : BitVec 16} {s t : State} (good : railGood s 4 = true)
    (ht : t = railFault (bset (fset (bset s (Reg.pwrRail 4) 1 false) (Reg.pwrRail 4) 31 16 f.toNat) (Reg.pwrRail 4) 2 true) 4
      (f.setWidth 32)) :
    exec (.railOutOfRange 4 f) s = .next ((rangeFrom 18 4).foldl (fun s d => bset s Reg.pwrDomain d false)
      { t with pwr := { t.pwr with lostRails := setIns t.pwr.lostRails 4, waitFrom := t.tod.ticks },
               hbm := { t.hbm with rail4 := false } }) := by
  have four : railGood s (4 : Fin 6).val = true := good
  subst ht
  change execRailOutOfRange 4 f s = _
  rw [execRailOutOfRange, four, if_neg (by decide), if_neg (by decide), if_pos (by decide)]
  rfl

/-! ### Domains -/

/-- 1 s after its last enabled lane or port an idle domain powers down (R409; log entry 111). -/
theorem exec_domainGateTimeout_idle {d : Fin 17} {s t : State} (up : domainUp s d = true) (idle : domainIdle s d = true)
    (ht : t = elapse s (Tab.get s.pwr.idleFrom d 0 + secondTicks)) :
    exec (.domainGateTimeout d) s = .next (if d.val < 16 then gateGroup t d else gateTrib t) := by
  subst ht
  change execDomainGateTimeout d s = _
  rw [execDomainGateTimeout, up, idle, if_neg (by decide)]

/-- A domain that may wake is powered, starts what was enabled and takes the writes held for it (R19, R409, R410, R414). -/
theorem exec_domainWakeDone_ready {d : Fin 22} {s t : State} (ready : wakeReady s d = true)
    (ht : t = powerUp { s with pwr := { s.pwr with wakes := setDel s.pwr.wakes d } } d) :
    exec (.domainWakeDone d) s = .next (stackRefresh (grantWaits (doWorks (startLoad
      (if d.val < 16 then startGroup (idleMark t d) d else if d.val = 16 then startPorts (idleMark t d) else t))))) := by
  subst ht
  change execDomainWakeDone d s = _
  rw [execDomainWakeDone, wakeDone, ready, if_neg (by decide)]

/-! ### Waking and VDD_AON -/

theorem exec_wakePin_enabled {s : State} (dormant : s.pwr.dormant = true) (tries : s.pwr.fails < 3)
    (enabled : bget s Reg.pwrCtl 4 = true) : exec .wakePin s = .next (startBoot (fset s Reg.pwrStatus 5 4 1)) := by
  change execWakePin s = _
  rw [execWakePin, dormant, enabled, decide_eq_true tries, if_pos (by decide), wakeUp]

theorem exec_wakeTimerExpiry_enabled {s : State} (dormant : s.pwr.dormant = true) (tries : s.pwr.fails < 3)
    (enabled : bget s Reg.pwrCtl 5 = true) (timed : fget s Reg.pwrWakeTimer 15 0 ≠ 0) (passed : fget s Reg.pwrWakeTimer 15 0 ≤ s.pwr.secs) :
    exec .wakeTimerExpiry s = .next (startBoot (fset s Reg.pwrStatus 5 4 2)) := by
  change execWakeTimerExpiry s = _
  rw [execWakeTimerExpiry, if_pos (by simp [dormant, enabled, timed, passed, tries]), wakeUp]

theorem exec_vddAonDetector_rises {s : State} (low : s.pwr.aonOk = false) :
    exec (.vddAonDetector true) s = .next { s with pwr := { s.pwr with aonOk := true } } := by
  change execVddAonDetector true s = _
  rw [execVddAonDetector, low, if_neg (by decide), if_pos rfl]

theorem exec_vddAonDetector_falls {s : State} (good : s.pwr.aonOk = true) :
    exec (.vddAonDetector false) s = .next (coldState (railsOff s [5, 4, 3, 2, 1, 0]) s.pwr.rstLow false) := by
  change execVddAonDetector false s = _
  rw [execVddAonDetector, good, if_neg (by decide), if_neg (by decide)]

/-! ### The extension segment -/

section
variable {s : State} (loading : s.pwr.loading = true) (held : s.mtx.held = true)
include loading held

theorem exec_extensionLoadDone_good : exec (.extensionLoadDone true) s =
    .next (grantWaits (railDemand (bset { s with pwr := { s.pwr with loading := false } } Reg.pwrStatus 3 true))) := by
  change execExtensionLoadDone true s = _
  rw [execExtensionLoadDone, extensionLoadDone, loading, held, if_neg (by decide), if_pos rfl]

/-- Both halves, but one that has FAILED, boot from the other slot where its manifest is valid (R365, R428; log entry 42). -/
theorem exec_extensionLoadDone_other {t : State} (other : s.pwr.otherOk = true) (ht : t = { s with
      pwr := { s.pwr with extFail := true, inForce := false }
      mtx := { s.mtx with held := false, vacant := 0, handover := false, claims := [], beat := none } }) :
    exec (.extensionLoadDone false) s = .next (grantWaits ([false, true].foldl
      (fun s h => if halfState s h = 4 then s else halfReboot s h) t)) := by
  subst ht
  change execExtensionLoadDone false s = _
  rw [execExtensionLoadDone, extensionLoadDone, loading, held, if_neg (by decide), if_neg Bool.false_ne_true, if_pos other]

end

end Sys2Proof.Machine
end

section
/-! SUPPORT. Power states, rails and domains, command by command (R406 to R414, R420, R428). -/

open Sys2Proof Sys2Proof.Machine

/-- Settles O27: a clause for each command, from the lemma about it. That a row comes at its time (log entry 111), what the rails do beside (38) and what a failed
extension load does with both halves (42) are the model's choice. -/
theorem powerStatesAndRailsFollowTheirSequence : Obligations.PowerStatesAndRailsFollowTheirSequence := by
  unfold Obligations.PowerStatesAndRailsFollowTheirSequence
  refine ⟨?request, ?withdraw, ?change, ?board, ?good, ?ramp, ?retry,
    fun n l s idle no_retry lost => exec_railRetry_lost idle no_retry lost, ?lost, ?group, ?trib, ?wake, ?pins,
    fun s low => exec_vddAonDetector_rises low, fun s good => exec_vddAonDetector_falls good, ?extension⟩
  case request =>
    rintro v s _ awake free running low noMode noPower rfl
    refine ⟨fun asks => ?_, fun asks => ?_⟩
    · rw [exec_pwrReqStandby_writes awake free running asks, pwrCtlWrite_asks (.inl asks) low noMode noPower, powerAsked]
    · rw [exec_pwrReqDormant_writes awake free running asks, pwrCtlWrite_asks (.inr asks) low noMode noPower, powerAsked]
  case withdraw =>
    rintro v s _ awake free running waits none_ - rfl
    rw [exec_pwrReqWithdraw_writes awake free running none_ waits, pwrCtlWrite_withdraws none_ waits]
  case change =>
    intro s waits descs kennel
    have changes := exec_powerStateChange_idle waits descs kennel
    exact ⟨fun standby => by rw [changes, if_pos standby], fun dormant => by rw [changes, if_neg dormant]⟩
  case board =>
    intro b s awaited
    refine ⟨fun first good => ?_, fun first bad => ?_, fun t again good ht => ?_⟩
    · rw [exec_boardBlockLoaded_first awaited first, takeBoard_valid s good]
    · rw [exec_boardBlockLoaded_first awaited first, takeBoard_invalid s bad]
    · rw [exec_boardBlockRetry_again awaited again, ← ht, takeBoard_valid t good]
  case good =>
    rintro n v f s _ u polled good rfl hu kept boot
    have next := exec_railGood_boots polled good hu kept boot
    exact ⟨fun low => by rw [next, if_pos low], fun last => by rw [next, if_neg (by omega)]⟩
  case ramp =>
    intro n v f s t u polled ht kept boot hu _ down first
    rw [exec_railRampTimeout_polled polled, ← ht, pollFailed_first kept boot hu down first]
  case retry =>
    intro s t idle retry ht
    exact exec_railRetry_sequence idle retry (ht.trans (secondOver_eq s).symm)
  case lost =>
    rintro f s t _ good ht rfl
    exact exec_railOutOfRange_four good ht
  case group =>
    intro d s t up low empty ht
    rw [← secondTicks] at ht
    have idle : domainIdle s d = true := by rw [domainIdle, if_pos low, empty]; rfl
    rw [exec_domainGateTimeout_idle up idle ht, if_pos low]
  case trib =>
    intro s t up empty ht
    rw [← secondTicks] at ht
    exact exec_domainGateTimeout_idle (d := 16) up empty ht
  case wake =>
    intro d s t ready ht
    have wakes := exec_domainWakeDone_ready ready ht
    refine ⟨fun group => ?_, fun trib => ?_, fun other => ?_⟩
    · rw [wakes, if_pos group]
    · rw [wakes, if_neg (by omega), if_pos trib]
    · rw [wakes, if_neg (by omega), if_neg (by omega)]
  case pins =>
    intro s dormant tries
    exact ⟨fun enabled => exec_wakePin_enabled dormant tries enabled,
      fun enabled timed passed => exec_wakeTimerExpiry_enabled dormant tries enabled timed passed⟩
  case extension =>
    intro s t loading held
    refine ⟨?_, fun other ht => exec_extensionLoadDone_other loading held other ht⟩
    rintro rfl
    exact exec_extensionLoadDone_good loading held
end

section
/-! SUPPORT. What supplies, temperatures, clocks and the flash do under the conditions of their rules (R415 to R418, R430 to R433). -/

namespace Sys2Proof.Machine

/-! ### VDD_CORE -/

section
variable {s : State} (on : coreMv s ≠ 0)
include on

/-- What a reading does to the target while FIXED_MV is 0 and AVS is not held (R416, R417). -/
def avsStep (s : State) : AvsAsk → State
  | .less => fset s Reg.pwrAvs 9 0 (max 650 (coreMv s - 5))
  | .keep => s
  | .more => fset s Reg.pwrAvs 9 0 (min 850 (coreMv s + 5))

theorem exec_avsReading_steps (ask : AvsAsk) (free : fixedMv s = 0) (running : s.pwr.vdHold = false) :
    exec (.avsReading ask) s = .next (avsLimit (avsStep s ask) (ask == .more && coreMv s == 850)) := by
  change execAvsReading ask s = _
  rw [execAvsReading, if_neg (not_or.mpr ⟨on, not_not.mpr free⟩), running]
  cases ask <;> rfl

/-- A difference above 40 mV that persists holds AVS and, with no voltage fixed, raises VDD_CORE by 10 mV (R417). -/
theorem exec_vdiffCheck_persists {mv : Nat} {t : State} (large : 40 < mv) (long : 10 ≤ s.pwr.vdOver) (free : fixedMv s = 0)
    (ht : t = { s with pwr := { s.pwr with vdOver := 0, vdUnder := 0, vdHold := true } }) :
    exec (.vdiffCheck mv) s = .next (raise (fset t Reg.pwrAvs 9 0 (min 850 (coreMv t + 10))) 0x7C1 4 (w32 mv)) := by
  have freeT : fixedMv t = 0 := by rw [ht]; exact free
  change execVdiffCheck mv s = _
  rw [execVdiffCheck, if_neg on]
  dsimp only
  rw [if_pos large, if_neg (Nat.not_lt.mpr long), ← ht, if_pos freeT]

end

/-! ### Temperature -/

theorem map_getD_const (x : Int) :
    (List.range 16).map (fun _ => x) = (List.range 16).map (fun g => ((List.range 16).map (fun _ => x)).getD g 0) := rfl

theorem foldl_max_const (x : Int) : ((List.range 16).map (fun _ => x)).foldl max x = x := by simp [List.range, List.range.loop]

theorem foldl_min_const (x : Int) : ((List.range 16).map (fun _ => x)).foldl min x = x := by simp [List.range, List.range.loop]

/-- Of equal readings the lowest sensor's counts as the highest. -/
theorem hottest_const (x : Int) : hottest ((List.range 16).map (fun _ => x)) = 0 := by
  simp [hottest, List.range, List.range.loop]

theorem setTherm_same {s : State} {i : Nat} {b : Bool} (same : bget s Reg.pwrThermStatus i = b) : setTherm s i b = s := if_pos same

/-- WARN follows the highest reading `hi` (R418). -/
def warnFollows (s : State) (warn hi : Int) : State :=
  if warn ≤ hi then setTherm s 0 true else if hi < warn - 5 then setTherm s 0 false else s

/-- CRIT, and Beagle's pause, follow the highest reading `hi` (R418). -/
def critFollows (s : State) (hi : Int) : State :=
  if 110 ≤ hi then
    if s.pwr.critRun = 0 then { s with pwr := { s.pwr with critRun := 1 } }
    else setTherm { s with bgl := { s.bgl with paused := true } } 1 true
  else
    let s := { s with pwr := { s.pwr with critRun := 0 } }
    if hi < 105 then setTherm { s with bgl := { s.bgl with paused := false } } 1 false else s

/-- GRADIENT follows the difference `d` of the highest and the lowest reading (R418). -/
def gradFollows (s : State) (grad d : Int) : State :=
  let on := bget s Reg.pwrThermStatus 2
  let against := if on then decide (d ≤ grad - 2) else decide (grad < d)
  if !against then { s with pwr := { s.pwr with gradRun := 0 } }
  else if s.pwr.gradRun < 100 then { s with pwr := { s.pwr with gradRun := s.pwr.gradRun + 1 } }
  else setTherm { s with pwr := { s.pwr with gradRun := 0 } } 2 (!on)

theorem warnFollows_quiet {s : State} {warn hi : Int} (calm : hi < warn - 5) (off : bget s Reg.pwrThermStatus 0 = false) :
    warnFollows s warn hi = s := by
  rw [warnFollows, if_neg (by omega), if_pos calm, setTherm_same off]

theorem critFollows_quiet {s : State} {hi : Int} (cool : hi < 105) (off : bget s Reg.pwrThermStatus 1 = false) :
    critFollows s hi = { s with pwr := { s.pwr with critRun := 0 }, bgl := { s.bgl with paused := false } } := by
  rw [critFollows, if_neg (by omega), if_pos cool]
  exact setTherm_same off

theorem gradFollows_quiet {s : State} {grad d : Int} (even : d ≤ grad) (off : bget s Reg.pwrThermStatus 2 = false) :
    gradFollows s grad d = { s with pwr := { s.pwr with gradRun := 0 } } := by
  rw [gradFollows]
  dsimp only
  rw [off, if_neg Bool.false_ne_true, decide_eq_false (Int.not_lt.mpr even), if_pos (by decide)]

/-- The sixteen readings are shown, and WARN, CRIT and GRADIENT follow them (R418). -/
def tempsFollow (s : State) (t : List Int) (hi lo : Int) : State :=
  gradFollows (critFollows (warnFollows
    (fset (fset (showTemps s t) Reg.pwrThermStatus 7 4 (hottest t)) Reg.pwrThermStatus 15 8 (hi - lo).toNat)
    (fget s Reg.pwrThermLim 7 0) hi) hi) (fget s Reg.pwrThermLim 15 8) (hi - lo)

theorem exec_thermalSample_eq (temps : List Int) (s : State) : exec (.thermalSample temps) s =
    let t := (List.range 16).map (fun g => temps.getD g 0)
    let hi := t.foldl max (t.getD 0 0)
    .next (if inReset s then s else
      let u := tempsFollow s t hi (t.foldl min (t.getD 0 0))
      if 125 ≤ hi then trip u else u) := rfl

theorem exec_thermalSample_awake {temps t : List Int} {hi lo : Int} {s : State} (awake : inReset s = false)
    (ht : t = (List.range 16).map (fun g => temps.getD g 0)) (hhi : hi = t.foldl max (t.getD 0 0)) (hlo : lo = t.foldl min (t.getD 0 0))
    (safe : hi < 125) : exec (.thermalSample temps) s = .next (tempsFollow s t hi lo) := by
  rw [exec_thermalSample_eq]
  dsimp only
  rw [← ht, ← hhi, ← hlo, awake, if_neg Bool.false_ne_true, if_neg (Int.not_le.mpr safe)]

/-- A quiet reading: WARN, CRIT and GRADIENT stay 0 (R418). -/
theorem exec_thermalSample_quiet {x : Int} {s t : State} (awake : inReset s = false) (cool : x < 105)
    (calm : x < (fget s Reg.pwrThermLim 7 0 : Int) - 5)
    (ht : t = fset (fset (showTemps s ((List.range 16).map (fun _ => x))) Reg.pwrThermStatus 7 4 0) Reg.pwrThermStatus 15 8 0)
    (noWarn : bget t Reg.pwrThermStatus 0 = false) (noCrit : bget t Reg.pwrThermStatus 1 = false)
    (noGrad : bget t Reg.pwrThermStatus 2 = false) :
    exec (.thermalSample ((List.range 16).map (fun _ => x))) s = .next { t with
      pwr := { t.pwr with critRun := 0, gradRun := 0 }, bgl := { t.bgl with paused := false } } := by
  have flat : (x - x).toNat = 0 := by rw [sub_self]; rfl
  rw [exec_thermalSample_awake awake (map_getD_const x) (foldl_max_const x).symm (foldl_min_const x).symm (by omega),
    tempsFollow, flat, hottest_const, ← ht, warnFollows_quiet calm noWarn, critFollows_quiet cool noCrit,
    gradFollows_quiet (by omega) (by exact noGrad)]

/-! ### Clocks -/

/-- A PLL that was locked is shown unlocked, and one that was not is shown locked again, with its event (R415). -/
theorem exec_clockPllUnlock_changes {p st : Fin 4} {locked : Bool} {k : Nat} {s : State} (hk : k = if p.val < 3 then p.val else 3 + st.val)
    (changes : s.pwr.pllBad.contains k = locked) : exec (.clockPllUnlock p st locked) s =
      .next (raise { s with pwr := { s.pwr with pllBad := if locked then setDel s.pwr.pllBad k else setIns s.pwr.pllBad k } } 0x7C3
        (w32 (8 + 2 ^ 15 * b2n (!locked))) (w32 k)) := by
  have differs : ¬ (s.pwr.pllBad.contains k == !locked) = true := by rw [changes]; cases locked <;> decide
  subst hk
  change execClockPllUnlock p st locked s = _
  rw [execClockPllUnlock]
  dsimp only
  rw [if_neg differs]

/-! ### The flash -/

section
variable {s : State} (idle : flashBusy s = false) (closed : mode s < 2)
include idle closed

theorem flashCmd_reads {v : Word} {a : Nat} (ha : a = fget s Reg.glbFlashAddr 27 8 * 256) (reads : fld v 1 0 = 1) : flashCmd s v =
    bootServed (wr { s with pwr := { s.pwr with flash := some (1, a), flashHold := true } } Reg.glbFlashCmd 0x100) := by
  subst ha
  rw [flashCmd]
  dsimp only
  rw [idle, decide_eq_false (Nat.not_le.mpr closed), Bool.or_self, if_neg Bool.false_ne_true, reads]
  rfl

/-- A page outside the slot in force is programmed (R425, R430). -/
theorem flashCmd_programs {v : Word} {a : Nat} (ha : a = fget s Reg.glbFlashAddr 27 8 * 256) (programs : fld v 1 0 = 2)
    (open_ : flashGuarded s a 256 = false) : flashCmd s v =
    bootServed (wr { s with pwr := { s.pwr with flash := some (2, a), flashHold := true } } Reg.glbFlashCmd 0x100) := by
  subst ha
  rw [flashCmd]
  dsimp only
  rw [idle, decide_eq_false (Nat.not_le.mpr closed), Bool.or_self, if_neg Bool.false_ne_true, programs, if_neg (by decide),
    if_neg (show ¬ (2 : Nat) = 3 by decide), open_, if_neg (by decide)]

/-- A sector outside the slot in force is erased (R425, R430). -/
theorem flashCmd_erases {v : Word} {a : Nat} (ha : a = fget s Reg.glbFlashAddr 27 8 * 256) (erases : fld v 1 0 = 3)
    (open_ : flashGuarded s (a / 65536 * 65536) 65536 = false) : flashCmd s v =
    bootServed (wr { s with pwr := { s.pwr with flash := some (3, a / 65536 * 65536), flashHold := true } } Reg.glbFlashCmd 0x100) := by
  subst ha
  rw [flashCmd]
  dsimp only
  rw [idle, decide_eq_false (Nat.not_le.mpr closed), Bool.or_self, if_neg Bool.false_ne_true, erases, if_neg (by decide),
    if_pos rfl, open_, if_neg (by decide)]

end

section
variable {s : State} (awake : hostDeaf s = false) (free : regLocked s = false) (running : replay s = false)
include awake free running

theorem exec_flashRead_writes {v : Word} (reads : fld v 1 0 = 1) : exec (.flashRead v) s = .next (flashCmd s v) := by
  change execFlashRead v s = _
  rw [execFlashRead, if_pos reads, hostWrite_acts _ _ _ _ awake free running]

theorem exec_flashProgram_writes {v : Word} (programs : fld v 1 0 = 2) : exec (.flashProgram v) s = .next (flashCmd s v) := by
  change execFlashProgram v s = _
  rw [execFlashProgram, if_pos programs, hostWrite_acts _ _ _ _ awake free running]

theorem exec_flashErase_writes {v : Word} (erases : fld v 1 0 = 3) : exec (.flashErase v) s = .next (flashCmd s v) := by
  change execFlashErase v s = _
  rw [execFlashErase, if_pos erases, hostWrite_acts _ _ _ _ awake free running]

end

/-- With no half booting the command that waits is given to the flash (R430). -/
theorem bootServed_starts {s : State} (held : s.pwr.flashHold = true) (booted : halfBoots s = false) : bootServed s = flashStart s := by
  rw [bootServed, held, booted]
  rfl

theorem flashStart_of_some {s : State} {c a : Nat} (waits : s.pwr.flash = some (c, a)) :
    flashStart s = if c = 2 then wire { s with pwr := { s.pwr with flashHold := false } } "flash-program" a
        (flashBuf { s with pwr := { s.pwr with flashHold := false } })
      else if c = 3 then wire { s with pwr := { s.pwr with flashHold := false } } "flash-erase" a []
      else { s with pwr := { s.pwr with flashHold := false } } := by
  rw [flashStart, waits]

/-- A whole page is taken as it is. -/
theorem take_append_of_page {page : List Byte} (whole : page.length = 256) (l : List Byte) : (page ++ l).take 256 = page := by
  rw [← whole, List.take_left]

section
variable {page : List Byte} {a : Nat} {s : State} (whole : page.length = 256) (runs : s.pwr.flashHold = false)
include whole runs

/-- The page that was read stands in GLB_FLASH_BUF (R430). -/
theorem exec_flashCmdDone_read (read : s.pwr.flash = some (1, a)) : exec (.flashCmdDone page) s =
    .next ((List.range 64).foldl (fun s i => wr s (Reg.glbFlashBuf i) (bytesWord (page.drop (4 * i))))
      (wr { s with pwr := { s.pwr with flash := none } } Reg.glbFlashCmd 0)) := by
  change execFlashCmdDone page s = _
  rw [execFlashCmdDone, read]
  dsimp only
  rw [runs, if_neg Bool.false_ne_true, if_pos rfl, take_append_of_page whole, if_neg (by simp)]
  rfl

/-- After a program the page read back is compared with GLB_FLASH_BUF (R432). -/
theorem exec_flashCmdDone_program (programmed : s.pwr.flash = some (2, a)) : exec (.flashCmdDone page) s =
    .next (wr { s with pwr := { s.pwr with flash := none } } Reg.glbFlashCmd (if page = flashBuf s then 0 else 0x400)) := by
  change execFlashCmdDone page s = _
  rw [execFlashCmdDone, programmed]
  dsimp only
  rw [runs, if_neg Bool.false_ne_true, if_neg (by decide), take_append_of_page whole]
  by_cases same : page = flashBuf s
  · rw [if_neg (fun differs => differs.2 same), if_pos same]
    rfl
  · rw [if_pos ⟨rfl, same⟩, if_neg same]
    rfl

end

end Sys2Proof.Machine
end

section
/-! SUPPORT. Supplies, temperatures, clocks, the fuse and the flash, command by command (R415 to R418, R429 to R433). -/

open Sys2Proof Sys2Proof.Machine

/-- Settles O28: a clause for each command, from the lemma about it; the fuse's is SVN_COMMIT's of O44. -/
theorem suppliesClocksAndFlashFollowTheirRules : Obligations.SuppliesClocksAndFlashFollowTheirRules := by
  unfold Obligations.SuppliesClocksAndFlashFollowTheirRules
  refine ⟨?avs, fun mv s t on large long free ht => exec_vdiffCheck_persists on large long free ht,
    fun x s t awake cool calm ht noWarn noCrit noGrad => exec_thermalSample_quiet awake cool calm ht noWarn noCrit noGrad,
    fun p st locked k s hk changes => exec_clockPllUnlock_changes hk changes, ?fuse, ?flash, ?start, ?done⟩
  case avs =>
    intro s on free running
    have steps := fun ask => exec_avsReading_steps on ask free running
    exact ⟨steps .less, steps .keep, steps .more⟩
  case fuse =>
    rintro v _ s awake free running commit bringup rfl below
    exact exec_svnCommit_raises awake free running bringup commit below
  case flash =>
    intro v a s awake free running idle closed ha
    refine ⟨fun reads => ?_, fun programs open_ => ?_, fun erases open_ => ?_⟩
    · rw [exec_flashRead_writes awake free running reads, flashCmd_reads idle closed ha reads]
    · rw [exec_flashProgram_writes awake free running programs, flashCmd_programs idle closed ha programs open_]
    · rw [exec_flashErase_writes awake free running erases, flashCmd_erases idle closed ha erases open_]
  case start =>
    rintro a s _ held booted rfl
    refine ⟨fun programs => ?_, fun erases => ?_⟩
    · rw [bootServed_starts held booted, flashStart_of_some programs, if_pos rfl]
    · rw [bootServed_starts held booted, flashStart_of_some erases, if_neg (by decide), if_pos rfl]
  case done =>
    intro page a s t whole runs
    refine ⟨?_, fun programmed => exec_flashCmdDone_program whole runs programmed⟩
    rintro read rfl
    exact exec_flashCmdDone_read whole runs read
end
